-- ==== Sys2Proof/Word.lean ====
section
/-! DEFINITION. The word types of the block and their plainest arithmetic (R8: every multi-byte quantity is
little-endian; R9: registers are 32 bits wide). -/

namespace Sys2Proof

/-- One byte. -/
abbrev Byte := BitVec 8
/-- A 16-bit code, such as a status code (R19). -/
abbrev W16 := BitVec 16
/-- A register or an address register (R9, R92). -/
abbrev W32 := BitVec 32
/-- A 64-bit quantity (R9). -/
abbrev W64 := BitVec 64
/-- A run of bytes, lowest address first. -/
abbrev Bytes := List Byte

/-- Bits `[hi:lo]` of a word, as a number. -/
def bitsOf {n : Nat} (w : BitVec n) (hi lo : Nat) : Nat := (w.toNat >>> lo) % 2 ^ (hi + 1 - lo)

/-- Bit `k` of a word. -/
def bitOf {n : Nat} (w : BitVec n) (k : Nat) : Bool := w.toNat.testBit k

/-- `⌈a / b⌉`. -/
def ceilDiv (a b : Nat) : Nat := (a + b - 1) / b

/-- `a` rounded up to a multiple of `b`. -/
def roundUp (a b : Nat) : Nat := ceilDiv a b * b

/-- A sum that saturates at `top` (the counters of the register tables). -/
def satAdd (top a b : Nat) : Nat := min top (a + b)

end Sys2Proof
end

