-- ==== Sys2Proof/Syntax.lean ====
section
/-! DEFINITION. The commands of the block: one constructor of `Instr` for each row of spec/opcode_table.json, and the
records their operands are made of. A row whose occurrence is decided outside the block (a pin, a link, the host, an
engine reaching its next boundary) carries what the outside supplies as operands. -/

namespace Sys2Proof

/-- Names one placed Craene command: its virtual device, its stream and its placement number. -/
structure CmdRef where
  vd : Nat
  stream : Nat
  id : Nat
  deriving DecidableEq, Repr, Inhabited

/-- Names one vector engine: site, physical core and physical engine 0-12 (R91). -/
structure VeRef where
  site : Nat
  core : Nat
  eng : Nat
  deriving DecidableEq, Repr, Inhabited

/-- Names one scalar engine: site, physical core and engine 0-7 (R91). -/
structure SeRef where
  site : Nat
  core : Nat
  eng : Nat
  deriving DecidableEq, Repr, Inhabited

/-- How a host read or AtomicOp completion ends (R594). -/
inductive HostStatus where
  | success | unsupportedRequest | completerAbort | poisoned
  deriving DecidableEq, Repr, Inhabited

/-- The kinds of engine a command runs on (R135, R354, R523). -/
inductive EngineKind where
  | array | attention | select | gatherScatter | layout | codec | router | reduction | dma | scalar | fabric | frontEnd
  deriving DecidableEq, Repr, Inhabited

/-- What a budget window measured on a queue path (R416). -/
structure WindowMeasure where
  rtDone : Nat
  rtMet : Nat
  requested : Nat
  offered : Nat
  deriving DecidableEq, Repr, Inhabited

/-- A request at a memory port: tenant address, bytes, key slot, generation, object class, slice, label's budget set
and generation tag of the issuing domain (R228, R408, R517). -/
structure MemReq where
  addr : Nat
  len : Nat
  slot : Nat
  gen : Nat
  priv : Bool
  slice : Nat
  bset : Nat
  engine : Bool
  dom : Nat
  tag : Nat
  cmd : Option CmdRef
  deriving DecidableEq, Repr, Inhabited

/-- What the checks of R233 found on a read. -/
inductive ReadFinding where
  | clean | corrected | uncorrectable | tagFail | tagReread | treeFail
  deriving DecidableEq, Repr, Inhabited

/-- How one channel came out of training: not wired, clean, repaired with `n` lanes, or out of service (R241). -/
inductive ChannelOutcome where
  | unwired | clean | repaired (n : Nat) | failed
  deriving DecidableEq, Repr, Inhabited

/-- What training of a memory port found (R222, R237, R240, R241). -/
structure TrainReport where
  organisationOk : Bool
  readLatency : Nat
  channels : List ChannelOutcome
  repairedRows : List Nat
  deriving DecidableEq, Repr, Inhabited

/-- What a traffic-generator run found (R259, R260). -/
structure TgReport where
  errors : Nat
  addr : Nat
  lanes : W64
  metaLanes : W16
  deriving DecidableEq, Repr, Inhabited

/-- A fabric packet as it arrives: the 32-byte header (R279) with byte 0 lowest, NONCE_CTR, the payload, and whether
its ICV verifies under the fabric key of its slot (R287). -/
structure Pkt where
  hdr : BitVec 256
  nonce : W64
  payload : Bytes
  icvOk : Bool
  deriving DecidableEq, Repr, Inhabited

/-- Credits in 64-byte units: the four reserved classes and the shared pool (R276). -/
structure CreditGrant where
  tc0 : Nat
  tc1 : Nat
  tc2 : Nat
  tc3 : Nat
  pool : Nat
  deriving DecidableEq, Repr, Inhabited

/-- What one receive lane decoded at MAP (R272, R273): nothing, this port's own block, or a far-end block. -/
inductive LaneObs where
  | dead
  | own
  | far (switch : Bool) (part : Nat) (site : Nat) (port : Nat) (lane : Nat)
  deriving DecidableEq, Repr, Inhabited

/-- What a die-to-die port found as it trained (R37, R38, R306, R553). -/
structure D2dReport where
  peer : Nat
  peerLead : Bool
  modules : BitVec 4
  streaming : Bool
  selfWired : Bool
  deriving DecidableEq, Repr, Inhabited

/-- What an SPDM session established about a peer (R439). -/
structure PeerReport where
  part : Nat
  chainOk : Bool
  familyOk : Bool
  svn : Nat
  settled : Bool
  debug : Bool
  deriving DecidableEq, Repr, Inhabited

/-- A PCIe configuration request: read or write of a register the manual names (R382, R447, R548, R595). -/
inductive CfgReq where
  | read (reg : Nat)
  | atomicOpEnable (on : Bool)
  | atsEnable (on : Bool)
  | priEnable (on : Bool)
  | barOrMsix (value : W32)
  deriving DecidableEq, Repr, Inhabited

/-- The run of a management request: its TAG, the bytes a named buffer read returned, whether a buffer access failed,
and what an image, a boot or a peer check found (R484, R488, R439). -/
structure MgmtRun where
  tag : W16
  buf : Bytes
  pfFault : Bool
  sigOk : Bool
  svn : Nat
  bootOk : Bool
  peer : PeerReport
  found : List Nat
  deriving DecidableEq, Repr, Inhabited

/-- The copies of one configuration record as start-up read them (R529, R530). -/
structure RecordRead where
  valid : BitVec 3
  winner : Nat
  seqLow : W16
  conflict : Bool
  deriving DecidableEq, Repr, Inhabited

/-- Everything that varies from site to site at start-up: straps, flash and BIST (R546, R582). -/
structure BootInput where
  id : Nat
  lead : Bool
  gradeCap : Nat
  clamp : BitVec 4
  blkId : W32
  pufOk : Bool
  loopsOk : Bool
  bankPtr : Nat
  bankAOk : Bool
  bankBOk : Bool
  svnA : Nat
  svnB : Nat
  minSvn : Nat
  certGrade : Nat
  records : List RecordRead
  bistGood : BitVec 6
  mapBad : BitVec 6
  veFailed : List (Nat × Nat)
  spareRows : List (Nat × Nat × Nat)
  cellsLeft : Nat
  retired : List (Nat × Nat)
  deriving DecidableEq, Repr, Inhabited

/-- The units whose power the manager commands (R577). -/
inductive PowerUnit where
  | core | memPort | link
  deriving DecidableEq, Repr, Inhabited

/-- TAP instructions as R465 groups them. -/
inductive JtagInstr where
  | bypass | idcode | samplePreload | extest | other1149 | wrapper1500
  deriving DecidableEq, Repr, Inhabited

/-- The spaces a register access can name: PF BAR0, or VF BAR0 or BAR2 of a virtual device (R15, R326). -/
inductive RegSpace where
  | pf
  | vf0 (vd : Nat)
  | vf2 (vd : Nat)
  deriving DecidableEq, Repr, Inhabited

/-- One register access: the agent of R493 it comes from, its space and its byte offset there. -/
structure RegAddr where
  agent : Byte
  space : RegSpace
  off : Nat
  deriving DecidableEq, Repr, Inhabited

/-- The commands of the block. -/
inductive Instr where
  /-- NOP (R343): Craene no-operation command that carries only a fence extension. -/
  | nop (c : CmdRef)
  /-- STREAM_CREATE (R337): Binds a free stream to a slice unit with a vector, owner and generator seed. -/
  | streamCreate (c : CmdRef)
  /-- STREAM_DESTROY (R378): Takes a stream to DRAINING and replies as the teardown mode decides. -/
  | streamDestroy (c : CmdRef)
  /-- STREAM_ABORT (R348): Aborts the matching placed commands of a stream and reports aborted and late counts. -/
  | streamAbort (c : CmdRef)
  /-- SLICE_INFO (R338): Writes the slice unit table to a guest DVA. -/
  | sliceInfo (c : CmdRef)
  /-- NOEL_RING_SET (R337): Sets up or disables a Noelaver process ring. -/
  | noelRingSet (c : CmdRef)
  /-- ASPACE_CREATE (R371): Creates an address space 1 to 63. -/
  | aspaceCreate (c : CmdRef)
  /-- ASPACE_DESTROY (R374): Withdraws every mapping of an address space and removes it. -/
  | aspaceDestroy (c : CmdRef)
  /-- OBJ_CREATE (R371): Creates a private, shared-plain, host or remote memory object and returns its handle. -/
  | objCreate (c : CmdRef)
  /-- OBJ_FREE (R378): Puts an object in FREEING and releases it as the teardown mode decides. -/
  | objFree (c : CmdRef)
  /-- MAP (R372): Maps a DVA range onto object pages with given page size and rights. -/
  | map (c : CmdRef)
  /-- UNMAP (R385): Withdraws the mappings of a DVA range under the invalidation rule. -/
  | unmap (c : CmdRef)
  /-- FAULT_RESOLVE (R384): Retries or fails every command held at an open fault entry. -/
  | faultResolve (c : CmdRef)
  /-- TENSOR_TILE (R73): Runs a weight- or output-stationary tile on the array with optional epilogue. -/
  | tensorTile (c : CmdRef)
  /-- ATTENTION (R147): Computes paged attention with online softmax on the array. -/
  | attention (c : CmdRef)
  /-- SCALAR_RUN (R122): Starts scalar engines at an entry address with launch rights on vector engines. -/
  | scalarRun (c : CmdRef)
  /-- SELECT (R157): Runs top-k, sort or sampling on the select engine. -/
  | select (c : CmdRef)
  /-- GATHER_SCATTER (R162): Gathers, scatters or combines rows by index. -/
  | gatherScatter (c : CmdRef)
  /-- LAYOUT (R166): Permutes, slices, pads and converts a tensor of up to six dimensions. -/
  | layout (c : CmdRef)
  /-- CODEC (R168): Packs or unpacks Bale frames, or quantises and dequantises block-scaled data. -/
  | codec (c : CmdRef)
  /-- ROUTE (R153): Turns expert logits into a dispatch table and combine list under capacity. -/
  | route (c : CmdRef)
  /-- REDUCE (R174): Combines N in-memory operand arrays into one result. -/
  | reduce (c : CmdRef)
  /-- REDUCE_ARM (R175): Arms a landing window to combine fabric contributions. -/
  | reduceArm (c : CmdRef)
  /-- DMA_COPY (R178): Copies rows between engine addresses on a copy engine. -/
  | dmaCopy (c : CmdRef)
  /-- DMA_FILL (R177): Fills rows with an 8-byte pattern. -/
  | dmaFill (c : CmdRef)
  /-- FAB_ATOMIC (R296): Performs an atomic operation on a DVA, local or remote. -/
  | fabAtomic (c : CmdRef)
  /-- LOFT_ACQUIRE (R300): Invalidates clean loft sub-pages of a range and opens an epoch. -/
  | loftAcquire (c : CmdRef)
  /-- LOFT_RELEASE (R300): Writes back dirty loft granules of a range and closes the epoch. -/
  | loftRelease (c : CmdRef)
  /-- MCAST_GROUP_SET (R302): Fills a multicast group with target DVAs. -/
  | mcastGroupSet (c : CmdRef)
  /-- MCAST_WRITE (R303): Copies a source to every target of a multicast group. -/
  | mcastWrite (c : CmdRef)
  /-- COLLECTIVE (R304): Sends contributions to a landing window or runs an all-to-all dispatch or return. -/
  | collective (c : CmdRef)
  /-- FE_DOORBELL (R331): Guest write of a new submission tail, accepted or refused with BAD_DB. -/
  | feDoorbell (vd : Nat) (tail : BitVec 12)
  /-- SUBMISSION_READ (R331): Front end reads up to 64 posted slots after an accepted doorbell. -/
  | submissionRead (vd : Nat) (ring : Nat) (slots : List Bytes)
  /-- FETCH_LOST (R334): A failed submission read stops placement and posts FETCH_LOST. -/
  | fetchLost (vd : Nat) (ring : Nat) (status : BitVec 16)
  /-- DESCRIPTOR_PLACE (R333): Header-checks the descriptor at the head and places it in its stream queue once room and a completion entry exist. -/
  | descriptorPlace (vd : Nat) (ring : Nat)
  /-- FE_NOEL_DB (R356): Process writes a new tail of its Noelaver process ring. -/
  | feNoelDb (vd : Nat) (ring : Nat) (tail : BitVec 12)
  /-- COMMAND_READY (R397): A command becomes ready and is passed to its sequencer, copy engine or transport. -/
  | commandReady (c : CmdRef)
  /-- COMMAND_ISSUE (R398): An engine becomes free and the sequencer issues the highest-ranked ready command. -/
  | commandIssue (c : CmdRef)
  /-- COMMAND_END (R141): A command reaches its final result write or other end on its engine. -/
  | commandEnd (c : CmdRef)
  /-- COMMAND_TIMEOUT (R347): The per-command timeout expires, the engines drain and the command ends TIMEOUT. -/
  | commandTimeout (c : CmdRef)
  /-- FENCE_SIGNAL (R342): Raises a command's fence signal after its final result write is acknowledged. -/
  | fenceSignal (c : CmdRef)
  /-- FENCE_REEVALUATE (R389): A waited fence is read again after a signal or the periodic interval. -/
  | fenceReevaluate (c : CmdRef)
  /-- COMPLETION_RECORD_WRITE (R346): Writes a completion record in placement order once its predecessors and signal allow. -/
  | completionRecordWrite (c : CmdRef)
  /-- MSIX_COALESCE_EXPIRY (R355): TIME_US passes since the first unsent accumulation and the vector sends. -/
  | msixCoalesceExpiry (vd : Nat) (vec : Nat)
  /-- MSIX_UNMASK (R355): Unmasking a vector sends its pending message. -/
  | msixUnmask (vd : Nat) (vec : Nat)
  /-- STREAM_FREED (R337): A draining stream's hardware queue is freed and the stream returns to FREE. -/
  | streamFreed (vd : Nat) (st : Nat)
  /-- FE_CQ_HEAD (R330): Guest releases consumed completion-ring entries. -/
  | feCqHead (vd : Nat) (head : W32)
  /-- FE_EQ_HEAD (R352): Guest releases event-ring entries and pending events are written. -/
  | feEqHead (vd : Nat) (head : W32)
  /-- FE_FQ_HEAD (R330): Guest releases fault-ring entries. -/
  | feFqHead (vd : Nat) (head : W32)
  /-- FE_NOEL_CQ_HEAD (R364): Process releases entries of its process completion ring. -/
  | feNoelCqHead (vd : Nat) (ring : Nat) (head : W32)
  /-- RING_ENABLE (R329): Setting FE_SQ_CTRL.ENABLE checks and starts the four rings. -/
  | ringEnable (vd : Nat)
  /-- RING_DISABLE (R329): Clearing FE_SQ_CTRL.ENABLE stops the rings when only stream 0 is idle and active. -/
  | ringDisable (vd : Nat)
  /-- FE_STREAM_RESUME (R351): Resumes a stream, writes held records and retries pending writes. -/
  | feStreamResume (vd : Nat) (value : W32)
  /-- DVA_FAULT (R383): A DVA access without a valid leaf or rights holds its engine and opens or joins a fault entry. -/
  | dvaFault (c : CmdRef) (dva : Nat) (access : BitVec 3) (engine : Nat)
  /-- FAULT_BATCH_WRITE (R383): Unwritten fault entries are written as a batch at 64 or after 50 µs. -/
  | faultBatchWrite (vd : Nat)
  /-- FAULT_RING_FULL_EXPIRY (R354): The fault ring stays full for 50 µs and the batch fails. -/
  | faultRingFullExpiry (vd : Nat)
  /-- FAULT_ENTRY_EXPIRY (R384): A fault entry open 1 s after its record is failed. -/
  | faultEntryExpiry (vd : Nat) (fid : Nat)
  /-- INVALIDATION_ACK (R385): No transfer of an earlier epoch remains and the invalidation acknowledges. -/
  | invalidationAck (vd : Nat) (k : Nat)
  /-- INVALIDATION_DRAIN (R386): An invalidation waits over 100 µs and the engines holding old transfers are drained. -/
  | invalidationDrain (vd : Nat) (k : Nat)
  /-- ATS_INVALIDATION (R382): Host ATS invalidation request is completed under the invalidation rule. -/
  | atsInvalidation (vd : Nat) (bus : Nat) (len : Nat)
  /-- PAGE_REQUEST_RESPONSE (R382): A PRI response retries the held access or becomes a fault. -/
  | pageRequestResponse (c : CmdRef) (ok : Bool)
  /-- HOST_COMPLETION (R594): A host read or AtomicOp completion returns, possibly with an error or poison. -/
  | hostCompletion (c : CmdRef) (st : HostStatus) (bus : Nat) (data : Bytes)
  /-- RELEASE (R370): An object's count reaches zero or its free completes and the object is released. -/
  | release (vd : Nat) (obj : Nat)
  /-- TILE_BOUNDARY (R85): The array reaches a tile boundary where a pending pre-emption or mode change takes effect. -/
  | tileBoundary (i : Nat) (core : Nat) (q : Nat)
  /-- QUANTUM_EXPIRY (R400): The resident slice's Reel quantum ends and the group switches or renews. -/
  | quantumExpiry (i : Nat) (core : Nat) (q : Nat)
  /-- REEL_IDLE_YIELD (R400): A resident slice idle for 50 µs yields to a ready slice. -/
  | reelIdleYield (i : Nat) (core : Nat) (q : Nat)
  /-- SWITCH_WINDOW (R403): The switch window ends and the incoming slice's state is restored. -/
  | switchWindow (i : Nat) (core : Nat) (q : Nat)
  /-- ZEROING_DONE (R192): Bank zeroing ends and the new slice may read the banks. -/
  | zeroingDone (i : Nat) (core : Nat) (q : Nat)
  /-- BUDGET_WINDOW_END (R413): A budget window ends and the next begins. -/
  | budgetWindowEnd (i : Nat) (slice : Nat) (bset : Nat) (path : Nat) (m : WindowMeasure)
  /-- MEMORY_READ (R233): A memory port serves a read with check symbols, tag and counter-tree checks. -/
  | memoryRead (i : Nat) (r : MemReq) (f : ReadFinding)
  /-- MEMORY_WRITE (R230): A memory port accepts a write, raising the sub-page version and rewriting its tags. -/
  | memoryWrite (i : Nat) (r : MemReq) (data : Bytes)
  /-- REFRESH (R239): The port issues per-bank refresh at its paced interval. -/
  | refresh (i : Nat) (ch : Nat)
  /-- PHY_MASTER_REQUEST (R238): A DFI PHY-master request is granted after open banks close. -/
  | phyMasterRequest (i : Nat) (ch : Nat)
  /-- MEMORY_PORT_TRAINING (R240): A memory port trains through its nine steps. -/
  | memoryPortTraining (i : Nat) (port : Nat) (t : TrainReport)
  /-- PHY_READY_TIMEOUT (R237): The PHY does not become ready within 10 ms and the port leaves service. -/
  | phyReadyTimeout (i : Nat) (port : Nat)
  /-- SWEEP (R242): The tedder sweeps the tier map at each epoch and queues moves. -/
  | sweep (i : Nat)
  /-- CLAIM (R244): A free move channel claims a queued page move and draws its destination. -/
  | claim (i : Nat) (ch : Nat)
  /-- COPY (R244): The copy of a moving page's sub-pages ends. -/
  | copy (i : Nat) (ch : Nat) (ok : Bool)
  /-- RE_COPY (R244): A re-copy round of dirty sub-pages ends and the move holds, repeats or abandons. -/
  | reCopy (i : Nat) (ch : Nat) (ok : Bool)
  /-- SWITCH (R244): The held page switches to its destination and held writes are released. -/
  | switch (i : Nat) (ch : Nat)
  /-- TG_PATTERN_DONE (R252): The traffic generator finishes its pattern passes on a test channel. -/
  | tgPatternDone (i : Nat) (ch : Nat) (r : TgReport)
  /-- READ_REQ (R294): An arriving read request is checked and served at the target. -/
  | readReq (i : Nat) (p : Pkt)
  /-- READ_RSP (R288): An arriving read response is matched to its transaction entry. -/
  | readRsp (i : Nat) (p : Pkt)
  /-- WRITE (R294): An arriving write request is checked and written at the target. -/
  | write (i : Nat) (p : Pkt)
  /-- WRITE_ACK (R288): An arriving write acknowledgement closes its transaction entry. -/
  | writeAck (i : Nat) (p : Pkt)
  /-- ATOMIC (R295): An arriving atomic request updates its words at the target. -/
  | atomic (i : Nat) (p : Pkt)
  /-- ATOMIC_RSP (R288): An arriving atomic response closes its entry. -/
  | atomicRsp (i : Nat) (p : Pkt)
  /-- FENCE_SIG (R294): An arriving fence signal raises the fence word by atomic max. -/
  | fenceSig (i : Nat) (p : Pkt)
  /-- FENCE_ACK (R387): An arriving fence acknowledgement closes its entry and reports any regression. -/
  | fenceAck (i : Nat) (p : Pkt)
  /-- CONTRIB (R304): An arriving contribution is combined into an armed landing window. -/
  | contrib (i : Nat) (p : Pkt)
  /-- CONTRIB_ACK (R288): An arriving contribution acknowledgement closes its entry. -/
  | contribAck (i : Nat) (p : Pkt)
  /-- CONTROL (R308): An arriving forwarded work item runs as a local command, or delivers an event to the home. -/
  | control (i : Nat) (p : Pkt)
  /-- CONTROL_ACK (R308): An arriving forwarded completion is written by the home front end. -/
  | controlAck (i : Nat) (p : Pkt)
  /-- LINK_FRAME (R275): A received link frame is checked for CRC and sequence. -/
  | linkFrame (i : Nat) (l : Nat) (seq : Nat) (crcOk : Bool) (units : Nat)
  /-- ACKNOWLEDGEMENT (R275): A link acknowledgement frees replay buffer space. -/
  | acknowledgement (i : Nat) (l : Nat) (seq : Nat)
  /-- NEGATIVE_ACKNOWLEDGEMENT (R275): A negative acknowledgement makes the sender resend from the named frame. -/
  | negativeAcknowledgement (i : Nat) (l : Nat) (seq : Nat)
  /-- CREDIT_RETURN (R276): A credit return frame restores the sender's credits. -/
  | creditReturn (i : Nat) (l : Nat) (cr : CreditGrant)
  /-- DETECT (R272): Link DETECT completes with signal on the receivers. -/
  | detect (i : Nat) (l : Nat) (signal : BitVec 5)
  /-- LINK_MAP (R273): Link MAP classifies lanes and sets the trained width. -/
  | linkMap (i : Nat) (l : Nat) (lanes : List LaneObs)
  /-- EQUALISE (R272): SerDes adaptation on the chosen lanes completes. -/
  | equalise (i : Nat) (l : Nat) (signal : BitVec 5)
  /-- ALIGN (R272): FEC codewords lock and lanes deskew. -/
  | align (i : Nat) (l : Nat) (ok : Bool)
  /-- CREDIT (R272): Credit grants and sequence numbers are exchanged and the link becomes ACTIVE. -/
  | credit (i : Nat) (l : Nat) (cr : CreditGrant) (rtt : Nat)
  /-- LANE_LOSS (R272): An active link loses a lane and enters RETRAIN. -/
  | laneLoss (i : Nat) (l : Nat) (lane : Nat)
  /-- LINK_RETRY (R272): A FAILED link retries from DETECT every second. -/
  | linkRetry (i : Nat) (l : Nat)
  /-- TRANSPORT_TIMEOUT (R283): A request gets no response within T_e and its entry closes. -/
  | transportTimeout (i : Nat) (txn : Nat)
  /-- FORWARD_TIMEOUT (R309): A forwarded command's timeout plus T_e expires and the home writes FABRIC_TIMEOUT. -/
  | forwardTimeout (i : Nat) (tag : Nat)
  /-- HOLD_TIME_EXPIRY (R303): A multicast branch unable to send for the hold time fails. -/
  | holdTimeExpiry (c : CmdRef) (branch : Nat)
  /-- FAB_RT (R293): Write of a routing entry's high word installs the new entry. -/
  | fabRt (i : Nat) (d : Nat) (hi : W32)
  /-- FAB_QUIESCE_REQ (R312): Firmware requests fabric quiescence for a key slot. -/
  | fabQuiesceReq (i : Nat) (slot : Nat)
  /-- FAB_QUIESCE_DONE (R312): No open entry remains and T_e has passed, so DONE sets. -/
  | fabQuiesceDone (i : Nat)
  /-- DMA_QUIESCE_REQ (R179): Firmware requests copy-engine quiescence for a key slot. -/
  | dmaQuiesceReq (i : Nat) (slot : Nat)
  /-- QUIESCE_CLEAR (R184): Clearing REQ clears DONE. -/
  | quiesceClear (i : Nat) (fab : Bool)
  /-- D2D_TRAINING (R306): A die-to-die port trains and exchanges instance id and lead strap. -/
  | d2dTraining (i : Nat) (j : Nat) (r : D2dReport)
  /-- D2D_PORT_DOWN (R306): A die-to-die port loses its last module or its peer and goes down. -/
  | d2dPortDown (i : Nat) (j : Nat)
  /-- KEY_CREATE (R435): Key store creates a slot secret from the DRBG. -/
  | keyCreate (i : Nat) (slot : Nat) (slice : Nat)
  /-- KEY_INSTALL (R438): Key store installs a wrapped slot secret. -/
  | keyInstall (i : Nat) (slot : Nat) (slice : Nat) (gen : BitVec 6) (secret : BitVec 256)
  /-- KEY_WRAP (R438): Key store wraps a secret for an accepted peer. -/
  | keyWrap (i : Nat) (slot : Nat) (peer : PeerReport)
  /-- KEY_DRAIN (R436): Key store sets a slot DRAINING. -/
  | keyDrain (i : Nat) (slot : Nat)
  /-- KEY_DESTROY (R436): Key store erases a slot and advances its generation. -/
  | keyDestroy (i : Nat) (slot : Nat)
  /-- REMOVAL_STEP (R460): A tenant removal advances once the previous step has ended on every holder. -/
  | removalStep (slice : Nat)
  /-- GET_MEASUREMENTS (R451): SPDM request returning signed measurement blocks. -/
  | getMeasurements (index : Nat)
  /-- SLICE_REPORT (R454): Vendor SPDM request returning a signed slice report. -/
  | sliceReport (vd : Nat) (nonce : Bytes)
  /-- SPDM_REQUEST (R450): Any other supported SPDM request, answered at once. -/
  | spdmRequest (code : Byte)
  /-- IDE_KM (R446): IDE key management request programming a selective IDE stream. -/
  | ideKm (i : Nat) (stream : Nat) (keyset : Nat) (rx : Bool)
  /-- IDE_STREAM_LOSS (R447): A TDI's IDE stream leaves the secure state and the TDI goes to ERROR. -/
  | ideStreamLoss (i : Nat) (stream : Nat)
  /-- GET_TDISP_VERSION (R447): TDISP version request. -/
  | getTdispVersion (vd : Nat)
  /-- GET_TDISP_CAPABILITIES (R447): TDISP capabilities request. -/
  | getTdispCapabilities (vd : Nat)
  /-- LOCK_INTERFACE_REQUEST (R447): Locks a TDI's configuration. -/
  | lockInterfaceRequest (vd : Nat) (stream : Nat)
  /-- GET_DEVICE_INTERFACE_REPORT (R447): Returns the TDI's interface report. -/
  | getDeviceInterfaceReport (vd : Nat)
  /-- GET_DEVICE_INTERFACE_STATE (R447): Returns the TDI's state. -/
  | getDeviceInterfaceState (vd : Nat)
  /-- START_INTERFACE_REQUEST (R447): Takes a locked TDI to RUN. -/
  | startInterfaceRequest (vd : Nat)
  /-- STOP_INTERFACE_REQUEST (R447): Stops a TDI and runs removal steps 1 to 6. -/
  | stopInterfaceRequest (vd : Nat)
  /-- CONFIGURATION_REQUEST (R548): PCIe configuration request to a function, answered or retried. -/
  | configurationRequest (i : Nat) (fn : Nat) (r : CfgReq)
  /-- FUNCTION_LEVEL_RESET (R496): An FLR of a function resets it and frees its mailboxes. -/
  | functionLevelReset (i : Nat) (fn : Nat)
  /-- HIP_PERST_N (R547): PCIe fundamental reset edge resets or releases the host port domain. -/
  | hipPerstN (i : Nat) (level : Bool)
  /-- REQ_TAIL (R478): Manager posts management requests and raises source 0x040. -/
  | reqTail (value : W32)
  /-- REQUEST_TAKE (R479): Firmware takes the next posted management request when capacity allows. -/
  | requestTake (agent : Byte) (pkt : Bytes)
  /-- MANAGEMENT_RING_ENABLE (R478): Setting MBX_MR.ENABLE checks and starts the management rings. -/
  | managementRingEnable (value : W32)
  /-- MANAGEMENT_RING_DISABLE (R478): Clearing MBX_MR.ENABLE stops the management rings. -/
  | managementRingDisable
  /-- RPL_HEAD (R478): Manager releases reply-ring entries. -/
  | rplHead (value : W32)
  /-- FLT_HEAD (R478): Manager releases fault-ring entries. -/
  | fltHead (value : W32)
  /-- FAULT_RECORD_WRITE (R532): A queued alarm or log record is written to the fault ring when room exists. -/
  | faultRecordWrite (i : Nat)
  /-- LOSS_SUMMARY (R533): Every 100 ms of loss a loss summary is written or merged. -/
  | lossSummary (i : Nat) (us : Nat)
  /-- SLICE_CREATE (R430): Creates a slice with its virtual device, key and initial resources. -/
  | sliceCreate (m : MgmtRun)
  /-- SLICE_DESTROY (R460): Removes a slice in the steps of tenant removal. -/
  | sliceDestroy (m : MgmtRun)
  /-- UNIT_BIND (R431): Adds a whole core or quarter-core to a slice. -/
  | unitBind (m : MgmtRun)
  /-- UNIT_UNBIND (R431): Removes a unit, killing contexts with FORCE. -/
  | unitUnbind (m : MgmtRun)
  /-- UNIT_MOVE (R432): Moves a unit to other hardware while work runs. -/
  | unitMove (m : MgmtRun)
  /-- ALLOT_SET (R431): Sets a slice's page or cluster-memory allotment. -/
  | allotSet (m : MgmtRun)
  /-- SCHED_SET (R399): Sets Pavane or Reel, quantum and switch budget for a slice's units. -/
  | schedSet (m : MgmtRun)
  /-- CORE_MODE (R31): Changes an enabled core between whole and quad mode. -/
  | coreMode (m : MgmtRun)
  /-- LABEL_SET (R407): Writes label table entries and copies them to every instance. -/
  | labelSet (m : MgmtRun)
  /-- SHARE_SET (R411): Sets a budget set's slot share and window on a path. -/
  | shareSet (m : MgmtRun)
  /-- GUARD_SET (R416): Arms or disarms a guarantee. -/
  | guardSet (m : MgmtRun)
  /-- MCAST_RANGE (R302): Grants a slice a range of multicast groups. -/
  | mcastRange (m : MgmtRun)
  /-- LOFT_BUDGET (R298): Sets a slice's loft frame budget on an instance. -/
  | loftBudget (m : MgmtRun)
  /-- LEND_SET (R487): Lends or withdraws resources to a home part. -/
  | lendSet (m : MgmtRun)
  /-- CORE_STATE (R577): Commands a core's power state and clock step. -/
  | coreState (m : MgmtRun)
  /-- MEMPORT_STATE (R577): Commands a memory port's power state. -/
  | memportState (m : MgmtRun)
  /-- LINK_STATE (R577): Commands a link's power state. -/
  | linkState (m : MgmtRun)
  /-- RESET (R513): Management command resetting a named domain. -/
  | reset (m : MgmtRun)
  /-- ESCALATE_SET (R525): Sets escalation window, limit and hang threshold. -/
  | escalateSet (m : MgmtRun)
  /-- HEALTH_GET (R485): Returns grade, topology and reserve registers. -/
  | healthGet (m : MgmtRun)
  /-- FW_STAGE (R488): Verifies and stages a firmware image to the inactive bank. -/
  | fwStage (m : MgmtRun)
  /-- FW_ACTIVATE (R488): Resets the instance onto the staged firmware bank. -/
  | fwActivate (m : MgmtRun)
  /-- FW_COMMIT (R488): Raises MIN_SVN to the running SVN. -/
  | fwCommit (m : MgmtRun)
  /-- FW_DISCARD (R488): Clears a pending firmware image. -/
  | fwDiscard (m : MgmtRun)
  /-- FW_INFO (R485): Returns firmware bank, versions and running-image hash. -/
  | fwInfo (m : MgmtRun)
  /-- ATT_STATE (R485): Returns the part's attestation state. -/
  | attState (m : MgmtRun)
  /-- ATT_MEASURE (R451): Returns one measurement block. -/
  | attMeasure (m : MgmtRun)
  /-- ATT_REPORT (R454): Writes a slice report to a PF buffer. -/
  | attReport (m : MgmtRun)
  /-- POLICY_SET (R243): Sets the tier policy of a slice or object. -/
  | policySet (m : MgmtRun)
  /-- PAGE_RETIRE (R250): Retires a physical page onto a reserve page. -/
  | pageRetire (m : MgmtRun)
  /-- CH_EVACUATE (R247): Moves every mapped page off a tier channel into the test state. -/
  | chEvacuate (m : MgmtRun)
  /-- CH_RETURN (R247): Returns a test channel to service. -/
  | chReturn (m : MgmtRun)
  /-- WEIGHT_ALLOT (R444): Sets the weight allotment of an instance and tier. -/
  | weightAllot (m : MgmtRun)
  /-- WEIGHT_LOAD (R444): Loads, hashes and seals a weight object. -/
  | weightLoad (m : MgmtRun)
  /-- WEIGHT_COPY (R444): Copies a weight to another instance and checks its digest. -/
  | weightCopy (m : MgmtRun)
  /-- WEIGHT_GRANT (R444): Grants a weight to a slice. -/
  | weightGrant (m : MgmtRun)
  /-- WEIGHT_REVOKE (R445): Withdraws a grant and releases the objects that name it. -/
  | weightRevoke (m : MgmtRun)
  /-- WEIGHT_FREE (R444): Frees a weight and all its copies. -/
  | weightFree (m : MgmtRun)
  /-- LINK_ENABLE (R272): Enables or disables a fabric link. -/
  | linkEnable (m : MgmtRun)
  /-- PORTGROUP_RESET (R313): Resets the fabric port group. -/
  | portgroupReset (m : MgmtRun)
  /-- CH_TEST (R252): Puts a channel without mapped pages into the test state. -/
  | chTest (m : MgmtRun)
  /-- LOG_LEVEL (R491): Sets the least severe class written to the fault ring. -/
  | logLevel (m : MgmtRun)
  /-- MIGRATE_FREEZE (R455): Freezes a slice for migration. -/
  | migrateFreeze (m : MgmtRun)
  /-- MIGRATE_PEER (R455): Opens and checks an SPDM session with the target lead. -/
  | migratePeer (m : MgmtRun)
  /-- MIGRATE_SAVE (R457): Writes the encrypted migration image to a PF buffer. -/
  | migrateSave (m : MgmtRun)
  /-- MIGRATE_RESTORE (R458): Unwraps, checks and loads a migration image on the target. -/
  | migrateRestore (m : MgmtRun)
  /-- MIGRATE_COMMIT (R455): Commits a migration and tears the source down. -/
  | migrateCommit (m : MgmtRun)
  /-- MIGRATE_CANCEL (R455): Cancels a migration, leaving the source frozen. -/
  | migrateCancel (m : MgmtRun)
  /-- MIGRATE_THAW (R455): Starts restored or cancelled streams. -/
  | migrateThaw (m : MgmtRun)
  /-- SPARE_IN (R528): Brings in a spare core or vector engine. -/
  | spareIn (m : MgmtRun)
  /-- HEALTH_CHECK (R531): Steers failing rows, brings in spares and rewrites unused records. -/
  | healthCheck (m : MgmtRun)
  /-- SPARE_GET (R485): Returns spare counts. -/
  | spareGet (m : MgmtRun)
  /-- MBX_LOCK (R494): Read that takes a free mailbox or returns its holder. -/
  | mbxLock (i : Nat) (agent : Byte) (box : Nat)
  /-- MBX_DATA (R494): Write of a mailbox word, honoured only for the holder. -/
  | mbxData (i : Nat) (agent : Byte) (box : Nat) (w : Nat) (value : W32)
  /-- MBX_DOORBELL (R495): Hands a held mailbox to its receiver and notifies it. -/
  | mbxDoorbell (i : Nat) (agent : Byte) (box : Nat) (value : W32)
  /-- MBX_FREE (R494): Frees a mailbox and zeroes its data. -/
  | mbxFree (i : Nat) (agent : Byte) (box : Nat) (value : W32)
  /-- SOURCE_EDGE (R500): An interrupt source latches a rising edge and counts it. -/
  | sourceEdge (i : Nat) (proc : Nat) (n : Nat)
  /-- IRQ_COALESCE_EXPIRY (R500): A shared source's coalescing time passes and it delivers. -/
  | irqCoalesceExpiry (i : Nat) (n : Nat)
  /-- IRQ_CLAIM (R502): Read that claims the highest-ranked delivered source. -/
  | irqClaim (i : Nat) (proc : Nat)
  /-- IRQ_IPI (R507): Pends inter-processor interrupts on the named processors. -/
  | irqIpi (i : Nat) (proc : Nat) (value : W32)
  /-- DOMAIN_RESET (R513): A reset of a domain begins: crash capture, tag advance and assertion. -/
  | domainReset (i : Nat) (u : Nat) (cause : Nat)
  /-- RESET_RELEASE (R513): After open transactions close, reset is released and state restored. -/
  | resetRelease (i : Nat) (u : Nat)
  /-- DOMAIN_UP (R513): The domain reads up and the reset-ended record is written. -/
  | domainUp (i : Nat) (u : Nat)
  /-- SPARE_BRING_IN (R528): A spare core is brought in for a removed core and its units are copied. -/
  | spareBringIn (i : Nat) (core : Nat) (bistOk : Bool)
  /-- HANG (R518): A busy engine's progress counter stays unchanged for the hang threshold. -/
  | hang (i : Nat) (core : Nat) (dma : Bool) (engine : Nat)
  /-- SEQUENCER_REPORT_MISS (R519): Ten missed sequencer reports reset the cluster. -/
  | sequencerReportMiss (i : Nat) (cl : Nat)
  /-- HEARTBEAT_MISS (R519): Ten missed front-end heartbeat answers reset the instance. -/
  | heartbeatMiss (i : Nat)
  /-- WATCHDOG_EXPIRY (R520): A lead processor's watchdog expires and FAULT_N asserts. -/
  | watchdogExpiry (i : Nat) (proc : Nat)
  /-- SIBLING_HEARTBEAT_MISS (R520): Ten missed sibling heartbeats make the sibling absent. -/
  | siblingHeartbeatMiss (i : Nat)
  /-- DRAIN_FAILURE (R126): A drain not finished within 1 ms causes a core reset. -/
  | drainFailure (i : Nat) (core : Nat)
  /-- COLD_RST_N_RELEASE (R582): COLD_RST_N rises and the instance runs start-up. -/
  | coldRstNRelease (i : Nat) (b : BootInput)
  /-- COLD_RST_N_ASSERT (R562): COLD_RST_N low holds the whole instance in reset and erases keys. -/
  | coldRstNAssert (i : Nat)
  /-- MEMBERSHIP_SETTLE (R583): The lead settles membership when siblings complete step 7 or 20 s pass. -/
  | membershipSettle
  /-- RESET_REQ (R562): A RESET_REQ edge resets the receiving instance. -/
  | resetReq (i : Nat)
  /-- FAULT_IN (R562): A FAULT_IN edge raises a block-condition alarm. -/
  | faultIn (i : Nat)
  /-- THERM_ALERT (R561): A THERM_ALERT edge pends its source and raises an alarm. -/
  | thermAlert (i : Nat)
  /-- HSP_CATTRIP (R561): A present stack's catastrophic-temperature output raises an alarm. -/
  | hspCattrip (i : Nat) (stack : Nat)
  /-- TEMPERATURE_SAMPLE (R561): A valid sensor reading is taken and a threshold crossing raises source 0x071. -/
  | temperatureSample (i : Nat) (sensor : Nat) (temp : BitVec 12)
  /-- LOSS_OF_LOCK (R567): A loop loses lock, stops its outputs and resets or faults as it feeds. -/
  | lossOfLock (i : Nat) (loop : Nat)
  /-- RELOCK (R574): A core or cluster loop relocks at the new step and the clocks restart. -/
  | relock (i : Nat) (loop : Nat)
  /-- POWER_TRANSITION (R578): A commanded power-state transition completes. -/
  | powerTransition (i : Nat) (kind : PowerUnit) (idx : Nat)
  /-- PSW_ACK (R560): A power-switch acknowledgement follows its enable and isolation changes. -/
  | pswAck (i : Nat) (k : Nat) (level : Bool)
  /-- PSW_ACK_TIMEOUT (R560): A missing switch acknowledgement undoes the change and raises an alarm. -/
  | pswAckTimeout (i : Nat) (k : Nat)
  /-- DEBUG_UNLOCK (R467): An accepted JTAG token scrubs the part and opens debug. -/
  | debugUnlock (i : Nat) (ok : Bool)
  /-- JTAG_INSTRUCTION (R465): A TAP instruction is loaded, refused unless allowed. -/
  | jtagInstruction (i : Nat) (code : JtagInstr)
  /-- TAP_RESET (R558): TRST or five TMS-high cycles reset the TAP. -/
  | tapReset (i : Nat)
  /-- ENTDAA (R557): I3C dynamic address assignment. -/
  | entdaa (i : Nat) (addr : BitVec 7)
  /-- SETDASA (R557): I3C dynamic address set from the static address. -/
  | setdasa (i : Nat) (addr : BitVec 7)
  /-- TARGET_RESET (R496): I3C target reset frees the board controller's mailboxes. -/
  | targetReset (i : Nat)
  /-- GO (R257): Starts a traffic-generator pattern, refused outside the test state. -/
  | go (i : Nat) (ch : Nat) (value : W32)
  /-- STOP (R257): Stops the traffic generator at the next granule. -/
  | stop (i : Nat) (ch : Nat)
  /-- SNAP (R423): Copies the selected accounting counts to SCH_ACCT_DATA. -/
  | snap (i : Nat) (value : W32)
  /-- SNAP_CLEAR (R423): Snapshot that also zeroes the source counts. -/
  | snapClear (i : Nat) (value : W32)
  /-- LOW_WORD_READ (R9): Read of a 64-bit quantity's low word that clears RC fields and latches the high word. -/
  | lowWordRead (a : RegAddr)
  /-- HIGH_WORD_READ (R9): Read of a high word returning the latch or current value. -/
  | highWordRead (a : RegAddr)
  /-- RC_READ (R10): Read of a register with RC fields that clears them. -/
  | rcRead (a : RegAddr)
  /-- REGISTER_WRITE (R10): Write to a register without a row of its own, per its access codes. -/
  | registerWrite (a : RegAddr) (value : W32)
  /-- CHAIN_ROW (R110): An epilogue row enters a chaining FIFO, waking a waiting CHPOP. -/
  | chainRow (i : Nat) (core : Nat) (half : Nat)
  /-- TICKET_END (R118): All programs of a launch ticket end, releasing VWAIT. -/
  | ticketEnd (i : Nat) (core : Nat) (ticket : Nat)
  /-- MOVE_END (R119): A CMCOPY move completes or fails, releasing MWAIT. -/
  | moveEnd (i : Nat) (core : Nat) (ticket : Nat) (ok : Bool)
  /-- EVWAIT_EXPIRY (R116): EVWAIT's cycle limit expires with no event. -/
  | evwaitExpiry (e : SeRef)
  /-- SCALAR_INSTRUCTION (R113): A scalar engine retires an RV64 instruction, trapping where required. -/
  | scalarInstruction (e : SeRef) (w : W32)
  /-- WFI (R115): A scalar engine waits until a local event is pending. -/
  | wfi (e : SeRef) (w : W32)
  /-- VLAUNCH (R117): Launches a vector program on named engines and returns a ticket. -/
  | vlaunch (e : SeRef) (w : W32)
  /-- VWAIT (R118): Waits for a ticket and returns its status. -/
  | vwait (e : SeRef) (w : W32)
  /-- VPOLL (R116): Returns a ticket's status without waiting. -/
  | vpoll (e : SeRef) (w : W32)
  /-- CMCOPY (R119): Starts a move between core memory and cluster memory. -/
  | cmcopy (e : SeRef) (w : W32)
  /-- MWAIT (R119): Waits for a move ticket. -/
  | mwait (e : SeRef) (w : W32)
  /-- EVWAIT (R116): Waits for a pending local event in a mask. -/
  | evwait (e : SeRef) (w : W32)
  /-- EVSET (R120): Sets event bits on a scalar engine of the binding. -/
  | evset (e : SeRef) (w : W32)
  /-- SEHALT (R116): Ends the scalar engine with an exit code. -/
  | sehalt (e : SeRef) (w : W32)
  /-- CHARM (R110): Re-arms an ENDED chaining port half. -/
  | charm (e : SeRef) (w : W32)
  /-- VABORT (R116): Stops a ticket's programs at their next boundary. -/
  | vabort (e : SeRef) (w : W32)
  /-- VADD (R98): Vector add. -/
  | vadd (e : VeRef) (w : W64)
  /-- VSUB (R98): Vector subtract. -/
  | vsub (e : VeRef) (w : W64)
  /-- VMUL (R98): Vector multiply. -/
  | vmul (e : VeRef) (w : W64)
  /-- VFMA (R98): Vector fused multiply-add. -/
  | vfma (e : VeRef) (w : W64)
  /-- VFMS (R98): Vector fused multiply-subtract. -/
  | vfms (e : VeRef) (w : W64)
  /-- VMAX (R99): Vector maximum. -/
  | vmax (e : VeRef) (w : W64)
  /-- VMIN (R99): Vector minimum. -/
  | vmin (e : VeRef) (w : W64)
  /-- VABS (R98): Vector absolute value. -/
  | vabs (e : VeRef) (w : W64)
  /-- VNEG (R98): Vector negate. -/
  | vneg (e : VeRef) (w : W64)
  /-- VAND (R98): Vector bitwise and. -/
  | vand (e : VeRef) (w : W64)
  /-- VOR (R98): Vector bitwise or. -/
  | vor (e : VeRef) (w : W64)
  /-- VXOR (R98): Vector bitwise exclusive or. -/
  | vxor (e : VeRef) (w : W64)
  /-- VSHL (R98): Vector shift left. -/
  | vshl (e : VeRef) (w : W64)
  /-- VSRA (R98): Vector arithmetic shift right. -/
  | vsra (e : VeRef) (w : W64)
  /-- VSRL (R98): Vector logical shift right. -/
  | vsrl (e : VeRef) (w : W64)
  /-- VSEL (R98): Vector select by predicate. -/
  | vsel (e : VeRef) (w : W64)
  /-- VMOV (R98): Vector move. -/
  | vmov (e : VeRef) (w : W64)
  /-- VPERM (R98): Vector permute by index. -/
  | vperm (e : VeRef) (w : W64)
  /-- VCMPEQ (R98): Vector compare equal into a predicate. -/
  | vcmpeq (e : VeRef) (w : W64)
  /-- VCMPNE (R98): Vector compare not equal. -/
  | vcmpne (e : VeRef) (w : W64)
  /-- VCMPLT (R98): Vector compare less than. -/
  | vcmplt (e : VeRef) (w : W64)
  /-- VCMPLE (R98): Vector compare less or equal. -/
  | vcmple (e : VeRef) (w : W64)
  /-- VCMPUO (R98): Vector compare unordered. -/
  | vcmpuo (e : VeRef) (w : W64)
  /-- VRSUM (R100): Vector reduction sum by fixed pairwise tree. -/
  | vrsum (e : VeRef) (w : W64)
  /-- VRMAX (R100): Vector reduction maximum. -/
  | vrmax (e : VeRef) (w : W64)
  /-- VRMIN (R100): Vector reduction minimum. -/
  | vrmin (e : VeRef) (w : W64)
  /-- VADDS (R101): Vector add scalar. -/
  | vadds (e : VeRef) (w : W64)
  /-- VSUBS (R101): Vector subtract scalar. -/
  | vsubs (e : VeRef) (w : W64)
  /-- VRSUBS (R101): Scalar minus vector. -/
  | vrsubs (e : VeRef) (w : W64)
  /-- VMULS (R101): Vector multiply by scalar. -/
  | vmuls (e : VeRef) (w : W64)
  /-- VFMAS (R101): Vector fused multiply by scalar and accumulate. -/
  | vfmas (e : VeRef) (w : W64)
  /-- VMAXS (R101): Vector maximum with scalar. -/
  | vmaxs (e : VeRef) (w : W64)
  /-- VMINS (R101): Vector minimum with scalar. -/
  | vmins (e : VeRef) (w : W64)
  /-- VANDS (R101): Vector and scalar. -/
  | vands (e : VeRef) (w : W64)
  /-- VORS (R101): Vector or scalar. -/
  | vors (e : VeRef) (w : W64)
  /-- VXORS (R101): Vector xor scalar. -/
  | vxors (e : VeRef) (w : W64)
  /-- VSHLS (R101): Vector shift left by scalar. -/
  | vshls (e : VeRef) (w : W64)
  /-- VSRAS (R101): Vector arithmetic shift right by scalar. -/
  | vsras (e : VeRef) (w : W64)
  /-- VSRLS (R101): Vector logical shift right by scalar. -/
  | vsrls (e : VeRef) (w : W64)
  /-- VSPLAT (R101): Broadcast scalar to vector. -/
  | vsplat (e : VeRef) (w : W64)
  /-- VIOTA (R101): Write scalar plus element index. -/
  | viota (e : VeRef) (w : W64)
  /-- VEXTA (R101): Extract one element into an address register. -/
  | vexta (e : VeRef) (w : W64)
  /-- VCMPEQS (R101): Compare with scalar, equal. -/
  | vcmpeqs (e : VeRef) (w : W64)
  /-- VCMPNES (R101): Compare with scalar, not equal. -/
  | vcmpnes (e : VeRef) (w : W64)
  /-- VCMPLTS (R101): Compare with scalar, less than. -/
  | vcmplts (e : VeRef) (w : W64)
  /-- VCMPLES (R101): Compare with scalar, less or equal. -/
  | vcmples (e : VeRef) (w : W64)
  /-- VCMPGTS (R101): Compare with scalar, greater than. -/
  | vcmpgts (e : VeRef) (w : W64)
  /-- VCMPGES (R101): Compare with scalar, greater or equal. -/
  | vcmpges (e : VeRef) (w : W64)
  /-- VLD (R103): Vector load from core memory. -/
  | vld (e : VeRef) (w : W64)
  /-- VST (R103): Vector store to core memory. -/
  | vst (e : VeRef) (w : W64)
  /-- PLD (R102): Predicate load. -/
  | pld (e : VeRef) (w : W64)
  /-- PST (R102): Predicate store. -/
  | pst (e : VeRef) (w : W64)
  /-- CHPOP (R110): Takes one row from a chaining port half or waits for one. -/
  | chpop (e : VeRef) (w : W64)
  /-- VCVT (R104): Vector convert between data types. -/
  | vcvt (e : VeRef) (w : W64)
  /-- VEXP (R105): Vector exponential. -/
  | vexp (e : VeRef) (w : W64)
  /-- VLOG (R105): Vector natural logarithm. -/
  | vlog (e : VeRef) (w : W64)
  /-- VRSQRT (R105): Vector reciprocal square root. -/
  | vrsqrt (e : VeRef) (w : W64)
  /-- VRCP (R105): Vector reciprocal. -/
  | vrcp (e : VeRef) (w : W64)
  /-- VTANH (R105): Vector hyperbolic tangent. -/
  | vtanh (e : VeRef) (w : W64)
  /-- VERF (R105): Vector error function. -/
  | verf (e : VeRef) (w : W64)
  /-- VC_NOP (R106): Vector control no-operation. -/
  | vcNop (e : VeRef) (w : W64)
  /-- HALT (R106): Performs FENCE and ends the vector program. -/
  | halt (e : VeRef) (w : W64)
  /-- BR (R106): Unconditional branch. -/
  | br (e : VeRef) (w : W64)
  /-- BZ (R106): Branch if address register is zero. -/
  | bz (e : VeRef) (w : W64)
  /-- BNZ (R106): Branch if address register is non-zero. -/
  | bnz (e : VeRef) (w : W64)
  /-- LOOP (R106): Decrement and branch if non-zero. -/
  | loop (e : VeRef) (w : W64)
  /-- PANY (R106): Branch if any predicate bit below E is set. -/
  | pany (e : VeRef) (w : W64)
  /-- PNONE (R106): Branch if no predicate bit below E is set. -/
  | pnone (e : VeRef) (w : W64)
  /-- ALI (R106): Load sign-extended immediate. -/
  | ali (e : VeRef) (w : W64)
  /-- ALUI (R106): Load upper immediate. -/
  | alui (e : VeRef) (w : W64)
  /-- AADDI (R106): Add immediate to address register. -/
  | aaddi (e : VeRef) (w : W64)
  /-- AADD (R106): Address register add. -/
  | aadd (e : VeRef) (w : W64)
  /-- ASUB (R106): Address register subtract. -/
  | asub (e : VeRef) (w : W64)
  /-- AMUL (R106): Address register multiply. -/
  | amul (e : VeRef) (w : W64)
  /-- ASHLI (R106): Address register shift left. -/
  | ashli (e : VeRef) (w : W64)
  /-- ASHRI (R106): Address register logical shift right. -/
  | ashri (e : VeRef) (w : W64)
  /-- PAND (R106): Predicate and. -/
  | pand (e : VeRef) (w : W64)
  /-- POR (R106): Predicate or. -/
  | por (e : VeRef) (w : W64)
  /-- PXOR (R106): Predicate xor. -/
  | pxor (e : VeRef) (w : W64)
  /-- PNOT (R106): Predicate not. -/
  | pnot (e : VeRef) (w : W64)
  /-- SETVL (R106): Sets the element count VL. -/
  | setvl (e : VeRef) (w : W64)
  /-- FLGRD (R109): Reads and clears the sticky flags. -/
  | flgrd (e : VeRef) (w : W64)
  /-- SRSEED (R106): Sets the rounding counter. -/
  | srseed (e : VeRef) (w : W64)
  /-- FENCE (R112): Waits until the engine's earlier stores are visible. -/
  | fence (e : VeRef) (w : W64)
  /-- EVSIG (R106): Sets a local event on the launching scalar engine. -/
  | evsig (e : VeRef) (w : W64)
  /-- HOT_RESET (R496): A PCIe hot reset received on the host link resets the host port domain and frees the PF's mailboxes. -/
  | hotReset (i : Nat)
  /-- HOST_COMPLETION_TIMEOUT (R594): A host read or AtomicOp receives no completion in time and the access ends HOST_ERROR. -/
  | hostCompletionTimeout (c : CmdRef)
  /-- WORK_UNIT_BOUNDARY (R142): A zoo, cluster or DMA engine reaches its next work unit, where a pending abort or Reel pre-emption takes effect. -/
  | workUnitBoundary (i : Nat) (core : Nat) (q : Nat) (kind : EngineKind)
  /-- MODULE_LEAVES_PORT (R306): A UCIe module that cannot be repaired leaves a die-to-die port, which runs on at the rate of the modules that remain. -/
  | moduleLeavesPort (i : Nat) (j : Nat) (k : Nat)
  /-- RELEASE_WAIT_EXPIRY (R370): T_e passes after the last replica write of an object release, so zeroing and return of its tenant pages may start. -/
  | releaseWaitExpiry (vd : Nat) (obj : Nat)
  deriving DecidableEq, Repr

end Sys2Proof
end

