-- ==== Sys2Proof/WellFormed.lean ====
section
/-! DEFINITION. Which operands of a command are within the limits the spec fixes for them: site, core, engine and
port numbers (R15, R20, R36), virtual devices and rings (R41, R356), vector and scalar instruction words that spell
the row they stand under (R95, R98–R106, R116). -/

namespace Sys2Proof

/-- A site number: the 3-bit instance id (R36). -/
def siteOk (i : Nat) : Bool := decide (i < 8)
/-- A virtual device number (R41). -/
def vdOk (v : Nat) : Bool := decide (v < 256)
/-- A physical core and a quadrant (R16, R27). -/
def coreOk (c : Nat) : Bool := decide (c < 6)
/-- A quadrant (R27). -/
def quadOk (q : Nat) : Bool := decide (q < 4)

/-- A command reference names a virtual device and one of its 256 streams (R41, R335). -/
def CmdRef.wf (c : CmdRef) : Bool := vdOk c.vd && decide (c.stream < 256)

/-- A vector engine: thirteen per core (R20). -/
def VeRef.wf (e : VeRef) : Bool := siteOk e.site && coreOk e.core && decide (e.eng < 13)

/-- A scalar engine: eight per core (R20). -/
def SeRef.wf (e : SeRef) : Bool := siteOk e.site && coreOk e.core && decide (e.eng < 8)

/-- CLASS and OP of a vector instruction word (R95). -/
def vecKey (w : W64) : Nat × Nat := (bitsOf w 63 61, bitsOf w 60 54)

/-- A register access: aligned, within its space (R9, R15, R17, R326). -/
def RegAddr.wf (a : RegAddr) : Bool :=
  decide (a.off % 4 = 0) &&
  match a.space with
  | .pf => decide (a.off < 0x10000000)
  | .vf0 v => vdOk v && decide (a.off < 0x10000)
  | .vf2 v => vdOk v && decide (a.off < 0x40000)

/-- A fabric packet carries at most 4,096 payload bytes (R279). -/
def Pkt.wf (p : Pkt) : Bool := decide (p.payload.length ≤ 4096)

/-- The Xhsk word of R116 with this funct7 and funct3. -/
def xhskWord (w : W32) (f7 f3 : Nat) : Bool :=
  decide (bitsOf w 6 0 = 0x0B) && decide (bitsOf w 31 25 = f7) && decide (bitsOf w 14 12 = f3)

/-- The PF, function 0, or one of the 256 VFs of an endpoint (R326). -/
def fnOk (fn : Nat) : Bool := decide (fn ≤ 256)
/-- An interrupt source number (R497). -/
def srcOk (n : Nat) : Bool := decide (n < 0xFFF)

set_option maxRecDepth 4000 in
/-- A command whose operands are all within the limits the spec gives them. A word stands under its own row. -/
def Instr.wf (ins : Instr) : Bool :=
  match ins with
  | .nop c => c.wf
  | .streamCreate c => c.wf
  | .streamDestroy c => c.wf
  | .streamAbort c => c.wf
  | .sliceInfo c => c.wf
  | .noelRingSet c => c.wf
  | .aspaceCreate c => c.wf
  | .aspaceDestroy c => c.wf
  | .objCreate c => c.wf
  | .objFree c => c.wf
  | .map c => c.wf
  | .unmap c => c.wf
  | .faultResolve c => c.wf
  | .tensorTile c => c.wf
  | .attention c => c.wf
  | .scalarRun c => c.wf
  | .select c => c.wf
  | .gatherScatter c => c.wf
  | .layout c => c.wf
  | .codec c => c.wf
  | .route c => c.wf
  | .reduce c => c.wf
  | .reduceArm c => c.wf
  | .dmaCopy c => c.wf
  | .dmaFill c => c.wf
  | .fabAtomic c => c.wf
  | .loftAcquire c => c.wf
  | .loftRelease c => c.wf
  | .mcastGroupSet c => c.wf
  | .mcastWrite c => c.wf
  | .collective c => c.wf
  | .feDoorbell vd _ => vdOk vd
  | .submissionRead vd ring _ => vdOk vd && decide (ring < 64)
  | .fetchLost vd ring _ => vdOk vd && decide (ring < 64)
  | .descriptorPlace vd ring => vdOk vd && decide (ring < 64)
  | .feNoelDb vd ring _ => vdOk vd && decide (ring < 64)
  | .commandReady c => c.wf
  | .commandIssue c => c.wf
  | .commandEnd c => c.wf
  | .commandTimeout c => c.wf
  | .fenceSignal c => c.wf
  | .fenceReevaluate c => c.wf
  | .completionRecordWrite c => c.wf
  | .msixCoalesceExpiry vd vec => vdOk vd && decide (vec < 32)
  | .msixUnmask vd vec => vdOk vd && decide (vec < 32)
  | .streamFreed vd st => vdOk vd && decide (st < 256)
  | .feCqHead vd _ => vdOk vd
  | .feEqHead vd _ => vdOk vd
  | .feFqHead vd _ => vdOk vd
  | .feNoelCqHead vd ring _ => vdOk vd && decide (ring < 64)
  | .ringEnable vd => vdOk vd
  | .ringDisable vd => vdOk vd
  | .feStreamResume vd _ => vdOk vd
  | .dvaFault c dva _ _ => c.wf && decide (dva < 2 ^ 57)
  | .faultBatchWrite vd => vdOk vd
  | .faultRingFullExpiry vd => vdOk vd
  | .faultEntryExpiry vd _ => vdOk vd
  | .invalidationAck vd _ => vdOk vd
  | .invalidationDrain vd _ => vdOk vd
  | .atsInvalidation vd _ _ => vdOk vd
  | .pageRequestResponse c _ => c.wf
  | .hostCompletion c _ _ _ => c.wf
  | .release vd _ => vdOk vd
  | .tileBoundary i core q => siteOk i && coreOk core && quadOk q
  | .quantumExpiry i core q => siteOk i && coreOk core && quadOk q
  | .reelIdleYield i core q => siteOk i && coreOk core && quadOk q
  | .switchWindow i core q => siteOk i && coreOk core && quadOk q
  | .zeroingDone i core q => siteOk i && coreOk core && quadOk q
  | .budgetWindowEnd i slice _ path _ => siteOk i && vdOk slice && decide (path < 12)
  | .memoryRead i _ _ => siteOk i
  | .memoryWrite i _ _ => siteOk i
  | .refresh i ch => siteOk i && decide (ch < 80)
  | .phyMasterRequest i ch => siteOk i && decide (ch < 80)
  | .memoryPortTraining i port _ => siteOk i && decide (port < 6)
  | .phyReadyTimeout i port => siteOk i && decide (port < 6)
  | .sweep i => siteOk i
  | .claim i ch => siteOk i && decide (ch < 4)
  | .copy i ch _ => siteOk i && decide (ch < 4)
  | .reCopy i ch _ => siteOk i && decide (ch < 4)
  | .switch i ch => siteOk i && decide (ch < 4)
  | .tgPatternDone i ch _ => siteOk i && decide (ch < 80)
  | .readReq i p => siteOk i && p.wf
  | .readRsp i p => siteOk i && p.wf
  | .write i p => siteOk i && p.wf
  | .writeAck i p => siteOk i && p.wf
  | .atomic i p => siteOk i && p.wf
  | .atomicRsp i p => siteOk i && p.wf
  | .fenceSig i p => siteOk i && p.wf
  | .fenceAck i p => siteOk i && p.wf
  | .contrib i p => siteOk i && p.wf
  | .contribAck i p => siteOk i && p.wf
  | .control i p => siteOk i && p.wf
  | .controlAck i p => siteOk i && p.wf
  | .linkFrame i l _ _ _ => siteOk i && decide (l < 8)
  | .acknowledgement i l _ => siteOk i && decide (l < 8)
  | .negativeAcknowledgement i l _ => siteOk i && decide (l < 8)
  | .creditReturn i l _ => siteOk i && decide (l < 8)
  | .detect i l _ => siteOk i && decide (l < 8)
  | .linkMap i l _ => siteOk i && decide (l < 8)
  | .equalise i l _ => siteOk i && decide (l < 8)
  | .align i l _ => siteOk i && decide (l < 8)
  | .credit i l _ _ => siteOk i && decide (l < 8)
  | .laneLoss i l lane => siteOk i && decide (l < 8) && decide (lane < 5)
  | .linkRetry i l => siteOk i && decide (l < 8)
  | .transportTimeout i _ => siteOk i
  | .forwardTimeout i _ => siteOk i
  | .holdTimeExpiry c _ => c.wf
  | .fabRt i d _ => siteOk i && decide (d < 16384)
  | .fabQuiesceReq i slot => siteOk i && decide (slot < 1024)
  | .fabQuiesceDone i => siteOk i
  | .dmaQuiesceReq i slot => siteOk i && decide (slot < 1024)
  | .quiesceClear i _ => siteOk i
  | .d2dTraining i j _ => siteOk i && decide (j < 4)
  | .d2dPortDown i j => siteOk i && decide (j < 4)
  | .keyCreate i slot slice => siteOk i && decide (slot < 1024) && vdOk slice
  | .keyInstall i slot slice _ _ => siteOk i && decide (slot < 1024) && vdOk slice
  | .keyWrap i slot _ => siteOk i && decide (slot < 1024)
  | .keyDrain i slot => siteOk i && decide (slot < 1024)
  | .keyDestroy i slot => siteOk i && decide (slot < 1024)
  | .removalStep slice => vdOk slice
  | .getMeasurements _ => true
  | .sliceReport vd _ => vdOk vd
  | .spdmRequest _ => true
  | .ideKm i stream keyset _ => siteOk i && decide (stream < 16) && decide (keyset < 2)
  | .ideStreamLoss i stream => siteOk i && decide (stream < 16)
  | .getTdispVersion vd => vdOk vd
  | .getTdispCapabilities vd => vdOk vd
  | .lockInterfaceRequest vd stream => vdOk vd && decide (stream < 16)
  | .getDeviceInterfaceReport vd => vdOk vd
  | .getDeviceInterfaceState vd => vdOk vd
  | .startInterfaceRequest vd => vdOk vd
  | .stopInterfaceRequest vd => vdOk vd
  | .configurationRequest i fn _ => siteOk i && fnOk fn
  | .functionLevelReset i fn => siteOk i && fnOk fn
  | .hipPerstN i _ => siteOk i
  | .reqTail _ => true
  | .requestTake _ _ => true
  | .managementRingEnable _ => true
  | .managementRingDisable => true
  | .rplHead _ => true
  | .fltHead _ => true
  | .faultRecordWrite i => siteOk i
  | .lossSummary i _ => siteOk i
  | .sliceCreate _ => true
  | .sliceDestroy _ => true
  | .unitBind _ => true
  | .unitUnbind _ => true
  | .unitMove _ => true
  | .allotSet _ => true
  | .schedSet _ => true
  | .coreMode _ => true
  | .labelSet _ => true
  | .shareSet _ => true
  | .guardSet _ => true
  | .mcastRange _ => true
  | .loftBudget _ => true
  | .lendSet _ => true
  | .coreState _ => true
  | .memportState _ => true
  | .linkState _ => true
  | .reset _ => true
  | .escalateSet _ => true
  | .healthGet _ => true
  | .fwStage _ => true
  | .fwActivate _ => true
  | .fwCommit _ => true
  | .fwDiscard _ => true
  | .fwInfo _ => true
  | .attState _ => true
  | .attMeasure _ => true
  | .attReport _ => true
  | .policySet _ => true
  | .pageRetire _ => true
  | .chEvacuate _ => true
  | .chReturn _ => true
  | .weightAllot _ => true
  | .weightLoad _ => true
  | .weightCopy _ => true
  | .weightGrant _ => true
  | .weightRevoke _ => true
  | .weightFree _ => true
  | .linkEnable _ => true
  | .portgroupReset _ => true
  | .chTest _ => true
  | .logLevel _ => true
  | .migrateFreeze _ => true
  | .migratePeer _ => true
  | .migrateSave _ => true
  | .migrateRestore _ => true
  | .migrateCommit _ => true
  | .migrateCancel _ => true
  | .migrateThaw _ => true
  | .spareIn _ => true
  | .healthCheck _ => true
  | .spareGet _ => true
  | .mbxLock i _ box => siteOk i && decide (box < 16)
  | .mbxData i _ box w _ => siteOk i && decide (box < 16) && decide (w < 16)
  | .mbxDoorbell i _ box _ => siteOk i && decide (box < 16)
  | .mbxFree i _ box _ => siteOk i && decide (box < 16)
  | .sourceEdge i proc n => siteOk i && decide (proc < 4) && srcOk n
  | .irqCoalesceExpiry i n => siteOk i && srcOk n
  | .irqClaim i proc => siteOk i && decide (proc < 4)
  | .irqIpi i proc _ => siteOk i && decide (proc < 4)
  | .domainReset i u cause => siteOk i && decide (u < 21) && decide (cause < 16)
  | .resetRelease i u => siteOk i && decide (u < 21)
  | .domainUp i u => siteOk i && decide (u < 21)
  | .spareBringIn i core _ => siteOk i && coreOk core
  | .hang i core _ _ => siteOk i && coreOk core
  | .sequencerReportMiss i cl => siteOk i && decide (cl < 2)
  | .heartbeatMiss i => siteOk i
  | .watchdogExpiry i proc => siteOk i && decide (proc < 4)
  | .siblingHeartbeatMiss i => siteOk i
  | .drainFailure i core => siteOk i && coreOk core
  | .coldRstNRelease i _ => siteOk i
  | .coldRstNAssert i => siteOk i
  | .membershipSettle => true
  | .resetReq i => siteOk i
  | .faultIn i => siteOk i
  | .thermAlert i => siteOk i
  | .hspCattrip i stack => siteOk i && decide (stack < 2)
  | .temperatureSample i sensor _ => siteOk i && decide (sensor < 8)
  | .lossOfLock i lp => siteOk i && decide (lp < 10)
  | .relock i lp => siteOk i && decide (lp < 10)
  | .powerTransition i _ _ => siteOk i
  | .pswAck i k _ => siteOk i && decide (k < 14)
  | .pswAckTimeout i k => siteOk i && decide (k < 14)
  | .debugUnlock i _ => siteOk i
  | .jtagInstruction i _ => siteOk i
  | .tapReset i => siteOk i
  | .entdaa i _ => siteOk i
  | .setdasa i _ => siteOk i
  | .targetReset i => siteOk i
  | .go i ch _ => siteOk i && decide (ch < 80)
  | .stop i ch => siteOk i && decide (ch < 80)
  | .snap i _ => siteOk i
  | .snapClear i _ => siteOk i
  | .lowWordRead a => a.wf
  | .highWordRead a => a.wf
  | .rcRead a => a.wf
  | .registerWrite a _ => a.wf
  | .chainRow i core half => siteOk i && coreOk core && decide (half < 4)
  | .ticketEnd i core _ => siteOk i && coreOk core
  | .moveEnd i core _ _ => siteOk i && coreOk core
  | .evwaitExpiry e => e.wf
  | .scalarInstruction e w => e.wf && decide (w ≠ 0x10500073)
  | .wfi e w => e.wf && decide (w = 0x10500073)
  | .vlaunch e w => e.wf && xhskWord w 0 0
  | .vwait e w => e.wf && xhskWord w 0 1
  | .vpoll e w => e.wf && xhskWord w 0 2
  | .cmcopy e w => e.wf && xhskWord w 0 3
  | .mwait e w => e.wf && xhskWord w 0 4
  | .evwait e w => e.wf && xhskWord w 0 5
  | .evset e w => e.wf && xhskWord w 0 6
  | .sehalt e w => e.wf && xhskWord w 0 7
  | .charm e w => e.wf && xhskWord w 1 7
  | .vabort e w => e.wf && xhskWord w 2 7
  | .vadd e w => e.wf && decide (vecKey w = (0, 0x00))
  | .vsub e w => e.wf && decide (vecKey w = (0, 0x01))
  | .vmul e w => e.wf && decide (vecKey w = (0, 0x02))
  | .vfma e w => e.wf && decide (vecKey w = (0, 0x03))
  | .vfms e w => e.wf && decide (vecKey w = (0, 0x04))
  | .vmax e w => e.wf && decide (vecKey w = (0, 0x05))
  | .vmin e w => e.wf && decide (vecKey w = (0, 0x06))
  | .vabs e w => e.wf && decide (vecKey w = (0, 0x07))
  | .vneg e w => e.wf && decide (vecKey w = (0, 0x08))
  | .vand e w => e.wf && decide (vecKey w = (0, 0x09))
  | .vor e w => e.wf && decide (vecKey w = (0, 0x0A))
  | .vxor e w => e.wf && decide (vecKey w = (0, 0x0B))
  | .vshl e w => e.wf && decide (vecKey w = (0, 0x0C))
  | .vsra e w => e.wf && decide (vecKey w = (0, 0x0D))
  | .vsrl e w => e.wf && decide (vecKey w = (0, 0x0E))
  | .vsel e w => e.wf && decide (vecKey w = (0, 0x0F))
  | .vmov e w => e.wf && decide (vecKey w = (0, 0x10))
  | .vperm e w => e.wf && decide (vecKey w = (0, 0x11))
  | .vcmpeq e w => e.wf && decide (vecKey w = (0, 0x18))
  | .vcmpne e w => e.wf && decide (vecKey w = (0, 0x19))
  | .vcmplt e w => e.wf && decide (vecKey w = (0, 0x1A))
  | .vcmple e w => e.wf && decide (vecKey w = (0, 0x1B))
  | .vcmpuo e w => e.wf && decide (vecKey w = (0, 0x1C))
  | .vrsum e w => e.wf && decide (vecKey w = (0, 0x20))
  | .vrmax e w => e.wf && decide (vecKey w = (0, 0x21))
  | .vrmin e w => e.wf && decide (vecKey w = (0, 0x22))
  | .vadds e w => e.wf && decide (vecKey w = (1, 0x00))
  | .vsubs e w => e.wf && decide (vecKey w = (1, 0x01))
  | .vrsubs e w => e.wf && decide (vecKey w = (1, 0x02))
  | .vmuls e w => e.wf && decide (vecKey w = (1, 0x03))
  | .vfmas e w => e.wf && decide (vecKey w = (1, 0x04))
  | .vmaxs e w => e.wf && decide (vecKey w = (1, 0x05))
  | .vmins e w => e.wf && decide (vecKey w = (1, 0x06))
  | .vands e w => e.wf && decide (vecKey w = (1, 0x07))
  | .vors e w => e.wf && decide (vecKey w = (1, 0x08))
  | .vxors e w => e.wf && decide (vecKey w = (1, 0x09))
  | .vshls e w => e.wf && decide (vecKey w = (1, 0x0A))
  | .vsras e w => e.wf && decide (vecKey w = (1, 0x0B))
  | .vsrls e w => e.wf && decide (vecKey w = (1, 0x0C))
  | .vsplat e w => e.wf && decide (vecKey w = (1, 0x10))
  | .viota e w => e.wf && decide (vecKey w = (1, 0x11))
  | .vexta e w => e.wf && decide (vecKey w = (1, 0x12))
  | .vcmpeqs e w => e.wf && decide (vecKey w = (1, 0x18))
  | .vcmpnes e w => e.wf && decide (vecKey w = (1, 0x19))
  | .vcmplts e w => e.wf && decide (vecKey w = (1, 0x1A))
  | .vcmples e w => e.wf && decide (vecKey w = (1, 0x1B))
  | .vcmpgts e w => e.wf && decide (vecKey w = (1, 0x1C))
  | .vcmpges e w => e.wf && decide (vecKey w = (1, 0x1D))
  | .vld e w => e.wf && decide (vecKey w = (2, 0x00))
  | .vst e w => e.wf && decide (vecKey w = (2, 0x01))
  | .pld e w => e.wf && decide (vecKey w = (2, 0x02))
  | .pst e w => e.wf && decide (vecKey w = (2, 0x03))
  | .chpop e w => e.wf && decide (vecKey w = (2, 0x04))
  | .vcvt e w => e.wf && decide (vecKey w = (3, 0x00))
  | .vexp e w => e.wf && decide (vecKey w = (3, 0x08))
  | .vlog e w => e.wf && decide (vecKey w = (3, 0x09))
  | .vrsqrt e w => e.wf && decide (vecKey w = (3, 0x0A))
  | .vrcp e w => e.wf && decide (vecKey w = (3, 0x0B))
  | .vtanh e w => e.wf && decide (vecKey w = (3, 0x0C))
  | .verf e w => e.wf && decide (vecKey w = (3, 0x0D))
  | .vcNop e w => e.wf && decide (vecKey w = (4, 0x00))
  | .halt e w => e.wf && decide (vecKey w = (4, 0x01))
  | .br e w => e.wf && decide (vecKey w = (4, 0x02))
  | .bz e w => e.wf && decide (vecKey w = (4, 0x03))
  | .bnz e w => e.wf && decide (vecKey w = (4, 0x04))
  | .loop e w => e.wf && decide (vecKey w = (4, 0x05))
  | .pany e w => e.wf && decide (vecKey w = (4, 0x06))
  | .pnone e w => e.wf && decide (vecKey w = (4, 0x07))
  | .ali e w => e.wf && decide (vecKey w = (4, 0x08))
  | .alui e w => e.wf && decide (vecKey w = (4, 0x09))
  | .aaddi e w => e.wf && decide (vecKey w = (4, 0x0A))
  | .aadd e w => e.wf && decide (vecKey w = (4, 0x0B))
  | .asub e w => e.wf && decide (vecKey w = (4, 0x0C))
  | .amul e w => e.wf && decide (vecKey w = (4, 0x0D))
  | .ashli e w => e.wf && decide (vecKey w = (4, 0x0E))
  | .ashri e w => e.wf && decide (vecKey w = (4, 0x0F))
  | .pand e w => e.wf && decide (vecKey w = (4, 0x10))
  | .por e w => e.wf && decide (vecKey w = (4, 0x11))
  | .pxor e w => e.wf && decide (vecKey w = (4, 0x12))
  | .pnot e w => e.wf && decide (vecKey w = (4, 0x13))
  | .setvl e w => e.wf && decide (vecKey w = (4, 0x18))
  | .flgrd e w => e.wf && decide (vecKey w = (4, 0x1A))
  | .srseed e w => e.wf && decide (vecKey w = (4, 0x1B))
  | .fence e w => e.wf && decide (vecKey w = (4, 0x1C))
  | .evsig e w => e.wf && decide (vecKey w = (4, 0x1D))
  | .hotReset i => siteOk i
  | .hostCompletionTimeout c => c.wf
  | .workUnitBoundary i core q _ => siteOk i && coreOk core && quadOk q
  | .moduleLeavesPort i j k => siteOk i && decide (j < 4) && decide (k < 4)
  | .releaseWaitExpiry vd _ => vdOk vd

set_option maxRecDepth 4000 in
/-- The sites a command names. -/
def Instr.sites (ins : Instr) : List Nat :=
  match ins with
  | .nop _ => []
  | .streamCreate _ => []
  | .streamDestroy _ => []
  | .streamAbort _ => []
  | .sliceInfo _ => []
  | .noelRingSet _ => []
  | .aspaceCreate _ => []
  | .aspaceDestroy _ => []
  | .objCreate _ => []
  | .objFree _ => []
  | .map _ => []
  | .unmap _ => []
  | .faultResolve _ => []
  | .tensorTile _ => []
  | .attention _ => []
  | .scalarRun _ => []
  | .select _ => []
  | .gatherScatter _ => []
  | .layout _ => []
  | .codec _ => []
  | .route _ => []
  | .reduce _ => []
  | .reduceArm _ => []
  | .dmaCopy _ => []
  | .dmaFill _ => []
  | .fabAtomic _ => []
  | .loftAcquire _ => []
  | .loftRelease _ => []
  | .mcastGroupSet _ => []
  | .mcastWrite _ => []
  | .collective _ => []
  | .feDoorbell _ _ => []
  | .submissionRead _ _ _ => []
  | .fetchLost _ _ _ => []
  | .descriptorPlace _ _ => []
  | .feNoelDb _ _ _ => []
  | .commandReady _ => []
  | .commandIssue _ => []
  | .commandEnd _ => []
  | .commandTimeout _ => []
  | .fenceSignal _ => []
  | .fenceReevaluate _ => []
  | .completionRecordWrite _ => []
  | .msixCoalesceExpiry _ _ => []
  | .msixUnmask _ _ => []
  | .streamFreed _ _ => []
  | .feCqHead _ _ => []
  | .feEqHead _ _ => []
  | .feFqHead _ _ => []
  | .feNoelCqHead _ _ _ => []
  | .ringEnable _ => []
  | .ringDisable _ => []
  | .feStreamResume _ _ => []
  | .dvaFault _ _ _ _ => []
  | .faultBatchWrite _ => []
  | .faultRingFullExpiry _ => []
  | .faultEntryExpiry _ _ => []
  | .invalidationAck _ _ => []
  | .invalidationDrain _ _ => []
  | .atsInvalidation _ _ _ => []
  | .pageRequestResponse _ _ => []
  | .hostCompletion _ _ _ _ => []
  | .release _ _ => []
  | .tileBoundary i _ _ => [i]
  | .quantumExpiry i _ _ => [i]
  | .reelIdleYield i _ _ => [i]
  | .switchWindow i _ _ => [i]
  | .zeroingDone i _ _ => [i]
  | .budgetWindowEnd i _ _ _ _ => [i]
  | .memoryRead i _ _ => [i]
  | .memoryWrite i _ _ => [i]
  | .refresh i _ => [i]
  | .phyMasterRequest i _ => [i]
  | .memoryPortTraining i _ _ => [i]
  | .phyReadyTimeout i _ => [i]
  | .sweep i => [i]
  | .claim i _ => [i]
  | .copy i _ _ => [i]
  | .reCopy i _ _ => [i]
  | .switch i _ => [i]
  | .tgPatternDone i _ _ => [i]
  | .readReq i _ => [i]
  | .readRsp i _ => [i]
  | .write i _ => [i]
  | .writeAck i _ => [i]
  | .atomic i _ => [i]
  | .atomicRsp i _ => [i]
  | .fenceSig i _ => [i]
  | .fenceAck i _ => [i]
  | .contrib i _ => [i]
  | .contribAck i _ => [i]
  | .control i _ => [i]
  | .controlAck i _ => [i]
  | .linkFrame i _ _ _ _ => [i]
  | .acknowledgement i _ _ => [i]
  | .negativeAcknowledgement i _ _ => [i]
  | .creditReturn i _ _ => [i]
  | .detect i _ _ => [i]
  | .linkMap i _ _ => [i]
  | .equalise i _ _ => [i]
  | .align i _ _ => [i]
  | .credit i _ _ _ => [i]
  | .laneLoss i _ _ => [i]
  | .linkRetry i _ => [i]
  | .transportTimeout i _ => [i]
  | .forwardTimeout i _ => [i]
  | .holdTimeExpiry _ _ => []
  | .fabRt i _ _ => [i]
  | .fabQuiesceReq i _ => [i]
  | .fabQuiesceDone i => [i]
  | .dmaQuiesceReq i _ => [i]
  | .quiesceClear i _ => [i]
  | .d2dTraining i _ _ => [i]
  | .d2dPortDown i _ => [i]
  | .keyCreate i _ _ => [i]
  | .keyInstall i _ _ _ _ => [i]
  | .keyWrap i _ _ => [i]
  | .keyDrain i _ => [i]
  | .keyDestroy i _ => [i]
  | .removalStep _ => []
  | .getMeasurements _ => []
  | .sliceReport _ _ => []
  | .spdmRequest _ => []
  | .ideKm i _ _ _ => [i]
  | .ideStreamLoss i _ => [i]
  | .getTdispVersion _ => []
  | .getTdispCapabilities _ => []
  | .lockInterfaceRequest _ _ => []
  | .getDeviceInterfaceReport _ => []
  | .getDeviceInterfaceState _ => []
  | .startInterfaceRequest _ => []
  | .stopInterfaceRequest _ => []
  | .configurationRequest i _ _ => [i]
  | .functionLevelReset i _ => [i]
  | .hipPerstN i _ => [i]
  | .reqTail _ => []
  | .requestTake _ _ => []
  | .managementRingEnable _ => []
  | .managementRingDisable => []
  | .rplHead _ => []
  | .fltHead _ => []
  | .faultRecordWrite i => [i]
  | .lossSummary i _ => [i]
  | .sliceCreate _ => []
  | .sliceDestroy _ => []
  | .unitBind _ => []
  | .unitUnbind _ => []
  | .unitMove _ => []
  | .allotSet _ => []
  | .schedSet _ => []
  | .coreMode _ => []
  | .labelSet _ => []
  | .shareSet _ => []
  | .guardSet _ => []
  | .mcastRange _ => []
  | .loftBudget _ => []
  | .lendSet _ => []
  | .coreState _ => []
  | .memportState _ => []
  | .linkState _ => []
  | .reset _ => []
  | .escalateSet _ => []
  | .healthGet _ => []
  | .fwStage _ => []
  | .fwActivate _ => []
  | .fwCommit _ => []
  | .fwDiscard _ => []
  | .fwInfo _ => []
  | .attState _ => []
  | .attMeasure _ => []
  | .attReport _ => []
  | .policySet _ => []
  | .pageRetire _ => []
  | .chEvacuate _ => []
  | .chReturn _ => []
  | .weightAllot _ => []
  | .weightLoad _ => []
  | .weightCopy _ => []
  | .weightGrant _ => []
  | .weightRevoke _ => []
  | .weightFree _ => []
  | .linkEnable _ => []
  | .portgroupReset _ => []
  | .chTest _ => []
  | .logLevel _ => []
  | .migrateFreeze _ => []
  | .migratePeer _ => []
  | .migrateSave _ => []
  | .migrateRestore _ => []
  | .migrateCommit _ => []
  | .migrateCancel _ => []
  | .migrateThaw _ => []
  | .spareIn _ => []
  | .healthCheck _ => []
  | .spareGet _ => []
  | .mbxLock i _ _ => [i]
  | .mbxData i _ _ _ _ => [i]
  | .mbxDoorbell i _ _ _ => [i]
  | .mbxFree i _ _ _ => [i]
  | .sourceEdge i _ _ => [i]
  | .irqCoalesceExpiry i _ => [i]
  | .irqClaim i _ => [i]
  | .irqIpi i _ _ => [i]
  | .domainReset i _ _ => [i]
  | .resetRelease i _ => [i]
  | .domainUp i _ => [i]
  | .spareBringIn i _ _ => [i]
  | .hang i _ _ _ => [i]
  | .sequencerReportMiss i _ => [i]
  | .heartbeatMiss i => [i]
  | .watchdogExpiry i _ => [i]
  | .siblingHeartbeatMiss i => [i]
  | .drainFailure i _ => [i]
  | .coldRstNRelease i _ => [i]
  | .coldRstNAssert i => [i]
  | .membershipSettle => []
  | .resetReq i => [i]
  | .faultIn i => [i]
  | .thermAlert i => [i]
  | .hspCattrip i _ => [i]
  | .temperatureSample i _ _ => [i]
  | .lossOfLock i _ => [i]
  | .relock i _ => [i]
  | .powerTransition i _ _ => [i]
  | .pswAck i _ _ => [i]
  | .pswAckTimeout i _ => [i]
  | .debugUnlock i _ => [i]
  | .jtagInstruction i _ => [i]
  | .tapReset i => [i]
  | .entdaa i _ => [i]
  | .setdasa i _ => [i]
  | .targetReset i => [i]
  | .go i _ _ => [i]
  | .stop i _ => [i]
  | .snap i _ => [i]
  | .snapClear i _ => [i]
  | .lowWordRead _ => []
  | .highWordRead _ => []
  | .rcRead _ => []
  | .registerWrite _ _ => []
  | .chainRow i _ _ => [i]
  | .ticketEnd i _ _ => [i]
  | .moveEnd i _ _ _ => [i]
  | .evwaitExpiry e => [e.site]
  | .scalarInstruction e _ => [e.site]
  | .wfi e _ => [e.site]
  | .vlaunch e _ => [e.site]
  | .vwait e _ => [e.site]
  | .vpoll e _ => [e.site]
  | .cmcopy e _ => [e.site]
  | .mwait e _ => [e.site]
  | .evwait e _ => [e.site]
  | .evset e _ => [e.site]
  | .sehalt e _ => [e.site]
  | .charm e _ => [e.site]
  | .vabort e _ => [e.site]
  | .vadd e _ => [e.site]
  | .vsub e _ => [e.site]
  | .vmul e _ => [e.site]
  | .vfma e _ => [e.site]
  | .vfms e _ => [e.site]
  | .vmax e _ => [e.site]
  | .vmin e _ => [e.site]
  | .vabs e _ => [e.site]
  | .vneg e _ => [e.site]
  | .vand e _ => [e.site]
  | .vor e _ => [e.site]
  | .vxor e _ => [e.site]
  | .vshl e _ => [e.site]
  | .vsra e _ => [e.site]
  | .vsrl e _ => [e.site]
  | .vsel e _ => [e.site]
  | .vmov e _ => [e.site]
  | .vperm e _ => [e.site]
  | .vcmpeq e _ => [e.site]
  | .vcmpne e _ => [e.site]
  | .vcmplt e _ => [e.site]
  | .vcmple e _ => [e.site]
  | .vcmpuo e _ => [e.site]
  | .vrsum e _ => [e.site]
  | .vrmax e _ => [e.site]
  | .vrmin e _ => [e.site]
  | .vadds e _ => [e.site]
  | .vsubs e _ => [e.site]
  | .vrsubs e _ => [e.site]
  | .vmuls e _ => [e.site]
  | .vfmas e _ => [e.site]
  | .vmaxs e _ => [e.site]
  | .vmins e _ => [e.site]
  | .vands e _ => [e.site]
  | .vors e _ => [e.site]
  | .vxors e _ => [e.site]
  | .vshls e _ => [e.site]
  | .vsras e _ => [e.site]
  | .vsrls e _ => [e.site]
  | .vsplat e _ => [e.site]
  | .viota e _ => [e.site]
  | .vexta e _ => [e.site]
  | .vcmpeqs e _ => [e.site]
  | .vcmpnes e _ => [e.site]
  | .vcmplts e _ => [e.site]
  | .vcmples e _ => [e.site]
  | .vcmpgts e _ => [e.site]
  | .vcmpges e _ => [e.site]
  | .vld e _ => [e.site]
  | .vst e _ => [e.site]
  | .pld e _ => [e.site]
  | .pst e _ => [e.site]
  | .chpop e _ => [e.site]
  | .vcvt e _ => [e.site]
  | .vexp e _ => [e.site]
  | .vlog e _ => [e.site]
  | .vrsqrt e _ => [e.site]
  | .vrcp e _ => [e.site]
  | .vtanh e _ => [e.site]
  | .verf e _ => [e.site]
  | .vcNop e _ => [e.site]
  | .halt e _ => [e.site]
  | .br e _ => [e.site]
  | .bz e _ => [e.site]
  | .bnz e _ => [e.site]
  | .loop e _ => [e.site]
  | .pany e _ => [e.site]
  | .pnone e _ => [e.site]
  | .ali e _ => [e.site]
  | .alui e _ => [e.site]
  | .aaddi e _ => [e.site]
  | .aadd e _ => [e.site]
  | .asub e _ => [e.site]
  | .amul e _ => [e.site]
  | .ashli e _ => [e.site]
  | .ashri e _ => [e.site]
  | .pand e _ => [e.site]
  | .por e _ => [e.site]
  | .pxor e _ => [e.site]
  | .pnot e _ => [e.site]
  | .setvl e _ => [e.site]
  | .flgrd e _ => [e.site]
  | .srseed e _ => [e.site]
  | .fence e _ => [e.site]
  | .evsig e _ => [e.site]
  | .hotReset i => [i]
  | .hostCompletionTimeout _ => []
  | .workUnitBoundary i _ _ _ => [i]
  | .moduleLeavesPort i _ _ => [i]
  | .releaseWaitExpiry _ _ => []

set_option maxRecDepth 4000 in
/-- The virtual devices a command names. -/
def Instr.vds (ins : Instr) : List Nat :=
  match ins with
  | .nop c => [c.vd]
  | .streamCreate c => [c.vd]
  | .streamDestroy c => [c.vd]
  | .streamAbort c => [c.vd]
  | .sliceInfo c => [c.vd]
  | .noelRingSet c => [c.vd]
  | .aspaceCreate c => [c.vd]
  | .aspaceDestroy c => [c.vd]
  | .objCreate c => [c.vd]
  | .objFree c => [c.vd]
  | .map c => [c.vd]
  | .unmap c => [c.vd]
  | .faultResolve c => [c.vd]
  | .tensorTile c => [c.vd]
  | .attention c => [c.vd]
  | .scalarRun c => [c.vd]
  | .select c => [c.vd]
  | .gatherScatter c => [c.vd]
  | .layout c => [c.vd]
  | .codec c => [c.vd]
  | .route c => [c.vd]
  | .reduce c => [c.vd]
  | .reduceArm c => [c.vd]
  | .dmaCopy c => [c.vd]
  | .dmaFill c => [c.vd]
  | .fabAtomic c => [c.vd]
  | .loftAcquire c => [c.vd]
  | .loftRelease c => [c.vd]
  | .mcastGroupSet c => [c.vd]
  | .mcastWrite c => [c.vd]
  | .collective c => [c.vd]
  | .feDoorbell vd _ => [vd]
  | .submissionRead vd _ _ => [vd]
  | .fetchLost vd _ _ => [vd]
  | .descriptorPlace vd _ => [vd]
  | .feNoelDb vd _ _ => [vd]
  | .commandReady c => [c.vd]
  | .commandIssue c => [c.vd]
  | .commandEnd c => [c.vd]
  | .commandTimeout c => [c.vd]
  | .fenceSignal c => [c.vd]
  | .fenceReevaluate c => [c.vd]
  | .completionRecordWrite c => [c.vd]
  | .msixCoalesceExpiry vd _ => [vd]
  | .msixUnmask vd _ => [vd]
  | .streamFreed vd _ => [vd]
  | .feCqHead vd _ => [vd]
  | .feEqHead vd _ => [vd]
  | .feFqHead vd _ => [vd]
  | .feNoelCqHead vd _ _ => [vd]
  | .ringEnable vd => [vd]
  | .ringDisable vd => [vd]
  | .feStreamResume vd _ => [vd]
  | .dvaFault c _ _ _ => [c.vd]
  | .faultBatchWrite vd => [vd]
  | .faultRingFullExpiry vd => [vd]
  | .faultEntryExpiry vd _ => [vd]
  | .invalidationAck vd _ => [vd]
  | .invalidationDrain vd _ => [vd]
  | .atsInvalidation vd _ _ => [vd]
  | .pageRequestResponse c _ => [c.vd]
  | .hostCompletion c _ _ _ => [c.vd]
  | .release vd _ => [vd]
  | .tileBoundary _ _ _ => []
  | .quantumExpiry _ _ _ => []
  | .reelIdleYield _ _ _ => []
  | .switchWindow _ _ _ => []
  | .zeroingDone _ _ _ => []
  | .budgetWindowEnd _ slice _ _ _ => [slice]
  | .memoryRead _ _ _ => []
  | .memoryWrite _ _ _ => []
  | .refresh _ _ => []
  | .phyMasterRequest _ _ => []
  | .memoryPortTraining _ _ _ => []
  | .phyReadyTimeout _ _ => []
  | .sweep _ => []
  | .claim _ _ => []
  | .copy _ _ _ => []
  | .reCopy _ _ _ => []
  | .switch _ _ => []
  | .tgPatternDone _ _ _ => []
  | .readReq _ _ => []
  | .readRsp _ _ => []
  | .write _ _ => []
  | .writeAck _ _ => []
  | .atomic _ _ => []
  | .atomicRsp _ _ => []
  | .fenceSig _ _ => []
  | .fenceAck _ _ => []
  | .contrib _ _ => []
  | .contribAck _ _ => []
  | .control _ _ => []
  | .controlAck _ _ => []
  | .linkFrame _ _ _ _ _ => []
  | .acknowledgement _ _ _ => []
  | .negativeAcknowledgement _ _ _ => []
  | .creditReturn _ _ _ => []
  | .detect _ _ _ => []
  | .linkMap _ _ _ => []
  | .equalise _ _ _ => []
  | .align _ _ _ => []
  | .credit _ _ _ _ => []
  | .laneLoss _ _ _ => []
  | .linkRetry _ _ => []
  | .transportTimeout _ _ => []
  | .forwardTimeout _ _ => []
  | .holdTimeExpiry c _ => [c.vd]
  | .fabRt _ _ _ => []
  | .fabQuiesceReq _ _ => []
  | .fabQuiesceDone _ => []
  | .dmaQuiesceReq _ _ => []
  | .quiesceClear _ _ => []
  | .d2dTraining _ _ _ => []
  | .d2dPortDown _ _ => []
  | .keyCreate _ _ slice => [slice]
  | .keyInstall _ _ slice _ _ => [slice]
  | .keyWrap _ _ _ => []
  | .keyDrain _ _ => []
  | .keyDestroy _ _ => []
  | .removalStep slice => [slice]
  | .getMeasurements _ => []
  | .sliceReport vd _ => [vd]
  | .spdmRequest _ => []
  | .ideKm _ _ _ _ => []
  | .ideStreamLoss _ _ => []
  | .getTdispVersion vd => [vd]
  | .getTdispCapabilities vd => [vd]
  | .lockInterfaceRequest vd _ => [vd]
  | .getDeviceInterfaceReport vd => [vd]
  | .getDeviceInterfaceState vd => [vd]
  | .startInterfaceRequest vd => [vd]
  | .stopInterfaceRequest vd => [vd]
  | .configurationRequest _ _ _ => []
  | .functionLevelReset _ _ => []
  | .hipPerstN _ _ => []
  | .reqTail _ => []
  | .requestTake _ _ => []
  | .managementRingEnable _ => []
  | .managementRingDisable => []
  | .rplHead _ => []
  | .fltHead _ => []
  | .faultRecordWrite _ => []
  | .lossSummary _ _ => []
  | .sliceCreate _ => []
  | .sliceDestroy _ => []
  | .unitBind _ => []
  | .unitUnbind _ => []
  | .unitMove _ => []
  | .allotSet _ => []
  | .schedSet _ => []
  | .coreMode _ => []
  | .labelSet _ => []
  | .shareSet _ => []
  | .guardSet _ => []
  | .mcastRange _ => []
  | .loftBudget _ => []
  | .lendSet _ => []
  | .coreState _ => []
  | .memportState _ => []
  | .linkState _ => []
  | .reset _ => []
  | .escalateSet _ => []
  | .healthGet _ => []
  | .fwStage _ => []
  | .fwActivate _ => []
  | .fwCommit _ => []
  | .fwDiscard _ => []
  | .fwInfo _ => []
  | .attState _ => []
  | .attMeasure _ => []
  | .attReport _ => []
  | .policySet _ => []
  | .pageRetire _ => []
  | .chEvacuate _ => []
  | .chReturn _ => []
  | .weightAllot _ => []
  | .weightLoad _ => []
  | .weightCopy _ => []
  | .weightGrant _ => []
  | .weightRevoke _ => []
  | .weightFree _ => []
  | .linkEnable _ => []
  | .portgroupReset _ => []
  | .chTest _ => []
  | .logLevel _ => []
  | .migrateFreeze _ => []
  | .migratePeer _ => []
  | .migrateSave _ => []
  | .migrateRestore _ => []
  | .migrateCommit _ => []
  | .migrateCancel _ => []
  | .migrateThaw _ => []
  | .spareIn _ => []
  | .healthCheck _ => []
  | .spareGet _ => []
  | .mbxLock _ _ _ => []
  | .mbxData _ _ _ _ _ => []
  | .mbxDoorbell _ _ _ _ => []
  | .mbxFree _ _ _ _ => []
  | .sourceEdge _ _ _ => []
  | .irqCoalesceExpiry _ _ => []
  | .irqClaim _ _ => []
  | .irqIpi _ _ _ => []
  | .domainReset _ _ _ => []
  | .resetRelease _ _ => []
  | .domainUp _ _ => []
  | .spareBringIn _ _ _ => []
  | .hang _ _ _ _ => []
  | .sequencerReportMiss _ _ => []
  | .heartbeatMiss _ => []
  | .watchdogExpiry _ _ => []
  | .siblingHeartbeatMiss _ => []
  | .drainFailure _ _ => []
  | .coldRstNRelease _ _ => []
  | .coldRstNAssert _ => []
  | .membershipSettle => []
  | .resetReq _ => []
  | .faultIn _ => []
  | .thermAlert _ => []
  | .hspCattrip _ _ => []
  | .temperatureSample _ _ _ => []
  | .lossOfLock _ _ => []
  | .relock _ _ => []
  | .powerTransition _ _ _ => []
  | .pswAck _ _ _ => []
  | .pswAckTimeout _ _ => []
  | .debugUnlock _ _ => []
  | .jtagInstruction _ _ => []
  | .tapReset _ => []
  | .entdaa _ _ => []
  | .setdasa _ _ => []
  | .targetReset _ => []
  | .go _ _ _ => []
  | .stop _ _ => []
  | .snap _ _ => []
  | .snapClear _ _ => []
  | .lowWordRead _ => []
  | .highWordRead _ => []
  | .rcRead _ => []
  | .registerWrite _ _ => []
  | .chainRow _ _ _ => []
  | .ticketEnd _ _ _ => []
  | .moveEnd _ _ _ _ => []
  | .evwaitExpiry _ => []
  | .scalarInstruction _ _ => []
  | .wfi _ _ => []
  | .vlaunch _ _ => []
  | .vwait _ _ => []
  | .vpoll _ _ => []
  | .cmcopy _ _ => []
  | .mwait _ _ => []
  | .evwait _ _ => []
  | .evset _ _ => []
  | .sehalt _ _ => []
  | .charm _ _ => []
  | .vabort _ _ => []
  | .vadd _ _ => []
  | .vsub _ _ => []
  | .vmul _ _ => []
  | .vfma _ _ => []
  | .vfms _ _ => []
  | .vmax _ _ => []
  | .vmin _ _ => []
  | .vabs _ _ => []
  | .vneg _ _ => []
  | .vand _ _ => []
  | .vor _ _ => []
  | .vxor _ _ => []
  | .vshl _ _ => []
  | .vsra _ _ => []
  | .vsrl _ _ => []
  | .vsel _ _ => []
  | .vmov _ _ => []
  | .vperm _ _ => []
  | .vcmpeq _ _ => []
  | .vcmpne _ _ => []
  | .vcmplt _ _ => []
  | .vcmple _ _ => []
  | .vcmpuo _ _ => []
  | .vrsum _ _ => []
  | .vrmax _ _ => []
  | .vrmin _ _ => []
  | .vadds _ _ => []
  | .vsubs _ _ => []
  | .vrsubs _ _ => []
  | .vmuls _ _ => []
  | .vfmas _ _ => []
  | .vmaxs _ _ => []
  | .vmins _ _ => []
  | .vands _ _ => []
  | .vors _ _ => []
  | .vxors _ _ => []
  | .vshls _ _ => []
  | .vsras _ _ => []
  | .vsrls _ _ => []
  | .vsplat _ _ => []
  | .viota _ _ => []
  | .vexta _ _ => []
  | .vcmpeqs _ _ => []
  | .vcmpnes _ _ => []
  | .vcmplts _ _ => []
  | .vcmples _ _ => []
  | .vcmpgts _ _ => []
  | .vcmpges _ _ => []
  | .vld _ _ => []
  | .vst _ _ => []
  | .pld _ _ => []
  | .pst _ _ => []
  | .chpop _ _ => []
  | .vcvt _ _ => []
  | .vexp _ _ => []
  | .vlog _ _ => []
  | .vrsqrt _ _ => []
  | .vrcp _ _ => []
  | .vtanh _ _ => []
  | .verf _ _ => []
  | .vcNop _ _ => []
  | .halt _ _ => []
  | .br _ _ => []
  | .bz _ _ => []
  | .bnz _ _ => []
  | .loop _ _ => []
  | .pany _ _ => []
  | .pnone _ _ => []
  | .ali _ _ => []
  | .alui _ _ => []
  | .aaddi _ _ => []
  | .aadd _ _ => []
  | .asub _ _ => []
  | .amul _ _ => []
  | .ashli _ _ => []
  | .ashri _ _ => []
  | .pand _ _ => []
  | .por _ _ => []
  | .pxor _ _ => []
  | .pnot _ _ => []
  | .setvl _ _ => []
  | .flgrd _ _ => []
  | .srseed _ _ => []
  | .fence _ _ => []
  | .evsig _ _ => []
  | .hotReset _ => []
  | .hostCompletionTimeout c => [c.vd]
  | .workUnitBoundary _ _ _ _ => []
  | .moduleLeavesPort _ _ _ => []
  | .releaseWaitExpiry vd _ => [vd]

end Sys2Proof
end

