-- ==== Sys2Proof/Config.lean ====
section
/-! DEFINITION. What an implementation fixes and what the spec leaves open. Every constant here is opaque: no proof
can see a value of it, so a statement about it holds whatever the hardware gives (log entries 4 to 8). -/

namespace Sys2Proof.Config

/-- A fresh 64-bit value the spec leaves open, by the number of the draw (`State.free`). -/
opaque freeWord : Nat → BitVec 64

/-- FP32 results of the transcendentals where R105 gives only an error bound: the function's number, then the
operand's FP32 bits. -/
opaque transcendental : Nat → BitVec 32 → BitVec 32

/-- The page of host memory that a native ring lies at when no mapping has been made by command yet (R328), by virtual
device and ring. -/
opaque ringBus : Nat → Nat → BitVec 45

/-- A 256-bit secret drawn by the key store's DRBG (R435), by the number of the draw. -/
opaque drbg : Nat → BitVec 256

/-- SHA-384 of a byte string (FIPS 180-4, named by R445, R448, R451). -/
opaque sha384 : List (BitVec 8) → BitVec 384

/-- SHA-384 of the ROM (measurement 1 of R451). -/
opaque romDigest : BitVec 384

/-- The 384-bit identity seed that the SRAM-PUF of a site gives at every boot (R448). -/
opaque idSeed : Nat → BitVec 384

/-- An ECDSA P-384 signature, r then s (R449, R454), of a byte string. -/
opaque ecdsaP384 : List (BitVec 8) → BitVec 768

/-- Ciphertext of the migration path and of sealed packets (AES-256-GCM, R287, R457): key, nonce,
additional data and plaintext; the 16-byte tag follows it. -/
opaque gcmSeal : BitVec 256 → Nat → List (BitVec 8) → List (BitVec 8) → List (BitVec 8)

/-- A slot secret wrapped with AES-KW for a peer (R438). -/
opaque aesWrap : BitVec 256 → List (BitVec 8)

/-- SHA-384 of the identity public key of the lead of another part (DST_ID of R457), by part. -/
opaque peerId : Nat → BitVec 384

end Sys2Proof.Config
end

