-- ==== Sys2Proof/Machine/Num.lean ====
section
/-! DEFINITION. Number formats and arithmetic: exact values, the encodings of R49, rounding, the conversion rules of
R70, IEEE 754 operations on top of them (R99, R113), and the Philox generator of R593. -/

namespace Sys2Proof.Machine

/-- An exact value: NaN (signalling or not), an infinity, or `(-1)^neg * mag * 2^exp`. -/
inductive Fp where
  | nan (sig : Bool)
  | inf (neg : Bool)
  | fin (neg : Bool) (mag : Nat) (exp : Int)
  deriving DecidableEq, Repr, Inhabited

/-- Which encodings of a format are special (the Inf and NaN columns of R49). -/
inductive Special where
  | ieee | topNan | none
  deriving DecidableEq, Repr, Inhabited

/-- A floating-point format: exponent bits, mantissa bits, bias and special encodings (R49). -/
structure Fmt where
  ebits : Nat
  mbits : Nat
  bias : Int
  special : Special
  deriving DecidableEq, Repr, Inhabited

/-- FP32 (R49). -/
def fp32 : Fmt := ⟨8, 23, 127, .ieee⟩
/-- BF16 (R49). -/
def bf16 : Fmt := ⟨8, 7, 127, .ieee⟩
/-- FP16 (R49). -/
def fp16 : Fmt := ⟨5, 10, 15, .ieee⟩
/-- E4M3 (R49). -/
def e4m3 : Fmt := ⟨4, 3, 7, .topNan⟩
/-- E5M2 (R49). -/
def e5m2 : Fmt := ⟨5, 2, 15, .ieee⟩
/-- E2M3 (R49). -/
def e2m3 : Fmt := ⟨2, 3, 1, .none⟩
/-- E3M2 (R49). -/
def e3m2 : Fmt := ⟨3, 2, 3, .none⟩
/-- E2M1 (R49). -/
def e2m1 : Fmt := ⟨2, 1, 1, .none⟩

/-- Width of a format in bits. -/
def Fmt.width (f : Fmt) : Nat := 1 + f.ebits + f.mbits

/-- The smallest normal exponent. -/
def Fmt.emin (f : Fmt) : Int := 1 - f.bias

/-- The largest finite magnitude, as mantissa and exponent (R49). -/
def Fmt.maxFin (f : Fmt) : Nat × Int :=
  match f.special with
  | .ieee => (2 ^ (f.mbits + 1) - 1, ((2 ^ f.ebits - 2 : Nat) : Int) - f.bias - f.mbits)
  | .topNan => (2 ^ (f.mbits + 1) - 2, ((2 ^ f.ebits - 1 : Nat) : Int) - f.bias - f.mbits)
  | .none => (2 ^ (f.mbits + 1) - 1, ((2 ^ f.ebits - 1 : Nat) : Int) - f.bias - f.mbits)

/-- The value an encoding stands for (R49). -/
def Fmt.decode (f : Fmt) (w : Nat) : Fp :=
  let m := w % 2 ^ f.mbits
  let e := (w >>> f.mbits) % 2 ^ f.ebits
  let neg := w.testBit (f.mbits + f.ebits)
  let top := 2 ^ f.ebits - 1
  match f.special, decide (e = top) with
  | .ieee, true => if m = 0 then .inf neg else .nan (decide (7 ≤ f.mbits) && !m.testBit (f.mbits - 1))
  | .topNan, true =>
    if m = 2 ^ f.mbits - 1 then .nan false
    else .fin neg (m + 2 ^ f.mbits) ((e : Int) - f.bias - f.mbits)
  | _, _ =>
    if e = 0 then .fin neg m (f.emin - f.mbits)
    else .fin neg (m + 2 ^ f.mbits) ((e : Int) - f.bias - f.mbits)

/-- The canonical NaN (R70; FP32's by R59). -/
def Fmt.canonNan (f : Fmt) : Nat :=
  match f.special with
  | .topNan => 0x7F
  | _ => if f = e5m2 then 0x7F else (2 ^ f.ebits - 1) <<< f.mbits ||| 2 ^ (f.mbits - 1)

/-- The encoding of an infinity; E4M3 has none and gives NaN (R70). -/
def Fmt.infBits (f : Fmt) (neg : Bool) : Nat :=
  match f.special with
  | .ieee => (if neg then 2 ^ (f.width - 1) else 0) + (2 ^ f.ebits - 1) <<< f.mbits
  | _ => f.canonNan

/-- Encodes `n * 2^q`, already rounded and in range. -/
def Fmt.encodeFin (f : Fmt) (neg : Bool) (n : Nat) (q : Int) : Nat :=
  let sgn := if neg then 2 ^ (f.width - 1) else 0
  let (n, q) := if n = 2 ^ (f.mbits + 1) then (n / 2, q + 1) else (n, q)
  if n < 2 ^ f.mbits then sgn + n
  else sgn + ((q + f.mbits + f.bias).toNat <<< f.mbits) + (n - 2 ^ f.mbits)

/-- The encoding of the largest finite value. -/
def Fmt.maxBits (f : Fmt) (neg : Bool) : Nat := f.encodeFin neg f.maxFin.1 f.maxFin.2

/-- Rounding modes: those of R75 and R96, and the RISC-V ones; stochastic carries its draw (R71). -/
inductive Rm where
  | rne | rtz | rdn | rup | rmm
  | sto (r : Nat)
  deriving DecidableEq, Repr, Inhabited

/-- The conditions an operation meets: R109's five, and inexact. -/
structure FpFlags where
  nv : Bool := false
  dz : Bool := false
  of : Bool := false
  uf : Bool := false
  sat : Bool := false
  nx : Bool := false
  deriving DecidableEq, Repr, Inhabited

/-- Both sets of conditions. -/
def FpFlags.or (a b : FpFlags) : FpFlags :=
  ⟨a.nv || b.nv, a.dz || b.dz, a.of || b.of, a.uf || b.uf, a.sat || b.sat, a.nx || b.nx⟩

/-- The flag bits of R109. -/
def FpFlags.bits (a : FpFlags) : BitVec 5 :=
  BitVec.ofNat 5 (a.nv.toNat + 2 * a.dz.toNat + 4 * a.of.toNat + 8 * a.uf.toNat + 16 * a.sat.toNat)

/-- `mag * 2^exp` rounded to a multiple of `2^q`: the multiple, and whether it is inexact. -/
def roundTo (rm : Rm) (neg : Bool) (mag : Nat) (exp q : Int) : Nat × Bool :=
  if q ≤ exp then (mag <<< (exp - q).toNat, false)
  else
    let k := (q - exp).toNat
    let n := mag >>> k
    let r := mag % 2 ^ k
    let half := 2 ^ (k - 1)
    let up := match rm with
      | .rne => decide (half < r) || (decide (r = half) && n.testBit 0)
      | .rtz => false
      | .rdn => neg && decide (r ≠ 0)
      | .rup => !neg && decide (r ≠ 0)
      | .rmm => decide (half ≤ r)
      | .sto d => decide (d < (r <<< 16) >>> k)
    (n + up.toNat, decide (r ≠ 0))

/-- The step of the rounded result: the precision's, or the subnormal step. -/
def Fmt.quantum (f : Fmt) (mag : Nat) (exp : Int) : Int :=
  max ((Nat.log2 mag : Int) + exp - f.mbits) (f.emin - f.mbits)

/-- Whether `n * 2^q` exceeds the largest finite value. -/
def Fmt.overflows (f : Fmt) (n : Nat) (q : Int) : Bool :=
  let (mm, me) := f.maxFin
  if q ≤ me then decide (mm <<< (me - q).toNat < n) else decide (mm < n <<< (q - me).toNat)

/-- Whether the rounded result is subnormal or zero. -/
def Fmt.tiny (f : Fmt) (n : Nat) (q : Int) : Bool :=
  decide (q = f.emin - f.mbits) && decide (n < 2 ^ f.mbits)

/-- Conversion to a format under R70: the encoding, with `of` for an overflow and `sat` where the result is ±max
finite in place of an overflow or an infinity. -/
def Fmt.convert (f : Fmt) (rm : Rm) (sat : Bool) (x : Fp) : Nat × FpFlags :=
  match x with
  | .nan _ => (f.canonNan, {})
  | .inf neg => if sat then (f.maxBits neg, { sat := true }) else (f.infBits neg, {})
  | .fin neg mag exp =>
    if mag = 0 then (f.encodeFin neg 0 0, {})
    else
      let q := f.quantum mag exp
      let (n, nx) := roundTo rm neg mag exp q
      if f.overflows n q then
        if rm = .rtz || sat then (f.maxBits neg, { of := true, sat := true, nx := true })
        else (f.infBits neg, { of := true, nx := true })
      else (f.encodeFin neg n q, { uf := f.tiny n q && nx, nx := nx })

/-- IEEE 754 rounding to a format with infinities, under any mode (R60, R99, R113). -/
def Fmt.ieee (f : Fmt) (rm : Rm) (x : Fp) : Nat × FpFlags :=
  match x with
  | .nan sig => (f.canonNan, { nv := sig })
  | .inf neg => (f.infBits neg, {})
  | .fin neg mag exp =>
    if mag = 0 then (f.encodeFin neg 0 0, {})
    else
      let q := f.quantum mag exp
      let (n, nx) := roundTo rm neg mag exp q
      if f.overflows n q then
        let toMax := match rm with
          | .rtz => true
          | .rdn => !neg
          | .rup => neg
          | _ => false
        ((if toMax then f.maxBits neg else f.infBits neg), { of := true, nx := true })
      else (f.encodeFin neg n q, { uf := f.tiny n q && nx, nx := nx })

/-- Whether a value is NaN. -/
def Fp.isNan : Fp → Bool
  | .nan _ => true
  | _ => false

/-- Whether a value is a signalling NaN. -/
def Fp.isSig : Fp → Bool
  | .nan b => b
  | _ => false

/-- The sign changed. -/
def Fp.neg : Fp → Fp
  | .nan b => .nan b
  | .inf n => .inf (!n)
  | .fin n m e => .fin (!n) m e

/-- The sign cleared. -/
def Fp.abs : Fp → Fp
  | .nan b => .nan b
  | .inf _ => .inf false
  | .fin _ m e => .fin false m e

/-- The sign of a value; NaN counts as positive. -/
def Fp.isNeg : Fp → Bool
  | .nan _ => false
  | .inf n => n
  | .fin n _ _ => n

/-- Whether a value is a zero. -/
def Fp.isZero : Fp → Bool
  | .fin _ m _ => decide (m = 0)
  | _ => false

/-- Scales a finite value by `2^k`, exactly. -/
def Fp.scale (k : Int) : Fp → Fp
  | .fin n m e => .fin n m (e + k)
  | x => x

/-- The exact product, and whether it is 0 × ∞ or a signalling NaN is involved (invalid). -/
def Fp.mul (a b : Fp) : Fp × Bool :=
  match a, b with
  | .nan s, .nan t => (.nan false, s || t)
  | .nan s, _ => (.nan false, s)
  | _, .nan t => (.nan false, t)
  | .inf n, .inf m => (.inf (n != m), false)
  | .inf n, .fin m g _ => if g = 0 then (.nan false, true) else (.inf (n != m), false)
  | .fin m g _, .inf n => if g = 0 then (.nan false, true) else (.inf (n != m), false)
  | .fin n g e, .fin m h f => (.fin (n != m) (g * h) (e + f), false)

/-- The exact sum of two finite values, signed zero under `rdn` or not. -/
def addFin (down : Bool) (n : Bool) (g : Nat) (e : Int) (m : Bool) (h : Nat) (f : Int) : Fp :=
  let q := min e f
  let a : Int := ((g <<< (e - q).toNat : Nat) : Int)
  let b : Int := ((h <<< (f - q).toNat : Nat) : Int)
  let s := (if n then -a else a) + (if m then -b else b)
  if s = 0 then .fin (if g = 0 && h = 0 && n == m then n else down) 0 q
  else .fin (decide (s < 0)) s.natAbs q

/-- The exact sum, and whether it is ∞ − ∞ or a signalling NaN is involved (invalid). -/
def Fp.add (down : Bool) (a b : Fp) : Fp × Bool :=
  match a, b with
  | .nan s, .nan t => (.nan false, s || t)
  | .nan s, _ => (.nan false, s)
  | _, .nan t => (.nan false, t)
  | .inf n, .inf m => if n = m then (.inf n, false) else (.nan false, true)
  | .inf n, _ => (.inf n, false)
  | _, .inf m => (.inf m, false)
  | .fin n g e, .fin m h f => (addFin down n g e m h f, false)

/-- `a × b + c` exactly, with the invalid condition. -/
def Fp.fma (down : Bool) (a b c : Fp) : Fp × Bool :=
  let (p, i) := a.mul b
  let (r, j) := p.add down c
  (r, i || j || c.isSig)

/-- Exact comparison of two values that are not NaN: less than. Zeros of either sign are equal. -/
def Fp.lt (a b : Fp) : Bool :=
  match a, b with
  | .nan _, _ => false
  | _, .nan _ => false
  | .inf n, .inf m => n && !m
  | .inf n, _ => n
  | _, .inf m => !m
  | .fin n g e, .fin m h f =>
    let q := min e f
    let x : Int := ((g <<< (e - q).toNat : Nat) : Int)
    let y : Int := ((h <<< (f - q).toNat : Nat) : Int)
    decide ((if n then -x else x) < (if m then -y else y))

/-- Equality of two values that are not NaN. -/
def Fp.eqv (a b : Fp) : Bool := !a.isNan && !b.isNan && !a.lt b && !b.lt a

/-- `maximum` of R99: the non-NaN operand when exactly one is NaN, and −0 below +0. -/
def Fp.max (a b : Fp) : Fp :=
  if a.isNan then b else if b.isNan then a
  else if a.lt b then b else if b.lt a then a else if a.isNeg then b else a

/-- `minimum` of R99. -/
def Fp.min (a b : Fp) : Fp :=
  if a.isNan then b else if b.isNan then a
  else if a.lt b then a else if b.lt a then b else if a.isNeg then a else b

/-- A signed number clamped to `w` bits, and whether it was out of range. -/
def clampInt (w : Nat) (x : Int) : Int × Bool :=
  let hi : Int := 2 ^ (w - 1) - 1
  let lo : Int := -(2 ^ (w - 1))
  if hi < x then (hi, true) else if x < lo then (lo, true) else (x, false)

/-- Conversion of a float to a signed integer of `w` bits: rounds, saturates, and NaN gives 0 (R70, R104). -/
def Fp.toInt (w : Nat) (rm : Rm) (x : Fp) : Int × FpFlags :=
  match x with
  | .nan _ => (0, { nv := true })
  | .inf neg => (if neg then -(2 ^ (w - 1)) else 2 ^ (w - 1) - 1, { sat := true })
  | .fin neg mag exp =>
    let (n, nx) := roundTo rm neg mag exp 0
    let v : Int := if neg then -(n : Int) else n
    let (c, sat) := clampInt w v
    (c, { sat := sat, nx := nx && !sat })

/-- An integer as an exact value. -/
def Fp.ofInt (x : Int) : Fp := .fin (decide (x < 0)) x.natAbs 0

/-- Integer square root, bit by bit. -/
def isqrtAux : Nat → Nat → Nat → Nat
  | 0, _, r => r
  | b + 1, n, r => if (r + 2 ^ b) * (r + 2 ^ b) ≤ n then isqrtAux b n (r + 2 ^ b) else isqrtAux b n r

/-- `⌊√n⌋`. -/
def isqrt (n : Nat) : Nat := isqrtAux (Nat.log2 n / 2 + 1) n 0

/-- The quotient of two finite non-zero magnitudes with a sticky last bit, wide enough for any FP32 rounding. -/
def divMag (g : Nat) (e : Int) (h : Nat) (f : Int) : Nat × Int :=
  let k := 64 + Nat.log2 h
  let q := (g <<< k) / h
  let r := (g <<< k) % h
  (2 * q + (if r = 0 then 0 else 1), e - f - k - 1)

/-- IEEE division: the value to round, invalid, and division by zero. -/
def Fp.div (a b : Fp) : Fp × Bool × Bool :=
  match a, b with
  | .nan s, .nan t => (.nan false, s || t, false)
  | .nan s, _ => (.nan false, s, false)
  | _, .nan t => (.nan false, t, false)
  | .inf _, .inf _ => (.nan false, true, false)
  | .inf n, .fin m _ _ => (.inf (n != m), false, false)
  | .fin n _ _, .inf m => (.fin (n != m) 0 0, false, false)
  | .fin n g e, .fin m h f =>
    if h = 0 then if g = 0 then (.nan false, true, false) else (.inf (n != m), false, true)
    else if g = 0 then (.fin (n != m) 0 0, false, false)
    else let (q, x) := divMag g e h f; (.fin (n != m) q x, false, false)

/-- IEEE square root: the value to round, and invalid. -/
def Fp.sqrt (a : Fp) : Fp × Bool :=
  match a with
  | .nan s => (.nan false, s)
  | .inf n => if n then (.nan false, true) else (.inf false, false)
  | .fin n g e =>
    if g = 0 then (.fin n 0 0, false)
    else if n then (.nan false, true)
    else
      let odd := decide (e % 2 ≠ 0)
      let g' := (if odd then 2 * g else g) <<< 64
      let e' := (if odd then e - 1 else e) - 64
      let r := isqrt g'
      (.fin false (2 * r + (if r * r = g' then 0 else 1)) (e' / 2 - 1), false)

/-- One round of Philox4x32 (R593). -/
def philoxRound (k0 k1 : Nat) (c : Nat × Nat × Nat × Nat) : Nat × Nat × Nat × Nat :=
  let (c0, c1, c2, c3) := c
  let p0 := 0xD2511F53 * c0
  let p1 := 0xCD9E8D57 * c2
  ((p1 >>> 32) ^^^ c1 ^^^ k0, p1 % 2 ^ 32, (p0 >>> 32) ^^^ c3 ^^^ k1, p0 % 2 ^ 32)

/-- Rounds of Philox4x32 with the key raised between rounds. -/
def philoxRounds : Nat → Nat → Nat → Nat × Nat × Nat × Nat → Nat × Nat × Nat × Nat
  | 0, _, _, c => c
  | n + 1, k0, k1, c =>
    philoxRounds n ((k0 + 0x9E3779B9) % 2 ^ 32) ((k1 + 0xBB67AE85) % 2 ^ 32) (philoxRound k0 k1 c)

/-- The 128-bit result of Philox4x32-10 for a seed and the counter `(a, b)`, mapped as R593 says. -/
def philox (seed : W64) (a b : Nat) : Nat :=
  let k := seed.toNat
  let lo := b % 2 ^ 64
  let hi := a % 2 ^ 64
  let (r0, r1, r2, r3) := philoxRounds 10 (k % 2 ^ 32) (k >>> 32)
    (lo % 2 ^ 32, lo >>> 32, hi % 2 ^ 32, hi >>> 32)
  r0 + r1 <<< 32 + r2 <<< 64 + r3 <<< 96

/-- Half-word `h` of a Philox result (R593). -/
def halfWord (r h : Nat) : Nat := (r >>> (16 * h)) % 2 ^ 16

/-- The draw of output element `i` under a counter offset (R71, R99). -/
def drawFor (seed : W64) (off i : Nat) : Nat := halfWord (philox seed off (i / 8)) (i % 8)

/-- A field's value as a signed number of `w` bits. -/
def toSigned (w n : Nat) : Int :=
  if n % 2 ^ w < 2 ^ (w - 1) then ((n % 2 ^ w : Nat) : Int) else ((n % 2 ^ w : Nat) : Int) - 2 ^ w

/-- A number modulo `2^w`. -/
def wrapNat (w : Nat) (x : Int) : Nat := (x % (2 ^ w : Nat)).toNat

end Sys2Proof.Machine
end

