-- ==== Sys2Proof/Machine/RegTable.lean ====
section
/-! DEFINITION. The registers of the instance windows as the register tables of the spec give them (R10, R12, R14–R16,
and the rule named at each offset): offset, replication, reset value and the masks of the RW, W1C and RC fields; the
offsets by name; and the bit ranges of the fields. -/

namespace Sys2Proof.Machine

/-- One row of the register tables: name, offset in its window, distance and number of copies, reset value, and the
masks of RW, W1C and RC fields. -/
structure RegRow where
  name : String
  base : Nat
  stride : Nat
  count : Nat
  reset : Nat
  rw : Nat
  w1c : Nat
  rc : Nat
  deriving DecidableEq, Repr, Inhabited

/-- Window of cluster `c` (R16). -/
def clusterWindow (c : Nat) : Nat := 0x1000000 + c * 0x400000

/-- Window of physical core `p` (R16). -/
def coreWindow (p : Nat) : Nat := clusterWindow (p / 3) + 0x100000 + p % 3 * 0x100000

/-- Registers of the unit windows of an instance (R15), part 0. -/
def instRegs0 : List RegRow := [
  ⟨"BLK_ID", 0x0, 0x4, 1, 0x4090402, 0x0, 0x0, 0x0⟩,
  ⟨"BLK_TOPO", 0x4, 0x4, 1, 0x0, 0x0, 0x0, 0x0⟩,
  ⟨"BLK_GRADE", 0x8, 0x4, 1, 0x0, 0x0, 0x0, 0x0⟩,
  ⟨"BLK_CORE_MAP", 0xC, 0x4, 1, 0x0, 0x0, 0x0, 0x0⟩,
  ⟨"MMU_STATUS", 0x200000, 0x4, 1, 0x0, 0x0, 0x0, 0x0⟩,
  ⟨"MMU_CNT", 0x200004, 0x4, 1, 0x0, 0x0, 0x0, 0xFFFFFFFF⟩,
  ⟨"DMA_QUIESCE", 0x300000, 0x4, 1, 0x0, 0x800003FF, 0x0, 0x0⟩,
  ⟨"DMA_ENG_STATUS", 0x300100, 0x4, 16, 0x0, 0x0, 0x0, 0x0⟩,
  ⟨"TED_CTRL", 0x400000, 0x4, 1, 0x100064, 0x80FFFFFF, 0x0, 0x0⟩,
  ⟨"TED_THRESH", 0x400004, 0x4, 1, 0x10040, 0xFFF0FFF, 0x0, 0x0⟩,
  ⟨"TED_STATUS", 0x400008, 0x4, 1, 0x0, 0x0, 0x0, 0x0⟩,
  ⟨"TED_MOVES", 0x400010, 0x4, 1, 0x0, 0x0, 0x0, 0xFFFFFFFF⟩,
  ⟨"TED_RESERVE", 0x400018, 0x4, 2, 0x0, 0x0, 0x0, 0x0⟩,
  ⟨"TED_FREE", 0x400020, 0x4, 2, 0x0, 0x0, 0x0, 0x0⟩,
  ⟨"MP_PORT", 0x500000, 0x4, 6, 0x0, 0x0, 0x0, 0x0⟩,
  ⟨"MP_CH", 0x500100, 0x4, 80, 0x0, 0x0, 0x0, 0x0⟩,
  ⟨"MP_CH_ERR", 0x500300, 0x4, 80, 0x0, 0x0, 0x0, 0xFFFFFFFF⟩,
  ⟨"MP_TG_CTRL", 0x510000, 0x100, 80, 0x14000, 0xFFFF07, 0x0, 0x0⟩,
  ⟨"MP_TG_SEED", 0x510004, 0x100, 80, 0x0, 0xFFFFFFFF, 0x0, 0x0⟩,
  ⟨"MP_TG_START", 0x510008, 0x100, 80, 0x0, 0xFFFFFFFF, 0x0, 0x0⟩,
  ⟨"MP_TG_END", 0x51000C, 0x100, 80, 0x0, 0xFFFFFFFF, 0x0, 0x0⟩,
  ⟨"MP_TG_ERRORS", 0x510010, 0x100, 80, 0x0, 0x0, 0x0, 0xFFFFFFFF⟩,
  ⟨"MP_TG_FAIL_ADDR", 0x510014, 0x100, 80, 0x0, 0x0, 0x0, 0x0⟩,
  ⟨"MP_TG_FAIL_LANES", 0x510018, 0x100, 80, 0x0, 0x0, 0x0, 0x0⟩,
  ⟨"MP_TG_FAIL_LANES_HI", 0x51001C, 0x100, 80, 0x0, 0x0, 0x0, 0x0⟩,
  ⟨"MP_TG_FAIL_META", 0x510020, 0x100, 80, 0x0, 0x0, 0x0, 0x0⟩,
  ⟨"MP_TG_SEQ0", 0x510040, 0x100, 80, 0x0, 0xFFF0FFFF, 0x0, 0x0⟩,
  ⟨"MP_TG_SEQ1", 0x510044, 0x100, 80, 0x0, 0xFFF0FFFF, 0x0, 0x0⟩,
  ⟨"MP_TG_SEQ2", 0x510048, 0x100, 80, 0x0, 0xFFF0FFFF, 0x0, 0x0⟩,
  ⟨"MP_TG_SEQ3", 0x51004C, 0x100, 80, 0x0, 0xFFF0FFFF, 0x0, 0x0⟩,
  ⟨"MP_TG_SEQ4", 0x510050, 0x100, 80, 0x0, 0xFFF0FFFF, 0x0, 0x0⟩,
  ⟨"MP_TG_SEQ5", 0x510054, 0x100, 80, 0x0, 0xFFF0FFFF, 0x0, 0x0⟩,
  ⟨"MP_TG_SEQ6", 0x510058, 0x100, 80, 0x0, 0xFFF0FFFF, 0x0, 0x0⟩,
  ⟨"MP_TG_SEQ7", 0x51005C, 0x100, 80, 0x0, 0xFFF0FFFF, 0x0, 0x0⟩,
  ⟨"MP_TG_SEQ8", 0x510060, 0x100, 80, 0x0, 0xFFF0FFFF, 0x0, 0x0⟩,
  ⟨"MP_TG_SEQ9", 0x510064, 0x100, 80, 0x0, 0xFFF0FFFF, 0x0, 0x0⟩,
  ⟨"MP_TG_SEQ10", 0x510068, 0x100, 80, 0x0, 0xFFF0FFFF, 0x0, 0x0⟩,
  ⟨"MP_TG_SEQ11", 0x51006C, 0x100, 80, 0x0, 0xFFF0FFFF, 0x0, 0x0⟩,
  ⟨"MP_TG_SEQ12", 0x510070, 0x100, 80, 0x0, 0xFFF0FFFF, 0x0, 0x0⟩,
  ⟨"MP_TG_SEQ13", 0x510074, 0x100, 80, 0x0, 0xFFF0FFFF, 0x0, 0x0⟩]

/-- Registers of the unit windows of an instance (R15), part 1. -/
def instRegs1 : List RegRow := [
  ⟨"MP_TG_SEQ14", 0x510078, 0x100, 80, 0x0, 0xFFF0FFFF, 0x0, 0x0⟩,
  ⟨"MP_TG_SEQ15", 0x51007C, 0x100, 80, 0x0, 0xFFF0FFFF, 0x0, 0x0⟩,
  ⟨"FAB_CFG", 0x600000, 0x4, 1, 0x14, 0xBFFF3FFF, 0x0, 0x0⟩,
  ⟨"FAB_MCAST", 0x600004, 0x4, 1, 0x3E8, 0x3FFF, 0x0, 0x0⟩,
  ⟨"FAB_QUIESCE", 0x600008, 0x4, 1, 0x0, 0x800003FF, 0x0, 0x0⟩,
  ⟨"FAB_TXN", 0x60000C, 0x4, 1, 0x0, 0x0, 0x0, 0x0⟩,
  ⟨"FAB_LINK", 0x600100, 0x4, 8, 0x0, 0x0, 0x0, 0x0⟩,
  ⟨"FAB_LINK_ERR", 0x600200, 0x4, 8, 0x0, 0x0, 0x0, 0xFFFFFFFF⟩,
  ⟨"FAB_DROP_300", 0x600300, 0x4, 1, 0x0, 0x0, 0x0, 0xFFFFFFFF⟩,
  ⟨"FAB_DROP_304", 0x600304, 0x4, 1, 0x0, 0x0, 0x0, 0xFFFFFFFF⟩,
  ⟨"FAB_DROP_308", 0x600308, 0x4, 1, 0x0, 0x0, 0x0, 0xFFFFFFFF⟩,
  ⟨"FAB_DROP_30C", 0x60030C, 0x4, 1, 0x0, 0x0, 0x0, 0xFFFFFFFF⟩,
  ⟨"FAB_D2D_RT", 0x600400, 0x4, 8, 0x0, 0xF, 0x0, 0x0⟩,
  ⟨"FAB_LOFT", 0x600500, 0x4, 1, 0x0, 0x0, 0x0, 0xFFFF⟩,
  ⟨"FAB_LINK_FAR", 0x600600, 0x4, 8, 0x0, 0x0, 0x0, 0x0⟩,
  ⟨"FAB_RT_LO", 0x680000, 0x8, 16384, 0x0, 0xFFFFFFFF, 0x0, 0x0⟩,
  ⟨"FAB_RT_HI", 0x680004, 0x8, 16384, 0x0, 0x80FFF000, 0x0, 0x0⟩,
  ⟨"D2D_PORT", 0x700000, 0x4, 4, 0x0, 0x0, 0x0, 0xFFFF0000⟩,
  ⟨"HIF_LINK", 0x800000, 0x4, 1, 0x0, 0x0, 0x0, 0x0⟩,
  ⟨"IRQ_CTRL", 0x900000, 0x100, 4, 0x1, 0x1, 0x0, 0x0⟩,
  ⟨"IRQ_CLAIM", 0x900004, 0x100, 4, 0xFFF, 0x0, 0x0, 0x0⟩,
  ⟨"IRQ_PRIV_EN_LO", 0x900008, 0x100, 4, 0xF, 0xFFFFFFFF, 0x0, 0x0⟩,
  ⟨"IRQ_PRIV_EN_HI", 0x90000C, 0x100, 4, 0x0, 0xFFFFFFFF, 0x0, 0x0⟩,
  ⟨"IRQ_PRIV_PEND_LO", 0x900010, 0x100, 4, 0x0, 0x0, 0xFFFFFFFF, 0x0⟩,
  ⟨"IRQ_PRIV_PEND_HI", 0x900014, 0x100, 4, 0x0, 0x0, 0xFFFFFFFF, 0x0⟩,
  ⟨"IRQ_IPI", 0x900018, 0x100, 4, 0x0, 0x0, 0x0, 0x0⟩,
  ⟨"IRQ_COAL", 0x900800, 0x4, 16, 0x10000, 0x3FFF03FF, 0x0, 0x0⟩,
  ⟨"IRQ_SRC", 0x910100, 0x4, 4031, 0x0, 0xBFFF0000, 0x40000000, 0xFF⟩,
  ⟨"MBX_LOCK", 0xA00040, 0x100, 16, 0x0, 0x0, 0x0, 0x0⟩,
  ⟨"MBX_DOORBELL", 0xA00044, 0x100, 16, 0x0, 0x0, 0x0, 0x0⟩,
  ⟨"MBX_FREE", 0xA00048, 0x100, 16, 0x0, 0x0, 0x0, 0x0⟩,
  ⟨"MBX_STATUS", 0xA0004C, 0x100, 16, 0x0, 0x0, 0x0, 0xFF000000⟩,
  ⟨"MBX_DATA0", 0xA00000, 0x100, 16, 0x0, 0xFFFFFFFF, 0x0, 0x0⟩,
  ⟨"MBX_DATA1", 0xA00004, 0x100, 16, 0x0, 0xFFFFFFFF, 0x0, 0x0⟩,
  ⟨"MBX_DATA2", 0xA00008, 0x100, 16, 0x0, 0xFFFFFFFF, 0x0, 0x0⟩,
  ⟨"MBX_DATA3", 0xA0000C, 0x100, 16, 0x0, 0xFFFFFFFF, 0x0, 0x0⟩,
  ⟨"MBX_DATA4", 0xA00010, 0x100, 16, 0x0, 0xFFFFFFFF, 0x0, 0x0⟩,
  ⟨"MBX_DATA5", 0xA00014, 0x100, 16, 0x0, 0xFFFFFFFF, 0x0, 0x0⟩,
  ⟨"MBX_DATA6", 0xA00018, 0x100, 16, 0x0, 0xFFFFFFFF, 0x0, 0x0⟩,
  ⟨"MBX_DATA7", 0xA0001C, 0x100, 16, 0x0, 0xFFFFFFFF, 0x0, 0x0⟩]

/-- Registers of the unit windows of an instance (R15), part 2. -/
def instRegs2 : List RegRow := [
  ⟨"MBX_DATA8", 0xA00020, 0x100, 16, 0x0, 0xFFFFFFFF, 0x0, 0x0⟩,
  ⟨"MBX_DATA9", 0xA00024, 0x100, 16, 0x0, 0xFFFFFFFF, 0x0, 0x0⟩,
  ⟨"MBX_DATA10", 0xA00028, 0x100, 16, 0x0, 0xFFFFFFFF, 0x0, 0x0⟩,
  ⟨"MBX_DATA11", 0xA0002C, 0x100, 16, 0x0, 0xFFFFFFFF, 0x0, 0x0⟩,
  ⟨"MBX_DATA12", 0xA00030, 0x100, 16, 0x0, 0xFFFFFFFF, 0x0, 0x0⟩,
  ⟨"MBX_DATA13", 0xA00034, 0x100, 16, 0x0, 0xFFFFFFFF, 0x0, 0x0⟩,
  ⟨"MBX_DATA14", 0xA00038, 0x100, 16, 0x0, 0xFFFFFFFF, 0x0, 0x0⟩,
  ⟨"MBX_DATA15", 0xA0003C, 0x100, 16, 0x0, 0xFFFFFFFF, 0x0, 0x0⟩,
  ⟨"SEC_STATE", 0xB00000, 0x4, 1, 0x40000000, 0x0, 0x0, 0x0⟩,
  ⟨"SEC_SLOTS", 0xB00004, 0x4, 1, 0x40, 0x0, 0x0, 0x0⟩,
  ⟨"SEC_SLOT_SEL", 0xB00008, 0x4, 1, 0x0, 0x3FF, 0x0, 0x0⟩,
  ⟨"SEC_SLOT_INFO", 0xB0000C, 0x4, 1, 0x0, 0x0, 0x0, 0x0⟩,
  ⟨"SEC_SCRUB", 0xB00010, 0x4, 1, 0x0, 0x0, 0x0, 0xFFFF⟩,
  ⟨"SEC_DEBUG", 0xB00014, 0x4, 1, 0x0, 0x0, 0x0, 0xFF⟩,
  ⟨"SEC_TDI_SEL", 0xB00020, 0x4, 1, 0x0, 0xFF, 0x0, 0x0⟩,
  ⟨"SEC_TDI_INFO", 0xB00024, 0x4, 1, 0x0, 0x0, 0x0, 0x0⟩,
  ⟨"SEC_WEIGHT", 0xB00030, 0x4, 1, 0x0, 0x0, 0x0, 0x0⟩,
  ⟨"SEC_MIG", 0xB00034, 0x4, 1, 0x0, 0x0, 0x0, 0x0⟩,
  ⟨"SCH_UNIT", 0xC00000, 0x4, 24, 0x0, 0x0, 0x0, 0x0⟩,
  ⟨"SCH_REEL", 0xC00100, 0x4, 1, 0x0, 0x0, 0x0, 0xFFFFFFFF⟩,
  ⟨"SCH_ACCT_SEL", 0xC00200, 0x4, 1, 0x0, 0xFF01FF, 0x0, 0x0⟩,
  ⟨"SCH_ACCT_DATA", 0xC00210, 0x4, 24, 0x0, 0x0, 0x0, 0x0⟩,
  ⟨"QOS_LABEL_SEL", 0xD00000, 0x4, 1, 0x0, 0xFFFF, 0x0, 0x0⟩,
  ⟨"QOS_LABEL_DATA", 0xD00004, 0x4, 1, 0x20000, 0x0, 0x0, 0x0⟩,
  ⟨"QOS_PATH", 0xD00100, 0x4, 15, 0x0, 0x0, 0x0, 0x0⟩,
  ⟨"QOS_BUDGET_SEL", 0xD00200, 0x4, 1, 0x0, 0xFFFC0000, 0x0, 0x0⟩,
  ⟨"QOS_BUDGET_DATA", 0xD00204, 0x4, 1, 0x0, 0x0, 0x0, 0x0⟩,
  ⟨"QOS_BUDGET_USED", 0xD00208, 0x4, 1, 0x0, 0x0, 0x0, 0x0⟩,
  ⟨"QOS_GUARD", 0xD00300, 0x8, 64, 0x0, 0x0, 0x0, 0xFF⟩,
  ⟨"QOS_GUARD_LAST", 0xD00304, 0x8, 64, 0x0, 0x0, 0x0, 0x0⟩,
  ⟨"HLT_ESC", 0xE00000, 0x4, 1, 0x30000384, 0x0, 0x0, 0x0⟩,
  ⟨"HLT_WATCH", 0xE00004, 0x4, 1, 0x7D0, 0x0, 0x0, 0x0⟩,
  ⟨"HLT_DOM", 0xE00100, 0x4, 21, 0x1000000, 0x0, 0x0, 0xFF0F00⟩,
  ⟨"HLT_CFGREC", 0xE00204, 0x4, 3, 0x0, 0x0, 0x0, 0x0⟩,
  ⟨"HLT_LOSS", 0xE00300, 0x4, 1, 0x0, 0x0, 0x0, 0xFFFFFFFF⟩,
  ⟨"PWR_CORE", 0xF00000, 0x4, 6, 0x3, 0x0, 0x0, 0x0⟩,
  ⟨"PWR_BOOT", 0xF00100, 0x4, 1, 0x0, 0x0, 0x0, 0x0⟩,
  ⟨"CLK_TIME_LO", 0x1800000, 0x4, 1, 0x0, 0x0, 0x0, 0x0⟩,
  ⟨"CLK_TIME_HI", 0x1800004, 0x4, 1, 0x0, 0x0, 0x0, 0x0⟩,
  ⟨"CLK_LOCK", 0x1800008, 0x4, 1, 0x0, 0x0, 0x0, 0xFF000000⟩]

/-- Registers of the unit windows of an instance (R15), part 3. -/
def instRegs3 : List RegRow := [
  ⟨"TEL_TS", 0x1900000, 0x4, 8, 0x6900000, 0xFFF0000, 0x0, 0x0⟩,
  ⟨"MBX_MR_REQ_BASE_LO", 0xA01000, 0x4, 1, 0x0, 0xFFFFFC00, 0x0, 0x0⟩,
  ⟨"MBX_MR_REQ_BASE_HI", 0xA01004, 0x4, 1, 0x0, 0xFFFFFFFF, 0x0, 0x0⟩,
  ⟨"MBX_MR_RPL_BASE_LO", 0xA01010, 0x4, 1, 0x0, 0xFFFFFC00, 0x0, 0x0⟩,
  ⟨"MBX_MR_RPL_BASE_HI", 0xA01014, 0x4, 1, 0x0, 0xFFFFFFFF, 0x0, 0x0⟩,
  ⟨"MBX_MR_FLT_BASE_LO", 0xA01020, 0x4, 1, 0x0, 0xFFFFF000, 0x0, 0x0⟩,
  ⟨"MBX_MR_FLT_BASE_HI", 0xA01024, 0x4, 1, 0x0, 0xFFFFFFFF, 0x0, 0x0⟩,
  ⟨"MBX_MR_REQ_TAIL", 0xA01008, 0x4, 1, 0x0, 0x0, 0x0, 0x0⟩,
  ⟨"MBX_MR_REQ_HEAD", 0xA0100C, 0x4, 1, 0x0, 0x0, 0x0, 0x0⟩,
  ⟨"MBX_MR_RPL_HEAD", 0xA01018, 0x4, 1, 0x0, 0xFFF, 0x0, 0x0⟩,
  ⟨"MBX_MR_FLT_HEAD", 0xA01028, 0x4, 1, 0x0, 0x3FFF, 0x0, 0x0⟩,
  ⟨"MBX_MR_CTRL", 0xA0102C, 0x4, 1, 0x0, 0x800F0F0F, 0x0, 0x0⟩]

/-- Registers of the unit windows of an instance (R15). -/
def instRegs : List RegRow := instRegs0 ++ instRegs1 ++ instRegs2 ++ instRegs3

/-- Registers of a cluster window (R16), part 0. -/
def clusterRegs0 : List RegRow := [
  ⟨"RTR_STATUS", 0x40000, 0x4, 1, 0x0, 0x0, 0x0, 0x0⟩,
  ⟨"RED_STATUS", 0x80000, 0x4, 1, 0x0, 0x0, 0x0, 0xFFFF0000⟩,
  ⟨"CLM_CTRL", 0xC0000, 0x4, 1, 0x40000000, 0x0, 0x0, 0x0⟩,
  ⟨"CLM_ECC", 0xC0004, 0x4, 1, 0x0, 0x0, 0x0, 0xFFFFFF⟩,
  ⟨"CLM_CACHE", 0xC0008, 0x4, 1, 0x0, 0x0, 0x0, 0xFFFF0000⟩]

/-- Registers of a cluster window (R16). -/
def clusterRegs : List RegRow := clusterRegs0

/-- Registers of a core window (R16), part 0. -/
def coreRegs0 : List RegRow := [
  ⟨"TA_STATUS", 0x0, 0x4, 1, 0x0, 0x0, 0x0, 0x0⟩,
  ⟨"TA_CAP", 0x4, 0x4, 1, 0x3031F7F, 0x0, 0x0, 0x0⟩,
  ⟨"VE_MAP_LO", 0x10000, 0x4, 1, 0x0, 0x0, 0x0, 0x0⟩,
  ⟨"VE_MAP_HI", 0x10004, 0x4, 1, 0x0, 0x0, 0x0, 0x0⟩,
  ⟨"VE_CHAIN", 0x10010, 0x4, 2, 0x0, 0x0, 0x0, 0x0⟩,
  ⟨"VE_STATUS", 0x10100, 0x4, 13, 0x0, 0x0, 0x0, 0x0⟩,
  ⟨"VE_ECC", 0x10200, 0x4, 13, 0x0, 0x0, 0x0, 0xFFFFFF⟩,
  ⟨"SE_STATUS", 0x20100, 0x4, 8, 0x0, 0x0, 0x0, 0x0⟩,
  ⟨"ATT_STATUS", 0x30000, 0x4, 1, 0x0, 0x0, 0x0, 0x0⟩,
  ⟨"SEL_STATUS", 0x40000, 0x4, 1, 0x0, 0x0, 0x0, 0x0⟩,
  ⟨"GSE_STATUS", 0x50000, 0x4, 1, 0x0, 0x0, 0x0, 0x0⟩,
  ⟨"LAY_STATUS", 0x60000, 0x4, 1, 0x0, 0x0, 0x0, 0x0⟩,
  ⟨"COD_STATUS", 0x70000, 0x4, 1, 0x0, 0x0, 0x0, 0x0⟩,
  ⟨"CMEM_CTRL", 0x80000, 0x4, 1, 0x0, 0x0, 0x0, 0x0⟩,
  ⟨"CMEM_ECC", 0x80004, 0x4, 1, 0x0, 0x0, 0x0, 0xFFFFFF⟩,
  ⟨"CMEM_REPAIR", 0x80008, 0x4, 1, 0x0, 0x0, 0x0, 0x0⟩,
  ⟨"CMEM_SPARE", 0x80010, 0x4, 4, 0x0, 0x0, 0x0, 0x0⟩]

/-- Registers of a core window (R16). -/
def coreRegs : List RegRow := coreRegs0

/-- BLK_ID (R14). -/
def rBlkId : Nat := 0x0
/-- BLK_TOPO (R39). -/
def rBlkTopo : Nat := 0x4
/-- BLK_GRADE (R25). -/
def rBlkGrade : Nat := 0x8
/-- BLK_CORE_MAP (R26). -/
def rBlkCoreMap : Nat := 0xC
/-- MMU_STATUS (R395). -/
def rMmuStatus : Nat := 0x200000
/-- MMU_CNT (R396). -/
def rMmuCnt : Nat := 0x200004
/-- DMA_QUIESCE (R184). -/
def rDmaQuiesce : Nat := 0x300000
/-- DMA_ENG_STATUS (R185). -/
def rDmaEngStatus (k : Nat) : Nat := 0x300100 + 0x4 * k
/-- TED_CTRL (R262). -/
def rTedCtrl : Nat := 0x400000
/-- TED_THRESH (R263). -/
def rTedThresh : Nat := 0x400004
/-- TED_STATUS (R264). -/
def rTedStatus : Nat := 0x400008
/-- TED_MOVES (R265). -/
def rTedMoves : Nat := 0x400010
/-- TED_RESERVE (R266). -/
def rTedReserve (k : Nat) : Nat := 0x400018 + 0x4 * k
/-- TED_FREE (R267). -/
def rTedFree (k : Nat) : Nat := 0x400020 + 0x4 * k
/-- MP_PORT (R254). -/
def rMpPort (k : Nat) : Nat := 0x500000 + 0x4 * k
/-- MP_CH (R255). -/
def rMpCh (k : Nat) : Nat := 0x500100 + 0x4 * k
/-- MP_CH_ERR (R256). -/
def rMpChErr (k : Nat) : Nat := 0x500300 + 0x4 * k
/-- MP_TG_CTRL (R257). -/
def rMpTgCtrl (k : Nat) : Nat := 0x510000 + 0x100 * k
/-- MP_TG_SEED (R258). -/
def rMpTgSeed (k : Nat) : Nat := 0x510004 + 0x100 * k
/-- MP_TG_START (R258). -/
def rMpTgStart (k : Nat) : Nat := 0x510008 + 0x100 * k
/-- MP_TG_END (R258). -/
def rMpTgEnd (k : Nat) : Nat := 0x51000C + 0x100 * k
/-- MP_TG_ERRORS (R259). -/
def rMpTgErrors (k : Nat) : Nat := 0x510010 + 0x100 * k
/-- MP_TG_FAIL_ADDR (R260). -/
def rMpTgFailAddr (k : Nat) : Nat := 0x510014 + 0x100 * k
/-- MP_TG_FAIL_LANES (R260). -/
def rMpTgFailLanes (k : Nat) : Nat := 0x510018 + 0x100 * k
/-- MP_TG_FAIL_META (R260). -/
def rMpTgFailMeta (k : Nat) : Nat := 0x510020 + 0x100 * k
/-- MP_TG_SEQ0 (R261). -/
def rMpTgSeq0 (k : Nat) : Nat := 0x510040 + 0x100 * k
/-- FAB_CFG (R315). -/
def rFabCfg : Nat := 0x600000
/-- FAB_MCAST (R316). -/
def rFabMcast : Nat := 0x600004
/-- FAB_QUIESCE (R317). -/
def rFabQuiesce : Nat := 0x600008
/-- FAB_TXN (R318). -/
def rFabTxn : Nat := 0x60000C
/-- FAB_LINK (R319). -/
def rFabLink (k : Nat) : Nat := 0x600100 + 0x4 * k
/-- FAB_LINK_ERR (R320). -/
def rFabLinkErr (k : Nat) : Nat := 0x600200 + 0x4 * k
/-- FAB_DROP_300 (R321). -/
def rFabDrop300 : Nat := 0x600300
/-- FAB_DROP_304 (R321). -/
def rFabDrop304 : Nat := 0x600304
/-- FAB_DROP_308 (R321). -/
def rFabDrop308 : Nat := 0x600308
/-- FAB_DROP_30C (R321). -/
def rFabDrop30c : Nat := 0x60030C
/-- FAB_D2D_RT (R322). -/
def rFabD2dRt (k : Nat) : Nat := 0x600400 + 0x4 * k
/-- FAB_LOFT (R323). -/
def rFabLoft : Nat := 0x600500
/-- FAB_LINK_FAR (R565). -/
def rFabLinkFar (k : Nat) : Nat := 0x600600 + 0x4 * k
/-- FAB_RT_LO (R324). -/
def rFabRtLo (k : Nat) : Nat := 0x680000 + 0x8 * k
/-- D2D_PORT (R325). -/
def rD2dPort (k : Nat) : Nat := 0x700000 + 0x4 * k
/-- HIF_LINK (R592). -/
def rHifLink : Nat := 0x800000
/-- IRQ_CTRL (R507). -/
def rIrqCtrl (k : Nat) : Nat := 0x900000 + 0x100 * k
/-- IRQ_CLAIM (R507). -/
def rIrqClaim (k : Nat) : Nat := 0x900004 + 0x100 * k
/-- IRQ_PRIV_EN_LO (R507). -/
def rIrqPrivEnLo (k : Nat) : Nat := 0x900008 + 0x100 * k
/-- IRQ_PRIV_PEND_LO (R507). -/
def rIrqPrivPendLo (k : Nat) : Nat := 0x900010 + 0x100 * k
/-- IRQ_IPI (R507). -/
def rIrqIpi (k : Nat) : Nat := 0x900018 + 0x100 * k
/-- IRQ_COAL (R508). -/
def rIrqCoal (k : Nat) : Nat := 0x900800 + 0x4 * k
/-- IRQ_SRC (R509). -/
def rIrqSrc (k : Nat) : Nat := 0x910100 + 0x4 * k
/-- MBX_LOCK (R505). -/
def rMbxLock (k : Nat) : Nat := 0xA00040 + 0x100 * k
/-- MBX_DOORBELL (R505). -/
def rMbxDoorbell (k : Nat) : Nat := 0xA00044 + 0x100 * k
/-- MBX_FREE (R505). -/
def rMbxFree (k : Nat) : Nat := 0xA00048 + 0x100 * k
/-- MBX_STATUS (R505). -/
def rMbxStatus (k : Nat) : Nat := 0xA0004C + 0x100 * k
/-- SEC_STATE (R469). -/
def rSecState : Nat := 0xB00000
/-- SEC_SLOTS (R470). -/
def rSecSlots : Nat := 0xB00004
/-- SEC_SLOT_SEL (R471). -/
def rSecSlotSel : Nat := 0xB00008
/-- SEC_SLOT_INFO (R471). -/
def rSecSlotInfo : Nat := 0xB0000C
/-- SEC_SCRUB (R472). -/
def rSecScrub : Nat := 0xB00010
/-- SEC_DEBUG (R473). -/
def rSecDebug : Nat := 0xB00014
/-- SEC_TDI_SEL (R474). -/
def rSecTdiSel : Nat := 0xB00020
/-- SEC_TDI_INFO (R474). -/
def rSecTdiInfo : Nat := 0xB00024
/-- SEC_WEIGHT (R475). -/
def rSecWeight : Nat := 0xB00030
/-- SEC_MIG (R476). -/
def rSecMig : Nat := 0xB00034
/-- SCH_UNIT (R421). -/
def rSchUnit (k : Nat) : Nat := 0xC00000 + 0x4 * k
/-- SCH_REEL (R422). -/
def rSchReel : Nat := 0xC00100
/-- SCH_ACCT_SEL (R423). -/
def rSchAcctSel : Nat := 0xC00200
/-- SCH_ACCT_DATA (R424). -/
def rSchAcctData (k : Nat) : Nat := 0xC00210 + 0x4 * k
/-- QOS_LABEL_SEL (R425). -/
def rQosLabelSel : Nat := 0xD00000
/-- QOS_LABEL_DATA (R425). -/
def rQosLabelData : Nat := 0xD00004
/-- QOS_PATH (R426). -/
def rQosPath (k : Nat) : Nat := 0xD00100 + 0x4 * k
/-- QOS_BUDGET_SEL (R427). -/
def rQosBudgetSel : Nat := 0xD00200
/-- QOS_BUDGET_DATA (R427). -/
def rQosBudgetData : Nat := 0xD00204
/-- QOS_BUDGET_USED (R427). -/
def rQosBudgetUsed : Nat := 0xD00208
/-- QOS_GUARD (R428). -/
def rQosGuard (k : Nat) : Nat := 0xD00300 + 0x8 * k
/-- QOS_GUARD_LAST (R428). -/
def rQosGuardLast (k : Nat) : Nat := 0xD00304 + 0x8 * k
/-- HLT_ESC (R538). -/
def rHltEsc : Nat := 0xE00000
/-- HLT_WATCH (R539). -/
def rHltWatch : Nat := 0xE00004
/-- HLT_DOM (R540). -/
def rHltDom (k : Nat) : Nat := 0xE00100 + 0x4 * k
/-- HLT_CFGREC (R541). -/
def rHltCfgrec (k : Nat) : Nat := 0xE00204 + 0x4 * k
/-- HLT_LOSS (R542). -/
def rHltLoss : Nat := 0xE00300
/-- PWR_CORE (R588). -/
def rPwrCore (k : Nat) : Nat := 0xF00000 + 0x4 * k
/-- PWR_BOOT (R589). -/
def rPwrBoot : Nat := 0xF00100
/-- CLK_TIME_LO (R586). -/
def rClkTimeLo : Nat := 0x1800000
/-- CLK_LOCK (R587). -/
def rClkLock : Nat := 0x1800008
/-- TEL_TS (R566). -/
def rTelTs (k : Nat) : Nat := 0x1900000 + 0x4 * k
/-- MBX_MR_REQ_BASE_LO (R506). -/
def rMbxMrReqBaseLo : Nat := 0xA01000
/-- MBX_MR_RPL_BASE_LO (R506). -/
def rMbxMrRplBaseLo : Nat := 0xA01010
/-- MBX_MR_FLT_BASE_LO (R506). -/
def rMbxMrFltBaseLo : Nat := 0xA01020
/-- MBX_MR_REQ_TAIL (R506). -/
def rMbxMrReqTail : Nat := 0xA01008
/-- MBX_MR_REQ_HEAD (R506). -/
def rMbxMrReqHead : Nat := 0xA0100C
/-- MBX_MR_RPL_HEAD (R506). -/
def rMbxMrRplHead : Nat := 0xA01018
/-- MBX_MR_FLT_HEAD (R506). -/
def rMbxMrFltHead : Nat := 0xA01028
/-- MBX_MR_CTRL (R506). -/
def rMbxMrCtrl : Nat := 0xA0102C
/-- RTR_STATUS of a cluster (R182). -/
def rRtrStatus (c : Nat) : Nat := clusterWindow c + 0x40000
/-- RED_STATUS of a cluster (R183). -/
def rRedStatus (c : Nat) : Nat := clusterWindow c + 0x80000
/-- CLM_CTRL of a cluster (R218). -/
def rClmCtrl (c : Nat) : Nat := clusterWindow c + 0xC0000
/-- CLM_ECC of a cluster (R219). -/
def rClmEcc (c : Nat) : Nat := clusterWindow c + 0xC0004
/-- CLM_CACHE of a cluster (R220). -/
def rClmCache (c : Nat) : Nat := clusterWindow c + 0xC0008
/-- TA_STATUS of a physical core (R89). -/
def rTaStatus (p : Nat) : Nat := coreWindow p + 0x0
/-- TA_CAP of a physical core (R90). -/
def rTaCap (p : Nat) : Nat := coreWindow p + 0x4
/-- VE_MAP_LO of a physical core (R129). -/
def rVeMapLo (p : Nat) : Nat := coreWindow p + 0x10000
/-- VE_MAP_HI of a physical core (R130). -/
def rVeMapHi (p : Nat) : Nat := coreWindow p + 0x10004
/-- VE_CHAIN of a physical core (R131). -/
def rVeChain (p : Nat) (k : Nat) : Nat := coreWindow p + 0x10010 + 0x4 * k
/-- VE_STATUS of a physical core (R132). -/
def rVeStatus (p : Nat) (k : Nat) : Nat := coreWindow p + 0x10100 + 0x4 * k
/-- VE_ECC of a physical core (R133). -/
def rVeEcc (p : Nat) (k : Nat) : Nat := coreWindow p + 0x10200 + 0x4 * k
/-- SE_STATUS of a physical core (R134). -/
def rSeStatus (p : Nat) (k : Nat) : Nat := coreWindow p + 0x20100 + 0x4 * k
/-- ATT_STATUS of a physical core (R181). -/
def rAttStatus (p : Nat) : Nat := coreWindow p + 0x30000
/-- SEL_STATUS of a physical core (R181). -/
def rSelStatus (p : Nat) : Nat := coreWindow p + 0x40000
/-- GSE_STATUS of a physical core (R181). -/
def rGseStatus (p : Nat) : Nat := coreWindow p + 0x50000
/-- LAY_STATUS of a physical core (R181). -/
def rLayStatus (p : Nat) : Nat := coreWindow p + 0x60000
/-- COD_STATUS of a physical core (R181). -/
def rCodStatus (p : Nat) : Nat := coreWindow p + 0x70000
/-- CMEM_CTRL of a physical core (R214). -/
def rCmemCtrl (p : Nat) : Nat := coreWindow p + 0x80000
/-- CMEM_ECC of a physical core (R215). -/
def rCmemEcc (p : Nat) : Nat := coreWindow p + 0x80004
/-- CMEM_REPAIR of a physical core (R216). -/
def rCmemRepair (p : Nat) : Nat := coreWindow p + 0x80008
/-- CMEM_SPARE of a physical core (R217). -/
def rCmemSpare (p : Nat) (k : Nat) : Nat := coreWindow p + 0x80010 + 0x4 * k

/-! The bit ranges of the fields. -/

namespace Fld

def blkIdFamily : Nat × Nat := (31, 24)
def blkIdGeneration : Nat × Nat := (23, 16)
def blkIdMajor : Nat × Nat := (15, 8)
def blkIdMinor : Nat × Nat := (7, 0)
def blkTopoD2dPeer : Nat × Nat := (31, 16)
def blkTopoPresent : Nat × Nat := (15, 8)
def blkTopoLeadId : Nat × Nat := (7, 5)
def blkTopoIsLead : Nat × Nat := (4, 4)
def blkTopoLeadStrap : Nat × Nat := (3, 3)
def blkTopoInstId : Nat × Nat := (2, 0)
def blkGradeSpareMask : Nat × Nat := (29, 24)
def blkGradeEnabledMask : Nat × Nat := (23, 18)
def blkGradeGoodMask : Nat × Nat := (17, 12)
def blkGradeRunGrade : Nat × Nat := (11, 9)
def blkGradeEffGrade : Nat × Nat := (8, 6)
def blkGradeStrapCap : Nat × Nat := (5, 3)
def blkGradeCertGrade : Nat × Nat := (2, 0)
def blkCoreMapL5 : Nat × Nat := (23, 20)
def blkCoreMapL4 : Nat × Nat := (19, 16)
def blkCoreMapL3 : Nat × Nat := (15, 12)
def blkCoreMapL2 : Nat × Nat := (11, 8)
def blkCoreMapL1 : Nat × Nat := (7, 4)
def blkCoreMapL0 : Nat × Nat := (3, 0)
def mmuStatusOpenFaults : Nat × Nat := (31, 16)
def mmuStatusInvalWaits : Nat × Nat := (15, 8)
def mmuStatusWalking : Nat × Nat := (0, 0)
def mmuCntInvalKills : Nat × Nat := (31, 16)
def mmuCntFaults : Nat × Nat := (15, 0)
def dmaQuiesceReq : Nat × Nat := (31, 31)
def dmaQuiesceDone : Nat × Nat := (30, 30)
def dmaQuiesceKeyId : Nat × Nat := (9, 0)
def dmaEngStatusOffline : Nat × Nat := (1, 1)
def dmaEngStatusBusy : Nat × Nat := (0, 0)
def tedCtrlEnable : Nat × Nat := (31, 31)
def tedCtrlFloor : Nat × Nat := (23, 16)
def tedCtrlEpochMs : Nat × Nat := (15, 0)
def tedThreshDemote : Nat × Nat := (27, 16)
def tedThreshPromote : Nat × Nat := (11, 0)
def tedStatusQueued : Nat × Nat := (31, 16)
def tedStatusChBusy : Nat × Nat := (11, 8)
def tedStatusHold : Nat × Nat := (4, 4)
def tedStatusSweeping : Nat × Nat := (0, 0)
def tedMovesAbandoned : Nat × Nat := (31, 16)
def tedMovesDone : Nat × Nat := (15, 0)
def tedReserveRemaining : Nat × Nat := (23, 0)
def tedFreeFree : Nat × Nat := (23, 0)
def mpPortChUp : Nat × Nat := (29, 24)
def mpPortChWired : Nat × Nat := (21, 16)
def mpPortLastTrain : Nat × Nat := (11, 8)
def mpPortState : Nat × Nat := (2, 0)
def mpChLanesRepaired : Nat × Nat := (15, 8)
def mpChState : Nat × Nat := (2, 0)
def mpChErrInteg : Nat × Nat := (31, 24)
def mpChErrUncorr : Nat × Nat := (23, 16)
def mpChErrCorr : Nat × Nat := (15, 0)
def mpTgCtrlGo : Nat × Nat := (31, 31)
def mpTgCtrlStop : Nat × Nat := (30, 30)
def mpTgCtrlBusy : Nat × Nat := (29, 29)
def mpTgCtrlRefused : Nat × Nat := (28, 28)
def mpTgCtrlLoops : Nat × Nat := (23, 16)
def mpTgCtrlHammerK : Nat × Nat := (15, 8)
def mpTgCtrlPattern : Nat × Nat := (2, 0)
def mpTgSeedSeedStartEnd : Nat × Nat := (31, 0)
def mpTgStartSeedStartEnd : Nat × Nat := (31, 0)
def mpTgEndSeedStartEnd : Nat × Nat := (31, 0)
def mpTgErrorsCount : Nat × Nat := (31, 0)
def mpTgFailAddrAddr : Nat × Nat := (31, 0)
def mpTgFailLanesDataLanes : Nat × Nat := (31, 0)
def mpTgFailMetaMetaLanes : Nat × Nat := (15, 0)
def mpTgSeq0Op : Nat × Nat := (31, 28)
def mpTgSeq0Src : Nat × Nat := (27, 24)
def mpTgSeq0Target : Nat × Nat := (23, 20)
def mpTgSeq0Count : Nat × Nat := (15, 0)
def fabCfgEnable : Nat × Nat := (31, 31)
def fabCfgPidLock : Nat × Nat := (30, 30)
def fabCfgPartId : Nat × Nat := (29, 16)
def fabCfgTimeoutMs : Nat × Nat := (13, 0)
def fabMcastHoldUs : Nat × Nat := (13, 0)
def fabQuiesceReq : Nat × Nat := (31, 31)
def fabQuiesceDone : Nat × Nat := (30, 30)
def fabQuiesceKeyId : Nat × Nat := (9, 0)
def fabTxnOpen : Nat × Nat := (16, 0)
def fabLinkRtt : Nat × Nat := (31, 24)
def fabLinkFarPort : Nat × Nat := (23, 16)
def fabLinkCrossed : Nat × Nat := (15, 15)
def fabLinkReversed : Nat × Nat := (14, 14)
def fabLinkSpareUsed : Nat × Nat := (13, 13)
def fabLinkLaneBad : Nat × Nat := (12, 8)
def fabLinkWidth : Nat × Nat := (6, 4)
def fabLinkState : Nat × Nat := (3, 0)
def fabLinkErrRetries : Nat × Nat := (31, 16)
def fabLinkErrFecUncorr : Nat × Nat := (15, 0)
def fabDrop300StaleGen : Nat × Nat := (31, 16)
def fabDrop300StaleKey : Nat × Nat := (15, 0)
def fabDrop304InstReset : Nat × Nat := (31, 16)
def fabDrop304NoRoute : Nat × Nat := (15, 0)
def fabDrop308Replay : Nat × Nat := (31, 16)
def fabDrop308SealFail : Nat × Nat := (15, 0)
def fabDrop30cHopLimit : Nat × Nat := (31, 16)
def fabDrop30cBadHeader : Nat × Nat := (15, 0)
def fabD2dRtPortMask : Nat × Nat := (3, 0)
def fabLoftFrames : Nat × Nat := (31, 16)
def fabLoftWbFail : Nat × Nat := (15, 0)
def fabLinkFarValid : Nat × Nat := (31, 31)
def fabLinkFarSwitch : Nat × Nat := (30, 30)
def fabLinkFarFarPart : Nat × Nat := (29, 16)
def fabLinkFarFarInst : Nat × Nat := (10, 8)
def fabRtLoWeights : Nat × Nat := (31, 0)
def d2dPortDiscard : Nat × Nat := (31, 16)
def d2dPortModules : Nat × Nat := (15, 12)
def d2dPortPeer : Nat × Nat := (10, 8)
def d2dPortState : Nat × Nat := (2, 0)
def hifLinkRate : Nat × Nat := (11, 9)
def hifLinkWidth : Nat × Nat := (8, 4)
def hifLinkPerst : Nat × Nat := (3, 3)
def hifLinkState : Nat × Nat := (1, 0)
def irqCtrlMask : Nat × Nat := (0, 0)
def irqClaimCount : Nat × Nat := (23, 16)
def irqClaimNumber : Nat × Nat := (11, 0)
def irqPrivEnLoEn : Nat × Nat := (31, 0)
def irqPrivPendLoPend : Nat × Nat := (31, 0)
def irqIpiIpi : Nat × Nat := (3, 0)
def irqCoalTimeUs : Nat × Nat := (29, 16)
def irqCoalCountM1 : Nat × Nat := (9, 0)
def irqSrcEn : Nat × Nat := (31, 31)
def irqSrcPend : Nat × Nat := (30, 30)
def irqSrcTarget : Nat × Nat := (29, 23)
def irqSrcPrio : Nat × Nat := (22, 20)
def irqSrcCoal : Nat × Nat := (19, 16)
def irqSrcCount : Nat × Nat := (7, 0)
def mbxLockOwner : Nat × Nat := (7, 0)
def mbxDoorbellRing : Nat × Nat := (0, 0)
def mbxFreeFree : Nat × Nat := (0, 0)
def mbxStatusRefused : Nat × Nat := (31, 24)
def mbxStatusHolder : Nat × Nat := (15, 8)
def mbxStatusState : Nat × Nat := (1, 0)
def secStateDebug : Nat × Nat := (31, 31)
def secStateUnsettled : Nat × Nat := (30, 30)
def secStateIdValid : Nat × Nat := (29, 29)
def secStateSvn : Nat × Nat := (15, 8)
def secStateSlices : Nat × Nat := (7, 0)
def secSlotsActive : Nat × Nat := (31, 21)
def secSlotsDraining : Nat × Nat := (20, 10)
def secSlotsSpareCells : Nat × Nat := (6, 0)
def secSlotSelSlot : Nat × Nat := (9, 0)
def secSlotInfoState : Nat × Nat := (31, 30)
def secSlotInfoGen : Nat × Nat := (29, 24)
def secSlotInfoSlice : Nat × Nat := (23, 16)
def secSlotInfoFabDone : Nat × Nat := (1, 1)
def secSlotInfoDmaDone : Nat × Nat := (0, 0)
def secScrubBusy : Nat × Nat := (31, 31)
def secScrubSlice : Nat × Nat := (23, 16)
def secScrubDone : Nat × Nat := (15, 0)
def secDebugUnlocked : Nat × Nat := (31, 31)
def secDebugRefused : Nat × Nat := (7, 0)
def secTdiSelVd : Nat × Nat := (7, 0)
def secTdiInfoIdeStream : Nat × Nat := (7, 4)
def secTdiInfoIdeSecure : Nat × Nat := (3, 3)
def secTdiInfoConf : Nat × Nat := (2, 2)
def secTdiInfoState : Nat × Nat := (1, 0)
def secWeightGrants : Nat × Nat := (31, 16)
def secWeightLoaded : Nat × Nat := (12, 0)
def secMigIn : Nat × Nat := (7, 4)
def secMigOut : Nat × Nat := (3, 0)
def schUnitResident : Nat × Nat := (31, 24)
def schUnitGroup : Nat × Nat := (23, 20)
def schUnitResValid : Nat × Nat := (19, 19)
def schUnitQuantumMs : Nat × Nat := (14, 8)
def schUnitPreemptPend : Nat × Nat := (3, 3)
def schUnitSwitching : Nat × Nat := (2, 2)
def schUnitMode : Nat × Nat := (1, 0)
def schReelSwitches : Nat × Nat := (31, 16)
def schReelLate : Nat × Nat := (15, 0)
def schAcctSelSnap : Nat × Nat := (31, 31)
def schAcctSelClear : Nat × Nat := (30, 30)
def schAcctSelVd : Nat × Nat := (23, 16)
def schAcctSelStream : Nat × Nat := (8, 0)
def schAcctDataWaitSum : Nat × Nat := (31, 0)
def qosLabelSelVd : Nat × Nat := (15, 8)
def qosLabelSelLabel : Nat × Nat := (7, 0)
def qosLabelDataClass : Nat × Nat := (17, 16)
def qosLabelDataBset : Nat × Nat := (15, 14)
def qosLabelDataDeadline : Nat × Nat := (11, 0)
def qosPathCap : Nat × Nat := (31, 16)
def qosPathOwned : Nat × Nat := (8, 0)
def qosBudgetSelSlice : Nat × Nat := (31, 24)
def qosBudgetSelPath : Nat × Nat := (23, 20)
def qosBudgetSelBset : Nat × Nat := (19, 18)
def qosBudgetDataOver : Nat × Nat := (31, 31)
def qosBudgetDataShare : Nat × Nat := (30, 22)
def qosBudgetDataWindowUs : Nat × Nat := (13, 0)
def qosBudgetUsedUsed : Nat × Nat := (31, 0)
def qosGuardArmed : Nat × Nat := (31, 31)
def qosGuardKind : Nat × Nat := (30, 30)
def qosGuardTarget : Nat × Nat := (29, 22)
def qosGuardPath : Nat × Nat := (21, 18)
def qosGuardBset : Nat × Nat := (17, 16)
def qosGuardSlice : Nat × Nat := (15, 8)
def qosGuardMisses : Nat × Nat := (7, 0)
def qosGuardLastLast : Nat × Nat := (15, 0)
def hltEscLimit : Nat × Nat := (31, 28)
def hltEscWindowS : Nat × Nat := (16, 0)
def hltWatchEngineUs : Nat × Nat := (16, 0)
def hltDomGen : Nat × Nat := (31, 24)
def hltDomStale : Nat × Nat := (23, 16)
def hltDomEscCount : Nat × Nat := (15, 12)
def hltDomResets : Nat × Nat := (11, 8)
def hltDomState : Nat × Nat := (2, 0)
def hltCfgrecSeqLow : Nat × Nat := (31, 16)
def hltCfgrecValid : Nat × Nat := (7, 5)
def hltCfgrecWinner : Nat × Nat := (4, 3)
def hltCfgrecState : Nat × Nat := (2, 0)
def hltLossTraces : Nat × Nat := (31, 16)
def hltLossLogs : Nat × Nat := (15, 0)
def pwrCorePaused : Nat × Nat := (8, 8)
def pwrCoreMoving : Nat × Nat := (7, 7)
def pwrCoreTargetStep : Nat × Nat := (6, 5)
def pwrCoreStep : Nat × Nat := (4, 3)
def pwrCoreState : Nat × Nat := (1, 0)
def pwrBootFail : Nat × Nat := (15, 12)
def pwrBootBank : Nat × Nat := (8, 8)
def pwrBootStep : Nat × Nat := (3, 0)
def clkTimeLoNs : Nat × Nat := (31, 0)
def clkLockLosses : Nat × Nat := (31, 24)
def clkLockClus : Nat × Nat := (10, 9)
def clkLockCore : Nat × Nat := (8, 3)
def clkLockBase : Nat × Nat := (2, 2)
def clkLockAon : Nat × Nat := (1, 1)
def telTsValid : Nat × Nat := (31, 31)
def telTsThresh : Nat × Nat := (27, 16)
def telTsTemp : Nat × Nat := (11, 0)
def mbxMrReqBaseLoReqBase : Nat × Nat := (31, 10)
def mbxMrRplBaseLoRplBase : Nat × Nat := (31, 10)
def mbxMrFltBaseLoFltBase : Nat × Nat := (31, 12)
def mbxMrReqTailReqTail : Nat × Nat := (11, 0)
def mbxMrReqHeadReqHead : Nat × Nat := (11, 0)
def mbxMrRplHeadRplHead : Nat × Nat := (11, 0)
def mbxMrFltHeadFltHead : Nat × Nat := (13, 0)
def mbxMrCtrlEnable : Nat × Nat := (31, 31)
def mbxMrCtrlErr : Nat × Nat := (30, 30)
def mbxMrCtrlFltLog2 : Nat × Nat := (19, 16)
def mbxMrCtrlRplLog2 : Nat × Nat := (11, 8)
def mbxMrCtrlReqLog2 : Nat × Nat := (3, 0)
def rtrStatusSlices : Nat × Nat := (15, 8)
def rtrStatusBusy : Nat × Nat := (0, 0)
def redStatusDropped : Nat × Nat := (31, 16)
def redStatusArmed : Nat × Nat := (14, 8)
def redStatusBusy : Nat × Nat := (0, 0)
def clmCtrlFree : Nat × Nat := (30, 24)
def clmCtrlCacheUnits : Nat × Nat := (22, 16)
def clmCtrlScratchUnits : Nat × Nat := (14, 8)
def clmCtrlClearing : Nat × Nat := (0, 0)
def clmEccPoisoned : Nat × Nat := (31, 24)
def clmEccUncorr : Nat × Nat := (23, 16)
def clmEccCorr : Nat × Nat := (15, 0)
def clmCacheInvals : Nat × Nat := (31, 16)
def taStatusAttOwn : Nat × Nat := (15, 12)
def taStatusQBusy : Nat × Nat := (11, 8)
def taStatusPreemptPend : Nat × Nat := (5, 5)
def taStatusQuad : Nat × Nat := (4, 4)
def taStatusBusy : Nat × Nat := (0, 0)
def taCapFmtMask : Nat × Nat := (31, 0)
def veMapLoL7 : Nat × Nat := (31, 28)
def veMapLoL6 : Nat × Nat := (27, 24)
def veMapLoL5 : Nat × Nat := (23, 20)
def veMapLoL4 : Nat × Nat := (19, 16)
def veMapLoL3 : Nat × Nat := (15, 12)
def veMapLoL2 : Nat × Nat := (11, 8)
def veMapLoL1 : Nat × Nat := (7, 4)
def veMapLoL0 : Nat × Nat := (3, 0)
def veMapHiValid : Nat × Nat := (31, 31)
def veMapHiSpare : Nat × Nat := (23, 20)
def veMapHiL11 : Nat × Nat := (15, 12)
def veMapHiL10 : Nat × Nat := (11, 8)
def veMapHiL9 : Nat × Nat := (7, 4)
def veMapHiL8 : Nat × Nat := (3, 0)
def veChainFillH1 : Nat × Nat := (20, 16)
def veChainFillH0 : Nat × Nat := (12, 8)
def veChainStateH1 : Nat × Nat := (3, 2)
def veChainStateH0 : Nat × Nat := (1, 0)
def veStatusFaultCode : Nat × Nat := (15, 8)
def veStatusSpare : Nat × Nat := (3, 3)
def veStatusOffline : Nat × Nat := (2, 2)
def veStatusWait : Nat × Nat := (1, 1)
def veStatusBusy : Nat × Nat := (0, 0)
def veEccUncorr : Nat × Nat := (23, 16)
def veEccCorr : Nat × Nat := (15, 0)
def seStatusCause : Nat × Nat := (15, 8)
def seStatusState : Nat × Nat := (2, 0)
def attStatusSlotBusy : Nat × Nat := (15, 12)
def attStatusPreemptPend : Nat × Nat := (5, 5)
def attStatusQuad : Nat × Nat := (4, 4)
def attStatusBusy : Nat × Nat := (0, 0)
def selStatusSlotBusy : Nat × Nat := (15, 12)
def selStatusPreemptPend : Nat × Nat := (5, 5)
def selStatusQuad : Nat × Nat := (4, 4)
def selStatusBusy : Nat × Nat := (0, 0)
def gseStatusSlotBusy : Nat × Nat := (15, 12)
def gseStatusPreemptPend : Nat × Nat := (5, 5)
def gseStatusQuad : Nat × Nat := (4, 4)
def gseStatusBusy : Nat × Nat := (0, 0)
def layStatusSlotBusy : Nat × Nat := (15, 12)
def layStatusPreemptPend : Nat × Nat := (5, 5)
def layStatusQuad : Nat × Nat := (4, 4)
def layStatusBusy : Nat × Nat := (0, 0)
def codStatusSlotBusy : Nat × Nat := (15, 12)
def codStatusPreemptPend : Nat × Nat := (5, 5)
def codStatusQuad : Nat × Nat := (4, 4)
def codStatusBusy : Nat × Nat := (0, 0)
def cmemCtrlSwitching : Nat × Nat := (15, 12)
def cmemCtrlClearing : Nat × Nat := (11, 8)
def cmemCtrlReel : Nat × Nat := (7, 4)
def cmemCtrlQuad : Nat × Nat := (0, 0)
def cmemEccPoisoned : Nat × Nat := (31, 24)
def cmemEccUncorr : Nat × Nat := (23, 16)
def cmemEccCorr : Nat × Nat := (15, 0)
def cmemRepairPending : Nat × Nat := (7, 0)
def cmemSpareB15 : Nat × Nat := (31, 30)
def cmemSpareB14B1 : Nat × Nat := (29, 2)
def cmemSpareB0 : Nat × Nat := (1, 0)

end Fld

end Sys2Proof.Machine
end

