-- ==== Sys2Proof/Machine/State.lean ====
section
/-! DEFINITION. The state of the block as plain data: a part of eight sites (R3, R15), the virtual devices it presents
(R41), the part-wide management state, what the block has sent out of its ports, and the queue of waiting commands.
A register whose content is kept in no other place is kept in its site's register store (`Site.regs`), by its offset
in the instance window (R15, R16). -/

namespace Sys2Proof.Machine

/-- A sparse byte memory in canonical form: addresses strictly rising, no entry equal to what an unlisted byte reads
as. Every memory of the block that starts cleared (R192, R201, R231) reads 0x00 where nothing is listed. -/
abbrev Mem := List Host.Cell

/-- How a vector program ended (R118). -/
inductive VeEnd where
  | halted | stopped | faulted (code : Nat)
  deriving DecidableEq, Repr, Inhabited

/-- A vector engine (R92, R132). -/
structure Ve where
  /-- v0–v31, 2,048 bytes each; element 0 in the lowest bits. -/
  v : Vector (BitVec 16384) 32 := Vector.replicate 32 0
  /-- p0–p7; p0 is never stored to. -/
  p : Vector (BitVec 2048) 8 := Vector.replicate 8 0
  a : Vector W32 16 := Vector.replicate 16 0
  vl : Nat := 2048
  flags : BitVec 5 := 0
  /-- The 64-bit rounding counter. -/
  rc : W64 := 0
  pc : Nat := 0
  busy : Bool := false
  waiting : Bool := false
  offline : Bool := false
  /-- R108 code of the last program fault (VE_STATUS.FAULT_CODE). -/
  faultCode : Nat := 0
  /-- Launch ticket, 0 for none. -/
  ticket : Nat := 0
  /-- Physical scalar engine that launched the program. -/
  launcher : Nat := 0
  /-- Generator seed of the stream whose command runs here (R99). -/
  seed : W64 := 0
  /-- Core memory as it was at launch: a word written since may still be fetched old (R117). -/
  code : Mem := []
  /-- Vector registers that hold an uncorrectable error (R133, R189). -/
  badRegs : List Nat := []
  deriving DecidableEq, Repr, Inhabited

/-- SE_STATUS.STATE (R134). -/
inductive SeMode where
  | idle | running | waiting | ended | faulted | saved
  deriving DecidableEq, Repr, Inhabited

/-- What a waiting scalar engine waits for (R115, R116). -/
inductive SeWait where
  | none
  | wfi
  | ticket (rd : Nat) (t : Nat)
  | move (rd : Nat) (t : Nat)
  | event (rd : Nat) (mask : BitVec 16) (limit : W64)
  deriving DecidableEq, Repr, Inhabited

/-- The machine CSRs of a scalar engine (R113, R115). -/
structure Csrs where
  mtvec : W64 := 0
  mepc : W64 := 0
  mcause : W64 := 0
  mtval : W64 := 0
  mscratch : W64 := 0
  mstatus : W64 := 0
  minstret : W64 := 0
  deriving DecidableEq, Repr, Inhabited

/-- A scalar engine (R113, R114, R120, R134). -/
structure Se where
  x : Vector W64 32 := Vector.replicate 32 0
  f : Vector W32 32 := Vector.replicate 32 0
  pc : W64 := 0
  fcsr : BitVec 8 := 0
  csrs : Csrs := {}
  /-- The 16 KiB private scratch. -/
  scratch : Mem := []
  /-- The reservation of LR: address and bytes. -/
  resv : Option (Nat × Nat) := none
  events : BitVec 16 := 0
  mode : SeMode := .idle
  wait : SeWait := .none
  exit : Byte := 0
  /-- mcause[7:0] of the last fatal trap. -/
  cause : Nat := 0
  /-- The SCALAR_RUN this engine runs. -/
  cmd : Option CmdRef := none
  veMask : Nat := 0
  /-- Core memory as the instruction cache may still hold it (R114). -/
  code : Mem := []
  deriving DecidableEq, Repr, Inhabited

/-- A launch ticket (R117, R118). -/
structure Ticket where
  id : Nat
  /-- Physical vector engines still running, and how the others ended. -/
  running : List Nat
  ends : List (Nat × VeEnd)
  cmd : Option CmdRef
  quarter : Nat
  deriving DecidableEq, Repr, Inhabited

/-- A CMCOPY move (R119). -/
structure Move where
  id : Nat
  /-- Physical scalar engine that issued it. -/
  se : Nat
  src : Nat
  dst : Nat
  len : Nat
  dir : Nat
  /-- The value MWAIT returns once the move has ended. -/
  result : Option Nat
  cmd : Option CmdRef
  quarter : Nat
  deriving DecidableEq, Repr, Inhabited

/-- State of a chaining port half (R110). -/
inductive HalfState where
  | idle | active | ended
  deriving DecidableEq, Repr, Inhabited

/-- A chaining port half with its 16-row FIFO (R110). -/
structure Half where
  state : HalfState := .idle
  fifo : List (Nat × Bytes) := []
  cmd : Option CmdRef := none
  /-- CHPOPs that wait, in the order they reached the port: physical engine, VD and AB. -/
  waiters : List (Nat × Nat × Nat) := []
  deriving DecidableEq, Repr, Inhabited

/-- Core power states (R577). -/
inductive CoreState where
  | c0 | c1 | c2 | c3
  deriving DecidableEq, Repr, Inhabited

/-- The part of a slice's unit that a Reel switch saves (R85, R124, R142, R402), and a UNIT_MOVE copies (R432). -/
structure Image where
  slice : Nat
  /-- Local time at which step 1 of the pre-emption began (R404, R418). -/
  since : Nat := 0
  cmem : Mem := []
  poison : List Nat := []
  acc : Mem := []
  ves : List Ve := []
  ses : List Se := []
  halves : List Half := []
  tickets : List Ticket := []
  moves : List Move := []
  deriving DecidableEq, Repr, Inhabited

/-- The Reel state of a hardware unit: a whole core or a quadrant (R400, R421). -/
structure ReelUnit where
  /-- Slices of the unit's Reel group in group order, or the one Pavane slice. -/
  group : List Nat := []
  /-- Whether the unit is scheduled in Reel. -/
  reel : Bool := false
  resident : Option Nat := none
  /-- Local time at which the resident quantum began, and since when the resident slice has been idle. -/
  quantumStart : Nat := 0
  idleSince : Nat := 0
  /-- A pre-emption is in steps 1 to 4 of R401, begun at this time, towards this slice. -/
  preempt : Option (Nat × Nat) := none
  /-- A switch window towards this slice is under way (R403). -/
  switching : Option Nat := none
  /-- Switch budget of the group in fast-tier slots (R403). -/
  switchN : Nat := 0
  images : List Image := []
  deriving DecidableEq, Repr, Inhabited

/-- A physical core (R20). -/
structure Core where
  /-- 1 = quad mode (R27). -/
  quad : Bool := false
  /-- A mode change accepted and waiting for a tile boundary or for C0 (R31). -/
  pendQuad : Option Bool := none
  /-- Local time since which its issued commands are saved in C1 or C2 (R578, R579). -/
  slept : Nat := 0
  /-- The accumulator buffer, four bytes a word (R66). -/
  acc : Mem := []
  /-- The 64 banks: byte address `(bank * 12288 + row) * 128 + offset` (R186, R187). -/
  cmem : Mem := []
  /-- Poisoned 32-byte sectors, by sector number in the same addressing (R189). -/
  poison : List Nat := []
  /-- Corrected errors seen per (bank, row) since cold boot, and rows steered to spares (R190). -/
  rowErr : List (Nat × Nat × Nat) := []
  failing : List (Nat × Nat) := []
  steered : List (Nat × Nat) := []
  clearing : BitVec 4 := 0
  ves : List Ve := List.replicate 13 {}
  ses : List Se := List.replicate 8 {}
  tickets : List Ticket := []
  moves : List Move := []
  nextTicket : Nat := 1
  halves : List Half := List.replicate 4 {}
  units : List ReelUnit := List.replicate 4 {}
  /-- The command that runs on each quadrant of the array and whether attention owns it (R89). -/
  array : List (Option CmdRef) := List.replicate 4 none
  attOwn : BitVec 4 := 0
  /-- The commands in the slots of the attention, select, gather/scatter, layout and codec engines (R181). -/
  zoo : List (EngineKind × Nat × CmdRef) := []
  deriving DecidableEq, Repr, Inhabited

/-- A landing window of a reduction engine (R175). -/
structure Window where
  num : Nat
  slice : Nat
  cmd : CmdRef
  op : Nat
  inDt : Nat
  count : Nat
  expect : Nat
  acc : Nat
  /-- Contributions received per element, where not zero. -/
  got : List (Nat × Nat)
  excess : Bool
  nanIn : Bool
  deriving DecidableEq, Repr, Inhabited

/-- A line of a cluster cache (R202). -/
structure CacheLine where
  slice : Nat
  bset : Nat
  page : Nat
  off : Nat
  data : Bytes
  used : Nat
  deriving DecidableEq, Repr, Inhabited

/-- What a cluster-memory unit is allotted to (R200). -/
inductive ClmUse where
  | free
  | scratch (slice : Nat)
  | cache (slice : Nat)
  deriving DecidableEq, Repr, Inhabited

/-- A cluster (R20, R200). -/
structure Cluster where
  clm : Mem := []
  poison : List Nat := []
  alloc : List ClmUse := List.replicate 64 .free
  clearing : Bool := false
  windows : List Window := []
  lines : List CacheLine := []
  tick : Nat := 0
  /-- Commands on the expert router and the reduction engine. -/
  router : List CmdRef := []
  reducer : List CmdRef := []
  deriving DecidableEq, Repr, Inhabited

/-- A valid tier-map entry (R227): its tenant page, then the fields of the entry. -/
structure TierEntry where
  page : Nat
  policy : Nat
  moving : Bool
  slice : Nat
  count : Nat
  poison : BitVec 16
  slow : Bool
  ppn : Nat
  deriving DecidableEq, Repr, Inhabited

/-- The metadata of a written sub-page: its version, and the key slot, key generation and class bound in its tags
(R229–R231). A sub-page that is not listed has version 0. -/
structure SubMeta where
  sub : Nat
  version : Nat
  slot : Nat
  gen : Nat
  priv : Bool
  deriving DecidableEq, Repr, Inhabited

/-- A move channel of the tedder, or a move waiting for one (R244). -/
structure TierMove where
  ns : Nat
  page : Nat
  srcSlow : Bool
  src : Nat
  dstSlow : Bool
  dst : Nat
  /-- 1 claimed and copying, 2 re-copying, 4 holding (the steps of R244). -/
  step : Nat
  rounds : Nat
  /-- Sub-pages written since the round began, and sub-pages the round copies. -/
  dirty : BitVec 16
  todo : BitVec 16
  held : List (Nat × Bytes)
  slot : Nat
  /-- 0 tedder, 1 pin-fast, 2 retirement, 3 evacuation. -/
  kind : Nat
  /-- Sub-pages that did not read cleanly in a retirement. -/
  bad : BitVec 16
  deriving DecidableEq, Repr, Inhabited

/-- One tier of a site (R221–R225). -/
structure Tier where
  /-- Channel indices in service at cold boot: tier channel k is entry k (R223). -/
  channels : List Nat := []
  /-- The tier map of the namespace this tier names (R227). -/
  map : List TierEntry := []
  /-- Stored bytes, by `ppn * 65536 + offset`, as the plaintext they decrypt to. -/
  data : Mem := []
  subs : List SubMeta := []
  /-- Physical pages in use: mapped, destinations of moves, loft frames, save areas and tables. -/
  used : List Nat := []
  retired : List Nat := []
  /-- Tier channel of the page last taken (R224). -/
  lastCh : Nat := 0
  /-- Pages whose rows wait for hard post-package repair (R250). -/
  repairs : List Nat := []
  deriving DecidableEq, Repr, Inhabited

/-- A link frame kept for replay (R275). -/
structure LinkFrame where
  seq : Nat
  tc : Nat
  units : Nat
  bytes : Nat
  deriving DecidableEq, Repr, Inhabited

/-- A fabric link port, beside its registers (R272–R277). -/
structure Link where
  disabled : Bool := false
  txSeq : Nat := 0
  rxSeq : Nat := 0
  replay : List LinkFrame := []
  refusals : Nat := 0
  /-- Credits left with the far end. -/
  credits : CreditGrant := ⟨0, 0, 0, 0, 0⟩
  /-- Physical lanes of the lane map, in order (R273). -/
  laneMap : List Nat := []
  /-- Bring-up state that a RETRAIN stands at (R272); 0 outside one. -/
  step : Nat := 0
  /-- Frame the last negative acknowledgement named, and frames discarded at a failure (R275). -/
  nak : Option Nat := none
  discarded : Nat := 0
  /-- Packets that wait for credits or replay space, oldest first (R276). -/
  waiting : List Pkt := []
  deriving DecidableEq, Repr, Inhabited

/-- What a transaction entry asked for. -/
inductive TxnKind where
  | read | fill | write | atomic | fence | contrib | control
  deriving DecidableEq, Repr, Inhabited

/-- A fabric request a command has still to send (R281, R282). -/
structure Req where
  kind : TxnKind
  op : Nat := 0
  dst : Nat
  addr : Nat
  len : Nat
  slot : Nat
  priv : Bool
  payload : Bytes := []
  branch : Nat := 0
  group : Option Nat := none
  window : Nat := 0
  epoch : Nat := 0
  deriving DecidableEq, Repr, Inhabited

/-- A transaction entry of the transport (R281, R286). -/
structure Txn where
  num : Nat
  kind : TxnKind
  /-- Destination part and instance, `part * 8 + instance`. -/
  dst : Nat
  slot : Nat
  gen : Nat
  dom : Nat
  tag : Nat
  addr : Nat
  len : Nat
  born : Nat
  ctr : Nat
  cmd : Option CmdRef
  branch : Nat
  flow : Option Nat
  /-- Translation epoch of the access it serves (R385). -/
  epoch : Nat
  /-- The request itself: a replica update is repeated until it lands (R373), and a frozen slice's request is issued
  again after its migration (R456). -/
  req : Req
  deriving DecidableEq, Repr, Inhabited

/-- Nonce counters of a key slot towards one destination (R287). -/
structure Nonce where
  slot : Nat
  dst : Nat
  req : Nat
  rsp : Nat
  deriving DecidableEq, Repr, Inhabited

/-- A replay window of a key slot and a source (R288). -/
structure Replay where
  slot : Nat
  src : Nat
  top : Nat
  seen : BitVec 2048
  deriving DecidableEq, Repr, Inhabited

/-- A loft frame (R298). -/
structure Frame where
  slice : Nat
  part : Nat
  inst : Nat
  page : Nat
  ppn : Nat
  slot : Nat
  valid : BitVec 16
  dirty : BitVec 256
  used : Nat
  bset : Nat
  deriving DecidableEq, Repr, Inhabited

/-- An open epoch of a slice over a DVA range (R300). -/
structure Epoch where
  slice : Nat
  asid : Nat
  base : Nat
  len : Nat
  deriving DecidableEq, Repr, Inhabited

/-- A multicast group (R302). -/
structure McGroup where
  num : Nat
  slice : Nat
  asid : Nat
  targets : List Nat
  deriving DecidableEq, Repr, Inhabited

/-- A forwarded command of a spanned slice (R309). -/
structure Fwd where
  tag : Nat
  dst : Nat
  cmd : CmdRef
  sent : Nat
  /-- Transaction number of the CONTROL packet that carried it. -/
  txn : Nat
  deriving DecidableEq, Repr, Inhabited

/-- States of a tenant key slot (R436). -/
inductive SlotState where
  | free | active | draining
  deriving DecidableEq, Repr, Inhabited

/-- A tenant slot of the key store (R436, R437). -/
structure KeySlot where
  num : Nat
  state : SlotState := .free
  gen : Nat := 0
  slice : Nat := 0
  secret : BitVec 256 := 0
  /-- Local time of the last packet sent under the slot (R312). -/
  lastSent : Nat := 0
  deriving DecidableEq, Repr, Inhabited

/-- A mailbox (R494): FREE, HELD by a sender or DELIVERED to its receiver. -/
inductive BoxState where
  | free | held (agent : Byte) | delivered
  deriving DecidableEq, Repr, Inhabited

/-- A mailbox with its sixteen words. -/
structure Mailbox where
  state : BoxState := .free
  data : List W32 := List.replicate 16 0
  deriving DecidableEq, Repr, Inhabited

/-- Accounting of one client or stream on a site (R418); `stream` is 256 for the client. -/
structure Acct where
  vd : Nat
  stream : Nat
  waitSum : Nat := 0
  waitMax : Nat := 0
  preempt : Nat := 0
  run : Nat := 0
  commands : Nat := 0
  hist : List Nat := List.replicate 16 0
  deriving DecidableEq, Repr, Inhabited

/-- A budget (R411, R413). -/
structure Budget where
  slice : Nat
  bset : Nat
  path : Nat
  n : Nat
  window : Nat
  used : Nat
  deriving DecidableEq, Repr, Inhabited

/-- An armed guarantee (R416). -/
structure Guard where
  g : Nat
  slice : Nat
  bset : Nat
  path : Nat
  kind : Nat
  target : Nat
  misses : Nat
  last : Nat
  deriving DecidableEq, Repr, Inhabited

/-- What a reset domain carries beside HLT_DOM (R513, R525). -/
structure Dom where
  /-- Local times at which its resets within the escalation window began (R525). -/
  starts : List Nat := []
  /-- Local time of step 3 (R310, R513). -/
  began : Nat := 0
  /-- Virtual devices whose contexts the reset killed: RESETTING from step 3 to step 7 (R513). -/
  vds : List Nat := []
  deriving DecidableEq, Repr, Inhabited

/-- A fault-ring record waiting to be written (R491, R532). Crash records carry their continuation bodies. -/
structure Rec where
  type : Nat
  sev : Nat
  inst : Nat
  seq : Nat
  count : Nat
  first : Nat
  last : Nat
  body : Bytes
  cont : List Bytes
  deriving DecidableEq, Repr, Inhabited

/-- Losses of the current interval (R533). -/
structure Loss where
  err : Nat := 0
  warn : Nat := 0
  info : Nat := 0
  trace : Nat := 0
  coal : Nat := 0
  deriving DecidableEq, Repr, Inhabited

/-- The firmware banks and configuration records of the flash (R488, R529, R556). -/
structure Flash where
  bankPtr : Nat := 0
  minSvn : Nat := 0
  svn : List Nat := [0, 0]
  digest : List (BitVec 384) := [0, 0]
  bankOk : List Bool := [true, true]
  pending : Bool := false
  /-- The ROM rejected the bank that an activation named; its command ends FW_FALLBACK (R488). -/
  fellBack : Bool := false
  /-- Sequence numbers of the three configuration records as last written, and the digests of their winning copies. -/
  recSeq : List Nat := [0, 0, 0]
  recDigest : List (BitVec 384) := [0, 0, 0]
  deriving DecidableEq, Repr, Inhabited

/-- A selective IDE stream of a host port (R446). -/
structure Ide where
  stream : Nat
  rxKeys : BitVec 2
  txKeys : BitVec 2
  secure : Bool
  deriving DecidableEq, Repr, Inhabited

/-- A power command under way (R574, R578, R581). -/
structure PowerCmd where
  kind : PowerUnit
  idx : Nat
  /-- State that the transition under way leads to, and the state commanded last. -/
  leg : Nat
  target : Nat
  /-- Step that a relock under way leads to (R574). -/
  step : Nat := 0
  /-- Tag of the management request that replies when the target is reached. -/
  tag : Option (BitVec 16) := none
  deriving DecidableEq, Repr, Inhabited

/-- Pins and board-side state of a site (R544, R555–R562). -/
structure Pins where
  coldRstN : Bool := false
  leadStrap : Bool := false
  clamp : BitVec 4 := 0
  perstN : Bool := false
  pswEn : BitVec 16 := 0
  pswAck : BitVec 16 := 0
  faultN : Bool := true
  alertN : Bool := true
  i3cAddr : Option (BitVec 7) := none
  jtagOpen : Bool := false
  tapReset : Bool := true
  tapInstr : JtagInstr := .idcode
  debugNonce : Nat := 0
  /-- A sensor's reading is at or above its threshold. -/
  hot : List Bool := List.replicate 8 false
  deriving DecidableEq, Repr, Inhabited

/-- The fabric transport of a site. -/
structure Transport where
  txns : List Txn := []
  nextTxn : Nat := 0
  nonces : List Nonce := []
  replays : List Replay := []
  /-- Pairs of key slot and source or destination instance that the slices' layouts list (R287, R288). -/
  listed : List (Nat × Nat) := []
  frames : List Frame := []
  loftTick : Nat := 0
  epochs : List Epoch := []
  groups : List McGroup := []
  mcRuns : List CmdRef := []
  fwd : List Fwd := []
  nextTag : Nat := 0
  /-- Link that carries each ordered flow (destination, flow) (R284). -/
  flows : List (Nat × Nat × Nat) := []
  /-- Round-robin position over die-to-die ports, and over sprayed links. -/
  rr : Nat := 0
  deriving DecidableEq, Repr, Inhabited

/-- Management-side state of a site: interrupts, reports, accounting, regulation. -/
structure Watch where
  boxes : List Mailbox := List.replicate 16 {}
  /-- Edges of a shared source since its pending bit set, and whether it has been delivered (R500). -/
  srcEdges : List (Nat × Nat) := []
  delivered : List Nat := []
  /-- Counts of private sources, by `processor * 64 + number`. -/
  privCount : List (Nat × Nat) := []
  acct : List Acct := []
  budgets : List Budget := []
  guards : List Guard := []
  doms : List Dom := List.replicate 21 {}
  alarms : List Rec := []
  logs : List Rec := []
  seq : Nat := 0
  loss : Loss := {}
  losing : Bool := false
  /-- Corrected errors per physical page in this epoch: (slow, ppn, count) (R249). -/
  pageErr : List (Bool × Nat × Nat) := []
  power : List PowerCmd := []
  deriving DecidableEq, Repr, Inhabited

/-- One site: an instance of the block (R15, R20). -/
structure Site where
  id : Nat := 0
  pins : Pins := {}
  /-- Held out of service (R4, R434, R448, R584). -/
  out : Bool := false
  /-- Treated as absent by the lead (R3, R37, R520, R583). -/
  absent : Bool := false
  /-- Instance-local time in ns (R570). -/
  time : Nat := 0
  /-- Registers that differ from their reset value, by instance-window offset. -/
  regs : List (Nat × W32) := []
  /-- Pending high-word latches of R9, by the low word's offset. -/
  latch : List (Nat × W32) := []
  cores : List Core := List.replicate 6 {}
  clusters : List Cluster := List.replicate 2 {}
  fast : Tier := {}
  slow : Tier := {}
  /-- The 24,576 + 65,536 root counters of the counter tree that are not zero (R232), and failed metadata nodes. -/
  roots : List (Nat × Nat) := []
  failedMeta : List Nat := []
  moves : List (Option TierMove) := List.replicate 4 none
  moveQueue : List TierMove := []
  /-- Weight allotment in pages of each tier (R444). -/
  weightAllot : List Nat := [0, 0]
  /-- Commands on the sixteen DMA copy engines (R185), and engines out of service. -/
  dma : List (Option CmdRef) := List.replicate 16 none
  links : List Link := List.replicate 8 {}
  net : Transport := {}
  slots : List KeySlot := []
  /-- Block slots 960–964 as far as they hold a key (R434). -/
  blockKeys : List (Nat × BitVec 256) := []
  idKey : BitVec 384 := 0
  ide : List Ide := []
  watch : Watch := {}
  flash : Flash := {}
  /-- AtomicOp Requester Enable of the PF of this host port (R595). -/
  atomicOps : Bool := false
  deriving DecidableEq, Repr, Inhabited

/-- How far a placed command has come (R333, R397, R398). -/
inductive Phase where
  | placed | ready | issued | ended
  deriving DecidableEq, Repr, Inhabited

/-- The signal of a command's fence extension (R342). -/
inductive Sig where
  | none | waiting | sent | held (fid : Nat) | done | dropped
  deriving DecidableEq, Repr, Inhabited

/-- A read or AtomicOp a command has outstanding: key of its first byte (see `Cmd.got`), bytes, and the translation
epoch it was issued under (R385). -/
structure Ask where
  key : Nat
  len : Nat
  epoch : Nat
  deriving DecidableEq, Repr, Inhabited

/-- A placed Craene command (R333, R339, R345). -/
structure Cmd where
  id : Nat
  desc : Bytes
  ext : Bytes := []
  ring : Nat := 0
  slot : Nat := 0
  phase : Phase := .placed
  /-- It failed step 4, 5 or 6 of R339: it keeps its header status and signals nothing. -/
  badHeader : Bool := false
  status : W16 := 0
  eng : W16 := 0
  detail : W32 := 0
  /-- Its final result write has been issued (R19). -/
  finalWr : Bool := false
  /-- Its engine has reached its end: `status`, `eng` and `detail` are its result. -/
  ran : Bool := false
  /-- It was issued to an engine at some time (R345). -/
  wasIssued : Bool := false
  placeTime : Nat := 0
  readyTime : Nat := 0
  issueTime : Nat := 0
  endTime : Nat := 0
  sig : Sig := .none
  /-- Value last read by the compare-and-swap loop of a host fence (R389). -/
  sigSeen : Option W64 := Option.none
  /-- Objects it holds a reference on (R377). -/
  refs : List Nat := []
  /-- Runs of bytes that arrived for its reads: host bytes at their bus address, fabric bytes at 2^64 + fabric
  address. -/
  got : List (Nat × Bytes) := []
  asks : List Ask := []
  /-- Fabric requests not yet sent, in order. -/
  unsent : List Req := []
  /-- Requests that timed out while the slice was frozen: retry-needed (R456). -/
  retry : List Txn := []
  /-- The access it is held at (R383): DVA, rights needed, and the fault entry once open. -/
  hold : Option (Nat × Nat) := Option.none
  fault : Option Nat := Option.none
  /-- Rows of a chained epilogue not yet handed to the port: row number and bytes (R72). -/
  chainRows : List (Nat × Bytes) := []
  /-- Status per multicast branch or write-back, once known (R303). -/
  branches : List (Nat × W16) := []
  /-- Pieces of an atomic that have been carried out. -/
  progress : Nat := 0
  /-- Its requests have been sent and it waits for responses only. -/
  sentAll : Bool := false
  engine : Nat := 0
  /-- Class, budget set and deadline of its label when it became ready (R407). -/
  lab : Nat × Nat × Nat := (2, 0, 0)
  /-- Saved under Reel with its state (R404). -/
  saved : Bool := false
  /-- Its completion record lies in the stream's holding area (R350). -/
  held : Bool := false
  forwarded : Bool := false
  /-- Home tag of a work item forwarded to this part, and the CONTROL packet its CONTROL_ACK answers (R308). -/
  home : Option (Nat × Pkt) := Option.none
  deriving DecidableEq, Repr, Inhabited

/-- States of a stream (R335). -/
inductive StreamState where
  | free | active | sinkLost | faulted | killed | draining | frozen
  deriving DecidableEq, Repr, Inhabited

/-- A stream (R335, R336, R350). -/
structure Stream where
  state : StreamState := .free
  unit : Nat := 0
  vec : Nat := 0
  owner : Nat := 0
  seed : W64 := 0
  queue : List Cmd := []
  /-- Records discarded so far (R353, SINK_OVERFLOW) and suppressed or discarded at a destroy (CPL_DISCARDED). -/
  overflow : Nat := 0
  suppressed : Nat := 0
  /-- Killed while SINK_LOST or FAULTED: enters KILLED after the resume (R351). -/
  killPending : Bool := false
  /-- State before a freeze (R335). -/
  before : StreamState := .free
  deriving DecidableEq, Repr, Inhabited

/-- A submission ring with its completion ring: ring 0 is the native one, ring r a process ring (R328, R356). -/
structure Ring where
  on : Bool := false
  sqBase : Nat := 0
  sqHead : Nat := 0
  tail : Nat := 0
  cqBase : Nat := 0
  cqLog2 : Nat := 0
  cqHead : Nat := 0
  cqPos : Nat := 0
  cqPhase : Bool := true
  /-- Completion-ring entries reserved for placed commands (R333). -/
  cqRes : Nat := 0
  vec : Nat := 0
  /-- Slots read and not yet placed, oldest first: slot number and bytes. -/
  fetched : List (Nat × Bytes) := []
  deriving DecidableEq, Repr, Inhabited

/-- An outgoing event or fault ring (R328, R330). -/
structure OutRing where
  base : Nat := 0
  log2 : Nat := 0
  vec : Nat := 0
  head : Nat := 0
  pos : Nat := 0
  phase : Bool := true
  deriving DecidableEq, Repr, Inhabited

/-- An event not yet written (R352). -/
structure Event where
  type : Nat
  stream : Nat
  inst : Nat
  part : Nat
  count : Nat
  arg : Nat
  first : Nat
  last : Nat
  deriving DecidableEq, Repr, Inhabited

/-- An MSI-X vector: table entry, pending bit and coalescing (R355, R363). -/
structure Vector' where
  addr : W64 := 0
  data : W32 := 0
  masked : Bool := true
  pend : Bool := false
  /-- Accumulations not yet sent, and the local time of the first. -/
  acc : Nat := 0
  since : Nat := 0
  timeUs : Nat := 1
  countM1 : Nat := 0
  deriving DecidableEq, Repr, Inhabited

/-- States of a memory object (R369); a released index keeps its generation. -/
inductive ObjState where
  | live | freeing | released
  deriving DecidableEq, Repr, Inhabited

/-- Classes of a memory object (R367). -/
inductive ObjClass where
  | priv | shared | host | remote
  deriving DecidableEq, Repr, Inhabited

/-- A memory object record (R367–R370, R376). -/
structure Obj where
  index : Nat
  gen : Nat := 1
  state : ObjState := .live
  cls : ObjClass := .priv
  /-- Home instance, `part * 8 + instance`; namespace; first tenant page; size in bytes. -/
  home : Nat := 0
  ns : Nat := 0
  base : Nat := 0
  size : Nat := 0
  bus : Nat := 0
  loft : Nat := 0
  target : Nat := 0
  grant : Nat := 0
  refDva : Nat := 0
  count : Nat := 1
  /-- The last update of the reference word failed, so the next writes the whole count (R376). -/
  refFailed : Bool := false
  policy : Nat := 0
  /-- Placement number reached when OBJ_FREE put it in FREEING (R377); 0 while LIVE. -/
  freedId : Nat := 0
  /-- Step 1 of R370 is done, and whether the wait of R370 still runs. -/
  withdrawn : Bool := false
  waitTe : Bool := false
  deriving DecidableEq, Repr, Inhabited

/-- A run of equal-sized pages mapped onto an object (R371, R380). -/
structure Mapping where
  asid : Nat
  dva : Nat
  len : Nat
  psize : Nat
  rights : Nat
  obj : Nat
  off : Nat
  deriving DecidableEq, Repr, Inhabited

/-- A fault entry (R383, R354). -/
structure FaultEntry where
  fid : Nat
  asid : Nat
  page : Nat
  dva : Nat
  rightsKind : Bool
  access : Nat
  engines : W64
  /-- Commands held: stream and placement number. -/
  cmds : List (Nat × Nat)
  unit : Nat
  tag : W64
  stream : Nat
  inst : Nat
  time : Nat
  written : Bool := false
  deriving DecidableEq, Repr, Inhabited

/-- An invalidation that waits in step 3 of R385, with what completes when it acknowledges. -/
structure Inval where
  k : Nat
  epoch : Nat
  /-- The control command that completes, an object to release, or an ATS request. -/
  cmd : Option Nat
  obj : Option Nat
  ats : Option (Nat × Nat)
  /-- Site and CONTROL packet of a withdrawal that another part's front end asked for (R380). -/
  home : Option (Nat × Pkt) := none
  deriving DecidableEq, Repr, Inhabited

/-- A slice unit as bound (R336, R338). -/
structure UnitBind where
  num : Nat
  part : Nat
  inst : Nat
  core : Nat
  /-- Quadrant, or none for a whole core. -/
  quad : Option Nat
  reel : Bool
  quantum : Nat
  /-- First tenant page and physical pages of the unit's save area (R402). -/
  save : List Nat := []
  deriving DecidableEq, Repr, Inhabited

/-- An allotment of tier pages (kinds 1 and 2 of R486) or of cluster units (kinds 3 and 4). -/
structure Allot where
  kind : Nat
  part : Nat
  inst : Nat
  cluster : Nat
  count : Nat
  deriving DecidableEq, Repr, Inhabited

/-- A label table entry (R407). -/
structure LabelEntry where
  label : Nat
  cls : Nat
  bset : Nat
  deadline : Nat
  deriving DecidableEq, Repr, Inhabited

/-- TDISP states of a TDI (R447). -/
inductive Tdi where
  | unlocked | locked | run | error
  deriving DecidableEq, Repr, Inhabited

/-- A migration (R455): its step, and the peer. -/
structure Migration where
  /-- 1 frozen, 2 peer checked, 3 saved, 5 restored, 6 committed, 7 cancelled. -/
  step : Nat
  incoming : Bool
  peer : Nat
  session : Nat
  /-- Digest of the slice report at the freeze (R457). -/
  report : BitVec 384 := 0
  deriving DecidableEq, Repr, Inhabited

/-- A tenant removal under way (R460): the step it stands at, and what asked for it. -/
structure Removal where
  step : Nat
  /-- 0 SLICE_DESTROY, 1 STOP_INTERFACE_REQUEST, 3 migration commit. -/
  why : Nat
  tag : Option (BitVec 16)
  deriving DecidableEq, Repr, Inhabited

/-- The translation state of a virtual device (R365–R385). -/
structure Space where
  asids : List Nat := [0]
  objs : List Obj := []
  maps : List Mapping := []
  faults : List FaultEntry := []
  nextFid : Nat := 1
  batch : Nat := 0
  epoch : Nat := 0
  invals : List Inval := []
  nextInval : Nat := 0
  deriving DecidableEq, Repr, Inhabited

/-- What a slice holds: units, allotments and grants (R40, R429–R433). -/
structure Holdings where
  units : List UnitBind := []
  allots : List Allot := []
  labels : List LabelEntry := []
  /-- Multicast ranges and loft budgets: (instance, first, count) and (instance, frames). -/
  mcRanges : List (Nat × Nat × Nat) := []
  loft : List (Nat × Nat) := []
  /-- Weight grants: grant number and weight number. -/
  grants : List (Nat × Nat) := []
  policy : Nat := 0
  /-- The slice's parts by its own numbering: the home part first (R338). -/
  parts : List Nat := []
  deriving DecidableEq, Repr, Inhabited

/-- Front-end state of a virtual device. -/
structure FrontEnd where
  rings : List Ring := List.replicate 64 {}
  cfgErr : Bool := false
  eq : OutRing := {}
  fq : OutRing := {}
  streams : List Stream := List.replicate 256 {}
  nextId : Nat := 1
  /-- Events not yet written, oldest first. -/
  events : List Event := []
  vectors : List Vector' := List.replicate 32 {}
  eqLost : Bool := false
  fqLost : Bool := false
  badDb : Bool := false
  fetchLost : Bool := false
  frozen : Bool := false
  /-- Local time at which the fault ring was first found full with a batch ready (R354). -/
  fqFull : Option Nat := none
  /-- Pending high-word latches of R9, by the low word's offset in VF BAR0. -/
  latch : List (Nat × W32) := []
  deriving DecidableEq, Repr, Inhabited

/-- A virtual device and its slice (R326, R430). On a part that only hosts units of a slice homed elsewhere, the
record of that slice (R433). -/
structure Vd where
  live : Bool := false
  home : Nat := 0
  port : Nat := 0
  vf : Nat := 0
  noelaver : Bool := false
  refcount : Bool := false
  conf : Bool := false
  slot : Nat := 0
  fe : FrontEnd := {}
  sp : Space := {}
  hold : Holdings := {}
  tdi : Tdi := .unlocked
  ideStream : Nat := 0
  removal : Option Removal := none
  mig : Option Migration := none
  restored : Bool := false
  ats : Bool := false
  pri : Bool := false
  /-- Parameters the slice keeps for creation: default scheduling and quantum. -/
  reel : Bool := false
  quantum : Nat := 0
  deriving DecidableEq, Repr, Inhabited

/-- What a migration image carries of a slice (R457). -/
structure SliceImage where
  /-- Slice record, front end and address spaces. -/
  vd : Vd := {}
  /-- Save images by unit number. -/
  units : List (Nat × Image) := []
  /-- Private object pages: object, page of the object, contents. -/
  pages : List (Nat × Nat × Bytes) := []
  /-- Cluster scratch: instance, cluster, contents in unit order. -/
  scratch : List (Nat × Nat × Bytes) := []
  /-- Armed landing windows: instance, cluster, window. -/
  windows : List (Nat × Nat × Window) := []
  /-- Budgets, guarantees and multicast groups, by instance. -/
  budgets : List (Nat × Budget) := []
  guards : List (Nat × Guard) := []
  groups : List (Nat × McGroup) := []
  deriving DecidableEq, Repr, Inhabited

/-- A management request in progress (R479). -/
structure MReq where
  tag : BitVec 16
  op : W16
  pkt : Bytes
  /-- Agent of R493 it came from, and the site whose mailbox it came through, if not the ring. -/
  agent : Byte
  box : Option Nat := none
  /-- A long command has started and waits for its last step. -/
  started : Bool := false
  deriving DecidableEq, Repr, Inhabited

/-- A weight object (R444, R445): its copies as (instance, slow, first tenant page). -/
structure Weight where
  num : Nat
  size : Nat
  digest : BitVec 384
  copies : List (Nat × Bool × Nat)
  grants : Nat
  deriving DecidableEq, Repr, Inhabited

/-- A lend to another part (R487). -/
structure Lend where
  kind : Nat
  inst : Nat
  home : Nat
  arg : Nat
  deriving DecidableEq, Repr, Inhabited

/-- The management rings of the lead (R477, R506). -/
structure MgmtRings where
  on : Bool := false
  err : Bool := false
  reqBase : Nat := 0
  reqLog2 : Nat := 0
  reqTail : Nat := 0
  reqHead : Nat := 0
  rplBase : Nat := 0
  rplLog2 : Nat := 0
  rplHead : Nat := 0
  rplPos : Nat := 0
  rplPhase : Bool := true
  fltBase : Nat := 0
  fltLog2 : Nat := 0
  fltHead : Nat := 0
  fltPos : Nat := 0
  fltPhase : Bool := true
  deriving DecidableEq, Repr, Inhabited

/-- Part-wide state kept by the lead. -/
structure Part where
  lead : Option Nat := none
  settledOnce : Bool := false
  /-- Strap conflicts of R37 found at settlement: kind and instances involved. -/
  strapConflicts : List (Nat × Nat) := []
  /-- Instances of the membership settled at start-up. -/
  members : List Nat := []
  rings : MgmtRings := {}
  reqs : List MReq := []
  /-- Replies held until the reply ring or mailbox has room. -/
  replies : List (Option Nat × Byte × Bytes) := []
  weights : List Weight := []
  lends : List Lend := []
  logLevel : Nat := 3
  debug : Bool := false
  imageSeq : Nat := 0
  /-- SPDM sessions open with peers: session number and part (R439, slots 965–972). -/
  sessions : List (Nat × Nat) := []
  /-- Images restored here: source part and IMAGE_SEQ (R459). -/
  restored : List (Nat × Nat) := []
  deriving DecidableEq, Repr, Inhabited

/-- What the block has sent out of its ports. Function 256 is the PF. -/
inductive Msg where
  /-- A posted write to the host. -/
  | hostWrite (fn : Nat) (bus : Nat) (data : Bytes)
  | hostRead (fn : Nat) (bus : Nat) (len : Nat)
  | hostCas (fn : Nat) (bus : Nat) (cmp swap : W64)
  | hostAdd (fn : Nat) (bus : Nat) (val : W64)
  /-- An MSI-X message of a virtual device's vector, or of the PF. -/
  | msix (fn : Nat) (vec : Nat)
  /-- A fabric packet, by site and link or die-to-die port (0x100 + j). -/
  | packet (site : Nat) (port : Nat) (p : Pkt)
  /-- A link control frame: 0 acknowledgement, 1 negative acknowledgement, 2 credit return. -/
  | control (site : Nat) (link : Nat) (kind : Nat) (seq : Nat)
  | resend (site : Nat) (link : Nat) (seq : Nat)
  | pageRequest (fn : Nat) (bus : Nat)
  | atsDone (fn : Nat) (bus : Nat) (len : Nat)
  | ibi (site : Nat) (box : Nat)
  | cfgReply (site : Nat) (fn : Nat) (crs : Bool) (value : W32)
  | spdm (code : Nat) (data : Bytes)
  | procIrq (site : Nat) (proc : Nat) (num : Nat)
  | csqEvent (site : Nat) (cluster : Nat)
  deriving DecidableEq, Repr

/-- Why the model stops. -/
inductive Fault where
  /-- Safe. MEMORY_PORT_TRAINING raises it when the PHY returns read data outside the 8 to 64 port clocks of R237:
  the behaviour is not defined for surroundings that do not meet what a port expects of them (R2). -/
  | surroundings
  deriving DecidableEq, Repr

/-- Why the model refuses a command. -/
inductive Refusal where
  /-- Safe. An arm of `exec` whose meaning is not written. -/
  | notModelled (mnemonic : String)
  deriving DecidableEq, Repr

/-- The whole block. -/
structure State where
  sites : List Site
  vds : List Vd
  part : Part
  /-- What has left the block, oldest first. -/
  out : List Msg
  /-- The value the last register read returned. -/
  rd : W64
  /-- The model's own: the number of the next free value (`Config.freeWord`). -/
  free : Nat
  /-- The commands that wait, first in first out. -/
  pending : List Instr
  deriving DecidableEq, Repr

/-- The block with COLD_RST_N low on every instance (R562, R582): every register at its reset value, no tenant state,
no key. -/
def State.reset : State :=
  { sites := (List.range 8).map fun n => { id := n }
    vds := List.replicate 256 {}
    part := {}
    out := []
    rd := 0
    free := 0
    pending := [] }

end Sys2Proof.Machine
end

