-- ==== Sys2Proof/Machine/Ops.lean ====
section
/-! DEFINITION. The named operations over memories, registers and the parts of the state, and what the block sends:
events, fault-ring records, interrupts. -/

namespace Sys2Proof.Machine

/-! Bytes -/

/-- Little-endian bytes as a number (R8). -/
def leNat : Bytes → Nat
  | [] => 0
  | b :: r => b.toNat + 256 * leNat r

/-- The `n` little-endian bytes of a number (R8). -/
def leBytes : Nat → Nat → Bytes
  | 0, _ => []
  | n + 1, x => BitVec.ofNat 8 x :: leBytes n (x / 256)

/-- The field of `n` bytes at byte `off` of a record. -/
def fieldAt (b : Bytes) (off n : Nat) : Nat := leNat ((b.drop off).take n)

/-- Bits `[hi:lo]` of the byte at `off`. -/
def bitsAt (b : Bytes) (off hi lo : Nat) : Nat := bitsOf (b.getD off 0) hi lo

/-- Whether any of these bytes is not zero. -/
def anySet (b : Bytes) : Bool := b.any (· != 0)

/-- `n` zero bytes. -/
def zeros (n : Nat) : Bytes := List.replicate n 0

/-- A field clipped and padded to `n` bytes. -/
def padTo (n : Nat) (b : Bytes) : Bytes := b.take n ++ zeros (n - b.length)

/-! Memory in canonical form -/

/-- The byte at an address; an unlisted one reads 0x00. -/
def Mem.get : Mem → Nat → Byte
  | [], _ => 0
  | (k, b) :: r, a => if k = a then b else Mem.get r a

/-- Bytes `a … a + n − 1`, taken in one pass over the cells that lie there. -/
def Mem.fill : Nat → Nat → Mem → Bytes
  | 0, _, _ => []
  | n + 1, _, [] => zeros (n + 1)
  | n + 1, a, (k, b) :: r => if k = a then b :: Mem.fill n (a + 1) r else 0 :: Mem.fill n (a + 1) ((k, b) :: r)

/-- The `n` bytes at `a`. -/
def Mem.read (m : Mem) (a n : Nat) : Bytes :=
  Mem.fill n a (m.filter fun c => decide (a ≤ c.1) && decide (c.1 < a + n))

/-- The cells of a run of bytes, none equal to what an unlisted byte reads as. -/
def Mem.cells : Nat → Bytes → Mem
  | _, [] => []
  | a, b :: r => if b = 0 then Mem.cells (a + 1) r else (a, b) :: Mem.cells (a + 1) r

/-- Writes bytes from `a` upwards. -/
def Mem.write (m : Mem) (a : Nat) (bs : Bytes) : Mem :=
  (m.filter fun c => decide (c.1 < a)) ++ Mem.cells a bs ++
    (m.filter fun c => decide (a + bs.length ≤ c.1))

/-- Zeroes `n` bytes from `a`. -/
def Mem.clear (m : Mem) (a n : Nat) : Mem :=
  m.filter fun c => decide (c.1 < a) || decide (a + n ≤ c.1)

/-- Copies `n` bytes from `a` of one memory to `b` of another. -/
def Mem.copy (src : Mem) (a n : Nat) (dst : Mem) (b : Nat) : Mem :=
  (dst.filter fun c => decide (c.1 < b)) ++
    ((src.filter fun c => decide (a ≤ c.1) && decide (c.1 < a + n)).map fun c => (c.1 - a + b, c.2)) ++
    (dst.filter fun c => decide (b + n ≤ c.1))

/-- Whether every address of a memory is at or above `lo`, rising, with no zero byte listed. -/
def Mem.wfFrom : Nat → Mem → Bool
  | _, [] => true
  | lo, (k, b) :: r => decide (lo ≤ k) && decide (b ≠ 0) && Mem.wfFrom (k + 1) r

/-- The canonical form: addresses strictly rising, no entry equal to what an unlisted byte reads as. -/
def Mem.wf (m : Mem) : Bool := Mem.wfFrom 0 m

/-- The value kept under a key, or `d`. -/
def lookupD {β : Type} (l : List (Nat × β)) (k : Nat) (d : β) : β :=
  match l with
  | [] => d
  | (k', v) :: r => if k' = k then v else lookupD r k d

/-- Keeps a value under a key. -/
def keep {β : Type} (l : List (Nat × β)) (k : Nat) (v : β) : List (Nat × β) :=
  (k, v) :: l.filter fun c => decide (c.1 ≠ k)

/-! Parts of the state -/

/-- Site `i`. -/
def State.site (s : State) (i : Nat) : Site := s.sites.getD i {}

/-- Changes site `i`. -/
def State.onSite (s : State) (i : Nat) (f : Site → Site) : State := { s with sites := s.sites.modify i f }

/-- Core `p` of a site. -/
def Site.core (t : Site) (p : Nat) : Core := t.cores.getD p {}

/-- Changes core `p`. -/
def Site.onCore (t : Site) (p : Nat) (f : Core → Core) : Site := { t with cores := t.cores.modify p f }

/-- Core `p` of site `i`. -/
def State.core (s : State) (i p : Nat) : Core := (s.site i).core p

/-- Changes core `p` of site `i`. -/
def State.onCore (s : State) (i p : Nat) (f : Core → Core) : State := s.onSite i (·.onCore p f)

/-- Cluster `c` of a site. -/
def Site.cluster (t : Site) (c : Nat) : Cluster := t.clusters.getD c {}

/-- Changes cluster `c` of a site. -/
def Site.onCluster (t : Site) (c : Nat) (f : Cluster → Cluster) : Site :=
  { t with clusters := t.clusters.modify c f }

/-- Virtual device `v`. -/
def State.vd (s : State) (v : Nat) : Vd := s.vds.getD v {}

/-- Changes virtual device `v`. -/
def State.onVd (s : State) (v : Nat) (f : Vd → Vd) : State := { s with vds := s.vds.modify v f }

/-- Changes a virtual device's front end. -/
def State.onFe (s : State) (v : Nat) (f : FrontEnd → FrontEnd) : State := s.onVd v fun d => { d with fe := f d.fe }

/-- Changes a virtual device's translation state. -/
def State.onSp (s : State) (v : Nat) (f : Space → Space) : State := s.onVd v fun d => { d with sp := f d.sp }

/-- Changes what a slice holds. -/
def State.onHold (s : State) (v : Nat) (f : Holdings → Holdings) : State :=
  s.onVd v fun d => { d with hold := f d.hold }

/-- Stream `n` of a virtual device. -/
def Vd.stream (d : Vd) (n : Nat) : Stream := d.fe.streams.getD n {}

/-- Changes stream `n`. -/
def State.onStream (s : State) (v n : Nat) (f : Stream → Stream) : State :=
  s.onFe v fun e => { e with streams := e.streams.modify n f }

/-- Ring `r` of a virtual device. -/
def Vd.ring (d : Vd) (r : Nat) : Ring := d.fe.rings.getD r {}

/-- Changes ring `r`. -/
def State.onRing (s : State) (v r : Nat) (f : Ring → Ring) : State :=
  s.onFe v fun e => { e with rings := e.rings.modify r f }

/-- A placed command, if it is still in its stream's queue. -/
def State.cmd? (s : State) (c : CmdRef) : Option Cmd :=
  ((s.vd c.vd).stream c.stream).queue.find? fun k => decide (k.id = c.id)

/-- Changes a placed command. -/
def State.onCmd (s : State) (c : CmdRef) (f : Cmd → Cmd) : State :=
  s.onStream c.vd c.stream fun t => { t with queue := t.queue.map fun k => if k.id = c.id then f k else k }

/-- Changes the part-wide state. -/
def State.onPart (s : State) (f : Part → Part) : State := { s with part := f s.part }

/-- Changes the transport of a site. -/
def State.onNet (s : State) (i : Nat) (f : Transport → Transport) : State :=
  s.onSite i fun t => { t with net := f t.net }

/-- Changes the management-side state of a site. -/
def State.onWatch (s : State) (i : Nat) (f : Watch → Watch) : State :=
  s.onSite i fun t => { t with watch := f t.watch }

/-- Changes the pins of a site. -/
def State.onPins (s : State) (i : Nat) (f : Pins → Pins) : State :=
  s.onSite i fun t => { t with pins := f t.pins }

/-- Sends something out of the block. -/
def State.emit (s : State) (m : Msg) : State := { s with out := s.out ++ [m] }

/-- Draws a free value. -/
def State.draw (s : State) : W64 × State := (Config.freeWord s.free, { s with free := s.free + 1 })

/-- The lead site, site 0 while none is elected. -/
def State.lead (s : State) : Nat := s.part.lead.getD 0

/-! Registers -/

/-- The reset value of the register at this offset of a window, from the rows of its table. -/
def rowReset (rows : List RegRow) (off : Nat) : Nat :=
  match rows.find? fun r => decide (r.base ≤ off) && decide ((off - r.base) % r.stride = 0)
      && decide ((off - r.base) / r.stride < r.count) with
  | some r => r.reset
  | none => 0

/-- The row of the register tables that an instance-window offset names, if any (R13, R15, R16). -/
def regRow (off : Nat) : Option RegRow :=
  let hit (rows : List RegRow) (o : Nat) := rows.find? fun r =>
    decide (r.base ≤ o) && decide ((o - r.base) % r.stride = 0) && decide ((o - r.base) / r.stride < r.count)
  if 0x1000000 ≤ off ∧ off < 0x1800000 then
    let o := (off - 0x1000000) % 0x400000
    if o < 0x100000 then hit clusterRegs o
    else hit coreRegs ((o - 0x100000) % 0x100000)
  else hit instRegs off

/-- The reset value of the register at an instance-window offset; 0 where none is mapped (R12, R13). -/
def regReset (off : Nat) : Nat := ((regRow off).map (·.reset)).getD 0

/-- A stored register (R12: its reset value until something changes it). -/
def Site.reg (t : Site) (off : Nat) : W32 := lookupD t.regs off (BitVec.ofNat 32 (regReset off))

/-- Stores a register. -/
def Site.setReg (t : Site) (off : Nat) (v : W32) : Site := { t with regs := keep t.regs off v }

/-- A field of a word replaced. -/
def setBits (w : W32) (f : Nat × Nat) (v : Nat) : W32 :=
  let m := (2 ^ (f.1 + 1 - f.2) - 1) <<< f.2
  BitVec.ofNat 32 ((w.toNat &&& (0xFFFFFFFF ^^^ m)) ||| ((v % 2 ^ (f.1 + 1 - f.2)) <<< f.2))

/-- A field of a stored register. -/
def Site.fld (t : Site) (off : Nat) (f : Nat × Nat) : Nat := bitsOf (t.reg off) f.1 f.2

/-- Sets a field of a stored register. -/
def Site.setFld (t : Site) (off : Nat) (f : Nat × Nat) (v : Nat) : Site :=
  t.setReg off (setBits (t.reg off) f v)

/-- Adds to a saturating counter field. -/
def Site.bump (t : Site) (off : Nat) (f : Nat × Nat) (n : Nat := 1) : Site :=
  t.setFld off f (min (2 ^ (f.1 + 1 - f.2) - 1) (t.fld off f + n))

/-- A field of a register of site `i`. -/
def State.fld (s : State) (i off : Nat) (f : Nat × Nat) : Nat := (s.site i).fld off f

/-- Sets a field of a register of site `i`. -/
def State.setFld (s : State) (i off : Nat) (f : Nat × Nat) (v : Nat) : State := s.onSite i (·.setFld off f v)

/-- Adds to a saturating counter of site `i`. -/
def State.bump (s : State) (i off : Nat) (f : Nat × Nat) (n : Nat := 1) : State := s.onSite i (·.bump off f n)

/-! Numbers of the part -/

/-- The effective value of T_e in ms (R283, R315). -/
def Site.timeoutMs (t : Site) : Nat := min 10000 (max 1 (t.fld rFabCfg Fld.fabCfgTimeoutMs))

/-- T_e in ns. -/
def Site.te (t : Site) : Nat := t.timeoutMs * 1000000

/-- This part's id (R269). -/
def State.partId (s : State) : Nat := s.fld s.lead rFabCfg Fld.fabCfgPartId

/-- Index of the reset domain of a core, cluster, memory port, die-to-die port; 18 host, 19 fabric, 20 instance (R512). -/
def domCore (p : Nat) : Nat := p
/-- Index of a cluster's domain (R512). -/
def domCluster (c : Nat) : Nat := 6 + c
/-- Index of a memory port's domain (R512). -/
def domPort (p : Nat) : Nat := 8 + p
/-- Index of a die-to-die port's domain (R512). -/
def domD2d (j : Nat) : Nat := 14 + j

/-- HLT_DOM.STATE of a domain (R540): 0 up, 1 capturing, 2 in reset, 3 recovering, 4 out of service, 5 unwired. -/
def Site.domState (t : Site) (u : Nat) : Nat := t.fld (rHltDom u) Fld.hltDomState

/-- Whether a domain, and the instance that contains it, is up. -/
def Site.domUp (t : Site) (u : Nat) : Bool :=
  decide (t.domState u = 0) && (decide (u = 18) || decide (u = 19) || decide (t.domState 20 = 0))

/-- Generation tag of a domain (R516). -/
def Site.gen (t : Site) (u : Nat) : Nat := t.fld (rHltDom u) Fld.hltDomGen

/-- The instance works: out of cold reset, started, not held out of service, not in instance reset. -/
def Site.up (t : Site) : Bool :=
  t.pins.coldRstN && !t.out && !t.absent && decide (t.domState 20 = 0)

/-- The instance is a present member of the part (R39). -/
def Site.present (t : Site) : Bool := t.pins.coldRstN && !t.out && !t.absent

/-! Interrupts and reports -/

/-- Latches an edge of shared source `n` (R500): pending, counted, and its edges since pending; a reserved number
never pends (R498). Delivery is `deliverSrc`. -/
def Site.latchSrc (t : Site) (n : Nat) : Site :=
  let was := t.fld (rIrqSrc (n - 0x40)) Fld.irqSrcPend
  let t := (t.setFld (rIrqSrc (n - 0x40)) Fld.irqSrcPend 1).bump (rIrqSrc (n - 0x40)) Fld.irqSrcCount
  let e := if was = 0 then 1 else lookupD t.watch.srcEdges n 0 + 1
  { t with watch := { t.watch with srcEdges := keep t.watch.srcEdges n e } }

/-- Delivers shared source `n` to its target (R501): a processor's line, or a PF vector, whose pending bit clears. -/
def State.deliverSrc (s : State) (i n : Nat) : State :=
  let t := s.site i
  let off := rIrqSrc (n - 0x40)
  let target := t.fld off Fld.irqSrcTarget
  if target < 4 then
    let s := s.onWatch i fun w => { w with delivered := n :: w.delivered.filter (· ≠ n) }
    if t.fld (rIrqCtrl target) Fld.irqCtrlMask = 1 then s else s.emit (.procIrq i target n)
  else if 0x40 ≤ target then
    ((s.setFld i off Fld.irqSrcPend 0).onWatch i fun w =>
      { w with srcEdges := w.srcEdges.filter fun c => decide (c.1 ≠ n) }).emit (.msix (256 + i) (target - 0x40))
  else s

/-- An edge of shared source `n` on site `i`: it latches, and delivers when enabled and its coalescing count is
reached (R500). -/
def State.raiseSrc (s : State) (i n : Nat) : State :=
  let s := s.onSite i (·.latchSrc n)
  let t := s.site i
  let off := rIrqSrc (n - 0x40)
  if t.fld off Fld.irqSrcEn = 0 then s
  else if t.fld (rIrqCoal (t.fld off Fld.irqSrcCoal)) Fld.irqCoalCountM1 + 1 ≤ lookupD t.watch.srcEdges n 0 then
    s.deliverSrc i n
  else s

/-- An edge of private source `n` of processor `k` (R497, R500): it latches and counts; enabled, it delivers at once. -/
def State.raisePriv (s : State) (i k n : Nat) : State :=
  let off := rIrqPrivPendLo k + (if n < 32 then 0 else 4)
  let s := s.onSite i fun t => t.setReg off (t.reg off ||| BitVec.ofNat 32 (2 ^ (n % 32)))
  let s := s.onWatch i fun w =>
    { w with privCount := keep w.privCount (k * 64 + n) (min 255 (lookupD w.privCount (k * 64 + n) 0 + 1)) }
  let en := (s.site i).reg (rIrqPrivEnLo k + (if n < 32 then 0 else 4))
  if (bitOf en (n % 32) || (decide (k = 0) && decide (n < 4))) && decide (s.fld i (rIrqCtrl k) Fld.irqCtrlMask = 0) then
    s.emit (.procIrq i k n)
  else s

/-- Severity rank by which logs are displaced: 1 error, 2 warning, 3 information (R491, R532). -/
def countLoss (l : Loss) (sev : Nat) : Loss :=
  if sev = 1 then { l with err := l.err + 1 } else if sev = 2 then { l with warn := l.warn + 1 }
  else { l with info := l.info + 1 }

/-- Removes the newest record of severity `sev` (the list is oldest first). -/
def dropNewest (l : List Rec) (sev : Nat) : List Rec :=
  match l.reverse.findIdx? fun r => decide (r.sev = sev) with
  | some k => l.eraseIdx (l.length - 1 - k)
  | none => l

/-- Queues a fault-ring record of a site (R491, R532): an alarm joins the pending one of its type, a log at or above
LOG_LEVEL is queued, displacing the newest of the least severe class when 256 are queued. -/
def State.report (s : State) (i type sev : Nat) (body : Bytes) (cont : List Bytes := []) : State :=
  let w := (s.site i).watch
  let now := (s.site i).time
  let r : Rec := ⟨type, sev, i, w.seq % 65536, 1, now, now, padTo 40 body, cont⟩
  if sev = 0 then
    match w.alarms.find? fun a => decide (a.type = type) with
    | some _ => s.onWatch i fun w => { w with
        alarms := w.alarms.map fun a =>
          if a.type = type then { a with count := satAdd (2 ^ 32 - 1) a.count 1, last := now } else a
        loss := { w.loss with coal := w.loss.coal + 1 }
        losing := true }
    | none => s.onWatch i fun w => { w with alarms := w.alarms ++ [r], seq := w.seq + 1 }
  else if s.part.logLevel < sev then s
  else if w.logs.length < 256 then s.onWatch i fun w => { w with logs := w.logs ++ [r], seq := w.seq + 1 }
  else
    let worst := w.logs.foldl (fun m a => max m a.sev) 0
    if sev ≤ worst then
      (s.onWatch i fun w => { w with
        logs := dropNewest w.logs worst ++ [r]
        seq := w.seq + 1
        loss := countLoss w.loss worst
        losing := true }).bump i rHltLoss Fld.hltLossLogs
    else (s.onWatch i fun w => { w with loss := countLoss w.loss sev, losing := true }).bump i rHltLoss Fld.hltLossLogs

/-! Addressing of core memory (R187) -/

/-- Bytes of a binding's core memory (R103): a whole core, or a quarter-core. -/
def bindingSize (q : Option Nat) : Nat := if q.isSome then 0x1800000 else 0x6000000

/-- Bank and row of the line that holds byte offset `a` of a binding (R187). -/
def bankRow (q : Option Nat) (a : Nat) : Nat × Nat :=
  let l := a >>> 7
  match q with
  | none => ((l % 64) ^^^ ((l >>> 6) % 64) ^^^ ((l >>> 12) % 64) ^^^ ((l >>> 18) % 4), l >>> 6)
  | some q => (16 * q + ((l % 16) ^^^ ((l >>> 4) % 16) ^^^ ((l >>> 8) % 16) ^^^ ((l >>> 12) % 16)
      ^^^ ((l >>> 16) % 4)), l >>> 4)

/-- The place of byte offset `a` of a binding among the banks. -/
def bankByte (q : Option Nat) (a : Nat) : Nat :=
  let (b, r) := bankRow q a
  (b * 12288 + r) * 128 + a % 128

/-- The pieces of `n` bytes at `a` that lie in one line each, with their places in the run: (offset in run, address,
bytes). -/
def linePieces (k a n : Nat) : List (Nat × Nat × Nat) :=
  (List.range ((a % k + n + k - 1) / k)).map fun j =>
    let lo := max a (a / k * k + j * k)
    let hi := min (a + n) (a / k * k + j * k + k)
    (lo - a, lo, hi - lo)

/-- Reads core memory of a binding. -/
def Core.readCm (c : Core) (q : Option Nat) (a n : Nat) : Bytes :=
  (linePieces 128 a n).flatMap fun (_, lo, k) => c.cmem.read (bankByte q lo) k

/-- Whether any byte of a range lies in a poisoned sector (R189). -/
def Core.poisonedAt (c : Core) (q : Option Nat) (a n : Nat) : Bool :=
  if c.poison.isEmpty then false
  else (linePieces 32 a n).any fun (_, lo, _) => c.poison.contains (bankByte q lo / 32)

/-- Writes core memory of a binding; a poisoned sector is healed by a write that covers all 32 of its bytes (R189). -/
def Core.writeCm (c : Core) (q : Option Nat) (a : Nat) (bs : Bytes) : Core :=
  let pieces := linePieces 128 a bs.length
  let m := pieces.foldl (fun m (o, lo, k) => m.write (bankByte q lo) ((bs.drop o).take k)) c.cmem
  let healed := (linePieces 32 a bs.length).filterMap fun (_, lo, k) =>
    if k = 32 then some (bankByte q lo / 32) else none
  { c with cmem := m, poison := if c.poison.isEmpty then [] else c.poison.filter fun p => !healed.contains p }

/-- Zeroes the banks of a quarter, or of the whole core, poison included (R188, R192). -/
def Core.zeroBanks (c : Core) (q : Option Nat) : Core :=
  match q with
  | none => { c with cmem := [], poison := [] }
  | some q =>
    let lo := 16 * q * 12288 * 128
    let n := 16 * 12288 * 128
    { c with cmem := c.cmem.clear lo n
             poison := c.poison.filter fun p => decide (p * 32 < lo) || decide (lo + n ≤ p * 32) }

/-! Statuses (R19, R349, R490) -/

def stOk : W16 := 0x0000
def stPartial : W16 := 0x0001
def stAborted : W16 := 0x0002
def stLateAbort : W16 := 0x0003
def stTimeout : W16 := 0x0010
def stKilled : W16 := 0x0011
def stBadDescriptor : W16 := 0x0101
def stUnsupported : W16 := 0x0102
def stSinkLost : W16 := 0x0103
def stProgramFault : W16 := 0x0105
def stIndexRange : W16 := 0x0106
def stCodecFormat : W16 := 0x0107
def stWindowBusy : W16 := 0x0108
def stBadStream : W16 := 0x0109
def stStreamBusy : W16 := 0x010A
def stNoQueue : W16 := 0x010B
def stNotOwner : W16 := 0x010C
def stObjectGone : W16 := 0x0201
def stTranslationFault : W16 := 0x0202
def stRightsFault : W16 := 0x0203
def stUncorrectable : W16 := 0x0204
def stIntegrityFail : W16 := 0x0205
def stAsidInvalid : W16 := 0x0206
def stHostError : W16 := 0x0207
def stFabricTimeout : W16 := 0x0301
def stConfigConflict : W16 := 0x0401
def stBusy : W16 := 0x0402
def stNoResource : W16 := 0x0403
def stMalformed : W16 := 0x0404
def stUnknownOpcode : W16 := 0x0405
def stAbsent : W16 := 0x0406
def stNoSuch : W16 := 0x0407
def stWrongState : W16 := 0x0408
def stFwFallback : W16 := 0x0409
def stPfFault : W16 := 0x040A
def stKeyRevoked : W16 := 0x0501
def stUnsettled : W16 := 0x0502
def stDenied : W16 := 0x0503
def stBadSignature : W16 := 0x0504
def stRollback : W16 := 0x0505

end Sys2Proof.Machine
end

