-- ==== Sys2Proof/Machine/Flags.lean ====
section
/-! DEFINITION. The flag computations: the sticky flags of a vector engine (R109), the accrued exceptions of a scalar
engine's fcsr (R113), and the numeric flags a tile command reports. -/

namespace Sys2Proof.Machine

/-- Adds conditions to the sticky flags (R109). -/
def Ve.raise (v : Ve) (f : FpFlags) : Ve := { v with flags := v.flags ||| f.bits }

/-- The accrued exception bits of fcsr: NX, UF, OF, DZ, NV from bit 0. -/
def FpFlags.fcsr (f : FpFlags) : BitVec 8 :=
  BitVec.ofNat 8 (f.nx.toNat + 2 * f.uf.toNat + 4 * f.of.toNat + 8 * f.dz.toNat + 16 * f.nv.toNat)

/-- Adds conditions to fcsr (R113). -/
def Se.raise (e : Se) (f : FpFlags) : Se := { e with fcsr := e.fcsr ||| f.fcsr }

/-- R109's flags of a result in a data type: bit 4 stands for integer and FP8 results only. -/
def FpFlags.forType (f : FpFlags) (small : Bool) : FpFlags := { f with sat := f.sat && small }

end Sys2Proof.Machine
end

