-- ==== Sys2Proof/Machine/Operands.lean ====
section
/-! DEFINITION. The operand forms: the bindings of engines (R91, R129), the fields of the vector instruction word (R95,
R96), its elements, predicates and scalar operand (R93, R94, R97), and the legality of a word (R98–R106). -/

namespace Sys2Proof.Machine

/-! Engines and bindings -/

/-- Physical engine of core logical vector engine `l` (R129, R130). -/
def Site.veMap (t : Site) (p l : Nat) : Nat :=
  if l < 8 then t.fld (rVeMapLo p) (4 * l + 3, 4 * l) else t.fld (rVeMapHi p) (4 * (l - 8) + 3, 4 * (l - 8))

/-- Core logical number of a physical vector engine, if it has one. -/
def Site.veLogical (t : Site) (p e : Nat) : Option Nat := (List.range 12).find? fun l => t.veMap p l = e

/-- The quadrant of core logical vector engine `l`, or none in whole mode (R91). -/
def Core.veQuad (c : Core) (l : Nat) : Option Nat := if c.quad then some (l / 3) else none

/-- The quadrant of scalar engine `k`, or none in whole mode (R91). -/
def Core.seQuad (c : Core) (k : Nat) : Option Nat := if c.quad then some (k / 2) else none

/-- First core logical vector engine of a binding, and how many it has (R91). -/
def veSpan : Option Nat → Nat × Nat
  | none => (0, 12)
  | some q => (3 * q, 3)

/-- First scalar engine of a binding, and how many it has (R91). -/
def seSpan : Option Nat → Nat × Nat
  | none => (0, 8)
  | some q => (2 * q, 2)

/-- A core executes: up with its cluster, its engine map written, in C0 and not paused (R130, R574, R577). -/
def Site.coreRuns (t : Site) (p : Nat) : Bool :=
  t.up && t.domUp (domCore p) && t.domUp (domCluster (p / 3)) &&
  decide (t.fld (rVeMapHi p) Fld.veMapHiValid = 1) && decide (t.fld (rPwrCore p) Fld.pwrCoreState = 0) &&
  decide (t.fld (rPwrCore p) Fld.pwrCorePaused = 0)

/-- The Reel unit of a binding. -/
def Core.unit (c : Core) (q : Option Nat) : ReelUnit := c.units.getD (q.getD 0) {}

/-- The binding's engines run: no switch window is under way (R199, R403). During the steps of a pre-emption they run
on to their boundaries (R401). -/
def Core.unitRuns (c : Core) (q : Option Nat) : Bool := (c.unit q).switching.isNone

/-- Changes vector engine `e` of a core. -/
def State.onVe (s : State) (i p e : Nat) (f : Ve → Ve) : State :=
  s.onCore i p fun c => { c with ves := c.ves.modify e f }

/-- Changes scalar engine `k` of a core. -/
def State.onSe (s : State) (i p k : Nat) (f : Se → Se) : State :=
  s.onCore i p fun c => { c with ses := c.ses.modify k f }

/-- Integer register `r` of a scalar engine; x0 reads zero. -/
def Se.reg (e : Se) (r : Nat) : W64 := if r = 0 then 0 else e.x.getD r 0

/-- Writes an integer register; x0 is not stored to. -/
def Se.setReg (e : Se) (r : Nat) (v : W64) : Se := if r = 0 then e else { e with x := e.x.setIfInBounds r v }

/-- The instruction that waits has ended with this result: the engine runs on behind it. -/
def Se.resume (e : Se) (rd : Nat) (v : W64) : Se :=
  { e.setReg rd v with
    wait := .none, mode := .running, pc := e.pc + 4
    csrs := { e.csrs with minstret := e.csrs.minstret + 1 } }

/-- Local events pend on a scalar engine (R120), which ends a WFI (R115) or an EVWAIT whose mask they meet (R116). -/
def Se.post (e : Se) (bits : BitVec 16) : Se :=
  let e := { e with events := e.events ||| bits }
  if e.mode ≠ .waiting then e
  else match e.wait with
    | .wfi => if e.events = 0 then e else e.resume 0 0
    | .event rd mask _ =>
      let got := e.events &&& mask
      if got = 0 then e
      else { (e.resume rd (got.setWidth 64)) with events := e.events &&& ~~~mask }
    | _ => e

/-! Fields of the vector instruction word (R95, R96) -/

def vClass (w : W64) : Nat := bitsOf w 63 61
def vOp (w : W64) : Nat := bitsOf w 60 54
def vDt (w : W64) : Nat := bitsOf w 53 51
def vPred (w : W64) : Nat := bitsOf w 50 48
def vPz (w : W64) : Bool := bitOf w 47
def vVd (w : W64) : Nat := bitsOf w 46 42
def vVa (w : W64) : Nat := bitsOf w 41 37
def vVb (w : W64) : Nat := bitsOf w 36 32
def vVc (w : W64) : Nat := bitsOf w 31 27
/-- RM of class VV. -/
def vRm (w : W64) : Nat := bitsOf w 26 25
/-- SAT of class VV. -/
def vSat (w : W64) : Bool := bitOf w 24
def vsSrc (w : W64) : Bool := bitOf w 36
def vsAs (w : W64) : Nat := bitsOf w 35 32
def vsImm (w : W64) : Nat := bitsOf w 31 0
def vmAb (w : W64) : Nat := bitsOf w 41 38
def vmAi (w : W64) : Nat := bitsOf w 37 34
def vmMode (w : W64) : Nat := bitsOf w 33 32
def vmVi (w : W64) : Nat := bitsOf w 31 27
/-- OFF of class VM, signed. -/
def vmOff (w : W64) : Int := toSigned 24 (bitsOf w 23 0)
def vxSdt (w : W64) : Nat := bitsOf w 36 34
def vxRm (w : W64) : Nat := bitsOf w 33 32
def vxSat (w : W64) : Bool := bitOf w 31
def vcAd (w : W64) : Nat := bitsOf w 47 44
def vcAs (w : W64) : Nat := bitsOf w 43 40
def vcAt (w : W64) : Nat := bitsOf w 39 36
def vcPd (w : W64) : Nat := bitsOf w 35 33
def vcPs (w : W64) : Nat := bitsOf w 32 30
def vcPt (w : W64) : Nat := bitsOf w 29 27
def vcImm (w : W64) : Nat := bitsOf w 23 0
/-- IMM24 sign-extended. -/
def vcImmS (w : W64) : Int := toSigned 24 (vcImm w)

/-! Data types (R93) -/

/-- Element width in bytes. -/
def dtW (dt : Nat) : Nat :=
  if dt = 0 ∨ dt = 5 then 4 else if dt = 1 ∨ dt = 2 ∨ dt = 6 then 2 else 1
/-- Elements of one register. -/
def lanes (dt : Nat) : Nat := 2048 / dtW dt
/-- Whether a data type is a float. -/
def dtFloat (dt : Nat) : Bool := decide (dt < 5)
/-- Whether a data type is one of the FP8 formats. -/
def dtFp8 (dt : Nat) : Bool := decide (dt = 3) || decide (dt = 4)
/-- The format of a floating-point data type. -/
def dtFmt (dt : Nat) : Fmt :=
  if dt = 0 then fp32 else if dt = 1 then bf16 else if dt = 2 then fp16 else if dt = 3 then e4m3 else e5m2
/-- Bits of an element. -/
def dtBits (dt : Nat) : Nat := 8 * dtW dt

/-- Lane `i` of width `w` bytes of a register. -/
def lane (w x i : Nat) : Nat := (x >>> (8 * w * i)) % 2 ^ (8 * w)

/-- A register with lane `i` replaced. -/
def setLane (w x i v : Nat) : Nat := x ^^^ ((lane w x i ^^^ (v % 2 ^ (8 * w))) <<< (8 * w * i))

/-- Vector register `r`. -/
def Ve.vreg (v : Ve) (r : Nat) : Nat := (v.v.getD r 0).toNat

/-- Stores a vector register. -/
def Ve.setVreg (v : Ve) (r x : Nat) : Ve := { v with v := v.v.setIfInBounds r (BitVec.ofNat 16384 x) }

/-- Predicate register `k`; p0 reads as all ones (R92). -/
def Ve.preg (v : Ve) (k : Nat) : Nat := if k = 0 then 2 ^ 2048 - 1 else (v.p.getD k 0).toNat

/-- Stores a predicate register; writes to p0 are ignored (R92). -/
def Ve.setPreg (v : Ve) (k x : Nat) : Ve := if k = 0 then v else { v with p := v.p.setIfInBounds k (BitVec.ofNat 2048 x) }

/-- Address register `k`. -/
def Ve.areg (v : Ve) (k : Nat) : Nat := (v.a.getD k 0).toNat

/-- Stores an address register, modulo 2³². -/
def Ve.setAreg (v : Ve) (k : Nat) (x : Int) : Ve := { v with a := v.a.setIfInBounds k (BitVec.ofInt 32 x) }

/-- E of R94. -/
def Ve.count (v : Ve) (dt : Nat) : Nat := min v.vl (lanes dt)

/-- Whether element `i` below E is active (R94). -/
def Ve.active (v : Ve) (w : W64) (i : Nat) : Bool := (v.preg (vPred w)).testBit i

/-- The scalar operand of a VS word converted to the data type (R97): FP32 to nearest even, INT32 saturated. -/
def Ve.scalar (v : Ve) (w : W64) : Nat :=
  let x := if vsSrc w then v.areg (vsAs w) else vsImm w
  let dt := vDt w
  if dt = 0 then x
  else if dtFloat dt then ((dtFmt dt).convert .rne false (fp32.decode x)).1
  else wrapNat (dtBits dt) (clampInt (dtBits dt) (toSigned 32 x)).1

/-! Legality (R95, R96, R98, R101, R102, R104, R106) -/

/-- What the DT field may hold for an opcode. -/
inductive DtSet where
  | any | float | int | perm | trans | zero
  deriving DecidableEq, Repr, Inhabited

/-- Whether a DT value is in the set. -/
def DtSet.has (d : DtSet) (dt : Nat) : Bool :=
  match d with
  | .any => true
  | .float => dtFloat dt
  | .int => !dtFloat dt
  | .perm => decide (dtW dt ≠ 1)
  | .trans => decide (dt < 3)
  | .zero => decide (dt = 0)

/-- The opcodes of each class with their data types. -/
def vecOps : List ((Nat × Nat) × DtSet) :=
  [((0, 0x00), .any), ((0, 0x01), .any), ((0, 0x02), .any), ((0, 0x03), .float), ((0, 0x04), .float),
   ((0, 0x05), .any), ((0, 0x06), .any), ((0, 0x07), .any), ((0, 0x08), .any), ((0, 0x09), .any),
   ((0, 0x0A), .any), ((0, 0x0B), .any), ((0, 0x0C), .int), ((0, 0x0D), .int), ((0, 0x0E), .int),
   ((0, 0x0F), .any), ((0, 0x10), .any), ((0, 0x11), .perm), ((0, 0x18), .any), ((0, 0x19), .any),
   ((0, 0x1A), .any), ((0, 0x1B), .any), ((0, 0x1C), .float), ((0, 0x20), .any), ((0, 0x21), .any),
   ((0, 0x22), .any)] ++
  [((1, 0x00), .any), ((1, 0x01), .any), ((1, 0x02), .any), ((1, 0x03), .any), ((1, 0x04), .float),
   ((1, 0x05), .any), ((1, 0x06), .any), ((1, 0x07), .any), ((1, 0x08), .any), ((1, 0x09), .any),
   ((1, 0x0A), .int), ((1, 0x0B), .int), ((1, 0x0C), .int), ((1, 0x10), .any), ((1, 0x11), .int),
   ((1, 0x12), .any), ((1, 0x18), .any), ((1, 0x19), .any), ((1, 0x1A), .any), ((1, 0x1B), .any),
   ((1, 0x1C), .any), ((1, 0x1D), .any)] ++
  [((2, 0x00), .any), ((2, 0x01), .any), ((2, 0x02), .any), ((2, 0x03), .any), ((2, 0x04), .any),
   ((3, 0x00), .any), ((3, 0x08), .trans), ((3, 0x09), .trans), ((3, 0x0A), .trans), ((3, 0x0B), .trans),
   ((3, 0x0C), .trans), ((3, 0x0D), .trans)] ++
  [((4, 0x00), .zero), ((4, 0x01), .zero), ((4, 0x02), .zero), ((4, 0x03), .zero), ((4, 0x04), .zero),
   ((4, 0x05), .zero), ((4, 0x06), .any), ((4, 0x07), .any), ((4, 0x08), .zero), ((4, 0x09), .zero),
   ((4, 0x0A), .zero), ((4, 0x0B), .zero), ((4, 0x0C), .zero), ((4, 0x0D), .zero), ((4, 0x0E), .zero),
   ((4, 0x0F), .zero), ((4, 0x10), .zero), ((4, 0x11), .zero), ((4, 0x12), .zero), ((4, 0x13), .zero),
   ((4, 0x18), .any), ((4, 0x1A), .zero), ((4, 0x1B), .zero), ((4, 0x1C), .zero), ((4, 0x1D), .zero)]

/-- The data types of the word's opcode, if the opcode is listed. -/
def vecDts (w : W64) : Option DtSet := (vecOps.find? fun r => decide (r.1 = vecKey w)).map (·.2)

/-- The wider of the two operands of a VCVT, and its registers' multiple (R104): (ratio, source is wider). -/
def cvtRatio (w : W64) : Nat × Bool :=
  let a := dtW (vxSdt w)
  let d := dtW (vDt w)
  if d ≤ a then (a / d, true) else (d / a, false)

/-- Whether the class's fields hold legal values (R96, R98, R101, R102, R104, R106). -/
def vecFields (w : W64) : Bool :=
  let op := vOp w
  match vClass w with
  | 0 => decide (vRm w ≠ 3) && decide (bitsOf w 23 0 = 0) && (decide (op ≠ 0x0F) || !vPz w) &&
      (decide (op < 0x18) || decide (0x1C < op) || decide (vVd w < 8))
  | 1 => (decide (op ≠ 0x12) || (!vsSrc w && decide (vPred w = 0) && !vPz w)) &&
      (decide (op < 0x18) || decide (vVd w < 8))
  | 2 => decide (bitsOf w 26 24 = 0) &&
      (if op < 2 then decide (vmMode w ≠ 3)
       else if op < 4 then decide (vmMode w = 0) && decide (vmVi w = 0) && decide (vPred w = 0) && !vPz w &&
         (decide (op = 3) || decide (vVd w < 8))
       else !vPz w)
  | 3 => decide (bitsOf w 30 0 = 0) && decide (vxRm w ≠ 3) &&
      (if op = 0 then
        let (r, src) := cvtRatio w
        decide ((if src then vVa w else vVd w) % r = 0)
       else decide (vxSdt w = 0))
  | 4 => decide (bitsOf w 26 24 = 0) && decide (vPred w = 0)
  | _ => false

/-- Whether a word is legal (R108, code 0x01). -/
def vecLegal (w : W64) : Bool :=
  match vecDts w with
  | some d => d.has (vDt w) && vecFields w
  | none => false

/-- The vector registers a legal word reads. -/
def vecReads (w : W64) : List Nat :=
  let op := vOp w
  match vClass w with
  | 0 => if op = 3 ∨ op = 4 then [vVa w, vVb w, vVc w]
      else if op = 0x07 ∨ op = 0x08 ∨ op = 0x10 ∨ 0x20 ≤ op then [vVa w] else [vVa w, vVb w]
  | 1 => if op = 4 then [vVa w, vVd w] else if op = 0x10 ∨ op = 0x11 then [] else [vVa w]
  | 2 => (if op = 1 then [vVd w] else []) ++ (if op < 2 ∧ vmMode w = 2 then [vmVi w] else [])
  | 3 => [vVa w]
  | _ => []

end Sys2Proof.Machine
end

