-- ==== Sys2Proof/Machine/Transport.lean ====
section
/-! DEFINITION. The fabric transport: packet headers (R279), labels (R285, R407), link credits and replay (R274–R276),
routing (R290–R292), transaction entries (R281–R283, R286), nonce counters and replay windows (R287, R288). -/

namespace Sys2Proof.Machine

/-! Packet headers (R279, R280) -/

/-- The fields of a packet header. -/
structure Hdr where
  type : Nat := 0
  tc : Nat := 0
  sealing : Nat := 1
  ord : Bool := false
  dl : Bool := false
  br : Bool := false
  dst : Nat := 0
  label : Nat := 0
  hops : Nat := 8
  src : Nat := 0
  keyId : Nat := 0
  keyGen : Nat := 0
  gen : Nat := 0
  flow : Nat := 0
  deadline : Nat := 0
  op : Nat := 0
  txn : Nat := 0
  len : Nat := 0
  window : Nat := 0
  addr : Nat := 0
  group : Nat := 0
  bidx : Nat := 0
  deriving DecidableEq, Repr, Inhabited

/-- The 32 bytes of a header, byte 0 lowest. -/
def Hdr.bits (h : Hdr) : BitVec 256 :=
  let w0 := h.type <<< 28 + h.tc <<< 26 + h.sealing <<< 24 + h.ord.toNat <<< 23 + h.dl.toNat <<< 22 + h.br.toNat <<< 21 + h.dst
  let w1 := h.label <<< 24 + h.hops <<< 18 + h.src
  let w2 := h.keyId <<< 22 + h.keyGen <<< 16 + h.gen <<< 8 + h.flow
  let w3 := h.deadline <<< 20 + h.op <<< 16 + h.txn
  let w4 := h.len <<< 19 + h.window <<< 13
  let w7 := h.group <<< 20 + h.bidx <<< 14
  BitVec.ofNat 256 (w0 + w1 <<< 32 + w2 <<< 64 + w3 <<< 96 + w4 <<< 128 + h.addr <<< 160 + w7 <<< 224)

/-- The fields of 32 header bytes. -/
def Hdr.of (b : BitVec 256) : Hdr :=
  { type := bitsOf b 31 28, tc := bitsOf b 27 26, sealing := bitsOf b 25 24, ord := bitOf b 23, dl := bitOf b 22
    br := bitOf b 21, dst := bitsOf b 16 0, label := bitsOf b 63 56, hops := bitsOf b 55 50, src := bitsOf b 48 32
    keyId := bitsOf b 95 86, keyGen := bitsOf b 85 80, gen := bitsOf b 79 72, flow := bitsOf b 71 64
    deadline := bitsOf b 127 116, op := bitsOf b 115 112, txn := bitsOf b 111 96, len := bitsOf b 159 147
    window := bitsOf b 146 141, addr := bitsOf b 223 160, group := bitsOf b 255 244, bidx := bitsOf b 243 238 }

/-- Whether a header sets a reserved bit, type or seal, or carries too much (step 1 of R289). -/
def badHeader (p : Pkt) : Bool :=
  let b := p.hdr
  let h := Hdr.of b
  decide (h.type = 0) || decide (12 < h.type) || decide (h.sealing = 0) || decide (h.sealing = 3) ||
  decide (bitsOf b 20 17 ≠ 0) || bitOf b 49 || decide (bitsOf b 140 128 ≠ 0) || decide (bitsOf b 237 224 ≠ 0) ||
  decide (4096 < h.len) || decide (bitsOf p.nonce 63 61 ≠ 0) || (if h.type = 5 then decide (3 < h.op % 8) else decide (h.op ≠ 0))

/-- The response types (R287). -/
def isResponse (type : Nat) : Bool := [2, 4, 6, 8, 10, 12].contains type

/-- The response to a request type. -/
def responseOf (type : Nat) : Nat := type + 1

/-! Instances and labels -/

/-- The site of this part that carries instance id `n`, or 8 if none is present (R36, R37). -/
def State.siteOf (s : State) (n : Nat) : Nat :=
  (s.sites.findIdx? fun t => t.present && decide (t.id = n)).getD 8

/-- Part and instance of a site, laid out as DST (R279). -/
def State.addrOf (s : State) (i : Nat) : Nat := s.partId * 8 + (s.site i).id

/-- The label table entry in force: class, budget set and deadline (R407). -/
def Vd.label (d : Vd) (l : Nat) : Nat × Nat × Nat :=
  match d.hold.labels.find? fun e => decide (e.label = l) with
  | some e => (e.cls, e.bset, if e.cls = 0 ∧ e.deadline = 0 then 4095 else e.deadline)
  | none => (2, 0, 0)

/-- The slice's key slot as a site's key store holds it. -/
def Site.slot? (t : Site) (n : Nat) : Option KeySlot := t.slots.find? fun k => decide (k.num = n)

/-- Generation of a slot; 0 where the store has none. -/
def Site.slotGen (t : Site) (n : Nat) : Nat := ((t.slot? n).map (·.gen)).getD 0

/-- Whether a slot is ACTIVE. -/
def Site.slotActive (t : Site) (n : Nat) : Bool := ((t.slot? n).map (·.state)) == some .active

/-! Links (R274–R276) -/

/-- Units of 64 bytes of the frame of a packet: header, counter, payload, ICV and trailer (R274, R287). -/
def pktUnits (p : Pkt) : Nat := ceilDiv (32 + 8 + p.payload.length + 16 + 8) 64

/-- Credits left for a traffic class: its own, then the pool. -/
def creditOf (c : CreditGrant) (tc : Nat) : Nat :=
  if tc = 0 then c.tc0 else if tc = 1 then c.tc1 else if tc = 2 then c.tc2 else c.tc3

/-- Changes the reserved credits of a class. -/
def creditSet (c : CreditGrant) (tc n : Nat) : CreditGrant :=
  if tc = 0 then { c with tc0 := n } else if tc = 1 then { c with tc1 := n }
  else if tc = 2 then { c with tc2 := n } else { c with tc3 := n }

/-- Spends credits for a frame: the class's own first, then the pool; none if they do not cover it (R276). -/
def creditSpend (c : CreditGrant) (tc n : Nat) : Option CreditGrant :=
  let own := min n (creditOf c tc)
  if n - own ≤ c.pool then some { creditSet c tc (creditOf c tc - own) with pool := c.pool - (n - own) } else none

/-- Adds what a grant names. -/
def creditAdd (c g : CreditGrant) : CreditGrant :=
  ⟨c.tc0 + g.tc0, c.tc1 + g.tc1, c.tc2 + g.tc2, c.tc3 + g.tc3, c.pool + g.pool⟩

/-- Bytes of replay buffer in use. -/
def Link.replayBytes (l : Link) : Nat := (l.replay.map (·.bytes)).foldl (· + ·) 0

/-- Link `l` of a site. -/
def Site.link (t : Site) (l : Nat) : Link := t.links.getD l {}

/-- Changes link `l` of a site. -/
def State.onLink (s : State) (i l : Nat) (f : Link → Link) : State :=
  s.onSite i fun t => { t with links := t.links.modify l f }

/-- FAB_LINK.STATE of a link (R319). -/
def Site.linkState (t : Site) (l : Nat) : Nat := t.fld (rFabLink l) Fld.fabLinkState

/-- The link carries packets: ACTIVE, with its fabric port group up (R272). -/
def Site.linkUp (t : Site) (l : Nat) : Bool := decide (t.linkState l = 6) && t.domUp 19

/-- A link that takes new frames: ACTIVE, and no command takes it out of F0 (R272, R578). -/
def Site.linkSends (t : Site) (l : Nat) : Bool :=
  t.linkUp l && !t.watch.power.any fun x => decide (x.kind = .link) && decide (x.idx = l) && decide (x.leg ≠ 0)

/-- Whether a frame can leave now: credits for the whole of it, and replay space. -/
def Link.canSend (l : Link) (p : Pkt) : Option CreditGrant :=
  if 262144 < l.replayBytes + pktUnits p * 64 then none else creditSpend l.credits (Hdr.of p.hdr).tc (pktUnits p)

/-- Sends a frame on a link. -/
def State.sendFrame (s : State) (i l : Nat) (p : Pkt) (c : CreditGrant) : State :=
  (s.onLink i l fun k => { k with
    credits := c
    txSeq := (k.txSeq + 1) % 2 ^ 24
    replay := k.replay ++ [⟨k.txSeq, (Hdr.of p.hdr).tc, pktUnits p, pktUnits p * 64⟩] }).emit (.packet i l p)

/-- Puts a packet on a link: it leaves at once, or waits for the link and for credits behind the packets of its class
(R272, R276). -/
def State.linkSend (s : State) (i l : Nat) (p : Pkt) : State :=
  let k := (s.site i).link l
  let tc := (Hdr.of p.hdr).tc
  let wait := s.onLink i l fun k => { k with waiting := k.waiting ++ [p] }
  if !(s.site i).linkSends l || k.waiting.any fun q => decide ((Hdr.of q.hdr).tc = tc) then wait
  else match k.canSend p with
    | some c => s.sendFrame i l p c
    | none => wait

/-- Sends what waits on a link as far as credits reach: control and responses first, each class in order (R276, R285);
`n` bounds the number of packets. -/
def drainLink : Nat → Nat → Nat → State → State
  | 0, _, _, s => s
  | n + 1, i, l, s =>
    let k := (s.site i).link l
    let heads := [0, 1, 2, 3].filterMap fun tc => k.waiting.find? fun q => decide ((Hdr.of q.hdr).tc = tc)
    match heads.findSome? fun p => (k.canSend p).map fun c => (p, c) with
    | none => s
    | some (p, c) =>
      drainLink n i l ((s.onLink i l fun k => { k with waiting := k.waiting.erase p }).sendFrame i l p c)

/-- Sends what waits on a link. -/
def State.drain (s : State) (i l : Nat) : State :=
  if (s.site i).linkSends l then drainLink ((s.site i).link l).waiting.length i l s else s

/-! Routing (R284, R290–R292) -/

/-- A die-to-die port is up (R325). -/
def Site.d2dUp (t : Site) (j : Nat) : Bool :=
  (decide (t.fld (rD2dPort j) Fld.d2dPortState = 2) || decide (t.fld (rD2dPort j) Fld.d2dPortState = 3)) &&
  t.domUp (domD2d j)

/-- The link that draw `r` picks among `ls` in proportion to the weights, a weight of 0 counting as 1. -/
def pickLink (weights : Nat) (ls : List Nat) (r : Nat) : Option Nat :=
  let ws := ls.flatMap fun l => List.replicate (max 1 ((weights >>> (4 * l)) % 16)) l
  match ws with
  | [] => none
  | a :: _ => some (ws.getD (r % ws.length) a)

/-- Packets of an ordered flow have been sent and are not yet answered (R284): those that still wait on a link, and the
one with number `self`, are not among them. -/
def Site.flowBusy (t : Site) (dst flow self : Nat) : Bool :=
  t.net.txns.any fun x => decide (x.flow = some flow) && decide (x.dst = dst) && decide (x.num ≠ self) &&
    !t.links.any fun k => k.waiting.any fun p =>
      let h := Hdr.of p.hdr
      h.ord && !isResponse h.type && decide (h.txn = x.num)

/-- Picks one of the links that are up, or with none a die-to-die port (R284, R291); an ordered flow notes its link. -/
def State.pickAmong (s : State) (i : Nat) (h : Hdr) (hi : W32) (ls : List Nat) : Option Nat × State :=
  let t := s.site i
  if ls.isEmpty then
    let js := (List.range 4).filter fun j => bitOf hi (20 + j) && t.d2dUp j
    match js with
    | [] => (none, s)
    | a :: _ => (some (256 + js.getD (t.net.rr % js.length) a), s.onNet i fun n => { n with rr := n.rr + 1 })
  else
    let (f, s) := s.draw
    if h.ord then
      let l := ls.getD (f.toNat % ls.length) 0
      (some l, s.onNet i fun n => { n with
        flows := (h.dst, h.flow, l) :: n.flows.filter fun x => !(decide (x.1 = h.dst) && decide (x.2.1 = h.flow)) })
    else (pickLink (t.reg (rFabRtLo (h.dst / 8))).toNat ls f.toNat, s)

/-- The port by which site `i` sends a packet to another part: a link, or 256 + j for a die-to-die hand-off (R284, R291).
Which of the allowed links a packet takes is a free value (log entry 18); an ordered flow keeps its link, and holds on it
while it is down until every packet sent has been answered. -/
def State.pickRoute (s : State) (i : Nat) (h : Hdr) : Option Nat × State :=
  let t := s.site i
  let hi := t.reg (rFabRtLo (h.dst / 8) + 4)
  let kept := if h.ord then t.net.flows.find? fun x => decide (x.1 = h.dst) && decide (x.2.1 = h.flow) else none
  if !bitOf hi 31 then (none, s)
  else
    let ls := (List.range 8).filter fun l => bitOf hi (12 + l) && t.linkSends l
    match kept with
    | some x =>
      if ls.contains x.2.2 || t.flowBusy h.dst h.flow h.txn then (some x.2.2, s) else s.pickAmong i h hi ls
    | none => s.pickAmong i h hi ls

/-- Counts a drop of R321. -/
def State.dropped (s : State) (i off : Nat) (f : Nat × Nat) : State := s.bump i off f

/-- HOPS of a header replaced. -/
def setHops (b : BitVec 256) (n : Nat) : BitVec 256 := ({ Hdr.of b with hops := n } : Hdr).bits

/-- A packet leaves by die-to-die port `j`, its HOPS lowered by 1; with none left it is dropped (R292). -/
def State.handOff (s : State) (i j : Nat) (p : Pkt) : State :=
  let h := Hdr.of p.hdr
  if h.hops = 0 then s.dropped i rFabDrop30c Fld.fabDrop30cHopLimit
  else s.emit (.packet i (256 + j) { p with hdr := setHops p.hdr (h.hops - 1) })

/-- Sends a packet to another part from site `i`; with no route it is dropped and counted (R291). -/
def State.inject (s : State) (i : Nat) (p : Pkt) : State :=
  match s.pickRoute i (Hdr.of p.hdr) with
  | (none, s) => s.dropped i rFabDrop304 Fld.fabDrop304NoRoute
  | (some l, s) => if l < 256 then s.linkSend i l p else s.handOff i (l - 256) p

/-- The packets that wait on link `l` choose their route anew: they have not left (R293). -/
def State.reroute (s : State) (i l : Nat) : State :=
  let ps := ((s.site i).link l).waiting
  ps.foldl (fun s p => s.inject i p) (s.onLink i l fun k => { k with waiting := [] })

/-- A transaction has closed: ordered flows that waited for it choose a link again (R284). -/
def State.rerouteDown (s : State) (i : Nat) : State :=
  (List.range 8).foldl (fun s l =>
    if (s.site i).linkSends l || ((s.site i).link l).waiting.isEmpty then s else s.reroute i l) s

/-- Whether site `b` can be reached from site `a` over up die-to-die ports, in at most `n` hops (R292). -/
def State.reach (s : State) : Nat → Nat → Nat → Bool
  | 0, a, b => decide (a = b)
  | n + 1, a, b =>
    decide (a = b) || (List.range 4).any fun j =>
      let t := s.site a
      let c := s.siteOf (t.fld (rD2dPort j) Fld.d2dPortPeer)
      t.d2dUp j && decide (c < 8) && (decide (c = b) || (s.site c).up) && State.reach s n c b

/-- Whether a packet of site `a` for site `b` finds its way over the ports that FAB_D2D_RT gives, in at most `n` hops
(R292). -/
def State.routed (s : State) : Nat → Nat → Nat → Bool
  | 0, a, b => decide (a = b)
  | n + 1, a, b =>
    decide (a = b) || (List.range 4).any fun j =>
      let t := s.site a
      let c := s.siteOf (t.fld (rD2dPort j) Fld.d2dPortPeer)
      bitOf (t.reg (rFabD2dRt (s.site b).id)) j && t.d2dUp j && decide (c < 8) && (decide (c = b) || (s.site c).up) &&
        State.routed s n c b

/-- A request of site `a` to site `b` of the part is answered: the same site, or one that is up and reached in at most
eight hops (R279, R292). -/
def State.joined (s : State) (a b : Nat) : Bool := decide (a = b) || ((s.site b).up && s.routed 8 a b)

/-! Transactions and counters (R281–R283, R287, R288) -/

/-- What the issuing engine of a request gives it: command, reset domain, label and flow. -/
structure From where
  cmd : Option CmdRef
  dom : Nat
  label : Nat
  cls : Nat
  deadline : Nat
  ord : Bool
  deriving DecidableEq, Repr, Inhabited

/-- The next request or response counter of a slot towards a destination, from 1 (R287). -/
def State.nextNonce (s : State) (i slot dst : Nat) (rsp : Bool) : Nat × State :=
  let hit := fun x : Nonce => decide (x.slot = slot) && decide (x.dst = dst)
  let old : Nonce := ((s.site i).net.nonces.find? hit).getD ⟨slot, dst, 0, 0⟩
  let new : Nonce := if rsp then { old with rsp := old.rsp + 1 } else { old with req := old.req + 1 }
  (if rsp then new.rsp else new.req,
    s.onNet i fun n => { n with nonces := new :: n.nonces.filter fun x => !hit x })

/-- Whether a request towards `dst` under `slot` may be sent (R281, R282). -/
def Site.maySend (t : Site) (slot dst : Nat) : Bool :=
  decide (t.net.txns.length < 65536) &&
  (let mine := t.net.txns.filter fun x => decide (x.slot = slot) && decide (x.dst = dst)
   match mine with
   | [] => true
   | a :: r =>
     let oldest := r.foldl (fun m x => min m x.ctr) a.ctr
     let last := ((t.net.nonces.find? fun x => decide (x.slot = slot) && decide (x.dst = dst)).map (·.req)).getD 0
     decide (last + 1 < oldest + 2048))

/-- A transaction number no open entry has. -/
def Transport.freeTxn (n : Transport) : Nat :=
  ((List.range (n.txns.length + 1)).map fun k => (n.nextTxn + k) % 65536).find?
    (fun k => !n.txns.any fun x => decide (x.num = k)) |>.getD 0

/-- The packet type of a kind of transaction (R280). -/
def TxnKind.type : TxnKind → Nat
  | .read | .fill => 1
  | .write => 3
  | .atomic => 5
  | .fence => 7
  | .contrib => 9
  | .control => 0xB

/-- Opens a transaction entry and sends its request (R279, R281, R285–R287). -/
def State.request (s : State) (i : Nat) (f : From) (r : Req) : State :=
  let t := s.site i
  let num := t.net.freeTxn
  let (ctr, s) := s.nextNonce i r.slot r.dst false
  let flow := match f.cmd with | some c => c.stream % 256 | none => 0
  let tc := if r.kind = .fence ∨ r.kind = .control then 0 else if f.cls < 2 then 2 else 3
  let h : Hdr := { type := r.kind.type, tc := tc, sealing := if r.priv then 2 else 1, ord := f.ord
                   dl := decide (f.cls = 0), br := r.group.isSome, dst := r.dst, label := f.label, src := s.addrOf i
                   keyId := r.slot, keyGen := t.slotGen r.slot, gen := t.gen f.dom, flow := if f.ord then flow else 0
                   deadline := if f.cls = 0 then f.deadline else 0, op := r.op, txn := num, len := r.len
                   window := r.window, addr := r.addr, group := r.group.getD 0
                   bidx := if r.group.isSome then r.branch else 0 }
  let x : Txn := ⟨num, r.kind, r.dst, r.slot, t.slotGen r.slot, f.dom, t.gen f.dom, r.addr, r.len, t.time, ctr, f.cmd,
                  r.branch, if f.ord then some flow else none, r.epoch, r⟩
  let s := s.onSite i fun t => { t with
    net := { t.net with txns := t.net.txns ++ [x], nextTxn := (num + 1) % 65536 }
    slots := t.slots.map fun k => if k.num = r.slot then { k with lastSent := t.time } else k }
  s.inject i ⟨h.bits, BitVec.ofNat 64 ctr, r.payload, true⟩

/-- Sends the response to a request packet that arrived at site `i` (R280, R287). -/
def State.respond (s : State) (i : Nat) (q : Pkt) (st : W16) (payload : Bytes) : State :=
  let h := Hdr.of q.hdr
  let (ctr, s) := s.nextNonce i h.keyId h.src true
  let type := responseOf h.type
  let r : Hdr := { type := type, tc := if type = 8 ∨ type = 0xC then 0 else 1, sealing := h.sealing, ord := false
                   dst := h.src, label := h.label, src := s.addrOf i, keyId := h.keyId, keyGen := h.keyGen
                   gen := h.gen, txn := h.txn, len := payload.length, addr := st.toNat }
  (s.onSite i fun t => { t with
    slots := t.slots.map fun k => if k.num = h.keyId then { k with lastSent := t.time } else k }).inject i
    ⟨r.bits, BitVec.ofNat 64 ctr, payload, true⟩

/-- Checks a request counter against the replay window of its slot and source, and moves the window (R288). None: the
pair is not listed, or the request is a replay. -/
def Transport.accept (n : Transport) (slot src ctr : Nat) : Option Transport :=
  if !n.listed.contains (slot, src) then none
  else
    let hit := fun x : Replay => decide (x.slot = slot) && decide (x.src = src)
    let w : Replay := (n.replays.find? hit).getD ⟨slot, src, 0, 0⟩
    let put (x : Replay) : Transport := { n with replays := x :: n.replays.filter fun y => !hit y }
    if w.top < ctr then
      let k := ctr - w.top
      let old := if w.top = 0 then (0 : BitVec 2048) else (w.seen <<< k) ||| (if k ≤ 2048 then BitVec.ofNat 2048 (2 ^ (k - 1)) else 0)
      some (put { w with top := ctr, seen := old })
    else if ctr = w.top ∨ ctr = 0 then none
    else
      let d := w.top - ctr - 1
      if 2048 ≤ d then none
      else if w.seen.toNat.testBit d then none
      else some (put { w with seen := w.seen ||| BitVec.ofNat 2048 (2 ^ d) })

end Sys2Proof.Machine
end

