-- ==== Sys2Proof/Machine/Memory.lean ====
section
/-! DEFINITION. The memory tiers of a site: physical pages and channels (R221–R225), the tier map (R226, R227), versions
and tags (R228–R232), the checks of a read (R233), what a write does (R230, R231), memory error reports (R249) and the
cluster caches (R202). -/

namespace Sys2Proof.Machine

/-- The tier of a site: slow or fast. -/
def Site.tier (t : Site) (slow : Bool) : Tier := if slow then t.slow else t.fast

/-- Changes a tier. -/
def Site.onTier (t : Site) (slow : Bool) (f : Tier → Tier) : Site :=
  if slow then { t with slow := f t.slow } else { t with fast := f t.fast }

/-- Pages of one channel (R221). -/
def chPages (slow : Bool) : Nat := if slow then 262144 else 24576

/-- Pages of one channel below the carve-out (R225). -/
def chUsable (slow : Bool) : Nat := chPages slow - chPages slow * 9 / 256

/-- Physical pages of a tier that tenants and the reserve share: below the carve-out, on the channels of cold boot
(R223, R225). -/
def Tier.pages (t : Tier) (slow : Bool) : Nat := t.channels.length * chUsable slow

/-- Channel index of a physical page (R223). -/
def Tier.chOf (t : Tier) (ppn : Nat) : Nat := t.channels.getD (ppn % t.channels.length) 80

/-- MP_CH.STATE of a channel (R255). -/
def Site.chState (t : Site) (ch : Nat) : Nat := t.fld (rMpCh ch) Fld.mpChState

/-- The port of a channel (R221, R254). -/
def portOf (ch : Nat) : Nat := if ch < 64 then ch / 32 else 2 + (ch - 64) / 4

/-- A channel serves tenants: in service, with repairs or not, or being evacuated (R255). -/
def Site.chServes (t : Site) (ch : Nat) : Bool := [1, 2, 4].contains (t.chState ch)

/-- A port answers requests: it is up, in M0 (R254). -/
def Site.portServes (t : Site) (p : Nat) : Bool :=
  t.domUp (domPort p) && decide (t.fld (rMpPort p) Fld.mpPortState = 2)

/-! Free pages (R224, R225) -/

/-- A channel whose pages may be drawn: in service, on a port that is not in M2 (R251). -/
def Site.chDraws (t : Site) (ch : Nat) : Bool := t.chServes ch && decide (t.fld (rMpPort (portOf ch)) Fld.mpPortState ≠ 4)

/-- Whether a page of a tier may be drawn. -/
def Site.pageFree (t : Site) (slow : Bool) (ppn : Nat) : Bool :=
  let r := t.tier slow
  decide (ppn < r.pages slow) && !r.used.contains ppn && !r.retired.contains ppn &&
  t.chDraws (r.chOf ppn) && decide (t.chState (r.chOf ppn) ≠ 4)

/-- The lowest free page of tier channel `k`, if the channel has one. -/
def Site.freeOn (t : Site) (slow : Bool) (k : Nat) : Option Nat :=
  let n := (t.tier slow).channels.length
  let taken := ((t.tier slow).used.filter fun p => decide (p % n = k)).length +
    ((t.tier slow).retired.filter fun p => decide (p % n = k)).length
  ((List.range (min (chUsable slow) (taken + 1))).map fun j => j * n + k).find? (t.pageFree slow)

/-- The page R224 takes: the lowest free one on the tier channel after the last taken, skipping channels without one;
`avoid` names channels that may not be used. -/
def Site.drawPage (t : Site) (slow : Bool) (avoid : List Nat := []) : Option Nat :=
  let r := t.tier slow
  let n := r.channels.length
  ((List.range n).map fun d => (r.lastCh + 1 + d) % n).findSome? fun k =>
    if avoid.contains (r.channels.getD k 80) then none else t.freeOn slow k

/-- Takes a page. -/
def Site.takePage (t : Site) (slow : Bool) (ppn : Nat) : Site :=
  t.onTier slow fun r => { r with used := ppn :: r.used, lastCh := ppn % r.channels.length }

/-- Draws `n` pages in channel rotation, if the tier has that many (R224). -/
def Site.drawPages (slow : Bool) : Nat → Site → Option (List Nat × Site)
  | 0, t => some ([], t)
  | n + 1, t =>
    match t.drawPage slow with
    | none => none
    | some p => (Site.drawPages slow n (t.takePage slow p)).map fun (l, u) => (p :: l, u)

/-- Returns a page to the free pages; the versions of its sub-pages are 0 (R231). -/
def Site.freePage (t : Site) (slow : Bool) (ppn : Nat) : Site :=
  t.onTier slow fun r => { r with
    used := r.used.filter (· ≠ ppn)
    data := r.data.clear (ppn * 65536) 65536
    subs := r.subs.filter fun m => decide (m.sub / 16 ≠ ppn) }

/-- Free pages of a tier on channels in service (R225). -/
def Site.freeCount (t : Site) (slow : Bool) : Nat :=
  let r := t.tier slow
  let live := (r.channels.filter t.chDraws).length * chUsable slow
  let gone := ((r.used ++ r.retired).filter fun p => t.chDraws (r.chOf p)).length
  live - gone

/-- The reserve as cold boot forms it: one hundredth of the pages, rounded up (R225). -/
def reserveOf (pages : Nat) : Nat := ceilDiv pages 100

/-! The tier map (R226, R227) -/

/-- Namespace, tenant page and offset of a tenant address (R226). -/
def splitAddr (a : Nat) : Nat × Nat × Nat := (a >>> 46 % 2, (a >>> 16) % 2 ^ 30, a % 65536)

/-- A tenant address from its parts. -/
def joinAddr (ns page off : Nat) : Nat := ns <<< 46 + page <<< 16 + off

/-- The tier-map entry of a tenant page. -/
def Site.entry? (t : Site) (ns page : Nat) : Option TierEntry :=
  (t.tier (ns = 1)).map.find? fun e => decide (e.page = page)

/-- Changes the entry of a tenant page. -/
def Site.onEntry (t : Site) (ns page : Nat) (f : TierEntry → TierEntry) : Site :=
  t.onTier (ns = 1) fun r => { r with map := r.map.map fun e => if e.page = page then f e else e }

/-- The metadata of a sub-page; version 0 where nothing is listed (R231). -/
def Tier.sub (r : Tier) (n : Nat) : SubMeta := (r.subs.find? fun m => decide (m.sub = n)).getD ⟨n, 0, 0, 0, false⟩

/-- Stores the metadata of a sub-page. -/
def Tier.setSub (r : Tier) (m : SubMeta) : Tier := { r with subs := m :: r.subs.filter fun x => decide (x.sub ≠ m.sub) }

/-- The root index of the tree node over a sub-page of a physical page (R232). -/
def Tier.root (r : Tier) (ppn j : Nat) : Nat :=
  let ch := r.chOf ppn
  let node := (ppn / r.channels.length * 16 + j) / 1024
  if ch < 64 then 384 * ch + node else 24576 + 4096 * (ch - 64) + node

/-! Reports (R249) -/

/-- A memory error record (R249); one of the same kind and page that waits to be written counts it under MORE. -/
def State.memError (s : State) (i kind : Nat) (slow : Bool) (ppn addr slice : Nat) (mapped : Bool) : State :=
  let t := s.site i
  let ch := (t.tier slow).chOf ppn
  let head := leBytes 1 kind ++ leBytes 1 slow.toNat ++ leBytes 1 ch ++ leBytes 1 (if mapped then slice else 0) ++
    leBytes 4 ppn
  let hit := fun r : Rec => decide (r.type = 1) && decide (r.body.take 3 = head.take 3) &&
    decide ((r.body.drop 4).take 4 = head.drop 4)
  if t.watch.logs.any hit then
    let more := fun r : Rec =>
      if hit r then
        { r with body := r.body.take 18 ++ leBytes 2 (satAdd 65535 (fieldAt r.body 18 2) 1) ++ r.body.drop 20 }
      else r
    s.onWatch i fun w => { w with logs := w.logs.map more }
  else
    (s.report i 0x01 1 (head ++ leBytes 8 (if mapped then addr else 0) ++ leBytes 2 (addr % 65536 / 256) ++ leBytes 2 0 ++
      leBytes 1 mapped.toNat ++ zeros 3 ++ leBytes 8 t.time)).raiseSrc i (0x50 + portOf ch)

/-- A corrected error: counted, and reported at the third on one page within an epoch (R233, R249). -/
def State.memCorrected (s : State) (i : Nat) (slow : Bool) (ppn addr slice : Nat) : State :=
  let s := s.bump i (rMpChErr (((s.site i).tier slow).chOf ppn)) Fld.mpChErrCorr
  let hit := fun x : Bool × Nat × Nat => decide (x.1 = slow) && decide (x.2.1 = ppn)
  let n := (((s.site i).watch.pageErr.find? hit).map (·.2.2)).getD 0 + 1
  let s := s.onWatch i fun w => { w with pageErr := (slow, ppn, n) :: w.pageErr.filter fun x => !hit x }
  if n = 3 then s.memError i 1 slow ppn addr slice true else s

/-- An uncorrectable read: counted, its sub-page poisoned, reported (R233, R248, R249). -/
def State.memUncorrectable (s : State) (i ns page j : Nat) (e : TierEntry) (addr : Nat) : State :=
  let s := s.bump i (rMpChErr (((s.site i).tier e.slow).chOf e.ppn)) Fld.mpChErrUncorr
  let s := s.onSite i (·.onEntry ns page fun e => { e with poison := e.poison ||| BitVec.ofNat 16 (2 ^ j) })
  s.memError i 2 e.slow e.ppn addr e.slice true

/-- A tag failure reported as INTEGRITY_FAIL (R233, R249). -/
def State.memIntegrity (s : State) (i : Nat) (e : TierEntry) (addr : Nat) : State :=
  (s.bump i (rMpChErr (((s.site i).tier e.slow).chOf e.ppn)) Fld.mpChErrInteg).memError i 3 e.slow e.ppn addr e.slice true

/-! Reads and writes of one sub-page -/

/-- Granules a range touches, for COUNT (R242). -/
def granules (off n : Nat) : Nat := if n = 0 then 0 else (off + n - 1) / 256 - off / 256 + 1

/-- Adds to the access counter of a page (R242). -/
def Site.countAccess (t : Site) (ns page off n : Nat) : Site :=
  t.onEntry ns page fun e => { e with count := satAdd 4095 e.count (granules off n) }

/-- A request for this tenant address waits at its port: the channel is in service, but the port trains, is in reset or
in a low power state (R580). -/
def Site.portHeld (t : Site) (addr : Nat) : Bool :=
  let (ns, page, _) := splitAddr addr
  match t.entry? ns page with
  | none => false
  | some e => let ch := (t.tier e.slow).chOf e.ppn; t.chServes ch && !t.portServes (portOf ch)

/-- Reads `n` bytes of one sub-page through its memory port, with the checks of R233 as the metadata stands. -/
def State.tierRead (s : State) (i addr n slot : Nat) (priv engine : Bool) : Except W16 Bytes × State :=
  let t := s.site i
  let (ns, page, off) := splitAddr addr
  match t.entry? ns page with
  | none => (.error stTranslationFault, s)
  | some e =>
    let r := t.tier e.slow
    let j := off / 4096
    let m := r.sub (e.ppn * 16 + j)
    let s := if engine then s.onSite i (·.countAccess ns page off n) else s
    if !t.chServes (r.chOf e.ppn) then (.error stUncorrectable, s)
    else if e.poison.getLsbD j then (.error stUncorrectable, s)
    else if m.version = 0 then (.ok (zeros n), s)
    else if t.failedMeta.contains (r.root e.ppn j) then (.error stIntegrityFail, s.memIntegrity i e addr)
    else if m.priv ≠ priv ∨ (priv ∧ (m.slot ≠ slot ∨ m.gen ≠ t.slotGen slot)) then
      if e.slow then (.error stUncorrectable, s.memUncorrectable i ns page j e addr)
      else (.error stIntegrityFail, s.memIntegrity i e addr)
    else (.ok (r.data.read (e.ppn * 65536 + off) n), s)

/-- The largest version (R230). -/
def versionMax : Nat := 2 ^ 56 - 1

/-- Writes bytes of one sub-page of a physical page: its version rises, its tags take the writer's slot, generation and
class, and a sub-page of version 0 is written whole (R230–R232). -/
def Site.writeSub (t : Site) (slow : Bool) (ppn off : Nat) (bs : Bytes) (slot : Nat) (priv : Bool) : Site :=
  let r := t.tier slow
  let j := off / 4096
  let m := r.sub (ppn * 16 + j)
  let base := ppn * 65536 + j * 4096
  let data := if m.version = 0 then r.data.clear base 4096 else r.data
  let root := r.root ppn j
  { t.onTier slow fun r =>
      { r with data := data.write (ppn * 65536 + off) bs }.setSub
        ⟨ppn * 16 + j, m.version + 1, slot, if priv then t.slotGen slot else 0, priv⟩ with
    roots := keep t.roots root (lookupD t.roots root 0 + 1) }

/-- The move that holds a tenant page, if any (R244). -/
def Site.moveOf (t : Site) (ns page : Nat) : Option (Nat × TierMove) :=
  t.moves.zipIdx.findSome? fun (m, k) =>
    match m with
    | some x => if x.ns = ns ∧ x.page = page then some (k, x) else none
    | none => none

/-- A granule of a page that a memory port wrote leaves the cluster caches; the writing cluster's own line is updated
(R202). -/
def Site.cacheWrite (t : Site) (own : Option Nat) (key off : Nat) (bs : Bytes) : Site :=
  let hits := fun l : CacheLine => decide (l.page = key) && decide (l.off < off + bs.length) && decide (off < l.off + 256)
  let t := (List.range 2).foldl (fun t c =>
    if own = some c then t
    else
      let n := ((t.cluster c).lines.filter hits).length
      if n = 0 then t
      else (t.onCluster c fun k => { k with lines := k.lines.filter fun l => !hits l }).bump
        (rClmCache c) Fld.clmCacheInvals n) t
  match own with
  | none => t
  | some c =>
    let fresh := fun l : CacheLine =>
      if hits l then
        let lo := max off l.off
        let hi := min (off + bs.length) (l.off + 256)
        { l with data := l.data.take (lo - l.off) ++ (bs.drop (lo - off)).take (hi - lo) ++ l.data.drop (hi - l.off) }
      else l
    t.onCluster c fun k => { k with lines := k.lines.map fresh }

/-- Writes bytes of one sub-page through its memory port (R230, R231, R241, R244, R245): a write to a page under a move
marks it dirty. None: the page is held for the switch, or its port does not answer, and the write waits. -/
def State.tierWrite (s : State) (i addr : Nat) (bs : Bytes) (slot : Nat) (priv engine : Bool) (own : Option Nat) :
    Option (Except W16 Unit × State) :=
  let t := s.site i
  let (ns, page, off) := splitAddr addr
  match t.entry? ns page with
  | none => some (.error stTranslationFault, s)
  | some e =>
    let r := t.tier e.slow
    let j := off / 4096
    let mv := t.moveOf ns page
    if (mv.map fun x => decide (x.2.step = 4)) = some true ∨ t.portHeld addr then none
    else
      let s := if engine then s.onSite i (·.countAccess ns page off bs.length) else s
      if !t.chServes (r.chOf e.ppn) then some (.ok (), s.bump i (rMpChErr (r.chOf e.ppn)) Fld.mpChErrUncorr)
      else if versionMax ≤ (r.sub (e.ppn * 16 + j)).version then some (.error stIntegrityFail, s)
      else
        let s := s.onSite i fun t =>
          let t := (t.writeSub e.slow e.ppn off bs slot priv).cacheWrite own (joinAddr ns page 0) off bs
          match mv with
          | some (k, x) => { t with moves := t.moves.set k (some { x with dirty := x.dirty ||| BitVec.ofNat 16 (2 ^ j) }) }
          | none => t
        some (.ok (), s)

/-! Cluster caches (R202) -/

/-- Cache units of a slice in a cluster. -/
def Cluster.cacheUnits (c : Cluster) (slice : Nat) : Nat :=
  (c.alloc.filter fun u => decide (u = .cache slice)).length

/-- A line of a slice, if it is present. -/
def Cluster.line? (c : Cluster) (slice key off : Nat) : Option CacheLine :=
  c.lines.find? fun l => decide (l.slice = slice) && decide (l.page = key) && decide (l.off = off)

/-- The set of a line: line number modulo the sets of the slice's units (log entry 20). -/
def cacheSet (units key off : Nat) : Nat := (key / 256 + off / 256) % (256 * units)

/-- The budget of a slice's budget set on a path of a site (R413). -/
def Site.budget? (t : Site) (slice bset path : Nat) : Option Budget :=
  t.watch.budgets.find? fun b => decide (b.slice = slice) && decide (b.bset = bset) && decide (b.path = path)

/-- Whether a budget set has filled its fraction of `total` lines or frames in the window (R415). -/
def Site.fillsOver (t : Site) (slice bset path total : Nat) : Bool :=
  match t.budget? slice bset path with
  | some b => decide (b.n * total / 256 ≤ b.used)
  | none => false

/-- Counts a fill, or service units, of a budget set (R414, R415). -/
def Site.useBudget (t : Site) (slice bset path n : Nat) : Site :=
  { t with watch := { t.watch with budgets := t.watch.budgets.map fun b =>
      if b.slice = slice ∧ b.bset = bset ∧ b.path = path then { b with used := b.used + n } else b } }

/-- Fills or touches a line, dropping the least recently used of a set of sixteen. A budget set over its fraction
replaces only its own lines, and fills nothing where the set holds none (R415). -/
def Cluster.fill (c : Cluster) (slice bset key off : Nat) (data : Bytes) (excess : Bool := false) : Cluster :=
  let units := c.cacheUnits slice
  if units = 0 then c
  else
    let same := fun l : CacheLine => decide (l.slice = slice) && decide (l.page = key) && decide (l.off = off)
    let put (rest : List CacheLine) (b : Nat) : Cluster :=
      { c with lines := ⟨slice, b, key, off, data, c.tick + 1⟩ :: rest, tick := c.tick + 1 }
    let rest := c.lines.filter fun l => !same l
    match c.lines.find? same with
    | some l => put rest l.bset
    | none =>
      let peers := rest.filter fun l => decide (l.slice = slice) &&
        decide (cacheSet units l.page l.off = cacheSet units key off)
      let mine := peers.filter fun l => decide (l.bset = bset)
      let drop (v : List CacheLine) : List CacheLine :=
        let old := v.foldl (fun m l => min m l.used) c.tick
        rest.filter fun l => !(v.contains l && decide (l.used = old))
      if excess then if mine.isEmpty then c else put (drop mine) bset
      else if peers.length < 16 then put rest bset
      else put (drop peers) bset

end Sys2Proof.Machine
end

