-- ==== Sys2Proof/Machine/Vector.lean ====
section
/-! DEFINITION. The vector instructions (R91–R112, R118, R120, R133, R189). A row runs on an engine that stands at an
instruction boundary with the row's word at its program counter; under any row a word that is not legal faults (R108). -/

namespace Sys2Proof.Machine

/-- A vector engine about to run an instruction: where it is, its binding and local number, its core and its state. -/
structure VCtx where
  i : Nat
  p : Nat
  e : Nat
  q : Option Nat
  loc : Nat
  core : Core
  ve : Ve
  deriving DecidableEq, Repr

/-- The word at program counter `pc`, as core memory holds it and as it was at launch (R117: fetched old or new). -/
def fetchable (c : Core) (old : Mem) (q : Option Nat) (pc n : Nat) (w : Nat) : Bool :=
  decide (leNat (c.readCm q pc n) = w) || decide (leNat (({ c with cmem := old } : Core).readCm q pc n) = w)

/-- The engine runs a program and may issue its next instruction. -/
def vecAt (e : VeRef) (s : State) : Option VCtx :=
  let t := s.site e.site
  let c := t.core e.core
  match t.veLogical e.core e.eng with
  | none => none
  | some l =>
    let q := c.veQuad l
    let v := c.ves.getD e.eng {}
    if t.coreRuns e.core && c.unitRuns q && v.busy && !v.waiting then
      some ⟨e.site, e.core, e.eng, q, l - (veSpan q).1, c, v⟩
    else none

/-- Replaces the engine's state. -/
def VCtx.put (c : VCtx) (s : State) (v : Ve) : State := s.onVe c.i c.p c.e fun _ => v

/-- Replaces the engine's state and moves on to the next instruction. -/
def VCtx.next (c : VCtx) (s : State) (v : Ve) : State := c.put s { v with pc := (c.ve.pc + 8) % 2 ^ 32 }

/-- A program has ended on physical engine `e`: its ticket knows how (R118). -/
def Core.endVe (c : Core) (e : Nat) (how : VeEnd) : Core :=
  let v := c.ves.getD e {}
  { c with
    ves := c.ves.modify e fun v => { v with
      busy := false, waiting := false
      faultCode := match how with | .faulted k => k | _ => v.faultCode }
    halves := c.halves.map fun h => { h with waiters := h.waiters.filter fun x => decide (x.1 ≠ e) }
    tickets := c.tickets.map fun t =>
      if t.id = v.ticket ∧ e ∈ t.running then
        { t with running := t.running.filter fun x => decide (x ≠ e), ends := t.ends ++ [(e, how)] }
      else t }

/-- A health event of R492: unit kind, core or cluster, engine or bank, and row. -/
def State.health (s : State) (i kind a b row : Nat) : State :=
  (s.report i 0x02 1 (leBytes 1 kind ++ leBytes 1 a ++ leBytes 1 b ++ [0] ++ leBytes 4 row)).raiseSrc i
    (if kind = 2 then 0x4E + a else 0x48 + a)

/-- The program ends with a fault (R108): nothing of the instruction takes effect. -/
def VCtx.fault (c : VCtx) (s : State) (code : Nat) : State :=
  s.onCore c.i c.p fun k => k.endVe c.e (.faulted code)

/-- An uncorrectable register-state error (R108 code 0x06, R133): counted, reported, and the program ends. -/
def VCtx.eccFault (c : VCtx) (s : State) : State :=
  ((c.fault s 0x06).bump c.i (rVeEcc c.p c.e) Fld.veEccUncorr).health c.i 1 c.p c.e 0

/-- The shared frame of every vector row: fetch range, legality and register errors first, then the row's own effect
if the word is the row's; a word of another row leaves the block as it is (log entry 3). -/
def vecRow (cls op : Nat) (e : VeRef) (w : W64) (s : State) (body : VCtx → State → State) :
    Host.Outcome State Fault Refusal :=
  .next (match vecAt e s with
    | none => s
    | some c =>
      if bindingSize c.q ≤ c.ve.pc then c.fault s 0x02
      else if c.core.poisonedAt c.q c.ve.pc 8 then c.eccFault s
      else if !fetchable c.core c.ve.code c.q c.ve.pc 8 w.toNat then s
      else if !vecLegal w then c.fault s 0x01
      else if vecKey w ≠ (cls, op) then s
      else if (vecReads w).any c.ve.badRegs.contains then c.eccFault s
      else body c s)

/-! Elementwise operations -/

/-- The rounding mode of an RM field for element `i` (R96, R99). -/
def vRound (v : Ve) (rm i : Nat) : Rm :=
  if rm = 0 then .rne else if rm = 1 then .rtz else .sto (drawFor v.seed v.rc.toNat i)

/-- Rounds an exact result to a floating-point data type (R99): IEEE 754 for FP32, FP16 and BF16, R70 for FP8. -/
def roundDt (dt : Nat) (rm : Rm) (sat : Bool) (r : Fp × Bool) : Nat × FpFlags :=
  let (x, nv) := r
  let (n, f) := if dtFp8 dt then (dtFmt dt).convert rm sat x else (dtFmt dt).ieee rm x
  (n, ({ f with nv := f.nv || nv }).forType (dtFp8 dt))

/-- An integer result in `b` bits: wrapped, or saturated under SAT (R99). -/
def roundInt (b : Nat) (sat : Bool) (x : Int) : Nat × FpFlags :=
  let (y, o) := clampInt b x
  if sat then (wrapNat b y, { sat := o }) else (wrapNat b x, {})

/-- Folds the active elements below `n` into a register value: an inactive element keeps its old value, or is zero
under PZ (R94). -/
def mapLanes (v : Ve) (word : W64) (w n base : Nat) (f : Nat → Nat × FpFlags) : Nat × FpFlags :=
  (List.range n).foldl (fun (acc : Nat × FpFlags) i =>
    if v.active word i then
      let (x, g) := f i
      (setLane w acc.1 i x, acc.2.or g)
    else acc) (base, {})

/-- Writes vd elementwise; a register all of whose bytes are written is whole again (R133). -/
def Ve.writeVd (v : Ve) (word : W64) (f : Nat → Nat × FpFlags) : Ve :=
  let vd := vVd word
  let w := dtW (vDt word)
  let e := v.count (vDt word)
  let base := if vPz word then 0 else v.vreg vd
  let (x, fl) := mapLanes v word w e base f
  let whole := vPz word || (decide (e = lanes (vDt word)) && (List.range e).all (v.active word))
  { (v.setVreg vd x).raise fl with badRegs := if whole then v.badRegs.filter (· ≠ vd) else v.badRegs }

/-- The counter steps after an instruction that rounds stochastically (R99). -/
def Ve.stepRc (v : Ve) (rm : Nat) (rounds : Bool) : Ve := if rm = 2 && rounds then { v with rc := v.rc + 1 } else v

/-- Element `i` of a register as an exact value. -/
def Ve.fpAt (v : Ve) (dt r i : Nat) : Fp := (dtFmt dt).decode (lane (dtW dt) (v.vreg r) i)

/-- Element `i` of a register as a signed integer. -/
def Ve.intAt (v : Ve) (dt r i : Nat) : Int := toSigned (dtBits dt) (lane (dtW dt) (v.vreg r) i)

/-- A VV instruction that computes an exact value or an integer from element `i` of its operands. -/
def vvArith (c : VCtx) (s : State) (w : W64) (f : Fp → Fp → Fp → Fp × Bool) (g : Int → Int → Int) (satOk : Bool := true)
    (rounds : Bool := true) : State :=
  let v := c.ve
  let dt := vDt w
  let el := fun i =>
    if dtFloat dt then
      roundDt dt (vRound v (vRm w) i) (vSat w) (f (v.fpAt dt (vVa w) i) (v.fpAt dt (vVb w) i) (v.fpAt dt (vVc w) i))
    else roundInt (dtBits dt) (vSat w && satOk) (g (v.intAt dt (vVa w) i) (v.intAt dt (vVb w) i))
  c.next s ((v.writeVd w el).stepRc (vRm w) (rounds && dtFloat dt))

/-- A VS instruction of the same kind, with the scalar operand in the place of vb; VS words round to nearest even and
have no SAT bit. -/
def vsArith (c : VCtx) (s : State) (w : W64) (f : Fp → Fp → Fp → Fp × Bool) (g : Int → Int → Int) : State :=
  let v := c.ve
  let dt := vDt w
  let x := v.scalar w
  let el := fun i =>
    if dtFloat dt then roundDt dt .rne false (f (v.fpAt dt (vVa w) i) ((dtFmt dt).decode x) (v.fpAt dt (vVd w) i))
    else roundInt (dtBits dt) false (g (v.intAt dt (vVa w) i) (toSigned (dtBits dt) x))
  c.next s (v.writeVd w el)

/-- A VV instruction on element bits. -/
def vvBits (c : VCtx) (s : State) (w : W64) (g : Nat → Nat → Nat) : State :=
  let v := c.ve
  let b := dtW (vDt w)
  c.next s (v.writeVd w fun i => (g (lane b (v.vreg (vVa w)) i) (lane b (v.vreg (vVb w)) i), {}))

/-- A VS instruction on element bits. -/
def vsBits (c : VCtx) (s : State) (w : W64) (g : Nat → Nat → Nat) : State :=
  let v := c.ve
  let b := dtW (vDt w)
  c.next s (v.writeVd w fun i => (g (lane b (v.vreg (vVa w)) i) (v.scalar w), {}))

/-- A maximum or minimum with an invalid flag for a signalling NaN. -/
def fpPick (pick : Fp → Fp → Fp) (a b _c : Fp) : Fp × Bool :=
  (match pick a b with | .nan _ => .nan false | x => x, a.isSig || b.isSig)

/-- A left shift as an integer: VSHL saturates like every integer operation (R99; log entry 12). -/
def shlInt (b : Nat) (x : Int) (k : Int) : Int := x * 2 ^ (wrapNat b k % b)

/-- Shifts an element right, arithmetic or logical (R98, R101). -/
def shiftRight (b : Nat) (arith : Bool) (x k : Nat) : Nat :=
  if arith then wrapNat b (toSigned b x / 2 ^ (k % b)) else x >>> (k % b)

/-- Sum with the sign of the second operand turned or not. -/
def fpAddSub (sub : Bool) (a b _c : Fp) : Fp × Bool := a.add false (if sub then b.neg else b)

/-- Product. -/
def fpMul (a b _c : Fp) : Fp × Bool := a.mul b

/-- VADD (R98). -/
def execVadd (e : VeRef) (w : W64) (s : State) : Host.Outcome State Fault Refusal :=
  vecRow 0 0x00 e w s fun c s => vvArith c s w (fpAddSub false) (· + ·)
/-- VSUB (R98). -/
def execVsub (e : VeRef) (w : W64) (s : State) : Host.Outcome State Fault Refusal :=
  vecRow 0 0x01 e w s fun c s => vvArith c s w (fpAddSub true) (· - ·)
/-- VMUL (R98, R99): an integer product keeps its low w bytes. -/
def execVmul (e : VeRef) (w : W64) (s : State) : Host.Outcome State Fault Refusal :=
  vecRow 0 0x02 e w s fun c s => vvArith c s w fpMul (· * ·) (satOk := false)
/-- VFMA (R98). -/
def execVfma (e : VeRef) (w : W64) (s : State) : Host.Outcome State Fault Refusal :=
  vecRow 0 0x03 e w s fun c s => vvArith c s w (fun a b d => a.fma false b d) (fun a _ => a)
/-- VFMS (R98). -/
def execVfms (e : VeRef) (w : W64) (s : State) : Host.Outcome State Fault Refusal :=
  vecRow 0 0x04 e w s fun c s => vvArith c s w (fun a b d => a.fma false b d.neg) (fun a _ => a)
/-- VMAX (R99). -/
def execVmax (e : VeRef) (w : W64) (s : State) : Host.Outcome State Fault Refusal :=
  vecRow 0 0x05 e w s fun c s => vvArith c s w (fpPick Fp.max) max (rounds := false)
/-- VMIN (R99). -/
def execVmin (e : VeRef) (w : W64) (s : State) : Host.Outcome State Fault Refusal :=
  vecRow 0 0x06 e w s fun c s => vvArith c s w (fpPick Fp.min) min (rounds := false)
/-- VABS (R98). -/
def execVabs (e : VeRef) (w : W64) (s : State) : Host.Outcome State Fault Refusal :=
  vecRow 0 0x07 e w s fun c s => vvArith c s w (fun a _ _ => (match a with | .nan _ => .nan false | x => x.abs, false))
    (fun a _ => (a.natAbs : Int)) (rounds := false)
/-- VNEG (R98): floats flip the sign and set no flag. -/
def execVneg (e : VeRef) (w : W64) (s : State) : Host.Outcome State Fault Refusal :=
  vecRow 0 0x08 e w s fun c s => vvArith c s w (fun a _ _ => (match a with | .nan _ => .nan false | x => x.neg, false))
    (fun a _ => -a) (rounds := false)
/-- VAND (R98). -/
def execVand (e : VeRef) (w : W64) (s : State) : Host.Outcome State Fault Refusal :=
  vecRow 0 0x09 e w s fun c s => vvBits c s w (· &&& ·)
/-- VOR (R98). -/
def execVor (e : VeRef) (w : W64) (s : State) : Host.Outcome State Fault Refusal :=
  vecRow 0 0x0A e w s fun c s => vvBits c s w (· ||| ·)
/-- VXOR (R98). -/
def execVxor (e : VeRef) (w : W64) (s : State) : Host.Outcome State Fault Refusal :=
  vecRow 0 0x0B e w s fun c s => vvBits c s w (· ^^^ ·)
/-- VSHL (R98). -/
def execVshl (e : VeRef) (w : W64) (s : State) : Host.Outcome State Fault Refusal :=
  vecRow 0 0x0C e w s fun c s => vvArith c s w fpMul (shlInt (dtBits (vDt w)))
/-- VSRA (R98). -/
def execVsra (e : VeRef) (w : W64) (s : State) : Host.Outcome State Fault Refusal :=
  vecRow 0 0x0D e w s fun c s => vvBits c s w (shiftRight (dtBits (vDt w)) true)
/-- VSRL (R98). -/
def execVsrl (e : VeRef) (w : W64) (s : State) : Host.Outcome State Fault Refusal :=
  vecRow 0 0x0E e w s fun c s => vvBits c s w (shiftRight (dtBits (vDt w)) false)

/-- VSEL (R98): every element below E takes va or vb as the predicate says. -/
def Ve.select (v : Ve) (w : W64) : Ve :=
  let b := dtW (vDt w)
  let n := v.count (vDt w)
  let x := (List.range n).foldl (fun acc i =>
    setLane b acc i (lane b (v.vreg (if v.active w i then vVa w else vVb w)) i)) (v.vreg (vVd w))
  { v.setVreg (vVd w) x with badRegs := if n = lanes (vDt w) then v.badRegs.filter (· ≠ vVd w) else v.badRegs }

/-- VSEL (R98). -/
def execVsel (e : VeRef) (w : W64) (s : State) : Host.Outcome State Fault Refusal :=
  vecRow 0 0x0F e w s fun c s => c.next s (c.ve.select w)

/-- VMOV (R98). -/
def execVmov (e : VeRef) (w : W64) (s : State) : Host.Outcome State Fault Refusal :=
  vecRow 0 0x10 e w s fun c s => vvBits c s w fun a _ => a

/-- VPERM (R98): vd = va[vb mod E]. -/
def Ve.permute (v : Ve) (w : W64) : Ve :=
  let b := dtW (vDt w)
  v.writeVd w fun i => (lane b (v.vreg (vVa w)) (lane b (v.vreg (vVb w)) i % v.count (vDt w)), {})

/-- VPERM (R98). -/
def execVperm (e : VeRef) (w : W64) (s : State) : Host.Outcome State Fault Refusal :=
  vecRow 0 0x11 e w s fun c s => c.next s (c.ve.permute w)

/-! Comparisons -/

/-- The comparisons of R98 and R101. -/
inductive Cmp where
  | eq | ne | lt | le | uo | gt | ge
  deriving DecidableEq, Repr, Inhabited

/-- A comparison of exact values; NaN compares unequal and unordered. -/
def Cmp.fp (k : Cmp) (a b : Fp) : Bool :=
  let un := a.isNan || b.isNan
  match k with
  | .eq => a.eqv b
  | .ne => !a.eqv b
  | .lt => !un && a.lt b
  | .le => !un && !b.lt a
  | .uo => un
  | .gt => !un && b.lt a
  | .ge => !un && !a.lt b

/-- A comparison of integers. -/
def Cmp.int (k : Cmp) (a b : Int) : Bool :=
  match k with
  | .eq => decide (a = b)
  | .ne => decide (a ≠ b)
  | .lt => decide (a < b)
  | .le => decide (a ≤ b)
  | .uo => false
  | .gt => decide (b < a)
  | .ge => decide (b ≤ a)

/-- Writes a predicate from a compare (R94): active bits take the comparison, inactive bits below E follow PZ, and
bits E to 2,047 are cleared. A signalling NaN sets NV. -/
def compareInto (c : VCtx) (s : State) (w : W64) (bOf : Nat → Nat) (k : Cmp) : State :=
  let v := c.ve
  let dt := vDt w
  let n := v.count dt
  let pd := vVd w % 8
  let old := if vPz w then 0 else v.preg pd
  let one := fun i =>
    let a := lane (dtW dt) (v.vreg (vVa w)) i
    let b := bOf i
    if dtFloat dt then
      let x := (dtFmt dt).decode a
      let y := (dtFmt dt).decode b
      (k.fp x y, x.isSig || y.isSig)
    else (k.int (toSigned (dtBits dt) a) (toSigned (dtBits dt) b), false)
  let (bits, nv) := (List.range n).foldl (fun (acc : Nat × Bool) i =>
    let (r, g) := if v.active w i then one i else (old.testBit i, false)
    (acc.1 + (if r then 2 ^ i else 0), acc.2 || g)) (0, false)
  c.next s ((v.setPreg pd bits).raise { nv := nv })

/-- A VV compare. -/
def vvCmp (k : Cmp) (c : VCtx) (s : State) (w : W64) : State :=
  compareInto c s w (fun i => lane (dtW (vDt w)) (c.ve.vreg (vVb w)) i) k

/-- A VS compare. -/
def vsCmp (k : Cmp) (c : VCtx) (s : State) (w : W64) : State := compareInto c s w (fun _ => c.ve.scalar w) k

/-- VCMPEQ (R98). -/
def execVcmpeq (e : VeRef) (w : W64) (s : State) : Host.Outcome State Fault Refusal :=
  vecRow 0 0x18 e w s fun c s => vvCmp .eq c s w
/-- VCMPNE (R98). -/
def execVcmpne (e : VeRef) (w : W64) (s : State) : Host.Outcome State Fault Refusal :=
  vecRow 0 0x19 e w s fun c s => vvCmp .ne c s w
/-- VCMPLT (R98). -/
def execVcmplt (e : VeRef) (w : W64) (s : State) : Host.Outcome State Fault Refusal :=
  vecRow 0 0x1A e w s fun c s => vvCmp .lt c s w
/-- VCMPLE (R98). -/
def execVcmple (e : VeRef) (w : W64) (s : State) : Host.Outcome State Fault Refusal :=
  vecRow 0 0x1B e w s fun c s => vvCmp .le c s w
/-- VCMPUO (R98). -/
def execVcmpuo (e : VeRef) (w : W64) (s : State) : Host.Outcome State Fault Refusal :=
  vecRow 0 0x1C e w s fun c s => vvCmp .uo c s w

/-! Reductions (R100) -/

/-- One level of the pairwise tree: elements 2j and 2j + 1 with one FP32 rounding each. -/
def pairLevel : List Nat → List Nat × FpFlags
  | a :: b :: r =>
    let (x, nv) := (fp32.decode a).add false (fp32.decode b)
    let (n, f) := fp32.ieee .rne x
    let (l, g) := pairLevel r
    (n :: l, ({ f with nv := f.nv || nv }).or g)
  | l => (l, {})

/-- The pairwise tree over a list of `2^k` FP32 values. -/
def pairTree : Nat → List Nat → Nat × FpFlags
  | 0, l => (l.headD 0, {})
  | k + 1, l =>
    let (m, f) := pairLevel l
    let (x, g) := pairTree k m
    (x, f.or g)

/-- Writes element 0 of vd and zeroes the others. -/
def VCtx.nextScalarVd (c : VCtx) (s : State) (w : W64) (x : Nat) (f : FpFlags) (v : Ve) : State :=
  c.next s { (v.setVreg (vVd w) (x % 2 ^ dtBits (vDt w))).raise f with badRegs := v.badRegs.filter (· ≠ vVd w) }

/-- Whether element `i` counts in a reduction. -/
def Ve.counts (v : Ve) (w : W64) (i : Nat) : Bool := decide (i < v.count (vDt w)) && v.active w i

/-- VRSUM (R100). -/
def vrSum (c : VCtx) (s : State) (w : W64) : State :=
  let v := c.ve
  let dt := vDt w
  if dtFloat dt then
    let l := (List.range (lanes dt)).map fun i =>
      if v.counts w i then (fp32.convert .rne false (v.fpAt dt (vVa w) i)).1 else 0
    let (x, f) := pairTree (Nat.log2 (lanes dt)) l
    let (n, g) := roundDt dt (vRound v (vRm w) 0) (vSat w) (fp32.decode x, false)
    c.nextScalarVd s w n (f.or g) (v.stepRc (vRm w) true)
  else
    let t := (List.range (v.count dt)).foldl (fun (a : Int) i =>
      if v.active w i then a + v.intAt dt (vVa w) i else a) 0
    let (n, f) := roundInt (dtBits dt) (vSat w) (toSigned 32 (wrapNat 32 t))
    c.nextScalarVd s w n f v

/-- VRSUM (R100). -/
def execVrsum (e : VeRef) (w : W64) (s : State) : Host.Outcome State Fault Refusal :=
  vecRow 0 0x20 e w s fun c s => vrSum c s w

/-- VRMAX or VRMIN (R100): the extreme of the active elements, or the identity when there is none. -/
def vrPick (big : Bool) (c : VCtx) (s : State) (w : W64) : State :=
  let v := c.ve
  let dt := vDt w
  let act := (List.range (v.count dt)).filter (v.active w)
  if dtFloat dt then
    let xs := act.map fun i => v.fpAt dt (vVa w) i
    let pick := if big then Fp.max else Fp.min
    let x := match xs with
      | [] => Fp.inf big
      | a :: r => match r.foldl pick a with | .nan _ => Fp.nan false | y => y
    let (n, f) := if xs.isEmpty then
        let (n, f) := (dtFmt dt).convert .rne (vSat w) x
        (n, f.forType (dtFp8 dt))
      else roundDt dt .rne (vSat w) (x, xs.any Fp.isSig)
    c.nextScalarVd s w n f v
  else
    let b := dtBits dt
    let start : Int := if big then -(2 ^ (b - 1)) else 2 ^ (b - 1) - 1
    let x := act.foldl (fun m i => if big then max m (v.intAt dt (vVa w) i) else min m (v.intAt dt (vVa w) i)) start
    c.nextScalarVd s w (wrapNat b x) {} v

/-- VRMAX (R100). -/
def execVrmax (e : VeRef) (w : W64) (s : State) : Host.Outcome State Fault Refusal :=
  vecRow 0 0x21 e w s fun c s => vrPick true c s w
/-- VRMIN (R100). -/
def execVrmin (e : VeRef) (w : W64) (s : State) : Host.Outcome State Fault Refusal :=
  vecRow 0 0x22 e w s fun c s => vrPick false c s w

/-! Class VS (R101) -/

/-- VADDS (R101). -/
def execVadds (e : VeRef) (w : W64) (s : State) : Host.Outcome State Fault Refusal :=
  vecRow 1 0x00 e w s fun c s => vsArith c s w (fpAddSub false) (· + ·)
/-- VSUBS (R101). -/
def execVsubs (e : VeRef) (w : W64) (s : State) : Host.Outcome State Fault Refusal :=
  vecRow 1 0x01 e w s fun c s => vsArith c s w (fpAddSub true) (· - ·)
/-- VRSUBS (R101). -/
def execVrsubs (e : VeRef) (w : W64) (s : State) : Host.Outcome State Fault Refusal :=
  vecRow 1 0x02 e w s fun c s => vsArith c s w (fun a b d => fpAddSub true b a d) fun a b => b - a
/-- VMULS (R101). -/
def execVmuls (e : VeRef) (w : W64) (s : State) : Host.Outcome State Fault Refusal :=
  vecRow 1 0x03 e w s fun c s => vsArith c s w fpMul (· * ·)
/-- VFMAS (R101). -/
def execVfmas (e : VeRef) (w : W64) (s : State) : Host.Outcome State Fault Refusal :=
  vecRow 1 0x04 e w s fun c s => vsArith c s w (fun a b d => a.fma false b d) (fun a _ => a)
/-- VMAXS (R101). -/
def execVmaxs (e : VeRef) (w : W64) (s : State) : Host.Outcome State Fault Refusal :=
  vecRow 1 0x05 e w s fun c s => vsArith c s w (fpPick Fp.max) max
/-- VMINS (R101). -/
def execVmins (e : VeRef) (w : W64) (s : State) : Host.Outcome State Fault Refusal :=
  vecRow 1 0x06 e w s fun c s => vsArith c s w (fpPick Fp.min) min
/-- VANDS (R101). -/
def execVands (e : VeRef) (w : W64) (s : State) : Host.Outcome State Fault Refusal :=
  vecRow 1 0x07 e w s fun c s => vsBits c s w (· &&& ·)
/-- VORS (R101). -/
def execVors (e : VeRef) (w : W64) (s : State) : Host.Outcome State Fault Refusal :=
  vecRow 1 0x08 e w s fun c s => vsBits c s w (· ||| ·)
/-- VXORS (R101). -/
def execVxors (e : VeRef) (w : W64) (s : State) : Host.Outcome State Fault Refusal :=
  vecRow 1 0x09 e w s fun c s => vsBits c s w (· ^^^ ·)
/-- VSHLS (R101). -/
def execVshls (e : VeRef) (w : W64) (s : State) : Host.Outcome State Fault Refusal :=
  vecRow 1 0x0A e w s fun c s => vsBits c s w fun a k => a <<< (k % dtBits (vDt w))
/-- VSRAS (R101). -/
def execVsras (e : VeRef) (w : W64) (s : State) : Host.Outcome State Fault Refusal :=
  vecRow 1 0x0B e w s fun c s => vsBits c s w (shiftRight (dtBits (vDt w)) true)
/-- VSRLS (R101). -/
def execVsrls (e : VeRef) (w : W64) (s : State) : Host.Outcome State Fault Refusal :=
  vecRow 1 0x0C e w s fun c s => vsBits c s w (shiftRight (dtBits (vDt w)) false)
/-- VSPLAT (R101). -/
def execVsplat (e : VeRef) (w : W64) (s : State) : Host.Outcome State Fault Refusal :=
  vecRow 1 0x10 e w s fun c s => vsBits c s w fun _ k => k
/-- VIOTA (R101): vd = s + i. -/
def execViota (e : VeRef) (w : W64) (s : State) : Host.Outcome State Fault Refusal :=
  vecRow 1 0x11 e w s fun c s => c.next s (c.ve.writeVd w fun i => (c.ve.scalar w + i, {}))

/-- The element that VEXTA takes (R101): a float as an exact FP32 bit pattern, an integer sign-extended. -/
def Ve.extract (v : Ve) (w : W64) : Int :=
  let dt := vDt w
  let i := vsImm w % 2 ^ 11 % lanes dt
  if dtFloat dt then ((fp32.convert .rne false (v.fpAt dt (vVa w) i)).1 : Nat) else v.intAt dt (vVa w) i

/-- VEXTA (R101). -/
def execVexta (e : VeRef) (w : W64) (s : State) : Host.Outcome State Fault Refusal :=
  vecRow 1 0x12 e w s fun c s => c.next s (c.ve.setAreg (vsAs w) (c.ve.extract w))

/-- VCMPEQS (R101). -/
def execVcmpeqs (e : VeRef) (w : W64) (s : State) : Host.Outcome State Fault Refusal :=
  vecRow 1 0x18 e w s fun c s => vsCmp .eq c s w
/-- VCMPNES (R101). -/
def execVcmpnes (e : VeRef) (w : W64) (s : State) : Host.Outcome State Fault Refusal :=
  vecRow 1 0x19 e w s fun c s => vsCmp .ne c s w
/-- VCMPLTS (R101). -/
def execVcmplts (e : VeRef) (w : W64) (s : State) : Host.Outcome State Fault Refusal :=
  vecRow 1 0x1A e w s fun c s => vsCmp .lt c s w
/-- VCMPLES (R101). -/
def execVcmples (e : VeRef) (w : W64) (s : State) : Host.Outcome State Fault Refusal :=
  vecRow 1 0x1B e w s fun c s => vsCmp .le c s w
/-- VCMPGTS (R101). -/
def execVcmpgts (e : VeRef) (w : W64) (s : State) : Host.Outcome State Fault Refusal :=
  vecRow 1 0x1C e w s fun c s => vsCmp .gt c s w
/-- VCMPGES (R101). -/
def execVcmpges (e : VeRef) (w : W64) (s : State) : Host.Outcome State Fault Refusal :=
  vecRow 1 0x1D e w s fun c s => vsCmp .ge c s w

/-! Class VM (R102, R103) -/

/-- The address of element `i` (R103). An index beyond the INT32 elements of one register is not stated: it is a free
value (log entry 13). -/
def vmAddr (v : Ve) (w : W64) (free i : Nat) : Nat :=
  let base : Int := (v.areg (vmAb w) : Int) + vmOff w
  let step : Int :=
    match vmMode w with
    | 0 => ((i * dtW (vDt w) : Nat) : Int)
    | 1 => (i : Int) * toSigned 32 (v.areg (vmAi w))
    | _ => if i < 512 then toSigned 32 (lane 4 (v.vreg (vmVi w)) i) else (Config.freeWord (free + i)).toInt
  wrapNat 32 (base + step)

/-- The first fault the addresses of the active elements raise, if any (R103): misalignment before range. -/
def vmCheck (c : VCtx) (w : W64) (free : Nat) : Option Nat :=
  let v := c.ve
  let b := dtW (vDt w)
  let as := ((List.range (v.count (vDt w))).filter (v.active w)).map (vmAddr v w free)
  as.findSome? fun a => if a % b ≠ 0 then some 0x04 else if bindingSize c.q ≤ a then some 0x03 else none

/-- Draws the free indexes a gather or scatter may have used. -/
def VCtx.drawn (c : VCtx) (w : W64) (s : State) : State :=
  if vmMode w = 2 ∧ 512 < c.ve.count (vDt w) then { s with free := s.free + 2048 } else s

/-- The active elements of a VLD or VST, in rising order. -/
def VCtx.elems (c : VCtx) (w : W64) : List Nat := (List.range (c.ve.count (vDt w))).filter (c.ve.active w)

/-- No byte that a VLD reads holds an uncorrectable error (R189). -/
def VCtx.loadWhole (c : VCtx) (w : W64) (free : Nat) : Bool :=
  !(c.elems w).any fun i => c.core.poisonedAt c.q (vmAddr c.ve w free i) (dtW (vDt w))

/-- What a VST makes of a core: from two elements at one address the higher index wins (R103). -/
def VCtx.storeAll (c : VCtx) (w : W64) (free : Nat) (k : Core) : Core :=
  (c.elems w).foldl (fun k i =>
    k.writeCm c.q (vmAddr c.ve w free i) (leBytes (dtW (vDt w)) (lane (dtW (vDt w)) (c.ve.vreg (vVd w)) i))) k

/-- VLD (R102, R103, R189). -/
def execVld (e : VeRef) (w : W64) (s : State) : Host.Outcome State Fault Refusal :=
  vecRow 2 0x00 e w s fun c s =>
    let v := c.ve
    match vmCheck c w s.free with
    | some k => c.fault (c.drawn w s) k
    | none =>
      if !c.loadWhole w s.free then
        c.eccFault (c.put (c.drawn w s) { v with badRegs := vVd w :: v.badRegs.filter (· ≠ vVd w) })
      else c.next (c.drawn w s) (v.writeVd w fun i =>
        (leNat (c.core.readCm c.q (vmAddr v w s.free i) (dtW (vDt w))), {}))

/-- VST (R102, R103). -/
def execVst (e : VeRef) (w : W64) (s : State) : Host.Outcome State Fault Refusal :=
  vecRow 2 0x01 e w s fun c s =>
    match vmCheck c w s.free with
    | some k => c.fault (c.drawn w s) k
    | none => c.next ((c.drawn w s).onCore c.i c.p (c.storeAll w s.free)) c.ve

/-- The address of a PLD or PST, and the fault it raises if it is not in order (R103). -/
def predAddr (c : VCtx) (w : W64) : Nat × Option Nat :=
  let a := wrapNat 32 ((c.ve.areg (vmAb w) : Int) + vmOff w)
  (a, if a % 64 ≠ 0 then some 0x04 else if bindingSize c.q < a + 256 then some 0x03 else none)

/-- PLD (R102). -/
def execPld (e : VeRef) (w : W64) (s : State) : Host.Outcome State Fault Refusal :=
  vecRow 2 0x02 e w s fun c s =>
    match predAddr c w with
    | (_, some k) => c.fault s k
    | (a, none) =>
      if c.core.poisonedAt c.q a 256 then c.eccFault s
      else c.next s (c.ve.setPreg (vVd w % 8) (leNat (c.core.readCm c.q a 256)))

/-- PST (R102). -/
def execPst (e : VeRef) (w : W64) (s : State) : Host.Outcome State Fault Refusal :=
  vecRow 2 0x03 e w s fun c s =>
    match predAddr c w with
    | (_, some k) => c.fault s k
    | (a, none) =>
      c.next (s.onCore c.i c.p fun k => k.writeCm c.q a (leBytes 256 (c.ve.preg (vVd w % 8)))) c.ve

/-- The port half a CHPOP with this port number takes from, if the binding owns it (R111). -/
def chainHalf (q : Option Nat) (port : Nat) : Option Nat :=
  match q with
  | none => some (2 * port)
  | some q => if port = q / 2 then some q else none

/-- A row lands in vd from element 0, the bytes beyond it zeroed, and its number in a[AB] (R110, R111). -/
def Ve.popRow (v : Ve) (vd ab : Nat) (row : Nat × Bytes) : Ve :=
  { (v.setVreg vd (leNat row.2)).setAreg ab row.1 with
    waiting := false, pc := (v.pc + 8) % 2 ^ 32, badRegs := v.badRegs.filter (· ≠ vd) }

/-- A CHPOP on an ended, empty half (R110). -/
def Ve.popEnded (v : Ve) (ab : Nat) : Ve := { v.setAreg ab 0xFFFFFFFF with waiting := false, pc := (v.pc + 8) % 2 ^ 32 }

/-- CHPOP (R102, R110, R111). -/
def execChpop (e : VeRef) (w : W64) (s : State) : Host.Outcome State Fault Refusal :=
  vecRow 2 0x04 e w s fun c s =>
    match chainHalf c.q (vmMode w % 2) with
    | none => c.fault s 0x05
    | some h =>
      let half := c.core.halves.getD h {}
      match half.fifo with
      | row :: rest =>
        (s.onCore c.i c.p fun k => { k with halves := k.halves.modify h fun x => { x with fifo := rest } }).onVe
          c.i c.p c.e (·.popRow (vVd w) (vmAb w) row)
      | [] =>
        if half.state = .ended then s.onVe c.i c.p c.e (·.popEnded (vmAb w))
        else
          (s.onCore c.i c.p fun k => { k with
            halves := k.halves.modify h fun x => { x with waiters := x.waiters ++ [(c.e, vVd w, vmAb w)] } }).onVe
            c.i c.p c.e fun v => { v with waiting := true }

/-! Class VX (R104, R105) -/

/-- Lane `i` of a register group that starts at `r`. -/
def Ve.groupLane (v : Ve) (b r i : Nat) : Nat := lane b (v.vreg (r + i * b / 2048)) (i % (2048 / b))

/-- One element of a VCVT (R70, R99, R104). -/
def cvtElem (sdt dt : Nat) (rm : Rm) (sat : Bool) (x : Nat) : Nat × FpFlags :=
  let b := dtBits dt
  if dtFloat sdt then
    let y := (dtFmt sdt).decode x
    if dtFloat dt then
      let (n, f) := (dtFmt dt).convert rm sat y
      (n, f.forType (dtFp8 dt))
    else
      let (n, f) := y.toInt b rm
      (wrapNat b n, f)
  else
    let y := toSigned (dtBits sdt) x
    if dtFloat dt then
      let (n, f) := (dtFmt dt).convert rm sat (Fp.ofInt y)
      (n, f.forType (dtFp8 dt))
    else roundInt b sat y

/-- Writes the lanes of one register of a destination group: lanes `k · per … ` below `n` that are active. -/
def Ve.writeGroup (v : Ve) (word : W64) (b n r k : Nat) (f : Nat → Nat × FpFlags) : Ve :=
  let per := 2048 / b
  let base := if vPz word then 0 else v.vreg (r + k)
  let idx := (List.range (min per (n - k * per))).map (· + k * per)
  let (x, fl) := idx.foldl (fun (acc : Nat × FpFlags) i =>
    if v.active word i then
      let (y, g) := f i
      (setLane b acc.1 (i - k * per) y, acc.2.or g)
    else acc) (base, {})
  let whole := vPz word || (decide (idx.length = per) && idx.all (v.active word))
  { (v.setVreg (r + k) x).raise fl with badRegs := if whole then v.badRegs.filter (· ≠ r + k) else v.badRegs }

/-- The registers of a VCVT's wider side. -/
def Ve.cvtWide (v : Ve) (w : W64) : List Nat :=
  let n := min v.vl (min (lanes (vxSdt w)) (lanes (vDt w)))
  List.range (ceilDiv (n * max (dtW (vxSdt w)) (dtW (vDt w))) 2048)

/-- The registers a VCVT reads. -/
def Ve.cvtSources (v : Ve) (w : W64) : List Nat :=
  if dtW (vDt w) ≤ dtW (vxSdt w) then (v.cvtWide w).map (· + vVa w) else [vVa w]

/-- The engine after a VCVT (R104). -/
def Ve.convert (v : Ve) (w : W64) : Ve :=
  let sdt := vxSdt w
  let dt := vDt w
  let n := min v.vl (min (lanes sdt) (lanes dt))
  let f := fun i => cvtElem sdt dt (vRound v (vxRm w) i) (vxSat w) (v.groupLane (dtW sdt) (vVa w) i)
  let regs := if dtW sdt < dtW dt then v.cvtWide w else [0]
  let v' := regs.foldl (fun u k =>
    let done := v.writeGroup w (dtW dt) n (vVd w) k f
    { u with v := u.v.setIfInBounds (vVd w + k) (done.v.getD (vVd w + k) 0), flags := u.flags ||| done.flags
             badRegs := u.badRegs.filter fun r => decide (r ≠ vVd w + k) || done.badRegs.contains r }) v
  v'.stepRc (vxRm w) (dtFloat sdt || dtFloat dt)

/-- VCVT (R104). -/
def execVcvt (e : VeRef) (w : W64) (s : State) : Host.Outcome State Fault Refusal :=
  vecRow 3 0x00 e w s fun c s =>
    if (c.ve.cvtSources w).any c.ve.badRegs.contains then c.eccFault s else c.next s (c.ve.convert w)

/-- The special inputs of a transcendental (R105), and otherwise its FP32 value, which the rules bound and do not
state (`Config.transcendental`; log entry 8). OF stands for an infinite result of a finite operand. -/
def transc (fn : Nat) (x : Fp) : Fp × FpFlags :=
  let free : Fp × FpFlags :=
    let r := fp32.decode (Config.transcendental fn (BitVec.ofNat 32 (fp32.convert .rne false x).1)).toNat
    match r with
    | .inf n => (.inf n, { of := true })
    | .nan _ => (.nan false, {})
    | y => (y, {})
  match x with
  | .nan _ => (.nan false, {})
  | .inf n =>
    match fn with
    | 0 => (if n then .fin false 0 0 else .inf false, {})
    | 1 => if n then (.nan false, { nv := true }) else (.inf false, {})
    | 2 => if n then (.nan false, { nv := true }) else (.fin false 0 0, {})
    | 3 => (.fin n 0 0, {})
    | _ => (.fin n 1 0, {})
  | .fin n m _ =>
    match fn with
    | 1 => if m = 0 then (.inf true, { dz := true }) else if n then (.nan false, { nv := true }) else free
    | 2 => if m = 0 then (.inf n, { dz := true }) else if n then (.nan false, { nv := true }) else free
    | 3 => if m = 0 then (.inf n, { dz := true }) else free
    | _ => free

/-- A transcendental: computed in FP32 and rounded once to the data type (R105). -/
def vxTransc (fn : Nat) (c : VCtx) (s : State) (w : W64) : State :=
  let v := c.ve
  let dt := vDt w
  let el := fun i =>
    let (y, f) := transc fn (v.fpAt dt (vVa w) i)
    let (n, g) := roundDt dt (vRound v (vxRm w) i) (vxSat w) (y, false)
    (n, f.or g)
  c.next s ((v.writeVd w el).stepRc (vxRm w) true)

/-- VEXP (R105). -/
def execVexp (e : VeRef) (w : W64) (s : State) : Host.Outcome State Fault Refusal :=
  vecRow 3 0x08 e w s fun c s => vxTransc 0 c s w
/-- VLOG (R105). -/
def execVlog (e : VeRef) (w : W64) (s : State) : Host.Outcome State Fault Refusal :=
  vecRow 3 0x09 e w s fun c s => vxTransc 1 c s w
/-- VRSQRT (R105). -/
def execVrsqrt (e : VeRef) (w : W64) (s : State) : Host.Outcome State Fault Refusal :=
  vecRow 3 0x0A e w s fun c s => vxTransc 2 c s w
/-- VRCP (R105). -/
def execVrcp (e : VeRef) (w : W64) (s : State) : Host.Outcome State Fault Refusal :=
  vecRow 3 0x0B e w s fun c s => vxTransc 3 c s w
/-- VTANH (R105). -/
def execVtanh (e : VeRef) (w : W64) (s : State) : Host.Outcome State Fault Refusal :=
  vecRow 3 0x0C e w s fun c s => vxTransc 4 c s w
/-- VERF (R105). -/
def execVerf (e : VeRef) (w : W64) (s : State) : Host.Outcome State Fault Refusal :=
  vecRow 3 0x0D e w s fun c s => vxTransc 5 c s w

/-! Class VC (R106) -/

/-- A branch that is taken or not. -/
def VCtx.branch (c : VCtx) (s : State) (w : W64) (v : Ve) (taken : Bool) : State :=
  c.put s { v with pc := if taken then wrapNat 32 ((c.ve.pc : Int) + 8 * vcImmS w) else (c.ve.pc + 8) % 2 ^ 32 }

/-- An address-register result. -/
def vcAddr (c : VCtx) (s : State) (w : W64) (x : Int) : State := c.next s (c.ve.setAreg (vcAd w) x)

/-- A predicate result. -/
def vcPred (c : VCtx) (s : State) (w : W64) (x : Nat) : State := c.next s (c.ve.setPreg (vcPd w) x)

/-- NOP of class VC (R106). -/
def execVcNop (e : VeRef) (w : W64) (s : State) : Host.Outcome State Fault Refusal :=
  vecRow 4 0x00 e w s fun c s => c.next s c.ve
/-- HALT (R106, R112): every earlier store is visible, and the program ends. -/
def execHalt (e : VeRef) (w : W64) (s : State) : Host.Outcome State Fault Refusal :=
  vecRow 4 0x01 e w s fun c s => s.onCore c.i c.p fun k => k.endVe c.e .halted
/-- BR (R106). -/
def execBr (e : VeRef) (w : W64) (s : State) : Host.Outcome State Fault Refusal :=
  vecRow 4 0x02 e w s fun c s => c.branch s w c.ve true
/-- BZ (R106). -/
def execBz (e : VeRef) (w : W64) (s : State) : Host.Outcome State Fault Refusal :=
  vecRow 4 0x03 e w s fun c s => c.branch s w c.ve (decide (c.ve.areg (vcAs w) = 0))
/-- BNZ (R106). -/
def execBnz (e : VeRef) (w : W64) (s : State) : Host.Outcome State Fault Refusal :=
  vecRow 4 0x04 e w s fun c s => c.branch s w c.ve (decide (c.ve.areg (vcAs w) ≠ 0))
/-- LOOP (R106). -/
def execLoop (e : VeRef) (w : W64) (s : State) : Host.Outcome State Fault Refusal :=
  vecRow 4 0x05 e w s fun c s =>
    let x := wrapNat 32 ((c.ve.areg (vcAs w) : Int) - 1)
    c.branch s w (c.ve.setAreg (vcAs w) x) (decide (x ≠ 0))
/-- PANY (R106). -/
def execPany (e : VeRef) (w : W64) (s : State) : Host.Outcome State Fault Refusal :=
  vecRow 4 0x06 e w s fun c s =>
    c.branch s w c.ve (decide (c.ve.preg (vcPs w) % 2 ^ c.ve.count (vDt w) ≠ 0))
/-- PNONE (R106). -/
def execPnone (e : VeRef) (w : W64) (s : State) : Host.Outcome State Fault Refusal :=
  vecRow 4 0x07 e w s fun c s =>
    c.branch s w c.ve (decide (c.ve.preg (vcPs w) % 2 ^ c.ve.count (vDt w) = 0))
/-- ALI (R106). -/
def execAli (e : VeRef) (w : W64) (s : State) : Host.Outcome State Fault Refusal :=
  vecRow 4 0x08 e w s fun c s => vcAddr c s w (vcImmS w)
/-- ALUI (R106). -/
def execAlui (e : VeRef) (w : W64) (s : State) : Host.Outcome State Fault Refusal :=
  vecRow 4 0x09 e w s fun c s => vcAddr c s w ((vcImm w * 256 : Nat) : Int)
/-- AADDI (R106). -/
def execAaddi (e : VeRef) (w : W64) (s : State) : Host.Outcome State Fault Refusal :=
  vecRow 4 0x0A e w s fun c s => vcAddr c s w ((c.ve.areg (vcAs w) : Int) + vcImmS w)
/-- AADD (R106). -/
def execAadd (e : VeRef) (w : W64) (s : State) : Host.Outcome State Fault Refusal :=
  vecRow 4 0x0B e w s fun c s => vcAddr c s w ((c.ve.areg (vcAs w) : Int) + c.ve.areg (vcAt w))
/-- ASUB (R106). -/
def execAsub (e : VeRef) (w : W64) (s : State) : Host.Outcome State Fault Refusal :=
  vecRow 4 0x0C e w s fun c s => vcAddr c s w ((c.ve.areg (vcAs w) : Int) - c.ve.areg (vcAt w))
/-- AMUL (R106). -/
def execAmul (e : VeRef) (w : W64) (s : State) : Host.Outcome State Fault Refusal :=
  vecRow 4 0x0D e w s fun c s => vcAddr c s w ((c.ve.areg (vcAs w) : Int) * c.ve.areg (vcAt w))
/-- ASHLI (R106). -/
def execAshli (e : VeRef) (w : W64) (s : State) : Host.Outcome State Fault Refusal :=
  vecRow 4 0x0E e w s fun c s => vcAddr c s w ((c.ve.areg (vcAs w) <<< (vcImm w % 32) : Nat) : Int)
/-- ASHRI (R106). -/
def execAshri (e : VeRef) (w : W64) (s : State) : Host.Outcome State Fault Refusal :=
  vecRow 4 0x0F e w s fun c s => vcAddr c s w ((c.ve.areg (vcAs w) >>> (vcImm w % 32) : Nat) : Int)
/-- PAND (R106). -/
def execPand (e : VeRef) (w : W64) (s : State) : Host.Outcome State Fault Refusal :=
  vecRow 4 0x10 e w s fun c s => vcPred c s w (c.ve.preg (vcPs w) &&& c.ve.preg (vcPt w))
/-- POR (R106). -/
def execPor (e : VeRef) (w : W64) (s : State) : Host.Outcome State Fault Refusal :=
  vecRow 4 0x11 e w s fun c s => vcPred c s w (c.ve.preg (vcPs w) ||| c.ve.preg (vcPt w))
/-- PXOR (R106). -/
def execPxor (e : VeRef) (w : W64) (s : State) : Host.Outcome State Fault Refusal :=
  vecRow 4 0x12 e w s fun c s => vcPred c s w (c.ve.preg (vcPs w) ^^^ c.ve.preg (vcPt w))
/-- PNOT (R106). -/
def execPnot (e : VeRef) (w : W64) (s : State) : Host.Outcome State Fault Refusal :=
  vecRow 4 0x13 e w s fun c s => vcPred c s w (2 ^ 2048 - 1 - c.ve.preg (vcPs w))
/-- SETVL (R106). -/
def execSetvl (e : VeRef) (w : W64) (s : State) : Host.Outcome State Fault Refusal :=
  vecRow 4 0x18 e w s fun c s =>
    let n := min (c.ve.areg (vcAs w)) (lanes (vDt w))
    c.next s { c.ve.setAreg (vcAd w) n with vl := n }
/-- FLGRD (R106, R109). -/
def execFlgrd (e : VeRef) (w : W64) (s : State) : Host.Outcome State Fault Refusal :=
  vecRow 4 0x1A e w s fun c s => c.next s { c.ve.setAreg (vcAd w) c.ve.flags.toNat with flags := 0 }
/-- SRSEED (R106). -/
def execSrseed (e : VeRef) (w : W64) (s : State) : Host.Outcome State Fault Refusal :=
  vecRow 4 0x1B e w s fun c s =>
    c.next s { c.ve with rc := BitVec.ofNat 64 (c.ve.areg (vcAt w) * 2 ^ 32 + c.ve.areg (vcAs w)) }
/-- FENCE (R106, R112): stores are visible as they are made, so nothing is left to wait for (log entry 14). -/
def execFence (e : VeRef) (w : W64) (s : State) : Host.Outcome State Fault Refusal :=
  vecRow 4 0x1C e w s fun c s => c.next s c.ve
/-- EVSIG (R106, R120). -/
def execEvsig (e : VeRef) (w : W64) (s : State) : Host.Outcome State Fault Refusal :=
  vecRow 4 0x1D e w s fun c s =>
    c.next (s.onSe c.i c.p c.ve.launcher (·.post (BitVec.ofNat 16 (2 ^ (vcImm w % 16))))) c.ve

end Sys2Proof.Machine
end

