-- ==== Sys2Proof/Machine/Riscv.lean ====
section
/-! DEFINITION. The scalar engines' RV64IMAFC with Zicsr and Zifencei (R113–R115). The rules of R113 name the
instruction set; what its instructions do is the RISC-V standard's (log entry 15). -/

namespace Sys2Proof.Machine

/-- A scalar engine about to run an instruction. -/
structure SCtx where
  i : Nat
  p : Nat
  k : Nat
  q : Option Nat
  core : Core
  se : Se
  deriving DecidableEq, Repr

/-- The engine runs and may retire its next instruction. -/
def seAt (e : SeRef) (s : State) : Option SCtx :=
  let t := s.site e.site
  let c := t.core e.core
  let q := c.seQuad e.eng
  let u := c.ses.getD e.eng {}
  if t.coreRuns e.core && c.unitRuns q && decide (e.eng < 8) && decide (u.mode = .running) then
    some ⟨e.site, e.core, e.eng, q, c, u⟩
  else none

/-- Replaces the engine's state. -/
def SCtx.put (c : SCtx) (s : State) (e : Se) : State := s.onSe c.i c.p c.k fun _ => e

/-- The instruction of `n` bytes retires: the engine runs on behind it. -/
def SCtx.retire (c : SCtx) (s : State) (n : Nat) (e : Se) : State :=
  c.put s { e with pc := c.se.pc + BitVec.ofNat 64 n, csrs := { e.csrs with minstret := e.csrs.minstret + 1 } }

/-- The instruction retires with a jump. -/
def SCtx.jump (c : SCtx) (s : State) (pc : W64) (e : Se) : State :=
  c.put s { e with pc := pc, csrs := { e.csrs with minstret := e.csrs.minstret + 1 } }

/-- A trap (R115): to mtvec when it is not zero; otherwise the engine ends as faulted and records mcause[7:0]. -/
def SCtx.trap (c : SCtx) (s : State) (cause : Nat) (tval : W64) : State :=
  let e := c.se
  let m := e.csrs
  if m.mtvec = 0 then c.put s { e with mode := .faulted, cause := cause % 256 }
  else
    let st := m.mstatus.toNat
    let st' := (if st.testBit 3 then 0x80 else 0)
    c.put s { e with
      pc := m.mtvec &&& ~~~3
      csrs := { m with mepc := e.pc, mcause := BitVec.ofNat 64 cause, mtval := tval, mstatus := BitVec.ofNat 64 st' } }

/-- Illegal instruction. -/
def SCtx.illegal (c : SCtx) (s : State) (w : Nat) : State := c.trap s 2 (BitVec.ofNat 64 w)

/-- The regions of R114. -/
inductive SeSpace where
  | core | scratch | none
  deriving DecidableEq, Repr, Inhabited

/-- The region that holds `n` bytes at `a`. -/
def SCtx.region (c : SCtx) (a n : Nat) : SeSpace :=
  if a + n ≤ bindingSize c.q then .core
  else if 0x40000000 ≤ a ∧ a + n ≤ 0x40004000 then .scratch else .none

/-- Reads memory of an engine's address space: the bytes, or the cause of the trap (R113, R114, R189). -/
def SCtx.load (c : SCtx) (a n : Nat) : Except Nat Bytes :=
  if a % n ≠ 0 then .error 4
  else match c.region a n with
    | .core => if c.core.poisonedAt c.q a n then .error 5 else .ok (c.core.readCm c.q a n)
    | .scratch => .ok (c.se.scratch.read (a - 0x40000000) n)
    | .none => .error 5

/-- Whether a store may go there: the cause of the trap if not. -/
def SCtx.storeFault (c : SCtx) (a n : Nat) : Option Nat :=
  if a % n ≠ 0 then some 6 else if c.region a n = .none then some 7 else none

/-- Writes memory of an engine's address space; the reservations of the binding's other engines on those bytes are
lost (R114). -/
def SCtx.store (c : SCtx) (s : State) (a : Nat) (bs : Bytes) : State :=
  match c.region a bs.length with
  | .core => s.onCore c.i c.p fun k =>
      let k := k.writeCm c.q a bs
      { k with ses := k.ses.zipIdx.map fun (e, j) =>
          if j ≠ c.k ∧ k.seQuad j = c.q then
            match e.resv with
            | some (r, n) => if r < a + bs.length ∧ a < r + n then { e with resv := none } else e
            | none => e
          else e }
  | .scratch => s.onSe c.i c.p c.k fun e => { e with scratch := e.scratch.write (a - 0x40000000) bs }
  | .none => s

/-! Immediates and register fields -/

def rvRd (w : Nat) : Nat := w >>> 7 % 32
def rvRs1 (w : Nat) : Nat := (w >>> 15) % 32
def rvRs2 (w : Nat) : Nat := (w >>> 20) % 32
def rvF3 (w : Nat) : Nat := (w >>> 12) % 8
def rvF7 (w : Nat) : Nat := (w >>> 25) % 128
/-- I-type immediate. -/
def immI (w : Nat) : Int := toSigned 12 (w >>> 20)
/-- S-type immediate. -/
def immS (w : Nat) : Int := toSigned 12 ((rvF7 w) * 32 + (w >>> 7) % 32)
/-- B-type immediate. -/
def immB (w : Nat) : Int :=
  toSigned 13 ((w >>> 31) % 2 * 4096 + (w >>> 7) % 2 * 2048 + (w >>> 25) % 64 * 32 + (w >>> 8) % 16 * 2)
/-- U-type immediate. -/
def immU (w : Nat) : Int := toSigned 32 (w >>> 12 <<< 12)
/-- J-type immediate. -/
def immJ (w : Nat) : Int :=
  toSigned 21 ((w >>> 31) % 2 * 2 ^ 20 + (w >>> 12) % 256 * 4096 + (w >>> 20) % 2 * 2048 + (w >>> 21) % 1024 * 2)

/-! Compressed instructions: the 32-bit instruction each stands for -/

def encR (op f3 f7 rd rs1 rs2 : Nat) : Nat := op + rd <<< 7 + f3 <<< 12 + rs1 <<< 15 + rs2 <<< 20 + f7 <<< 25
def encI (op f3 rd rs1 : Nat) (imm : Int) : Nat := op + rd <<< 7 + f3 <<< 12 + rs1 <<< 15 + wrapNat 12 imm <<< 20
def encS (op f3 rs1 rs2 : Nat) (imm : Int) : Nat :=
  let m := wrapNat 12 imm
  op + (m % 32) <<< 7 + f3 <<< 12 + rs1 <<< 15 + rs2 <<< 20 + (m / 32) <<< 25
def encB (f3 rs1 rs2 : Nat) (imm : Int) : Nat :=
  let m := wrapNat 13 imm
  0x63 + (m >>> 11 % 2) <<< 7 + (m >>> 1 % 16) <<< 8 + f3 <<< 12 + rs1 <<< 15 + rs2 <<< 20 +
    (m >>> 5 % 64) <<< 25 + (m >>> 12) <<< 31
def encU (op rd : Nat) (imm : Int) : Nat := op + rd <<< 7 + wrapNat 20 imm <<< 12
def encJ (rd : Nat) (imm : Int) : Nat :=
  let m := wrapNat 21 imm
  0x6F + rd <<< 7 + ((m >>> 12) % 256) <<< 12 + ((m >>> 11) % 2) <<< 20 + ((m >>> 1) % 1024) <<< 21 + (m >>> 20) <<< 31

/-- Bits `[hi:lo]` of a compressed instruction. -/
def cb (h hi lo : Nat) : Nat := (h >>> lo) % 2 ^ (hi + 1 - lo)

/-- Quadrant 0. -/
def expand0 (h : Nat) : Option Nat :=
  let rd := 8 + cb h 4 2
  let rs := 8 + cb h 9 7
  let offW := cb h 12 10 * 8 + cb h 6 6 * 4 + cb h 5 5 * 64
  let offD := cb h 12 10 * 8 + cb h 6 5 * 64
  match cb h 15 13 with
  | 0 =>
    let imm := cb h 12 11 * 16 + cb h 10 7 * 64 + cb h 6 6 * 4 + cb h 5 5 * 8
    if imm = 0 then none else some (encI 0x13 0 rd 2 imm)
  | 2 => some (encI 0x03 2 rd rs offW)
  | 3 => some (encI 0x03 3 rd rs offD)
  | 6 => some (encS 0x23 2 rs rd offW)
  | 7 => some (encS 0x23 3 rs rd offD)
  | _ => none

/-- Quadrant 1. -/
def expand1 (h : Nat) : Option Nat :=
  let rd := cb h 11 7
  let imm := toSigned 6 (cb h 12 12 * 32 + cb h 6 2)
  let rp := 8 + cb h 9 7
  let r2 := 8 + cb h 4 2
  let offJ := toSigned 12 (cb h 12 12 * 2048 + cb h 11 11 * 16 + cb h 10 9 * 256 + cb h 8 8 * 1024 + cb h 7 7 * 64 +
    cb h 6 6 * 128 + cb h 5 3 * 2 + cb h 2 2 * 32)
  let offB := toSigned 9 (cb h 12 12 * 256 + cb h 11 10 * 8 + cb h 6 5 * 64 + cb h 4 3 * 2 + cb h 2 2 * 32)
  match cb h 15 13 with
  | 0 => some (encI 0x13 0 rd rd imm)
  | 1 => if rd = 0 then none else some (encI 0x1B 0 rd rd imm)
  | 2 => some (encI 0x13 0 rd 0 imm)
  | 3 =>
    if rd = 2 then
      let m := toSigned 10 (cb h 12 12 * 512 + cb h 6 6 * 16 + cb h 5 5 * 64 + cb h 4 3 * 128 + cb h 2 2 * 32)
      if m = 0 then none else some (encI 0x13 0 2 2 m)
    else if imm = 0 then none else some (encU 0x37 rd imm)
  | 4 =>
    let sh := cb h 12 12 * 32 + cb h 6 2
    match cb h 11 10 with
    | 0 => some (encI 0x13 5 rp rp sh)
    | 1 => some (encI 0x13 5 rp rp (sh + 0x400))
    | 2 => some (encI 0x13 7 rp rp imm)
    | _ =>
      match cb h 12 12 * 4 + cb h 6 5 with
      | 0 => some (encR 0x33 0 0x20 rp rp r2)
      | 1 => some (encR 0x33 4 0 rp rp r2)
      | 2 => some (encR 0x33 6 0 rp rp r2)
      | 3 => some (encR 0x33 7 0 rp rp r2)
      | 4 => some (encR 0x3B 0 0x20 rp rp r2)
      | 5 => some (encR 0x3B 0 0 rp rp r2)
      | _ => none
  | 5 => some (encJ 0 offJ)
  | 6 => some (encB 0 rp 0 offB)
  | _ => some (encB 1 rp 0 offB)

/-- Quadrant 2. -/
def expand2 (h : Nat) : Option Nat :=
  let rd := cb h 11 7
  let rs2 := cb h 6 2
  match cb h 15 13 with
  | 0 => some (encI 0x13 1 rd rd ((cb h 12 12 * 32 + cb h 6 2 : Nat) : Int))
  | 2 => if rd = 0 then none else
      some (encI 0x03 2 rd 2 ((cb h 12 12 * 32 + cb h 6 4 * 4 + cb h 3 2 * 64 : Nat) : Int))
  | 3 => if rd = 0 then none else
      some (encI 0x03 3 rd 2 ((cb h 12 12 * 32 + cb h 6 5 * 8 + cb h 4 2 * 64 : Nat) : Int))
  | 4 =>
    if cb h 12 12 = 0 then
      if rs2 = 0 then (if rd = 0 then none else some (encI 0x67 0 0 rd 0)) else some (encR 0x33 0 0 rd 0 rs2)
    else if rs2 = 0 then (if rd = 0 then some 0x00100073 else some (encI 0x67 0 1 rd 0))
    else some (encR 0x33 0 0 rd rd rs2)
  | 6 => some (encS 0x23 2 2 rs2 ((cb h 12 9 * 4 + cb h 8 7 * 64 : Nat) : Int))
  | 7 => some (encS 0x23 3 2 rs2 ((cb h 12 10 * 8 + cb h 9 7 * 64 : Nat) : Int))
  | _ => none

/-- The 32-bit instruction a compressed one stands for, if it is defined. -/
def expand (h : Nat) : Option Nat :=
  match h % 4 with
  | 0 => expand0 h
  | 1 => expand1 h
  | _ => expand2 h

/-! Integer computation -/

/-- The 64-bit operation of OP and OP-IMM by funct3, with the funct7 bit that selects SUB or SRA. -/
def alu (f3 : Nat) (alt : Bool) (a b : W64) : W64 :=
  match f3 with
  | 0 => if alt then a - b else a + b
  | 1 => a <<< (b.toNat % 64)
  | 2 => if a.slt b then 1 else 0
  | 3 => if a.ult b then 1 else 0
  | 4 => a ^^^ b
  | 5 => if alt then a.sshiftRight (b.toNat % 64) else a >>> (b.toNat % 64)
  | 6 => a ||| b
  | _ => a &&& b

/-- The 32-bit operation of OP-32, sign-extended. -/
def aluW (f3 : Nat) (alt : Bool) (a b : W64) : W64 :=
  let x := a.setWidth 32
  let y := b.setWidth 32
  let r : W32 := match f3 with
    | 0 => if alt then x - y else x + y
    | 1 => x <<< (y.toNat % 32)
    | _ => if alt then x.sshiftRight (y.toNat % 32) else x >>> (y.toNat % 32)
  r.signExtend 64

/-- Quotient or remainder of M, on `b`-bit operands: division by zero gives −1 or the dividend, and the overflow of
signed division gives the dividend or 0. -/
def mulDiv (b f3 : Nat) (x y : Nat) : Nat :=
  let sx := toSigned b x
  let sy := toSigned b y
  wrapNat b (match f3 with
    | 0 => sx * sy
    | 1 => (sx * sy) / 2 ^ b
    | 2 => (sx * (y : Int)) / 2 ^ b
    | 3 => (((x * y) / 2 ^ b : Nat) : Int)
    | 4 => if sy = 0 then -1 else Int.tdiv sx sy
    | 5 => if y = 0 then -1 else ((x / y : Nat) : Int)
    | 6 => if sy = 0 then sx else Int.tmod sx sy
    | _ => if y = 0 then (x : Int) else ((x % y : Nat) : Int))

/-- The new memory value of an AMO, on `b`-bit operands, by funct5; none for LR, SC and what is not defined. -/
def amo (b f5 : Nat) (m r : Nat) : Option Nat :=
  match f5 with
  | 0x00 => some ((m + r) % 2 ^ b)
  | 0x01 => some r
  | 0x04 => some (m ^^^ r)
  | 0x08 => some (m ||| r)
  | 0x0C => some (m &&& r)
  | 0x10 => some (if toSigned b m < toSigned b r then m else r)
  | 0x14 => some (if toSigned b m < toSigned b r then r else m)
  | 0x18 => some (min m r)
  | 0x1C => some (max m r)
  | _ => none

/-- A `b`-bit value sign-extended to a register. -/
def sx (b n : Nat) : W64 := BitVec.ofInt 64 (toSigned b n)

/-! Floating point -/

/-- Rounding mode of an rm field; the dynamic mode is frm's, and the reserved ones are illegal. -/
def rvRm (e : Se) (rm : Nat) : Option Rm :=
  let m := if rm = 7 then bitsOf e.fcsr 7 5 else rm
  match m with
  | 0 => some .rne
  | 1 => some .rtz
  | 2 => some .rdn
  | 3 => some .rup
  | 4 => some .rmm
  | _ => none

/-- Rounds to FP32 with tininess detected after rounding, as the RISC-V standard has it. -/
def rvRound (rm : Rm) (r : Fp × Bool) : Nat × FpFlags :=
  let (n, f) := fp32.ieee rm r.1
  let tiny := match r.1 with
    | .fin neg m e =>
      if m = 0 then false
      else
        let q := (Nat.log2 m : Int) + e - 23
        let (k, _) := roundTo rm neg m e q
        decide ((Nat.log2 k : Int) + q < -126)
    | _ => false
  (n, { f with uf := tiny && f.nx, nv := f.nv || r.2 })

/-- Float register `r`. -/
def Se.freg (e : Se) (r : Nat) : Nat := (e.f.getD r 0).toNat

/-- Writes a float register. -/
def Se.setFreg (e : Se) (r n : Nat) : Se := { e with f := e.f.setIfInBounds r (BitVec.ofNat 32 n) }

/-- Conversion of an FP32 value to an integer of `b` bits: saturating, NaN as the largest, invalid where it does not
fit. -/
def fcvtToInt (b : Nat) (signed : Bool) (rm : Rm) (x : Fp) : Nat × FpFlags :=
  let hi : Int := if signed then 2 ^ (b - 1) - 1 else 2 ^ b - 1
  let lo : Int := if signed then -(2 ^ (b - 1)) else 0
  match x with
  | .nan _ => (wrapNat b hi, { nv := true })
  | .inf n => (wrapNat b (if n then lo else hi), { nv := true })
  | .fin n m e =>
    let (k, nx) := roundTo rm n m e 0
    let v : Int := if n then -(k : Int) else k
    if hi < v then (wrapNat b hi, { nv := true }) else if v < lo then (wrapNat b lo, { nv := true })
    else (wrapNat b v, { nx := nx })

/-- FCLASS.S. -/
def fclass (n : Nat) : Nat :=
  match fp32.decode n with
  | .nan s => if s then 0x100 else 0x200
  | .inf g => if g then 0x001 else 0x080
  | .fin g m _ =>
    if m = 0 then (if g then 0x008 else 0x010)
    else if m < 2 ^ 23 then (if g then 0x004 else 0x020) else if g then 0x002 else 0x040

/-- FMIN.S or FMAX.S. -/
def fminmax (big : Bool) (a b : Nat) : Nat × FpFlags :=
  let x := fp32.decode a
  let y := fp32.decode b
  let f : FpFlags := { nv := x.isSig || y.isSig }
  if x.isNan && y.isNan then (fp32.canonNan, f)
  else if x.isNan then (b, f) else if y.isNan then (a, f)
  else
    let lt := x.lt y || (x.eqv y && x.isNeg && !y.isNeg)
    ((if lt = big then b else a), f)

/-- The OP-FP instructions: what they write to a float register or an integer register, with the flags, or none for
an undefined one. -/
def opFp (e : Se) (w : Nat) : Option ((Nat ⊕ W64) × FpFlags) :=
  let a := e.freg (rvRs1 w)
  let b := e.freg (rvRs2 w)
  let x := fp32.decode a
  let y := fp32.decode b
  let rm := rvRm e (rvF3 w)
  let arith (r : Rm → Fp × Bool) : Option ((Nat ⊕ W64) × FpFlags) :=
    rm.map fun m => let (n, f) := rvRound m (r m); (.inl n, f)
  let down (m : Rm) := decide (m = .rdn)
  let sgn (k : Nat) : Option ((Nat ⊕ W64) × FpFlags) := some (.inl (a % 2 ^ 31 + k % 2 * 2 ^ 31), {})
  let toI (bits : Nat) (signed : Bool) : Option ((Nat ⊕ W64) × FpFlags) :=
    rm.map fun m => let (n, f) := fcvtToInt bits signed m x; (.inr (sx bits n), f)
  let ofI (v : Int) := arith fun _ => (Fp.ofInt v, false)
  let i := e.reg (rvRs1 w)
  match rvF7 w with
  | 0x00 => arith fun m => x.add (down m) y
  | 0x04 => arith fun m => x.add (down m) y.neg
  | 0x08 => arith fun _ => x.mul y
  | 0x0C => rm.map fun m =>
      let (q, nv, dz) := x.div y
      let (n, f) := rvRound m (q, nv)
      (.inl n, { f with dz := dz })
  | 0x2C => if rvRs2 w = 0 then arith fun _ => x.sqrt else none
  | 0x10 => match rvF3 w with
    | 0 => sgn (b >>> 31)
    | 1 => sgn (b >>> 31 + 1)
    | 2 => sgn (a >>> 31 + b >>> 31)
    | _ => none
  | 0x14 => match rvF3 w with
    | 0 => let (n, f) := fminmax false a b; some (.inl n, f)
    | 1 => let (n, f) := fminmax true a b; some (.inl n, f)
    | _ => none
  | 0x60 => match rvRs2 w with
    | 0 => toI 32 true
    | 1 => toI 32 false
    | 2 => toI 64 true
    | 3 => toI 64 false
    | _ => none
  | 0x68 => match rvRs2 w with
    | 0 => ofI (toSigned 32 i.toNat)
    | 1 => ofI ((i.toNat % 2 ^ 32 : Nat) : Int)
    | 2 => ofI i.toInt
    | 3 => ofI (i.toNat : Int)
    | _ => none
  | 0x70 => if rvRs2 w ≠ 0 then none else match rvF3 w with
    | 0 => some (.inr (sx 32 a), {})
    | 1 => some (.inr (BitVec.ofNat 64 (fclass a)), {})
    | _ => none
  | 0x78 => if rvRs2 w = 0 ∧ rvF3 w = 0 then some (.inl (i.toNat % 2 ^ 32), {}) else none
  | 0x50 =>
    let un := x.isNan || y.isNan
    let sig := x.isSig || y.isSig
    match rvF3 w with
    | 0 => some (.inr (if !un && !y.lt x then 1 else 0), { nv := un })
    | 1 => some (.inr (if !un && x.lt y then 1 else 0), { nv := un })
    | 2 => some (.inr (if x.eqv y then 1 else 0), { nv := sig })
    | _ => none
  | _ => none

/-! Control and status registers (R113, R115) -/

/-- misa: RV64IMAFC plus the X bit (R113). -/
def misa : W64 := 2 ^ 63 + BitVec.ofNat 64 (2 ^ 0 + 2 ^ 2 + 2 ^ 5 + 2 ^ 8 + 2 ^ 12 + 2 ^ 23)

/-- The value of a CSR, if it exists; the engine clock's count is a free value (log entry 16). -/
def SCtx.csr (c : SCtx) (s : State) (n : Nat) : Option W64 :=
  let e := c.se
  let m := e.csrs
  let veMask : Nat := c.se.veMask
  match n with
  | 0x001 => some (e.fcsr.setWidth 64 &&& 0x1F)
  | 0x002 => some (BitVec.ofNat 64 (bitsOf e.fcsr 7 5))
  | 0x003 => some (e.fcsr.setWidth 64)
  | 0x300 => some (m.mstatus ||| 0x8000000000007800)
  | 0x301 => some misa
  | 0x304 => some 0
  | 0x305 => some m.mtvec
  | 0x320 => some 0
  | 0x340 => some m.mscratch
  | 0x341 => some m.mepc
  | 0x342 => some m.mcause
  | 0x343 => some m.mtval
  | 0x344 => some 0
  | 0xB00 => some (Config.freeWord s.free)
  | 0xB02 => some m.minstret
  | 0xC00 => some (Config.freeWord s.free)
  | 0xC01 => some (BitVec.ofNat 64 (s.site c.i).time)
  | 0xC02 => some m.minstret
  | 0xF11 => some 0
  | 0xF12 => some 0
  | 0xF13 => some 0
  | 0xF14 => some (BitVec.ofNat 64 (c.k - (seSpan c.q).1))
  | 0xF15 => some 0
  | 0xFC0 => some (BitVec.ofNat 64 ((if c.q.isSome then 2 ^ 31 else 0) + veMask * 256 + (seSpan c.q).2))
  | _ => if (0xB03 ≤ n ∧ n ≤ 0xB1F) ∨ (0x323 ≤ n ∧ n ≤ 0x33F) then some 0 else none

/-- Writes a CSR; what is hard-wired stays. -/
def Se.setCsr (e : Se) (n : Nat) (v : W64) : Se :=
  let m := e.csrs
  match n with
  | 0x001 => { e with fcsr := (e.fcsr &&& 0xE0) ||| (v.setWidth 8 &&& 0x1F) }
  | 0x002 => { e with fcsr := (e.fcsr &&& 0x1F) ||| (v.setWidth 8 <<< 5) }
  | 0x003 => { e with fcsr := v.setWidth 8 }
  | 0x300 => { e with csrs := { m with mstatus := v &&& 0x88 } }
  | 0x305 => { e with csrs := { m with mtvec := v &&& ~~~2 } }
  | 0x340 => { e with csrs := { m with mscratch := v } }
  | 0x341 => { e with csrs := { m with mepc := v &&& ~~~1 } }
  | 0x342 => { e with csrs := { m with mcause := v } }
  | 0x343 => { e with csrs := { m with mtval := v } }
  | 0xB02 => { e with csrs := { m with minstret := v } }
  | _ => e

/-- A Zicsr instruction. -/
def SCtx.zicsr (c : SCtx) (s : State) (w n : Nat) : State :=
  let num := (w >>> 20) % 4096
  let f3 := rvF3 w
  let src : W64 := if 4 ≤ f3 then BitVec.ofNat 64 (rvRs1 w) else c.se.reg (rvRs1 w)
  let writes := decide (f3 % 4 = 1) || decide (rvRs1 w ≠ 0)
  match c.csr s num with
  | none => c.illegal s w
  | some old =>
    if writes && decide (num / 1024 = 3) then c.illegal s w
    else
      let s' := if num = 0xB00 ∨ num = 0xC00 then { s with free := s.free + 1 } else s
      let new := match f3 % 4 with
        | 1 => src
        | 2 => old ||| src
        | _ => old &&& ~~~src
      let e := if writes then c.se.setCsr num new else c.se
      if writes && decide (num = 0xB02) then
        c.put s' { (e.setReg (rvRd w) old) with pc := c.se.pc + BitVec.ofNat 64 n }
      else c.retire s' n (e.setReg (rvRd w) old)

/-! The instructions -/

/-- LR, SC and the AMOs (R114). -/
def SCtx.atomic (c : SCtx) (s : State) (w n : Nat) : State :=
  let e := c.se
  let f5 := rvF7 w / 4
  let bytes := if rvF3 w = 2 then 4 else 8
  let a := (e.reg (rvRs1 w)).toNat
  let v := (e.reg (rvRs2 w)).toNat % 2 ^ (8 * bytes)
  if rvF3 w ≠ 2 ∧ rvF3 w ≠ 3 then c.illegal s w
  else if f5 = 0x02 then
    if rvRs2 w ≠ 0 then c.illegal s w
    else match c.load a bytes with
      | .error k => c.trap s k (BitVec.ofNat 64 a)
      | .ok bs => c.retire s n { e.setReg (rvRd w) (sx (8 * bytes) (leNat bs)) with resv := some (a, bytes) }
  else match c.storeFault a bytes with
    | some k => c.trap s k (BitVec.ofNat 64 a)
    | none =>
      if f5 = 0x03 then
        if e.resv = some (a, bytes) then
          let s' := c.store s a (leBytes bytes v)
          let e' := ((s'.core c.i c.p).ses.getD c.k {})
          c.retire s' n { e'.setReg (rvRd w) 0 with resv := none }
        else c.retire s n { e.setReg (rvRd w) 1 with resv := none }
      else match c.load a bytes with
        | .error k => if (amo 64 f5 0 0).isNone then c.illegal s w else c.trap s k (BitVec.ofNat 64 a)
        | .ok bs =>
          match amo (8 * bytes) f5 (leNat bs) v with
          | none => c.illegal s w
          | some x =>
            let s' := c.store s a (leBytes bytes x)
            let e' := ((s'.core c.i c.p).ses.getD c.k {})
            c.retire s' n (e'.setReg (rvRd w) (sx (8 * bytes) (leNat bs)))

/-- SYSTEM without the CSR instructions: ECALL, EBREAK and MRET. WFI has a row of its own. -/
def SCtx.system (c : SCtx) (s : State) (w : Nat) : State :=
  let e := c.se
  match w with
  | 0x00000073 => c.trap s 11 0
  | 0x00100073 => c.trap s 3 e.pc
  | 0x30200073 =>
    let st := e.csrs.mstatus.toNat
    let st' := (if st.testBit 7 then 0x08 else 0) + 0x80
    c.jump s e.csrs.mepc { e with csrs := { e.csrs with mstatus := BitVec.ofNat 64 st' } }
  | _ => c.illegal s w

/-- A 32-bit instruction, `n` bytes long in the program. -/
def SCtx.run (c : SCtx) (s : State) (w n : Nat) : State :=
  let e := c.se
  let pc := e.pc
  let a := e.reg (rvRs1 w)
  let b := e.reg (rvRs2 w)
  let rd := rvRd w
  let wr (v : W64) := c.retire s n (e.setReg rd v)
  let addr (imm : Int) : Nat := (a + BitVec.ofInt 64 imm).toNat
  let fp (r : Option ((Nat ⊕ W64) × FpFlags)) : State :=
    match r with
    | none => c.illegal s w
    | some (.inl x, f) => c.retire s n ((e.setFreg rd x).raise f)
    | some (.inr x, f) => c.retire s n ((e.setReg rd x).raise f)
  match w % 128 with
  | 0x37 => wr (BitVec.ofInt 64 (immU w))
  | 0x17 => wr (pc + BitVec.ofInt 64 (immU w))
  | 0x6F => c.jump s (pc + BitVec.ofInt 64 (immJ w)) (e.setReg rd (pc + BitVec.ofNat 64 n))
  | 0x67 =>
    if rvF3 w = 0 then
      c.jump s ((a + BitVec.ofInt 64 (immI w)) &&& ~~~1) (e.setReg rd (pc + BitVec.ofNat 64 n))
    else c.illegal s w
  | 0x63 =>
    let taken : Option Bool := match rvF3 w with
      | 0 => some (decide (a = b))
      | 1 => some (decide (a ≠ b))
      | 4 => some (a.slt b)
      | 5 => some (!a.slt b)
      | 6 => some (a.ult b)
      | 7 => some (!a.ult b)
      | _ => none
    match taken with
    | none => c.illegal s w
    | some t => if t then c.jump s (pc + BitVec.ofInt 64 (immB w)) e else c.retire s n e
  | 0x03 =>
    let f3 := rvF3 w
    if f3 = 7 then c.illegal s w
    else
      let bytes := 2 ^ (f3 % 4)
      let x := addr (immI w)
      match c.load x bytes with
      | .error k => c.trap s k (BitVec.ofNat 64 x)
      | .ok bs => wr (if f3 < 4 then sx (8 * bytes) (leNat bs) else BitVec.ofNat 64 (leNat bs))
  | 0x23 =>
    if 4 ≤ rvF3 w then c.illegal s w
    else
      let bytes := 2 ^ rvF3 w
      let x := addr (immS w)
      match c.storeFault x bytes with
      | some k => c.trap s k (BitVec.ofNat 64 x)
      | none =>
        let s' := c.store s x (leBytes bytes b.toNat)
        c.retire s' n ((s'.core c.i c.p).ses.getD c.k {})
  | 0x13 =>
    let f3 := rvF3 w
    let imm := BitVec.ofInt 64 (immI w)
    let top := w >>> 26 % 64
    if f3 = 1 then (if top = 0 then wr (alu 1 false a imm) else c.illegal s w)
    else if f3 = 5 then
      (if top = 0 ∨ top = 0x10 then wr (alu 5 (decide (top = 0x10)) a imm) else c.illegal s w)
    else wr (alu f3 false a imm)
  | 0x1B =>
    let f3 := rvF3 w
    let imm := BitVec.ofInt 64 (immI w)
    if f3 = 0 then wr (aluW 0 false a imm)
    else if f3 = 1 ∧ rvF7 w = 0 then wr (aluW 1 false a imm)
    else if f3 = 5 ∧ (rvF7 w = 0 ∨ rvF7 w = 0x20) then wr (aluW 5 (decide (rvF7 w = 0x20)) a imm)
    else c.illegal s w
  | 0x33 =>
    let f3 := rvF3 w
    match rvF7 w with
    | 0 => wr (alu f3 false a b)
    | 0x20 => if f3 = 0 ∨ f3 = 5 then wr (alu f3 true a b) else c.illegal s w
    | 1 => wr (BitVec.ofNat 64 (mulDiv 64 f3 a.toNat b.toNat))
    | _ => c.illegal s w
  | 0x3B =>
    let f3 := rvF3 w
    match rvF7 w with
    | 0 => if f3 = 0 ∨ f3 = 1 ∨ f3 = 5 then wr (aluW f3 false a b) else c.illegal s w
    | 0x20 => if f3 = 0 ∨ f3 = 5 then wr (aluW f3 true a b) else c.illegal s w
    | 1 =>
      if f3 = 0 ∨ 4 ≤ f3 then wr (sx 32 (mulDiv 32 f3 (a.toNat % 2 ^ 32) (b.toNat % 2 ^ 32))) else c.illegal s w
    | _ => c.illegal s w
  | 0x2F => c.atomic s w n
  | 0x0F =>
    match rvF3 w with
    | 0 => c.retire s n e
    | 1 => c.retire s n { e with code := c.core.cmem }
    | _ => c.illegal s w
  | 0x73 => if rvF3 w = 0 then c.system s w else if rvF3 w = 4 then c.illegal s w else c.zicsr s w n
  | 0x07 =>
    if rvF3 w ≠ 2 then c.illegal s w
    else
      let x := addr (immI w)
      match c.load x 4 with
      | .error k => c.trap s k (BitVec.ofNat 64 x)
      | .ok bs => c.retire s n (e.setFreg rd (leNat bs))
  | 0x27 =>
    if rvF3 w ≠ 2 then c.illegal s w
    else
      let x := addr (immS w)
      match c.storeFault x 4 with
      | some k => c.trap s k (BitVec.ofNat 64 x)
      | none =>
        let s' := c.store s x (leBytes 4 (e.freg (rvRs2 w)))
        c.retire s' n ((s'.core c.i c.p).ses.getD c.k {})
  | 0x53 => fp (opFp e w)
  | _ =>
    if w % 128 ∈ [0x43, 0x47, 0x4B, 0x4F] ∧ w >>> 25 % 4 = 0 then
      let x := fp32.decode (e.freg (rvRs1 w))
      let y := fp32.decode (e.freg (rvRs2 w))
      let z := fp32.decode (e.freg (w >>> 27 % 32))
      let np := decide (0x4B ≤ w % 128)
      let nz := decide (w % 128 = 0x47) || decide (w % 128 = 0x4F)
      fp ((rvRm e (rvF3 w)).map fun m =>
        let (r, f) := rvRound m ((if np then x.neg else x).fma (decide (m = .rdn)) y (if nz then z.neg else z))
        (.inl r, f))
    else c.illegal s w

/-- Whether the word at the program counter is `w`, `n` bytes long; core memory may be seen as the cache holds it
(R114). -/
def SCtx.fetches (c : SCtx) (n w : Nat) : Bool :=
  let pc := c.se.pc.toNat
  match c.region pc n with
  | .core => fetchable c.core c.se.code c.q pc n w
  | .scratch => decide (leNat (c.se.scratch.read (pc - 0x40000000) n) = w)
  | .none => true

/-- Whether a 32-bit word is one of R116's instructions or WFI, which have rows of their own. -/
def ownRow (w : W32) : Bool :=
  decide (w = 0x10500073) || (List.range 8).any (xhskWord w 0) || xhskWord w 1 7 || xhskWord w 2 7

/-- The frame of every row of a scalar engine: an access fault where the program counter lies in no region, else the
row's effect if the word is the one fetched. -/
def seRow (e : SeRef) (s : State) (n w : Nat) (body : SCtx → State → State) : Host.Outcome State Fault Refusal :=
  .next (match seAt e s with
    | none => s
    | some c =>
      if c.region c.se.pc.toNat n = .none then c.trap s 1 c.se.pc
      else if !c.fetches n w then s
      else if c.region c.se.pc.toNat n = .core && c.core.poisonedAt c.q c.se.pc.toNat n then c.trap s 5 c.se.pc
      else body c s)

/-- SCALAR_INSTRUCTION (R113–R115): any instruction without a row of its own. -/
def execScalarInstruction (e : SeRef) (w : W32) (s : State) : Host.Outcome State Fault Refusal :=
  if w.toNat % 4 = 3 then
    seRow e s 4 w.toNat fun c s => if ownRow w then s else c.run s w.toNat 4
  else
    let h := w.toNat % 2 ^ 16
    seRow e s 2 h fun c s =>
      match expand h with
      | some x => c.run s x 2
      | none => c.illegal s h

end Sys2Proof.Machine
end

