-- ==== Sys2Proof/Machine/Scalar.lean ====
section
/-! DEFINITION. The Xhsk instructions of the scalar engines (R116–R120), WFI (R115), and the events that end what they
wait for: the end of a ticket, of a move, of an event wait, and a row that enters a chaining port (R110). -/

namespace Sys2Proof.Machine

/-- A row of R116: the word under the row is the instruction's, or the row leaves the block as it is. -/
def xRow (f7 f3 : Nat) (e : SeRef) (w : W32) (s : State) (body : SCtx → State → State) :
    Host.Outcome State Fault Refusal :=
  seRow e s 4 w.toNat fun c s => if xhskWord w f7 f3 then body c s else s

/-- rs1 of an R-type word. -/
def SCtx.rs1 (c : SCtx) (w : W32) : W64 := c.se.reg (rvRs1 w.toNat)
/-- rs2 of an R-type word. -/
def SCtx.rs2 (c : SCtx) (w : W32) : W64 := c.se.reg (rvRs2 w.toNat)

/-- The instruction retires and writes rd. -/
def SCtx.give (c : SCtx) (s : State) (w : W32) (v : Nat) : State :=
  c.retire s 4 (((s.core c.i c.p).ses.getD c.k {}).setReg (rvRd w.toNat) (BitVec.ofNat 64 v))

/-- The engine waits at the instruction. -/
def SCtx.await (c : SCtx) (s : State) (x : SeWait) : State := c.put s { c.se with mode := .waiting, wait := x }

/-- An identifier from 1 to 65,535 that none of `used` has: which one is a free value (log entry 17). -/
def freshId (used : List Nat) (f : Nat) : Nat :=
  ((List.range (used.length + 1)).map fun k => 1 + (f + k) % 65535).find? (!used.contains ·) |>.getD 0

/-- Physical vector engines that binding-local mask bits name (R91, R129). -/
def SCtx.named (c : SCtx) (s : State) (mask : Nat) : List (Nat × Nat) :=
  let (lo, n) := veSpan c.q
  ((List.range n).filter mask.testBit).map fun l => (l, (s.site c.i).veMap c.p (lo + l))

/-- The 64 bytes of a launch block or 32 of a move block, or the cause of the trap. -/
def SCtx.block (c : SCtx) (a n align : Nat) : Except Nat Bytes :=
  if a % align ≠ 0 then .error 4
  else match c.region a n with
    | .core => if c.core.poisonedAt c.q a n then .error 5 else .ok (c.core.readCm c.q a n)
    | .scratch => .ok (c.se.scratch.read (a - 0x40000000) n)
    | .none => .error 5

/-- A vector engine as it starts a program (R92, R117). -/
def Ve.launch (v : Ve) (loc : Nat) (blk : Bytes) (ticket launcher : Nat) (seed : W64) (code : Mem) : Ve :=
  { v with
    a := Vector.ofFn fun k => BitVec.ofNat 32 (if k.val = 0 then loc else fieldAt blk (4 * k.val) 4)
    vl := 2048
    flags := 0
    rc := 0
    pc := fieldAt blk 0 4
    busy := true
    waiting := false
    ticket := ticket
    launcher := launcher
    seed := seed
    code := code }

/-- The stream's generator seed for the command an engine runs (R99). -/
def State.seedOf (s : State) (c : Option CmdRef) : W64 :=
  match c with
  | some r => ((s.vd r.vd).stream r.stream).seed
  | none => 0

/-- The launch of a VLAUNCH (R117): every named engine starts at the block's entry, and rd receives a fresh ticket (which
one is a free value, log entry 17). -/
def SCtx.launch (c : SCtx) (s : State) (w : W32) (blk : Bytes) : State :=
  let named := c.named s ((c.rs2 w).toNat % 2 ^ 12)
  let id := freshId (c.core.tickets.map (·.id)) (Config.freeWord s.free).toNat
  let s := { s with free := s.free + 1 }
  let seed := s.seedOf c.se.cmd
  let s := s.onCore c.i c.p fun k => { k with
    ves := named.foldl (fun ves (l, p) => ves.modify p (·.launch l blk id c.k seed k.cmem)) k.ves
    tickets := k.tickets ++ [⟨id, named.map (·.2), [], c.se.cmd, c.q.getD 0⟩] }
  c.give s w id

/-- Whether a mask is within the command's VE_MASK (R117). -/
def SCtx.maskOk (c : SCtx) (w : W32) : Bool :=
  let mask := (c.rs2 w).toNat % 2 ^ 12
  decide (mask &&& c.se.veMask = mask)

/-- VLAUNCH names no engine, or a busy one (R117). -/
def SCtx.launchHeld (c : SCtx) (s : State) (w : W32) : Bool :=
  let mask := (c.rs2 w).toNat % 2 ^ 12
  decide (mask = 0) || (c.named s mask).any fun (_, p) => (c.core.ves.getD p {}).busy

/-- VLAUNCH (R116, R117). -/
def execVlaunch (e : SeRef) (w : W32) (s : State) : Host.Outcome State Fault Refusal :=
  xRow 0 0 e w s fun c s =>
    if !c.maskOk w then c.illegal s w.toNat
    else if c.launchHeld s w then c.give s w 0
    else match c.block (c.rs1 w).toNat 64 64 with
      | .error k => c.trap s k (c.rs1 w)
      | .ok blk => c.launch s w blk

/-- The status VWAIT returns for a ticket all of whose programs have ended (R118); physical engine numbers stand in the
order of their logical numbers. -/
def Ticket.status (t : Ticket) (site : Site) (p : Nat) : Nat :=
  let bad := (List.range 12).findSome? fun l =>
    t.ends.findSome? fun (e, r) =>
      match r with
      | .faulted k => if site.veMap p l = e then some k else none
      | _ => none
  match bad with
  | some k => 0x100 + k
  | none => if t.ends.any fun x => decide (x.2 = .stopped) then 1 else 0

/-- A ticket of the engine's binding. -/
def SCtx.ticket? (c : SCtx) (t : Nat) : Option Ticket :=
  c.core.tickets.find? fun k => decide (k.id = t) && decide (k.quarter = c.q.getD 0)

/-- The ticket is collected (R118). -/
def Core.collect (c : Core) (t : Nat) : Core := { c with tickets := c.tickets.filter fun k => decide (k.id ≠ t) }

/-- VWAIT (R116, R118). -/
def execVwait (e : SeRef) (w : W32) (s : State) : Host.Outcome State Fault Refusal :=
  xRow 0 1 e w s fun c s =>
    let t := (c.rs1 w).toNat
    match c.ticket? t with
    | none => c.give s w 2
    | some k =>
      if k.running.isEmpty then
        c.give (s.onCore c.i c.p (·.collect t)) w (k.status (s.site c.i) c.p)
      else c.await s (.ticket (rvRd w.toNat) t)

/-- VPOLL (R116): the status without waiting; the ticket is not collected. -/
def execVpoll (e : SeRef) (w : W32) (s : State) : Host.Outcome State Fault Refusal :=
  xRow 0 2 e w s fun c s =>
    match c.ticket? (c.rs1 w).toNat with
    | none => c.give s w 2
    | some k => c.give s w (if k.running.isEmpty then k.status (s.site c.i) c.p else 0xFFFFFFFF)

/-- A scalar engine that waits for a ticket (R118). -/
def Se.waitsTicket (e : Se) (x : Nat) : Bool :=
  match e.wait with
  | .ticket _ y => decide (y = x) && decide (e.mode = .waiting)
  | _ => false

/-- The ticket's programs have all ended: the engines that wait for it run on, and the first of them collects it
(R118). -/
def Core.endTicket (c : Core) (ticket st : Nat) : Core :=
  let first := (c.ses.findIdx? (·.waitsTicket ticket)).getD 0
  { c.collect ticket with
    ses := c.ses.zipIdx.map fun (e, j) =>
      match e.wait with
      | .ticket rd _ => if e.waitsTicket ticket then e.resume rd (BitVec.ofNat 64 (if j = first then st else 2)) else e
      | _ => e }

/-- TICKET_END (R118): every program of a ticket has ended while an engine waits for it. -/
def execTicketEnd (i core ticket : Nat) (s : State) : Host.Outcome State Fault Refusal :=
  .next (
    let t := s.site i
    let c := t.core core
    match c.tickets.find? fun k => decide (k.id = ticket) with
    | none => s
    | some k =>
      if !k.running.isEmpty || !c.ses.any (·.waitsTicket ticket) then s
      else s.onCore i core (·.endTicket ticket (k.status t core)))

/-- The slice's scratch units of a cluster, in order (R201). -/
def Cluster.scratchUnits (c : Cluster) (slice : Nat) : List Nat :=
  (List.range 64).filter fun u => decide (c.alloc.getD u .free = .scratch slice)

/-- The place of byte offset `a` of a slice's scratch allotment (R201). -/
def Cluster.place (c : Cluster) (slice a : Nat) : Nat :=
  (c.scratchUnits slice).getD (a / 2 ^ 20) 0 * 2 ^ 20 + a % 2 ^ 20

/-- The pieces of a range of a scratch allotment that lie in one unit each. -/
def Cluster.read (c : Cluster) (slice a n : Nat) : Bytes :=
  (linePieces (2 ^ 20) a n).flatMap fun (_, lo, k) => c.clm.read (c.place slice lo) k

/-- Whether a range of a scratch allotment touches a poisoned sector. -/
def Cluster.poisonedAt (c : Cluster) (slice a n : Nat) : Bool :=
  if c.poison.isEmpty then false
  else (linePieces 32 a n).any fun (_, lo, _) => c.poison.contains (c.place slice lo / 32)

/-- Writes a range of a scratch allotment; whole sectors are healed (R189, R201). -/
def Cluster.write (c : Cluster) (slice a : Nat) (bs : Bytes) : Cluster :=
  let m := (linePieces (2 ^ 20) a bs.length).foldl
    (fun m (o, lo, k) => m.write (c.place slice lo) ((bs.drop o).take k)) c.clm
  let healed := (linePieces 32 a bs.length).filterMap fun (_, lo, k) =>
    if k = 32 then some (c.place slice lo / 32) else none
  { c with clm := m, poison := c.poison.filter fun p => !healed.contains p }

/-- Bytes of a slice's scratch allotment in a cluster. -/
def Cluster.scratchSize (c : Cluster) (slice : Nat) : Nat := (c.scratchUnits slice).length * 2 ^ 20

/-- The move that a block starts, as ticket `id` (R119): one that fails a check ends before it moves any byte. -/
def SCtx.moveOf (c : SCtx) (s : State) (b : Bytes) (id : Nat) : Move :=
  let (src, dst, len, dir) := (fieldAt b 0 8, fieldAt b 8 8, fieldAt b 16 4, fieldAt b 20 1)
  let size := (((s.site c.i).cluster (c.p / 3))).scratchSize ((c.se.cmd.map (·.vd)).getD 256)
  let (lc, lk) := if dir = 0 then (src, dst) else (dst, src)
  let bad := anySet (b.drop 21) || decide (1 < dir) || decide (len % 64 ≠ 0) || decide (len < 64) ||
    decide (2 ^ 24 < len) || decide (src % 64 ≠ 0) || decide (dst % 64 ≠ 0) ||
    decide (bindingSize c.q < lc + len) || decide (size < lk + len)
  ⟨id, c.k, src, dst, len, dir, if bad then some 1 else none, c.se.cmd, c.q.getD 0⟩

/-- Moves of the engine that have not ended. -/
def SCtx.movesOpen (c : SCtx) : Nat := (c.core.moves.filter fun m => decide (m.se = c.k) && m.result.isNone).length

/-- CMCOPY (R116, R119): which ticket is a free value (log entry 17). -/
def execCmcopy (e : SeRef) (w : W32) (s : State) : Host.Outcome State Fault Refusal :=
  xRow 0 3 e w s fun c s =>
    match c.block (c.rs1 w).toNat 32 8 with
    | .error k => c.trap s k (c.rs1 w)
    | .ok b =>
      if 4 ≤ c.movesOpen then c.give s w 0
      else
        let id := freshId (c.core.moves.map (·.id)) (Config.freeWord s.free).toNat
        c.give ({ s with free := s.free + 1 }.onCore c.i c.p fun k => { k with moves := k.moves ++ [c.moveOf s b id] }) w id

/-- The move is collected. -/
def Core.dropMove (c : Core) (t : Nat) : Core := { c with moves := c.moves.filter fun m => decide (m.id ≠ t) }

/-- MWAIT (R116, R119). -/
def execMwait (e : SeRef) (w : W32) (s : State) : Host.Outcome State Fault Refusal :=
  xRow 0 4 e w s fun c s =>
    let t := (c.rs1 w).toNat
    match c.core.moves.find? fun m => decide (m.id = t) && decide (m.quarter = c.q.getD 0) with
    | none => c.give s w 2
    | some m =>
      match m.result with
      | some r => c.give (s.onCore c.i c.p (·.dropMove t)) w r
      | none => c.await s (.move (rvRd w.toNat) t)

/-- A scalar engine that waits for a move (R119). -/
def Se.waitsMove (e : Se) (x : Nat) : Bool :=
  match e.wait with
  | .move _ y => decide (y = x) && decide (e.mode = .waiting)
  | _ => false

/-- The move has ended with result `r`: the engines that wait for it run on and the first of them collects it; with no
engine waiting the result stays with the move (R119). -/
def Core.endMove (c : Core) (ticket r : Nat) : Core :=
  if c.ses.any (·.waitsMove ticket) then
    let first := (c.ses.findIdx? (·.waitsMove ticket)).getD 0
    { c.dropMove ticket with
      ses := c.ses.zipIdx.map fun (e, j) =>
        match e.wait with
        | .move rd _ => if e.waitsMove ticket then e.resume rd (BitVec.ofNat 64 (if j = first then r else 2)) else e
        | _ => e }
  else { c with moves := c.moves.map fun m => if m.id = ticket then { m with result := some r } else m }

/-- Whether a source sector of a move holds an uncorrectable error (R119). -/
def State.moveBad (s : State) (i core : Nat) (m : Move) : Bool :=
  let t := s.site i
  let c := t.core core
  if m.dir = 0 then c.poisonedAt (if c.quad then some m.quarter else none) m.src m.len
  else (t.cluster (core / 3)).poisonedAt ((m.cmd.map (·.vd)).getD 256) m.src m.len

/-- The bytes of a move are copied between the binding's core memory and the slice's scratch allotment (R119). -/
def State.moveBytes (s : State) (i core : Nat) (m : Move) : State :=
  let t := s.site i
  let c := t.core core
  let q := if c.quad then some m.quarter else none
  let slice := (m.cmd.map (·.vd)).getD 256
  if m.dir = 0 then s.onSite i (·.onCluster (core / 3) (·.write slice m.dst (c.readCm q m.src m.len)))
  else s.onCore i core (·.writeCm q m.dst ((t.cluster (core / 3)).read slice m.src m.len))

/-- MOVE_END (R119): the move's bytes have been copied, or an uncorrectable error ended it; the engine that waits for it
runs on. -/
def execMoveEnd (i core ticket : Nat) (ok : Bool) (s : State) : Host.Outcome State Fault Refusal :=
  .next (
    let t := s.site i
    let c := t.core core
    match c.moves.find? fun m => decide (m.id = ticket) && m.result.isNone with
    | none => s
    | some m =>
      if !t.coreRuns core || !c.unitRuns (if c.quad then some m.quarter else none) then s
      else if !ok || s.moveBad i core m then s.onCore i core (·.endMove ticket 1)
      else (s.moveBytes i core m).onCore i core (·.endMove ticket 0))

/-- EVWAIT (R116, R120). -/
def execEvwait (e : SeRef) (w : W32) (s : State) : Host.Outcome State Fault Refusal :=
  xRow 0 5 e w s fun c s =>
    let mask := (c.rs1 w).setWidth 16
    let got := c.se.events &&& mask
    if got = 0 then c.await s (.event (rvRd w.toNat) mask (c.rs2 w))
    else c.retire s 4 { c.se.setReg (rvRd w.toNat) (got.setWidth 64) with events := c.se.events &&& ~~~mask }

/-- EVWAIT_EXPIRY (R116): the limit passes with no event; a limit of 0 never expires. -/
def execEvwaitExpiry (e : SeRef) (s : State) : Host.Outcome State Fault Refusal :=
  .next (
    let u := (s.core e.site e.core).ses.getD e.eng {}
    match u.wait with
    | .event rd _ limit =>
      if u.mode = .waiting ∧ limit ≠ 0 then s.onSe e.site e.core e.eng (·.resume rd 0) else s
    | _ => s)

/-- EVSET (R116, R120): events on scalar engine rs1 of the binding. -/
def execEvset (e : SeRef) (w : W32) (s : State) : Host.Outcome State Fault Refusal :=
  xRow 0 6 e w s fun c s =>
    let k := (c.rs1 w).toNat
    let (lo, n) := seSpan c.q
    let s := if k < n then s.onSe c.i c.p (lo + k) (·.post ((c.rs2 w).setWidth 16)) else s
    c.retire s 4 ((s.core c.i c.p).ses.getD c.k {})

/-- SEHALT (R116): the engine ends with its exit code. -/
def execSehalt (e : SeRef) (w : W32) (s : State) : Host.Outcome State Fault Refusal :=
  xRow 0 7 e w s fun c s => c.put s { c.se with
    mode := .ended, exit := (c.rs1 w).setWidth 8
    csrs := { c.se.csrs with minstret := c.se.csrs.minstret + 1 } }

/-- The half a CHARM names, if the binding owns it (R111): bit 1 the port, bit 0 the half. -/
def SCtx.half? (c : SCtx) (x : Nat) : Option Nat :=
  match c.q with
  | none => if x < 4 then some x else none
  | some q => if x = q / 2 * 2 + q % 2 then some x else none

/-- CHARM (R110, R116). -/
def execCharm (e : SeRef) (w : W32) (s : State) : Host.Outcome State Fault Refusal :=
  xRow 1 7 e w s fun c s =>
    match c.half? (c.rs1 w).toNat with
    | none => c.give s w 0
    | some h =>
      let x := c.core.halves.getD h {}
      if x.state = .active ∨ !x.fifo.isEmpty then c.give s w 0
      else c.give (s.onCore c.i c.p fun k => { k with
        halves := k.halves.modify h fun x => { x with state := .idle } }) w 1

/-- VABORT (R116, R118): the ticket's programs stop at the boundary they stand at. -/
def execVabort (e : SeRef) (w : W32) (s : State) : Host.Outcome State Fault Refusal :=
  xRow 2 7 e w s fun c s =>
    let s := match c.ticket? (c.rs1 w).toNat with
      | none => s
      | some t => s.onCore c.i c.p fun k => t.running.foldl (fun k v => k.endVe v .stopped) k
    c.retire s 4 ((s.core c.i c.p).ses.getD c.k {})

/-- WFI (R115): waits until some local event is pending. -/
def execWfi (e : SeRef) (w : W32) (s : State) : Host.Outcome State Fault Refusal :=
  seRow e s 4 w.toNat fun c s =>
    if w ≠ 0x10500073 then s
    else if c.se.events ≠ 0 then c.retire s 4 c.se
    else c.await s .wfi

/-- A CHPOP that waits at the half is served (R110, R111): the row goes to the engine that reached the port first. -/
def Core.chainIn (c : Core) (h : Nat) (row : Nat × Bytes) : Core :=
  match (c.halves.getD h {}).waiters with
  | [] => { c with halves := c.halves.modify h fun x => { x with state := .active, fifo := x.fifo ++ [row] } }
  | (e, vd, ab) :: rest => { c with
      halves := c.halves.modify h fun x => { x with state := .active, waiters := rest }
      ves := c.ves.modify e (·.popRow vd ab row) }

/-- The command at a half has ended (R110): ACTIVE goes to ENDED, and CHPOPs that wait at the empty half end. -/
def Core.chainEnd (c : Core) (h : Nat) : Core :=
  let x := c.halves.getD h {}
  if x.state ≠ .active then { c with halves := c.halves.modify h fun x => { x with cmd := none } }
  else { c with
    halves := c.halves.modify h fun x => { x with state := .ended, cmd := none, waiters := [] }
    ves := x.waiters.foldl (fun ves (e, _, ab) => ves.modify e (·.popEnded ab)) c.ves }

/-- CHAIN_ROW (R72, R110): the next epilogue row enters the half while it holds fewer than 16 rows; a half in ENDED
stalls the command. -/
def execChainRow (i core half : Nat) (s : State) : Host.Outcome State Fault Refusal :=
  .next (
    let t := s.site i
    let c := t.core core
    let x := c.halves.getD half {}
    match x.cmd with
    | none => s
    | some r =>
      match s.cmd? r with
      | none => s
      | some k =>
        match k.chainRows with
        | [] => s
        | row :: rest =>
          if !t.coreRuns core || decide (x.state = .ended) || decide (16 ≤ x.fifo.length) then s
          else (s.onCore i core (·.chainIn half row)).onCmd r fun k => { k with
            chainRows := rest, finalWr := rest.isEmpty, endTime := t.time })

end Sys2Proof.Machine
end

