-- ==== Sys2Proof/Machine/Access.lean ====
section
/-! DEFINITION. How a command reaches memory: translation of a DVA (R379–R382), the place of an object's bytes (R367,
R270), the engine address spaces (R136), reads and writes with the outcomes of R138, the loft (R298–R300), and the
frame in which an engine runs a command. -/

namespace Sys2Proof.Machine

/-! Translation -/

/-- The object record under an index (R368, R369). -/
def Space.obj? (p : Space) (n : Nat) : Option Obj :=
  p.objs.find? fun o => decide (o.index = n) && decide (o.state ≠ .released)

/-- The mapping that holds a DVA. -/
def Space.leaf? (p : Space) (asid dva : Nat) : Option Mapping :=
  p.maps.find? fun m => decide (m.asid = asid) && decide (m.dva ≤ dva) && decide (dva < m.dva + m.len)

/-- What translation of one byte answers. -/
inductive Trans where
  /-- The address space does not exist (R374). -/
  | dead
  /-- A translation fault, or a rights fault (R383). -/
  | fault (rights : Bool)
  /-- The object was freed before the command was placed (R377). -/
  | gone
  | found (o : Obj) (off : Nat)
  deriving DecidableEq, Repr, Inhabited

/-- Translates a DVA for a command placed as number `id`; `need` holds the rights: bit 0 read, 1 write, 2 atomic
(R381). -/
def Space.translate (p : Space) (asid dva need id : Nat) : Trans :=
  if !p.asids.contains asid then .dead
  else match p.leaf? asid dva with
    | none => .fault false
    | some m =>
      match p.obj? m.obj with
      | none => .fault false
      | some o =>
        let gone (o : Obj) : Bool := decide (o.state = .freeing) && decide (o.freedId < id)
        if gone o || (decide (o.cls = .remote) && (p.objs.any fun x => decide (x.index = o.target) && gone x)) then .gone
        else if m.rights &&& need ≠ need then .fault true
        else .found o (m.off + (dva - m.dva))

/-- Where a byte lies: class of its pages, home part and instance, tenant or bus address, and the loft mode under which
it is reached. -/
structure Spot where
  cls : ObjClass
  dst : Nat
  addr : Nat
  loft : Nat
  deriving DecidableEq, Repr, Inhabited

/-- The pages of a private, shared-plain or host object as site `i` sees them (R367). -/
def State.pages (s : State) (v i : Nat) (o : Obj) (off : Nat) : Spot :=
  match o.cls with
  | .host => ⟨.host, 0, o.bus + off, 0⟩
  | .shared =>
    let copy : Option (Nat × Bool × Nat) := do
      let g ← (s.vd v).hold.grants.find? fun g => decide (g.1 = o.grant)
      let w ← s.part.weights.find? fun w => decide (w.num = g.2)
      w.copies.find? fun c => decide (c.1 = (s.site i).id)
    match copy with
    | some (_, slow, page) => ⟨.shared, s.addrOf i, joinAddr slow.toNat page 0 + off, 0⟩
    | none => ⟨.shared, o.home, joinAddr o.ns o.base 0 + off, 0⟩
  | _ => ⟨.priv, o.home, joinAddr o.ns o.base 0 + off, 0⟩

/-- Where byte `off` of an object lies for site `i`; a remote object is its target, through the loft elsewhere than at
the target's home. -/
def State.spot (s : State) (v i : Nat) (o : Obj) (off : Nat) : Spot :=
  if o.cls = .remote then
    match (s.vd v).sp.objs.find? fun x => decide (x.index = o.target) with
    | some x =>
      let p := s.pages v i x off
      { p with loft := if p.dst = s.addrOf i then 0 else o.loft }
    | none => ⟨.priv, o.home, 0, 0⟩
  else s.pages v i o off

/-- The site of this part that holds instance `dst`, if it lies in this part. -/
def State.here? (s : State) (dst : Nat) : Option Nat :=
  if dst / 8 = s.partId then some (s.siteOf (dst % 8)) else none

/-! Engines of the commands (R135, R343) -/

/-- The engine an opcode runs on. -/
def kindOf (op : Nat) : Option EngineKind :=
  if op = 0x100 then some .array else if op = 0x101 then some .attention else if op = 0x102 then some .scalar
  else if op = 0x103 then some .select else if op = 0x104 then some .gatherScatter
  else if op = 0x105 then some .layout else if op = 0x106 then some .codec else if op = 0x110 then some .router
  else if op = 0x111 ∨ op = 0x112 then some .reduction else if op = 0x200 ∨ op = 0x201 then some .dma
  else if 0x300 ≤ op ∧ op ≤ 0x305 then some .fabric
  else if op ≤ 5 ∨ (0x10 ≤ op ∧ op ≤ 0x16) then some .frontEnd
  else none

/-- The engine's bit of ENGINE_MASK (R354); `n` is the number of a copy engine. -/
def engBit (k : EngineKind) (n : Nat) : Nat :=
  match k with
  | .attention => 0
  | .select => 1
  | .gatherScatter => 2
  | .layout => 3
  | .codec => 4
  | .router => 5
  | .reduction => 6
  | .fabric => 8
  | .dma => 16 + n
  | _ => 7

/-- The innermost reset domain of an engine (R510, R517). -/
def domOf (k : EngineKind) (p : Nat) : Nat :=
  match k with
  | .router | .reduction => domCluster (p / 3)
  | .fabric | .dma | .frontEnd => 20
  | _ => domCore p

/-- OPCODE of a command. -/
def Cmd.op (k : Cmd) : Nat := fieldAt k.desc 0 2
/-- Flag bit `n` of the header: EXT, IRQ, CPL_ERR_ONLY, ORDERED, BARRIER from bit 0 (R339). -/
def Cmd.flag (k : Cmd) (n : Nat) : Bool := (fieldAt k.desc 4 2).testBit n
/-- LABEL. -/
def Cmd.label (k : Cmd) : Nat := fieldAt k.desc 3 1
/-- TO_EXP. -/
def Cmd.toExp (k : Cmd) : Nat := fieldAt k.desc 6 1 % 32
/-- ASID. -/
def Cmd.asid (k : Cmd) : Nat := fieldAt k.desc 7 1 % 64
/-- USER_TAG. -/
def Cmd.userTag (k : Cmd) : Nat := fieldAt k.desc 8 8

/-- The unit a stream is bound to (R336). -/
def State.unitOf (s : State) (v n : Nat) : Option UnitBind :=
  (s.vd v).hold.units.find? fun u => decide (u.num = ((s.vd v).stream n).unit)

/-- The site that runs the front end of a virtual device homed in this part. -/
def State.homeSite (s : State) (v : Nat) : Nat := s.siteOf ((s.vd v).home % 8)

/-- What a running command is: itself, where it runs, and what its accesses carry. -/
structure Job where
  c : CmdRef
  k : Cmd
  i : Nat
  p : Nat
  q : Option Nat
  kind : EngineKind
  asid : Nat
  slot : Nat
  /-- The block as it was when the row began (R77, R139). -/
  was : State
  deriving Repr

/-- The frame of a placed command, if its unit lies in this part. -/
def State.job? (s : State) (c : CmdRef) : Option Job :=
  match s.cmd? c with
  | none => none
  | some k =>
    let kind := (kindOf k.op).getD .frontEnd
    if c.stream = 0 then some ⟨c, k, s.homeSite c.vd, 0, none, .frontEnd, k.asid, (s.vd c.vd).slot, s⟩
    else match s.unitOf c.vd c.stream with
      | none => none
      | some u =>
        if u.part ≠ s.partId then none
        else some ⟨c, k, s.siteOf u.inst, u.core, u.quad, kind, k.asid, (s.vd c.vd).slot, s⟩

/-- Slice of a running command. -/
def Job.v (j : Job) : Nat := j.c.vd

/-- Cluster of a running command. -/
def Job.cl (j : Job) : Nat := j.p / 3

/-- The cluster cache a running command's accesses go through (R202). -/
def Job.cache (j : Job) : Option Nat :=
  match j.kind with
  | .dma | .fabric | .frontEnd => none
  | _ => some j.cl

/-- What the requests of a command carry. -/
def Job.from (j : Job) : From :=
  ⟨some j.c, domOf j.kind j.p, j.k.label, j.k.lab.1, j.k.lab.2.2, j.k.flag 3⟩

/-- Whether the signal of a command is to be raised once it has ended with this status (R342). -/
def Cmd.sigAfter (k : Cmd) (st : W16) : Sig :=
  if k.badHeader || decide (st = stKilled) || decide (bitsAt k.ext 48 2 2 = 0) then .none
  else if bitsAt k.ext 48 3 3 = 1 ∧ st ≠ stOk ∧ st ≠ stPartial then .none
  else .waiting

/-! Why an access does not go on -/

/-- How an access stops the row that makes it. -/
inductive Stop where
  /-- The command ends with this status and DETAIL. -/
  | fail (st : W16) (detail : Nat)
  /-- Host bytes are needed. -/
  | askHost (bus len : Nat)
  /-- Fabric requests must be answered first. -/
  | askFab (reqs : List Req)
  /-- The engine holds at the access (R383). -/
  | hold (dva need : Nat)
  /-- Something of the block must happen first. -/
  | stall
  /-- The row waits with what it has done so far standing. -/
  | wait
  deriving Repr, Inhabited

/-- A run of accesses of one command. What it has done when it fails stands; when it must wait, it is taken back and
the row is presented again. -/
abbrev Run := ExceptT Stop (StateM State)

/-- Ends the command. -/
def fail {α : Type} (st : W16) (detail : Nat := 0) : Run α := throw (.fail st detail)

/-- Runs an access that has an outcome of its own. -/
def viaPort {α : Type} (f : State → Except W16 α × State) : Run α := do
  let (r, s) := f (← get)
  set s
  match r with
  | .ok a => pure a
  | .error st => fail st

/-- Runs an access that may have to wait. -/
def viaHold {α : Type} (f : State → Option (Except W16 α × State)) : Run α := do
  match f (← get) with
  | none => throw .stall
  | some (r, s) =>
    set s
    match r with
    | .ok a => pure a
    | .error st => fail st

/-! Bytes that arrived from outside -/

/-- The key of a fabric byte among the arrived runs. -/
def fabKey (dst addr : Nat) : Nat := 2 ^ 64 + dst * 2 ^ 47 + addr

/-- One arrived byte, the newest run first. -/
def gotByte (g : List (Nat × Bytes)) (a : Nat) : Option Byte :=
  g.findSome? fun r => if r.1 ≤ a ∧ a < r.1 + r.2.length then r.2[a - r.1]? else none

/-- Arrived bytes, if all are there. -/
def gotRun (g : List (Nat × Bytes)) (a n : Nat) : Option Bytes :=
  match g.find? fun r => decide (r.1 ≤ a) && decide (a + n ≤ r.1 + r.2.length) with
  | some r => if g.head? = some r then some ((r.2.drop (a - r.1)).take n) else (List.range n).mapM fun d => gotByte g (a + d)
  | none => (List.range n).mapM fun d => gotByte g (a + d)

/-- The command as the state holds it now. -/
def Job.now (j : Job) (s : State) : Cmd := (s.cmd? j.c).getD j.k

/-- The epoch of the slice's translations (R385). -/
def State.epochOf (s : State) (v : Nat) : Nat := (s.vd v).sp.epoch

/-! One access, within one 4 KiB page -/

/-- Service units of a path that an access takes are charged to its label's budget set (R409, R413). -/
def State.charge (s : State) (j : Job) (p : Spot) (n : Nat) : State :=
  let b := j.k.lab.2.1
  match p.cls, s.here? p.dst with
  | .host, _ => s.onSite (s.homeSite j.v) (·.useBudget j.v b 2 (ceilDiv n 64))
  | _, some i =>
    let (ns, page, _) := splitAddr p.addr
    let slow := (((s.site i).entry? ns page).map (·.slow)).getD false
    s.onSite i (·.useBudget j.v b slow.toNat (ceilDiv n 64))
  | _, none => s.onSite j.i (·.useBudget j.v b 3 (ceilDiv (n + 64) 64))

/-- Charges an access of a running command. -/
def Job.charge (j : Job) (p : Spot) (n : Nat) : Run Unit := modify fun s => s.charge j p n

/-- Reads host bytes (R594). -/
def Job.hostGet (j : Job) (bus n : Nat) : Run Bytes := do
  match gotRun (j.now (← get)).got bus n with
  | some b =>
    j.charge ⟨.host, 0, bus, 0⟩ n
    pure b
  | none => throw (.askHost bus n)

/-- Writes host bytes: a posted write. -/
def Job.hostPut (j : Job) (bus : Nat) (bs : Bytes) : Run Unit := do
  j.charge ⟨.host, 0, bus, 0⟩ bs.length
  let s ← get
  set ((s.emit (.hostWrite j.v bus bs)).onCmd j.c fun k =>
    { k with got := if k.got.isEmpty then [] else (bus, bs) :: k.got })

/-- A read request for bytes on another part. -/
def Job.readReq (j : Job) (s : State) (p : Spot) (n : Nat) : Req :=
  { kind := .read, dst := p.dst, addr := p.addr, len := n, slot := j.slot, priv := decide (p.cls = .priv)
    epoch := s.epochOf j.v }

/-- Reads a site's tier from another site of the part, or this one, past the caches. -/
def Job.siteGet (j : Job) (b : Nat) (p : Spot) (n : Nat) : Run Bytes := do
  let s ← get
  if 8 ≤ b ∨ !s.joined j.i b then fail stFabricTimeout
  else
    if (s.site b).portHeld p.addr then throw .stall
    j.charge p n
    viaPort fun s => s.tierRead b p.addr n j.slot (p.cls = .priv) true

/-- Reads through the cluster cache (R202). -/
def Job.cachedGet (j : Job) (c : Nat) (p : Spot) (n : Nat) : Run Bytes := do
  let s ← get
  let cl := (s.site j.i).cluster c
  let (key, off) := (p.addr / 65536 * 65536, p.addr % 65536)
  let lo := off / 256 * 256
  let lines := (List.range ((off + n - lo + 255) / 256)).map fun k => lo + 256 * k
  let held := lines.map fun o => cl.line? j.v key o
  if held.all (·.isSome) && decide (0 < cl.cacheUnits j.v) then
    set (s.onSite j.i (·.onCluster c fun k => lines.foldl (fun k o =>
      match k.line? j.v key o with
      | some l => k.fill j.v l.bset key o l.data
      | none => k) k))
    pure (((held.flatMap fun l => (l.map (·.data)).getD []).drop (off - lo)).take n)
  else
    let all ← j.siteGet j.i { p with addr := key + lo } (256 * lines.length)
    let b := j.k.lab.2.1
    let excess := (s.site j.i).fillsOver j.v b (12 + c) (4096 * cl.cacheUnits j.v)
    let fresh := (lines.filter fun o => (cl.line? j.v key o).isNone).length
    modify fun s => s.onSite j.i fun t => (t.onCluster c fun k =>
      lines.foldl (fun k o => k.fill j.v b key o ((all.drop (o - lo)).take 256) excess) k).useBudget j.v b (12 + c) fresh
    pure ((all.drop (off - lo)).take n)

/-- Reads bytes of another instance, not through the loft. -/
def Job.farGet (j : Job) (p : Spot) (n : Nat) : Run Bytes := do
  let s ← get
  match s.here? p.dst with
  | some b => j.siteGet b p n
  | none =>
    match gotRun (j.now s).got (fabKey p.dst p.addr) n with
    | some b =>
      j.charge p n
      pure b
    | none => throw (.askFab [j.readReq s p n])

/-! The loft (R298–R300) -/

/-- Whether a frame holds this page of a slice. -/
def Frame.is (f : Frame) (v dst page : Nat) : Bool :=
  decide (f.slice = v) && decide (f.part * 8 + f.inst = dst) && decide (f.page = page)

/-- The slice's frame of a remote page. -/
def Site.frame? (t : Site) (v dst page : Nat) : Option Frame := t.net.frames.find? (·.is v dst page)

/-- Changes a frame. -/
def State.onFrame (s : State) (i v dst page : Nat) (f : Frame → Frame) : State :=
  s.onNet i fun n => { n with frames := n.frames.map fun x => if x.is v dst page then f x else x }

/-- Frees frames and their pages. -/
def State.dropFrames (s : State) (i : Nat) (which : Frame → Bool) : State :=
  let gone := (s.site i).net.frames.filter which
  s.onSite i fun t =>
    let t := gone.foldl (fun t f => t.freePage false f.ppn) t
    { t with net := { t.net with frames := t.net.frames.filter fun f => !which f } }

/-- A frame for a remote page: the one that holds it, a new one within the slice's budget, or the least recently used
clean one; a budget set over its fraction replaces only its own (R298, R299, R415). -/
def State.frameFor (s : State) (i v dst page slot bset : Nat) : Option State :=
  let t := s.site i
  if (t.frame? v dst page).isSome then some s
  else
    let mine := t.net.frames.filter fun f => decide (f.slice = v)
    let budget := (((s.vd v).hold.loft.find? fun l => decide (l.1 = t.id)).map (·.2)).getD 0
    let add (s : State) (ppn : Nat) : State :=
      (s.onSite i (·.takePage false ppn)).onNet i fun n =>
        { n with frames := n.frames ++ [⟨v, dst / 8, dst % 8, page, ppn, slot, 0, 0, n.loftTick, bset⟩] }
    let excess := t.fillsOver v bset 14 budget
    let replace : Option State :=
      let clean := mine.filter fun f => decide (f.dirty = 0) && (!excess || decide (f.bset = bset))
      match clean with
      | [] => none
      | a :: r =>
        let old := r.foldl (fun m f => if f.used < m.used then f else m) a
        some (add (s.dropFrames i (· == old)) old.ppn)
    if budget = 0 then none
    else if mine.length < budget ∧ t.net.frames.length < 16384 ∧ !excess then
      match t.drawPage false with
      | some ppn => some (add s ppn)
      | none => replace
    else replace

/-- A sub-page of a remote page arrives in its frame. -/
def State.fillFrame (s : State) (i v dst addr : Nat) (data : Bytes) : State :=
  let (page, off) := (addr / 65536, addr % 65536)
  match (s.site i).frame? v dst page with
  | none => s
  | some f =>
    if f.valid.getLsbD (off / 4096) then s
    else
      (s.onSite i (·.writeSub false f.ppn (off / 4096 * 4096) data f.slot true)).onFrame i v dst page fun f =>
        { f with valid := f.valid ||| BitVec.ofNat 16 (2 ^ (off / 4096)) }

/-- Whether an epoch of the slice is open over a DVA on site `i`. -/
def Site.inEpoch (t : Site) (v asid dva : Nat) : Bool :=
  t.net.epochs.any fun e => decide (e.slice = v) && decide (e.asid = asid) && decide (e.base ≤ dva) &&
    decide (dva < e.base + e.len)

/-- The remote runs behind a DVA range of a slice: loft mode, home and tenant address, bytes (R299, R300). -/
def State.loftRuns (s : State) (v i asid base len : Nat) : List (Nat × Nat × Nat × Nat) :=
  (s.vd v).sp.maps.filterMap fun m =>
    let lo := max base m.dva
    let hi := min (base + len) (m.dva + m.len)
    if m.asid = asid ∧ lo < hi then
      match (s.vd v).sp.obj? m.obj with
      | some o =>
        let p := s.spot v i o (m.off + (lo - m.dva))
        if p.loft = 0 then none else some (p.loft, p.dst, p.addr, hi - lo)
      | none => none
    else none

/-- The granules of a frame that lie in a remote run. -/
def Frame.within (f : Frame) (dst addr n : Nat) : BitVec 256 :=
  if f.part * 8 + f.inst ≠ dst then 0
  else
    let lo := max addr (f.page * 65536)
    let hi := min (addr + n) (f.page * 65536 + 65536)
    if lo < hi then BitVec.ofNat 256 ((2 ^ ceilDiv (hi - lo) 256 - 1) <<< (lo % 65536 / 256)) else 0

/-- Granules set in a map. -/
def bitsSet (m : BitVec 256) : List Nat := (List.range 256).filter m.getLsbD

/-- Dirty granules of a slice's range are discarded and counted (R300, R301). -/
def State.discardDirty (s : State) (v i asid base len : Nat) : State :=
  let runs := s.loftRuns v i asid base len
  let hit := fun f : Frame =>
    if f.slice = v then runs.foldl (fun m (_, dst, addr, n) => m ||| f.within dst addr n) (0 : BitVec 256) else 0
  let lost := ((s.site i).net.frames.map fun f => (bitsSet (f.dirty &&& hit f)).length).foldl (· + ·) 0
  (s.onNet i fun t => { t with frames := t.frames.map fun f => { f with dirty := f.dirty &&& ~~~(hit f) } }).bump i rFabLoft
    Fld.fabLoftWbFail lost

/-- Makes the sub-page of a remote address valid in a frame: false where no frame can be had (R299). -/
def Job.loftFill (j : Job) (p : Spot) : Run Bool := do
  let s ← get
  let (page, sub) := (p.addr / 65536, p.addr % 65536 / 4096)
  match s.frameFor j.i j.v p.dst page j.slot j.k.lab.2.1 with
  | none => pure false
  | some s =>
    let new := ((← get).site j.i).net.frames.length < (s.site j.i).net.frames.length
    set ((s.onNet j.i fun n => { n with loftTick := n.loftTick + 1 }).onSite j.i
      (·.useBudget j.v j.k.lab.2.1 14 (if new then 1 else 0)))
    modify fun s => s.onFrame j.i j.v p.dst page fun f => { f with used := (s.site j.i).net.loftTick }
    let f := ((s.site j.i).frame? j.v p.dst page).getD default
    if f.valid.getLsbD sub then pure true
    else
      let base := p.addr / 4096 * 4096
      match s.here? p.dst with
      | some b =>
        let data ← j.siteGet b { p with addr := base } 4096
        modify fun s => s.fillFrame j.i j.v p.dst base data
        pure true
      | none => throw (.askFab [{ j.readReq s { p with addr := base } 4096 with kind := .fill }])

/-- Reads a remote object in a loft mode. -/
def Job.loftGet (j : Job) (dva : Nat) (p : Spot) (n : Nat) : Run Bytes := do
  let s ← get
  if p.loft = 2 ∧ !(s.site j.i).inEpoch j.v j.asid dva then j.farGet p n
  else if ← j.loftFill p then
    let t := (← get).site j.i
    let f := (t.frame? j.v p.dst (p.addr / 65536)).getD default
    pure (t.fast.data.read (f.ppn * 65536 + p.addr % 65536) n)
  else j.farGet p n

/-- The granules of a page that a range touches, as a map. -/
def granuleMap (off n : Nat) : BitVec 256 := BitVec.ofNat 256 ((2 ^ granules off n - 1) <<< (off / 256))

/-! Pieces of a DVA access -/

/-- The object and offset an access names, or how it stops. -/
def Job.find (j : Job) (dva need : Nat) : Run Spot := do
  let s ← get
  match (s.vd j.v).sp.translate j.asid dva need j.c.id with
  | .dead => fail stTranslationFault 0xFFFFFFFF
  | .gone => fail stObjectGone
  | .fault _ => throw (.hold dva need)
  | .found o off =>
    let p := s.spot j.v j.i o off
    if p.cls = .priv ∧ !(s.site j.i).slotActive j.slot then fail stKeyRevoked else pure p

/-- Reads one piece. -/
def Job.getPiece (j : Job) (dva n : Nat) : Run Bytes := do
  let p ← j.find dva 1
  let s ← get
  match p.cls with
  | .host => j.hostGet p.addr n
  | _ =>
    if p.dst = s.addrOf j.i then
      match j.cache with
      | some c => if 0 < ((s.site j.i).cluster c).cacheUnits j.v then j.cachedGet c p n else j.siteGet j.i p n
      | none => j.siteGet j.i p n
    else if p.loft = 0 then j.farGet p n
    else j.loftGet dva p n

/-- Queues a fabric request of the command. -/
def Job.send (j : Job) (r : Req) : Run Unit := do
  let s ← get
  set (s.onCmd j.c fun k => { k with unsent := k.unsent ++ [r] })

/-- Writes bytes of another instance, not through the loft. -/
def Job.farPut (j : Job) (p : Spot) (bs : Bytes) (branch : Nat) (group : Option Nat) : Run Unit := do
  j.charge p bs.length
  let s ← get
  match s.here? p.dst with
  | some b =>
    if 8 ≤ b ∨ !s.joined j.i b then fail stFabricTimeout
    else viaHold fun s => s.tierWrite b p.addr bs j.slot (p.cls = .priv) true none
  | none =>
    j.send { kind := .write, dst := p.dst, addr := p.addr, len := bs.length, slot := j.slot
             priv := decide (p.cls = .priv), payload := bs, branch := branch, group := group, epoch := s.epochOf j.v }
    modify fun s => s.onCmd j.c fun k =>
      { k with got := if k.got.isEmpty then [] else (fabKey p.dst p.addr, bs) :: k.got }

/-- Writes one piece. -/
def Job.putPiece (j : Job) (dva : Nat) (bs : Bytes) (branch : Nat := 0) (group : Option Nat := none) : Run Unit := do
  let p ← j.find dva 2
  let s ← get
  match p.cls with
  | .host => j.hostPut p.addr bs
  | .shared => fail stRightsFault
  | _ =>
    if p.dst = s.addrOf j.i then
      j.charge p bs.length
      viaHold fun s => s.tierWrite j.i p.addr bs j.slot true true j.cache
    else if p.loft = 1 then fail stRightsFault
    else if p.loft = 2 ∧ (s.site j.i).inEpoch j.v j.asid dva then
      if ← j.loftFill p then
        modify fun s =>
          let f := ((s.site j.i).frame? j.v p.dst (p.addr / 65536)).getD default
          (s.onSite j.i (·.writeSub false f.ppn (p.addr % 65536) bs f.slot true)).onFrame j.i j.v p.dst
            (p.addr / 65536) fun f => { f with dirty := f.dirty ||| granuleMap (p.addr % 65536) bs.length }
      else j.farPut p bs branch group
    else j.farPut p bs branch group

/-- Each byte of an overlap holds its value from before the command's writes or one the command wrote: which one is a
free value (R77, R139). -/
def mixBytes : Bytes → Bytes → Run Bytes
  | x :: xs, y :: ys => do
    let rest ← mixBytes xs ys
    if x = y then pure (x :: rest)
    else
      let (f, s) := (← get).draw
      set s
      pure ((if f.getLsbD 0 then x else y) :: rest)
  | xs, _ => pure xs

/-- A read of a command that may overlap what it has written (R77, R139). -/
def Job.mixed (j : Job) (raw : Run Bytes) : Run Bytes := do
  let now ← raw
  match (raw.run j.was).1 with
  | .ok before => if before = now then pure now else mixBytes now before
  | .error _ => pure now

/-- Reads a DVA range, piece by piece. -/
def Job.rawDva (j : Job) (dva n : Nat) : Run Bytes := do
  let parts ← (linePieces 4096 dva n).mapM fun (_, lo, k) => j.getPiece lo k
  pure parts.flatten

/-- Reads a DVA range. -/
def Job.getDva (j : Job) (dva n : Nat) : Run Bytes := j.mixed (j.rawDva dva n)

/-- Writes a DVA range, piece by piece. -/
def Job.putDva (j : Job) (dva : Nat) (bs : Bytes) (branch : Nat := 0) (group : Option Nat := none) : Run Unit :=
  (linePieces 4096 dva bs.length).forM fun (o, lo, k) => j.putPiece lo ((bs.drop o).take k) branch group

/-! Core and cluster memory -/

/-- The slice's data lies in the binding's banks: a Reel slice that is not resident has them in its save area. -/
def Job.inBanks (j : Job) (s : State) : Bool :=
  let u := (s.core j.i j.p).unit j.q
  !u.reel || (decide (u.resident = some j.v) && u.switching.isNone)

/-- Reads core memory of the binding as it stands (R189). -/
def Job.rawCm (j : Job) (a n : Nat) : Run Bytes := do
  let s ← get
  if !j.inBanks s then throw .stall
  else if (s.core j.i j.p).poisonedAt j.q a n then fail stUncorrectable
  else pure ((s.core j.i j.p).readCm j.q a n)

/-- Reads core memory of the binding. -/
def Job.getCm (j : Job) (a n : Nat) : Run Bytes := j.mixed (j.rawCm a n)

/-- Writes core memory of the binding. -/
def Job.putCm (j : Job) (a : Nat) (bs : Bytes) : Run Unit := do
  let s ← get
  if !j.inBanks s then throw .stall else set (s.onCore j.i j.p (·.writeCm j.q a bs))

/-- Reads the slice's scratch allotment as it stands (R201). -/
def Job.rawClm (j : Job) (a n : Nat) : Run Bytes := do
  let c := ((← get).site j.i).cluster j.cl
  if c.poisonedAt j.v a n then fail stUncorrectable else pure (c.read j.v a n)

/-- Reads the slice's scratch allotment. -/
def Job.getClm (j : Job) (a n : Nat) : Run Bytes := j.mixed (j.rawClm a n)

/-- Writes the slice's scratch allotment. -/
def Job.putClm (j : Job) (a : Nat) (bs : Bytes) : Run Unit :=
  modify fun s => s.onSite j.i (·.onCluster j.cl (·.write j.v a bs))

/-- Space of an engine address (R136). -/
def eaSpace (ea : Nat) : Nat := ea / 2 ^ 62 % 4

/-- Reads at an engine address. -/
def Job.load (j : Job) (ea n : Nat) : Run Bytes :=
  if n = 0 then pure []
  else if eaSpace ea = 0 then j.getDva (ea % 2 ^ 57) n
  else if eaSpace ea = 1 then j.getCm (ea % 2 ^ 32) n
  else j.getClm (ea % 2 ^ 32) n

/-- Writes at an engine address. -/
def Job.store (j : Job) (ea : Nat) (bs : Bytes) : Run Unit :=
  if bs.isEmpty then pure ()
  else if eaSpace ea = 0 then j.putDva (ea % 2 ^ 57) bs
  else if eaSpace ea = 1 then j.putCm (ea % 2 ^ 32) bs
  else j.putClm (ea % 2 ^ 32) bs

/-! Body checks (R136, R137, R596) -/

/-- A check of a descriptor body: whether it fails, and the byte offset of the field that fails. -/
abbrev Check := Bool × Nat

/-- The lowest failing field of a list of checks. -/
def firstBad (l : List Check) : Option Nat :=
  (l.filter (·.1)).foldl (fun m c => match m with | none => some c.2 | some x => some (min x c.2)) none

/-- Whether reserved bytes of a body are set, in runs `(first, count)`: the lowest such byte of a run fails. -/
def reservedSet (b : Bytes) (l : List (Nat × Nat)) : List Check :=
  l.map fun (o, n) => match (List.range n).find? fun k => decide (fieldAt b (o + k) 1 ≠ 0) with
    | some k => (true, o + k)
    | none => (false, o)

/-- Bytes of the space an engine address names; a DVA range is not limited here (R137). -/
def Job.limit (j : Job) (s : State) (ea : Nat) : Nat :=
  if eaSpace ea = 1 then bindingSize j.q
  else if eaSpace ea = 2 then ((s.site j.i).cluster j.cl).scratchSize j.v
  else 2 ^ 57

/-- Whether an EA field is ill-formed: a reserved space or bit, or misaligned (R136). -/
def badEa (ea : Nat) (align : Nat := 64) : Bool :=
  decide (eaSpace ea = 3) || decide (ea % align ≠ 0) ||
  (if eaSpace ea = 0 then decide (ea / 2 ^ 57 % 32 ≠ 0) else decide (ea / 2 ^ 32 % 2 ^ 30 ≠ 0))

/-- Whether `n` bytes at an engine address reach past a core-memory or cluster-memory space. -/
def Job.past (j : Job) (s : State) (ea n : Nat) : Bool :=
  (decide (eaSpace ea = 1) || decide (eaSpace ea = 2)) && decide (j.limit s ea < ea % 2 ^ 32 + n)

/-- Whether an address field itself lies past its space. -/
def Job.badStart (j : Job) (s : State) (ea : Nat) : Bool := j.past s ea 0

/-- The flags of the engine-status field that a command has raised so far. -/
def Job.flags (j : Job) (w : W16) : Run Unit := modify fun s => s.onCmd j.c fun k => { k with eng := k.eng ||| w }

/-- Whether a value sets bits outside a field's lowest `n`. -/
def excess (x n : Nat) : Bool := decide (2 ^ n ≤ x)

/-- DETAIL of a failing field in a parameter block named by the body field at `field` (R345). -/
def blockDetail (field off : Nat) : Nat := field + 512 + 65536 * off

/-- Reads at an engine address that a list in memory gave: a bad one fails where it is met (R145, R596). -/
def Job.loadAt (j : Job) (ea n field : Nat) (align : Nat := 64) : Run Bytes := do
  if badEa ea align || j.past (← get) ea n then fail stBadDescriptor field else j.load ea n

/-- Writes at such an address. -/
def Job.storeAt (j : Job) (ea : Nat) (bs : Bytes) (field : Nat) (align : Nat := 64) : Run Unit := do
  if badEa ea align || j.past (← get) ea bs.length then fail stBadDescriptor field else j.store ea bs

/-- A body check that fails at a field. -/
def badField (n : Nat) : Option (W16 × Nat) := some (stBadDescriptor, n)

/-! Running a command -/

/-- A command's engine work is over: its result, and the time of its final result write (R19, R345). -/
def State.finish (s : State) (i : Nat) (c : CmdRef) (st eng : W16) (detail : Nat) : State :=
  s.onCmd c fun k => { k with
    ran := true, finalWr := k.chainRows.isEmpty, status := st, eng := eng, detail := BitVec.ofNat 32 detail
    unsent := [], asks := [], retry := []
    hold := none, endTime := (s.site i).time }

/-- Sends a command's waiting requests as far as R281 and R282 let it; `n` bounds their number. A slot that is not
ACTIVE sends nothing, and the command ends KEY_REVOKED (R312). -/
def pumpN : Nat → Nat → CmdRef → From → State → State
  | 0, _, _, _, s => s
  | n + 1, i, c, f, s =>
    match s.cmd? c with
    | none => s
    | some k =>
      match k.unsent with
      | [] => s
      | r :: rest =>
        if !(s.site i).slotActive r.slot then s.finish i c stKeyRevoked 0 0
        else if !(s.site i).maySend r.slot r.dst then s
        else pumpN n i c f ((s.onCmd c fun k => { k with unsent := rest }).request i f r)

/-- Sends what a command still has to send. -/
def State.pump (s : State) (c : CmdRef) : State :=
  match s.job? c with
  | none => s
  | some j => pumpN j.k.unsent.length j.i c j.from s

/-- Open transactions of a command on a site. -/
def Site.openTxns (t : Site) (c : CmdRef) : Nat :=
  (t.net.txns.filter fun x => decide (x.cmd = some c)).length

/-- The last outstanding response of a command has come: its result stands (R296, R300, R304). -/
def State.settle (s : State) (i : Nat) (c : CmdRef) : State :=
  match s.cmd? c with
  | none => s
  | some k =>
    if k.sentAll && !k.ran && k.unsent.isEmpty && k.retry.isEmpty && decide ((s.site i).openTxns c = 0) then
      s.finish i c k.status k.eng k.detail.toNat
    else s

/-- A run of accesses that must wait is taken back; what it asked for is sent or noted. -/
def Job.suspend (j : Job) (s : State) (x : Stop) : State :=
  match x with
  | .askHost bus n =>
    let parts := (linePieces 4096 bus n).map fun (_, lo, k) => (lo, k)
    (parts.foldl (fun s (lo, k) => s.emit (.hostRead j.v lo k)) s).onCmd j.c fun k =>
      { k with asks := k.asks ++ parts.map fun (lo, n) => ⟨lo, n, s.epochOf j.v⟩ }
  | .askFab reqs =>
    (s.onCmd j.c fun k => { k with
      unsent := k.unsent ++ reqs
      asks := k.asks ++ reqs.map fun r => ⟨fabKey r.dst r.addr, r.len, r.epoch⟩ }).pump j.c
  | .hold dva need => s.onCmd j.c fun k => { k with hold := some (dva, need) }
  | _ => s

/-- The result of a run stands once the requests it made are answered. -/
def Job.conclude (j : Job) (t : State) (st eng : W16) (detail : Nat) : State :=
  if (j.now t).unsent.isEmpty then t.finish j.i j.c st eng detail
  else
    ((t.onCmd j.c fun k => { k with sentAll := true, status := st, eng := eng, detail := BitVec.ofNat 32 detail }).pump
      j.c).settle j.i j.c

/-- What the runner of an engine row makes of how its run ended. -/
def Job.close (j : Job) (s : State) (r : Except Stop (W16 × W16 × Nat)) (t : State) : State :=
  match r with
  | .ok (st, eng, detail) => j.conclude t st eng detail
  | .error (.fail st detail) => j.conclude t st (j.now t).eng detail
  | .error .wait => t.pump j.c
  | .error x => j.suspend s x

/-- The engine of a running command works: its domain and instance are up, its slice runs (R398, R401). -/
def Job.runs (j : Job) (s : State) : Bool :=
  let t := s.site j.i
  decide (j.i < 8) && t.up && t.domUp (domOf j.kind j.p) &&
  match j.kind with
  | .dma => t.dma.contains (some j.c)
  | .fabric | .frontEnd => true
  | .router | .reduction => true
  | _ => t.coreRuns j.p && (t.core j.p).unitRuns j.q && j.inBanks s && !j.k.saved

/-- A command that an engine may carry on with. -/
def Cmd.live (k : Cmd) (op : Nat) : Bool :=
  decide (k.op = op) && decide (k.phase = .issued) && !k.ran && !k.sentAll && k.asks.isEmpty && k.hold.isNone &&
  k.fault.isNone && k.chainRows.isEmpty

/-- A row in which an engine carries out a command. Where the command is not issued to a working engine, or waits, the
row leaves the block as it is. -/
def runRow (c : CmdRef) (op : Nat) (s : State) (body : Job → Run (W16 × W16 × Nat)) :
    Host.Outcome State Fault Refusal :=
  .next (match s.job? c with
    | none => s
    | some j =>
      if !j.k.live op || !j.runs s then s
      else
        let (r, t) := (body j).run s
        j.close s r t)

end Sys2Proof.Machine
end

