-- ==== Sys2Proof/Machine/Front.lean ====
section
/-! DEFINITION. The front end's shared operations: control packets to other parts (R308, R380), accesses to the rings
(R328), events (R352, R353), vectors (R355), engines freed and contexts killed (R353, R514), references (R376, R377),
fault entries (R383, R384) and invalidations (R385). -/

namespace Sys2Proof.Machine

/-! Control packets. The layout of their payload is the model's own (log entry 21). -/

/-- What a CONTROL packet carries. -/
inductive Ctl where
  /-- A work item: home tag, descriptor, extension. -/
  | work | abort | event | fault | replica | resolve | kill
  deriving DecidableEq, Repr, Inhabited

/-- The kind byte. -/
def Ctl.code : Ctl → Nat
  | .work => 1
  | .abort => 2
  | .event => 3
  | .fault => 4
  | .replica => 5
  | .resolve => 6
  | .kill => 7

/-- Sends a CONTROL packet of virtual device `v` from site `i`; `cmd` names the command that waits for its answer. -/
def State.control (s : State) (i v dst : Nat) (cmd : Option CmdRef) (k : Ctl) (body : Bytes) : State :=
  let p := leBytes 1 k.code ++ leBytes 2 v ++ body
  if (s.site i).slotActive (s.vd v).slot then
    s.request i ⟨cmd, 20, 0, 2, 0, true⟩
      { kind := .control, dst := dst, addr := 0, len := p.length, slot := (s.vd v).slot, priv := true, payload := p
        branch := k.code }
  else s

/-- The virtual device's home lies in this part. -/
def State.homed (s : State) (v : Nat) : Bool := decide ((s.vd v).home / 8 = s.partId)

/-- A part by the slice's own numbering (R338). -/
def Vd.partIdx (d : Vd) (part : Nat) : Nat := (d.hold.parts.findIdx? (· == part)).getD 0

/-- The other parts that hold a replica of the slice's tables (R380). -/
def State.otherParts (s : State) (v : Nat) : List Nat := (s.vd v).hold.parts.filter (· ≠ s.partId)

/-- The instances of another part that hold units of a slice, as destinations: the first one answers for its part. -/
def State.partDst (s : State) (v part : Nat) : Nat :=
  part * 8 + (((s.vd v).hold.units.find? fun u => decide (u.part = part)).map (·.inst)).getD 0

/-! Rings in guest memory (R328) -/

/-- The host bus address of a ring entry, or the status its access ends with. -/
def State.ringAddr (s : State) (v asid dva need : Nat) : Except W16 Nat :=
  match (s.vd v).sp.translate asid dva need 0 with
  | .dead | .gone => .error stTranslationFault
  | .fault r => .error (if r then stRightsFault else stTranslationFault)
  | .found o off => if o.cls = .host then .ok (o.bus + off) else .error stTranslationFault

/-- Entries of an outgoing ring written and not released. -/
def OutRing.unread (r : OutRing) : Nat := (r.pos + 2 ^ r.log2 - r.head) % 2 ^ r.log2

/-- The next write position and phase (R330). -/
def OutRing.advance (r : OutRing) : OutRing :=
  if r.pos + 1 = 2 ^ r.log2 then { r with pos := 0, phase := !r.phase } else { r with pos := r.pos + 1 }

/-- The native rings are in use (R329). -/
def Vd.ringsOn (d : Vd) : Bool := (d.ring 0).on

/-! Vectors (R355) -/

/-- Sends a vector's message: a masked vector sets its pending bit. -/
def State.sendVector (s : State) (v n : Nat) : State :=
  let x := (s.vd v).fe.vectors.getD n {}
  let s := s.onFe v fun e => { e with vectors := e.vectors.modify n fun x => { x with acc := 0, pend := x.pend || x.masked } }
  if x.masked then s else s.emit (.msix v n)

/-- One accumulation of a vector, which sends at COUNT_M1 + 1. -/
def State.accumulate (s : State) (v n : Nat) : State :=
  let now := (s.site (s.homeSite v)).time
  let s := s.onFe v fun e => { e with vectors := e.vectors.modify n fun x =>
    { x with acc := x.acc + 1, since := if x.acc = 0 then now else x.since } }
  let x := (s.vd v).fe.vectors.getD n {}
  if x.countM1 + 1 ≤ x.acc then s.sendVector v n else s

/-! Events (R352, R353) -/

/-- The 32 bytes of an event record. -/
def Event.record (e : Event) (phase : Bool) : Bytes :=
  leBytes 1 e.type ++ leBytes 1 e.stream ++ leBytes 1 (128 * phase.toNat + e.inst) ++ leBytes 1 e.part ++
  leBytes 4 e.count ++ leBytes 8 e.arg ++ leBytes 8 e.first ++ leBytes 8 e.last

/-- Writes pending events, oldest first, as far as the ring takes them; `n` bounds their number. -/
def flushEventsN : Nat → Nat → State → State
  | 0, _, s => s
  | n + 1, v, s =>
    let d := s.vd v
    match d.fe.events with
    | [] => s
    | e :: rest =>
      if !d.ringsOn || (d.fe.frozen && !d.fe.events.any fun e => decide (e.type = 8)) || decide (d.fe.eq.unread + 1 = 2 ^ d.fe.eq.log2) then s
      else match s.ringAddr v 0 (d.fe.eq.base + 32 * d.fe.eq.pos) 2 with
        | .error _ => s.onFe v fun f => { f with eqLost := true }
        | .ok bus =>
          let s := (s.emit (.hostWrite v bus (e.record d.fe.eq.phase))).onFe v fun f =>
            { f with events := rest, eq := f.eq.advance }
          flushEventsN n v (s.accumulate v d.fe.eq.vec)

/-- Writes pending events. -/
def State.flushEvents (s : State) (v : Nat) : State := flushEventsN (s.vd v).fe.events.length v s

/-- Types whose ARG is a count of its own occurrence (R352). -/
def countsArg (type : Nat) : Bool := decide (type = 3) || decide (type = 5) || decide (type = 11)

/-- Posts an event at the home front end: it joins a pending one of its type and stream, or is queued, and is written as
soon as the ring takes it. -/
def State.postHere (s : State) (v : Nat) (x : Event) : State :=
  let hit := fun e : Event => decide (e.type = x.type) && decide (e.stream = x.stream)
  let join := fun e : Event =>
    if hit e then { e with
      count := satAdd (2 ^ 32 - 1) e.count 1, last := x.last
      arg := if countsArg x.type then satAdd (2 ^ 64 - 1) e.arg x.arg else x.arg }
    else e
  let s := s.onFe v fun f =>
    { f with events := if f.events.any hit then f.events.map join else f.events ++ [x] }
  s.flushEvents v

/-- Posts an event raised on site `i`; one of a slice homed elsewhere goes to its home in a CONTROL packet (R308). -/
def State.event (s : State) (v i type stream arg : Nat) : State :=
  let t := s.site i
  let x : Event := ⟨type, stream, t.id, (s.vd v).partIdx s.partId, 1, arg, t.time, t.time⟩
  if s.homed v then s.postHere v x
  else s.control i v (s.vd v).home none .event (x.record false)

/-- The manager's copy of a virtual-device exception (R334, R350, R492). -/
def State.vdException (s : State) (v stream : Nat) (st : W16) : State :=
  (s.report (s.homeSite v) 0x06 1 (leBytes 1 v ++ leBytes 1 stream ++ leBytes 2 st.toNat)).raiseSrc (s.homeSite v)
    (0x100 + v)

/-! Freed engines -/

/-- A scalar engine made free. -/
def Se.idle (e : Se) : Se := { e with mode := .idle, wait := .none, cmd := none, veMask := 0, resv := none }

/-- A command leaves a saved image: its engines' state is discarded, core memory stays (R405). -/
def Image.free (m : Image) (r : CmdRef) : Image :=
  let mine := fun t : Ticket => decide (t.cmd = some r)
  let ves := (m.tickets.filter mine).flatMap (·.running)
  { m with
    ves := m.ves.zipIdx.map fun (v, e) => if e ∈ ves then { v with busy := false, waiting := false } else v
    ses := m.ses.map fun e => if e.cmd = some r then e.idle else e
    halves := m.halves.map fun h => if h.cmd = some r then { h with cmd := none } else h
    tickets := m.tickets.filter fun t => !mine t
    moves := m.moves.filter fun x => decide (x.cmd ≠ some r) }

/-- Frees every engine a command holds (R398): the array and its port half, zoo slots, cluster and copy engines, scalar
engines with their programs and moves. -/
def Core.free (k : Core) (r : CmdRef) : Core :=
  let mine := fun t : Ticket => decide (t.cmd = some r)
  let ves := (k.tickets.filter mine).flatMap (·.running)
  let k := ves.foldl (fun k e => k.endVe e .stopped) k
  let k := (List.range 4).foldl (fun k h => if (k.halves.getD h {}).cmd = some r then k.chainEnd h else k) k
  { k with
    array := k.array.map fun a => if a = some r then none else a
    attOwn := (List.range 4).foldl (fun m q =>
      if k.array.getD q none = some r then m &&& ~~~(BitVec.ofNat 4 (2 ^ q)) else m) k.attOwn
    zoo := k.zoo.filter fun z => decide (z.2.2 ≠ r)
    ses := k.ses.map fun e => if e.cmd = some r then e.idle else e
    tickets := k.tickets.filter fun t => !mine t
    moves := k.moves.filter fun m => decide (m.cmd ≠ some r)
    units := k.units.map fun u => { u with images := u.images.map (·.free r) } }

/-- Frees every engine of the part that a command holds. -/
def State.freeEngines (s : State) (r : CmdRef) : State :=
  match s.job? r with
  | none => s
  | some j => s.onSite j.i fun t => { t with
      cores := t.cores.modify j.p (·.free r)
      clusters := t.clusters.map fun c => { c with
        router := c.router.filter (· ≠ r), reducer := c.reducer.filter (· ≠ r)
        windows := c.windows.filter fun w => decide (w.cmd ≠ r) }
      dma := t.dma.map fun d => if d = some r then none else d
      net := { t.net with mcRuns := t.net.mcRuns.filter (· ≠ r) } }

/-! Fault entries (R383, R384) -/

/-- A command leaves its fault entry; an entry with no command left closes (R383). -/
def State.leaveFault (s : State) (c : CmdRef) : State :=
  let s := s.onSp c.vd fun p => { p with
    faults := (p.faults.map fun f => { f with cmds := f.cmds.filter fun x => decide (x ≠ (c.stream, c.id)) }).filter
      fun f => decide (f.cmds ≠ []) }
  s.onCmd c fun k => { k with hold := none, fault := none }

/-- Changes the accounting of a client and of one of its streams (R418). -/
def State.account (s : State) (i v n : Nat) (f : Acct → Acct) : State :=
  let put (s : State) (st : Nat) : State :=
    s.onWatch i fun w =>
      let hit := fun a : Acct => decide (a.vd = v) && decide (a.stream = st)
      let a := (w.acct.find? hit).getD ⟨v, st, 0, 0, 0, 0, 0, List.replicate 16 0⟩
      { w with acct := f a :: w.acct.filter fun a => !hit a }
  put (put s n) 256

/-- The run time of a command that ends otherwise than at its final result write (R418). -/
def State.accountEnd (s : State) (c : CmdRef) (k : Cmd) (now : Nat) : State :=
  match s.job? c with
  | some j =>
    if k.phase = .issued then s.account j.i c.vd c.stream fun a => { a with run := a.run + (now - k.issueTime) } else s
  | none => s

/-- A LOFT_RELEASE that ends early discards the dirty granules it has not sent (R300). -/
def State.abandonRelease (s : State) (c : CmdRef) (k : Cmd) : State :=
  match s.job? c with
  | none => s
  | some j =>
    if k.op ≠ 0x302 ∨ k.phase ≠ .issued ∨ k.ran then s
    else if k.progress = 0 then s.discardDirty c.vd j.i k.asid (fieldAt k.desc 16 8) (fieldAt k.desc 24 8)
    else s.bump j.i rFabLoft Fld.fabLoftWbFail ((k.unsent.map fun r => r.len / 256).foldl (· + ·) 0)

/-- Ends a placed command before its record: its engines are free and it has left its fault entry. -/
def State.endWith (s : State) (c : CmdRef) (st : W16) (now : Nat) : State :=
  let s := match s.cmd? c with | some k => (s.abandonRelease c k).accountEnd c k now | none => s
  let s := (s.leaveFault c).freeEngines c
  s.onCmd c fun k => { k with
    phase := .ended, ran := true, status := st, eng := 0, detail := 0, unsent := [], asks := [], retry := [], chainRows := []
    saved := false, endTime := now, sig := k.sigAfter st }

/-- An access that a command held at, or a host access of it, has failed (R138, R341, R342, R384, R594): a waiting
command ends and does not run, a running one ends, and a signal is dropped. -/
def State.failAccess (s : State) (c : CmdRef) (st : W16) (detail : Nat) : State :=
  match s.cmd? c with
  | none => s
  | some k =>
    let now := ((s.job? c).map fun j => (s.site j.i).time).getD 0
    let s := s.onCmd c fun k => { k with hold := none, fault := none, asks := [] }
    match k.phase with
    | .issued =>
      match s.job? c with
      | some j => if k.ran then s else s.finish j.i c st 0 detail
      | none => s
    | .ended =>
      if k.sig = .waiting ∨ k.sig = .sent then
        s.onCmd c fun k => { k with
          sig := .dropped
          status := if k.status = stOk ∨ k.status = stPartial then st else k.status
          detail := if k.status = stOk ∨ k.status = stPartial then BitVec.ofNat 32 detail else k.detail }
      else s
    | _ => s.onCmd c fun k => { k with
        phase := .ended, ran := true, status := st, detail := BitVec.ofNat 32 detail, endTime := now
        sig := k.sigAfter st }

/-- STATUS of a fault entry's record. -/
def FaultEntry.status (f : FaultEntry) : W16 := if f.rightsKind then stRightsFault else stTranslationFault

/-- The commands held at an entry that run on other parts are told what becomes of it (R308, R384). -/
def State.tellFar (s : State) (v : Nat) (f : FaultEntry) (failed : Bool) : State :=
  f.cmds.foldl (fun s (n, id) =>
    match s.cmd? ⟨v, n, id⟩, s.unitOf v n with
    | some k, some u =>
      if k.forwarded then
        s.control (s.homeSite v) v (u.part * 8 + u.inst) none .resolve (leBytes 8 id ++ leBytes 1 n ++
          leBytes 1 failed.toNat ++ leBytes 2 f.status.toNat ++ leBytes 4 f.fid)
      else s
    | _, _ => s) s

/-- Fails every command held at an entry and closes it. -/
def State.failEntry (s : State) (v : Nat) (f : FaultEntry) : State :=
  let s := s.tellFar v f true
  let s := f.cmds.foldl (fun s (n, id) => s.failAccess ⟨v, n, id⟩ f.status f.fid) s
  s.onSp v fun p => { p with faults := p.faults.filter fun x => decide (x.fid ≠ f.fid) }

/-- Every command held at an entry is to retry its access, and the entry closes (R384). -/
def State.retryEntry (s : State) (v : Nat) (f : FaultEntry) : State :=
  let s := s.tellFar v f false
  let s := f.cmds.foldl (fun s (n, id) => s.onCmd ⟨v, n, id⟩ fun k => { k with hold := none, fault := none }) s
  s.onSp v fun p => { p with faults := p.faults.filter fun x => decide (x.fid ≠ f.fid) }

/-! References (R376, R377) -/

/-- The reference word of an object, if its access can be sent. -/
def State.refWord (s : State) (v : Nat) (o : Obj) : Option Nat :=
  match s.ringAddr v 0 o.refDva 4 with
  | .ok bus => if (s.site (s.homeSite v)).atomicOps then some bus else none
  | .error _ => none

/-- Mirrors a change of an object's count into its reference word: a FetchAdd, or the whole count after an update that
failed (R376, R595). -/
def State.mirror (s : State) (v n : Nat) (delta : Int) : State :=
  match (s.vd v).sp.obj? n with
  | none => s
  | some o =>
    let put (f : Bool) := s.onSp v fun p => { p with objs := p.objs.map fun x =>
      if x.index = n then { x with refFailed := f } else x }
    if o.refFailed then
      match s.ringAddr v 0 o.refDva 2 with
      | .ok bus => (put false).emit (.hostWrite v bus (leBytes 8 o.count))
      | .error _ => s
    else match s.refWord v o with
      | some bus => s.emit (.hostAdd v bus (BitVec.ofInt 64 delta))
      | none => put true

/-- Adds to an object's count and mirrors it. -/
def State.countRef (s : State) (v n : Nat) (up : Bool) : State :=
  let s := s.onSp v fun p => { p with objs := p.objs.map fun o =>
    if o.index = n ∧ o.state ≠ .released then { o with count := if up then o.count + 1 else o.count - 1 } else o }
  s.mirror v n (if up then 1 else -1)

/-- A command drops its references (R377). -/
def State.dropRefs (s : State) (c : CmdRef) (k : Cmd) : State :=
  if (s.vd c.vd).refcount then k.refs.foldl (fun s n => s.countRef c.vd n false) s else s

/-! Killed contexts (R353, R366, R514) -/

/-- The context of a stream: none for the control stream. -/
def Vd.context (d : Vd) (n : Nat) : Option Nat :=
  if n = 0 then none else some (if d.noelaver then (d.stream n).owner else 0)

/-- A placed command ends KILLED; one already KILLED is left as it is. -/
def State.killCmd (s : State) (c : CmdRef) : State :=
  match s.cmd? c with
  | none => s
  | some k =>
    if k.status = stKilled ∧ k.phase = .ended then s
    else
      let now := ((s.job? c).map fun j => (s.site j.i).time).getD 0
      let s := (((s.abandonRelease c k).accountEnd c k now).leaveFault c).freeEngines c
      s.onCmd c fun k => { k with
        phase := .ended, ran := true, status := stKilled, eng := 0, detail := 0, unsent := [], asks := [], retry := []
        chainRows := [], saved := false, endTime := if k.finalWr then k.endTime else now
        sig := if k.sig = .none ∨ k.sig = .done then k.sig else .dropped }

/-- Kills the commands of a stream, with its KILLED event and its new state (R353). -/
def State.killStream (s : State) (v n i : Nat) : State :=
  let st := (s.vd v).stream n
  if st.state = .free ∨ st.state = .killed ∨ st.killPending then s
  else
    let hit := st.queue.filter fun k => !k.held && !(decide (k.status = stKilled) && decide (k.phase = .ended))
    let s := hit.foldl (fun s k => s.killCmd ⟨v, n, k.id⟩) s
    let s := s.onStream v n fun t => { t with
      state := if t.state = .active then .killed else t.state
      killPending := t.killPending || [StreamState.sinkLost, .faulted].contains t.state ||
        (decide (t.state = .frozen) && [StreamState.sinkLost, .faulted].contains t.before)
      before := if t.state = .frozen ∧ t.before = .active then .killed else t.before }
    s.event v i 0x05 n hit.length

/-- Kills a context on every instance: every stream of it (R514). A context is killed once. -/
def State.killContext (s : State) (v ctx i : Nat) : State :=
  let d := s.vd v
  let ns := (List.range 255).map (· + 1) |>.filter fun n => decide (d.context n = some ctx) &&
    decide ((d.stream n).state ≠ .free)
  let s := ns.foldl (fun s n => s.killStream v n i) s
  (s.otherParts v).foldl (fun s p => s.control i v (s.partDst v p) none .kill (leBytes 1 ctx)) s

/-! Invalidations (R385) -/

/-- Whether a transfer of the slice from an epoch before `e` remains on some instance of this part. -/
def State.oldTransfers (s : State) (v e : Nat) : Bool :=
  ((s.vd v).fe.streams.any fun t => t.queue.any fun k => k.asks.any fun a => decide (a.epoch < e)) ||
  s.sites.any fun t => t.net.txns.any fun x =>
    (match x.cmd with | some c => decide (c.vd = v) | none => false) && decide (x.epoch < e) && decide (x.kind ≠ .control)

/-- Begins an invalidation (steps 1 and 2 of R385); its step 3 ends at INVALIDATION_ACK. -/
def State.invalidate (s : State) (v : Nat) (cmd obj : Option Nat) (ats : Option (Nat × Nat))
    (home : Option (Nat × Pkt) := none) : State :=
  s.onSp v fun p => { p with
    epoch := p.epoch + 1
    nextInval := p.nextInval + 1
    invals := p.invals ++ [⟨p.nextInval, p.epoch + 1, cmd, obj, ats, home⟩] }

/-- Sends a change of the tables to the replicas on other parts (R380). -/
def State.replicate (s : State) (v : Nat) (cmd : Option CmdRef) (body : Bytes) : State :=
  (s.otherParts v).foldl (fun s p => s.control (s.homeSite v) v (s.partDst v p) cmd .replica body) s

end Sys2Proof.Machine
end

