-- ==== Sys2Proof/Machine/Reply.lean ====
section
/-! DEFINITION. Mailboxes (R493–R495), the replies of management requests (R479, R482), and the requests in progress. -/

namespace Sys2Proof.Machine

/-! Mailboxes -/

/-- The fixed receiver of a mailbox (R493). -/
def boxReceiver (m : Nat) : Byte :=
  if m = 1 then 0x02 else if m = 3 then 0x01
  else if 4 ≤ m ∧ m < 8 then BitVec.ofNat 8 (0x10 + (m - 4))
  else if m = 8 then 0x20 else if m = 9 then 0x21 else 0x10

/-- Mailbox `m` of a site. -/
def Site.box (t : Site) (m : Nat) : Mailbox := t.watch.boxes.getD m {}

/-- Changes mailbox `m`. -/
def State.onBox (s : State) (i m : Nat) (f : Mailbox → Mailbox) : State :=
  s.onWatch i fun w => { w with boxes := w.boxes.modify m f }

/-- A doorbell tells the receiver (R495). -/
def State.tellBox (s : State) (i m : Nat) : State :=
  let r := boxReceiver m
  if r = 0x01 then s.raiseSrc i (0x74 + m)
  else if r = 0x02 then
    if (s.site i).pins.i3cAddr.isSome then s.emit (.ibi i m)
    else s.onPins i fun p => { p with alertN := false }
  else if r = 0x20 ∨ r = 0x21 then s.emit (.csqEvent i (r.toNat - 0x20))
  else if m = 15 then s.raisePriv i 0 3
  else s.raisePriv i (r.toNat - 0x10) (0x10 + m)

/-- A mailbox is freed and its data zeroed; ALERT_N rises when the board controller's is, unless
it is held for another reason (R494, R495, R562). -/
def State.freeBox (s : State) (i m : Nat) : State :=
  let s := s.onBox i m fun _ => {}
  if m = 1 then s.onPins i fun p => { p with alertN := p.faultN && !(s.part.settledOnce && s.part.lead.isNone) } else s

/-! Replies (R479, R482) -/

/-- The 64 bytes of a reply; the phase bit is set as the ring decides. -/
def replyBytes (r : MReq) (st : W16) (inst : Nat) (result : Bytes) : Bytes :=
  leBytes 2 r.op.toNat ++ leBytes 2 r.tag.toNat ++ leBytes 2 st.toNat ++ leBytes 1 inst ++ [0] ++ padTo 56 result

/-- A ring of `2^log2` entries has room. -/
def ringRoom (pos head log2 : Nat) : Bool := decide ((pos + 2 ^ log2 - head) % 2 ^ log2 + 1 < 2 ^ log2)

/-- The words of 64 bytes. -/
def wordsOf (b : Bytes) : List W32 := (List.range 16).map fun k => BitVec.ofNat 32 (fieldAt b (4 * k) 4)

/-- Writes held replies: into the reply ring while it has room, or into the sender's mailbox when it is free; `n` bounds
their number. -/
def flushRepliesN : Nat → State → State
  | 0, s => s
  | n + 1, s =>
    let g := s.part.rings
    match s.part.replies with
    | [] => s
    | (none, _, b) :: rest =>
      if !g.on || g.err || !ringRoom g.rplPos g.rplHead g.rplLog2 then s
      else
        let b := b.set 6 (b.getD 6 0 ||| (if g.rplPhase then 0x80 else 0))
        let wrap := decide (g.rplPos + 1 = 2 ^ g.rplLog2)
        let s := s.onPart fun p => { p with
          replies := rest
          rings := { p.rings with
            rplPos := if wrap then 0 else p.rings.rplPos + 1
            rplPhase := if wrap then !p.rings.rplPhase else p.rings.rplPhase } }
        flushRepliesN n ((s.emit (.hostWrite (256 + s.lead) (g.rplBase + 64 * g.rplPos) b)).raiseSrc s.lead 0x42)
    | (some i, a, b) :: rest =>
      let m := if a = 0x02 then 1 else 3
      if ((s.site i).box m).state ≠ .free then s
      else
        let s := s.onPart fun p => { p with replies := rest }
        flushRepliesN n ((s.onBox i m fun _ => ⟨.delivered, wordsOf b⟩).tellBox i m)

/-- Writes held replies. -/
def State.flushReplies (s : State) : State := flushRepliesN s.part.replies.length s

/-- A request has completed: its reply is queued and written as soon as there is room (R479). -/
def State.reply (s : State) (r : MReq) (st : W16) (result : Bytes := []) : State :=
  let inst := (s.site (r.box.getD s.lead)).id
  let s := s.onPart fun p => { p with
    reqs := p.reqs.erase r, replies := p.replies ++ [(r.box, r.agent, replyBytes r st inst result)] }
  s.flushReplies

/-- A long command goes on and replies later. -/
def State.begin (s : State) (r : MReq) : State :=
  s.onPart fun p => { p with reqs := p.reqs.map fun x => if x = r then { x with started := true } else x }

/-- Answers the started requests of this opcode whose packets satisfy a condition. -/
def State.answer (s : State) (op : Nat) (f : Bytes → Bool) (st : W16) (result : Bytes := []) : State :=
  (s.part.reqs.filter fun r => r.started && decide (r.op.toNat = op) && f r.pkt).foldl (fun s r => s.reply r st result) s

/-- The lead's firmware is being activated: it takes and runs no request until it has restarted (R488). -/
def State.activating (s : State) : Bool :=
  s.part.reqs.any fun r => r.started && decide (r.op.toNat = 0x402) && decide (fieldAt r.pkt 8 1 = (s.site s.lead).id)

end Sys2Proof.Machine
end

