-- ==== Sys2Proof/Machine/Irq.lean ====
section
/-! DEFINITION. Mailbox accesses (R494–R496), the interrupt controller (R500–R502, R507), I3C addresses (R557), the
management rings (R478, R479) and the fault ring (R491, R532, R533). -/

namespace Sys2Proof.Machine

/-- The always-on and management domain of a site works. -/
def Site.managed (t : Site) : Bool := t.pins.coldRstN

/-! Mailboxes (R494) -/

/-- MBX_STATUS.HOLDER: the sender that holds a mailbox, or its receiver, or 0. -/
def Site.boxHolder (t : Site) (m : Nat) : Byte :=
  match (t.box m).state with
  | .free => 0
  | .held a => a
  | .delivered => boxReceiver m

/-- A write that a mailbox ignores: one by an agent that does not hold it counts in REFUSED. -/
def State.boxRefuses (s : State) (i m : Nat) (agent : Byte) : State :=
  if (s.site i).boxHolder m = agent then s else s.bump i (rMbxStatus m) Fld.mbxStatusRefused

/-- MBX_LOCK (R494): the read that finds a mailbox free takes it. -/
def execMbxLock (i : Nat) (agent : Byte) (box : Nat) (s : State) : Host.Outcome State Fault Refusal :=
  .next (
    let t := s.site i
    if !t.managed || decide (16 ≤ box) then { s with rd := 0 }
    else
      let s := { s with rd := (t.boxHolder box).zeroExtend 64 }
      if (t.box box).state = .free then s.onBox i box fun b => { b with state := .held agent } else s)

/-- MBX_DATA (R494): the holder's write sets the word. -/
def execMbxData (i : Nat) (agent : Byte) (box w : Nat) (value : W32) (s : State) : Host.Outcome State Fault Refusal :=
  .next (
    let t := s.site i
    if !t.managed || decide (16 ≤ box) || decide (16 ≤ w) then s
    else if (t.box box).state = .held agent then s.onBox i box fun b => { b with data := b.data.set w value }
    else s.boxRefuses i box agent)

/-- MBX_DOORBELL (R494, R495): RING hands the mailbox to its receiver. -/
def execMbxDoorbell (i : Nat) (agent : Byte) (box : Nat) (value : W32) (s : State) : Host.Outcome State Fault Refusal :=
  .next (
    let t := s.site i
    if !t.managed || decide (16 ≤ box) || !bitOf value 0 then s
    else if (t.box box).state = .held agent then (s.onBox i box fun b => { b with state := .delivered }).tellBox i box
    else s.boxRefuses i box agent)

/-- MBX_FREE (R494): FREE by the holder frees the mailbox; replies that waited for it go out (R479). -/
def execMbxFree (i : Nat) (agent : Byte) (box : Nat) (value : W32) (s : State) : Host.Outcome State Fault Refusal :=
  .next (
    let t := s.site i
    if !t.managed || decide (16 ≤ box) || !bitOf value 0 then s
    else if (t.box box).state ≠ .free ∧ t.boxHolder box = agent then (s.freeBox i box).flushReplies
    else s.boxRefuses i box agent)

/-- The mailboxes an agent holds, as a sender or as a receiver, are freed: its domain has been reset (R496). -/
def State.freeBoxes (s : State) (i : Nat) (agent : Byte) : State :=
  ((List.range 16).foldl (fun s m =>
    if ((s.site i).box m).state ≠ .free ∧ (s.site i).boxHolder m = agent then s.freeBox i m else s) s).flushReplies

/-- TARGET_RESET (R496): an I3C target reset frees the board controller's mailboxes. -/
def execTargetReset (i : Nat) (s : State) : Host.Outcome State Fault Refusal :=
  .next (if (s.site i).managed then s.freeBoxes i 0x02 else s)

/-- A dynamic address is given: in-band interrupts take the place of ALERT_N (R495, R557). -/
def State.giveAddr (s : State) (i : Nat) (addr : BitVec 7) : State :=
  if (s.site i).managed then s.onPins i fun p => { p with i3cAddr := some addr } else s

/-- ENTDAA (R557). -/
def execEntdaa (i : Nat) (addr : BitVec 7) (s : State) : Host.Outcome State Fault Refusal :=
  .next (if (s.site i).pins.i3cAddr.isSome then s else s.giveAddr i addr)

/-- SETDASA (R557): the dynamic address is set from the static one, 0x30 + INST_ID. -/
def execSetdasa (i : Nat) (addr : BitVec 7) (s : State) : Host.Outcome State Fault Refusal :=
  .next (s.giveAddr i addr)

/-! The interrupt controller -/

/-- Whether an interrupt number names a source: reserved ones never pend (R497, R498). -/
def srcNamed (proc n : Nat) : Bool :=
  if n < 0x40 then decide (proc < 4) && ((decide (proc = 0) && decide (n < 4)) || (decide (4 ≤ n) && decide (n < 8)) ||
    (decide (0x10 ≤ n) && decide (n < 0x1F)))
  else (decide (n < 0x85)) || (decide (0x100 ≤ n) && decide (n < 0x200))

/-- SOURCE_EDGE (R500): a private source of processor `proc`, or a shared one. -/
def execSourceEdge (i proc n : Nat) (s : State) : Host.Outcome State Fault Refusal :=
  .next (if !(s.site i).managed || !srcNamed proc n then s else if n < 0x40 then s.raisePriv i proc n else s.raiseSrc i n)

/-- IRQ_COALESCE_EXPIRY (R500): a pending, enabled source whose coalescing time has passed delivers. -/
def execIrqCoalesceExpiry (i n : Nat) (s : State) : Host.Outcome State Fault Refusal :=
  .next (
    let t := s.site i
    let off := rIrqSrc (n - 0x40)
    if !t.managed || decide (n < 0x40) || decide (0xFFE < n) || decide (t.fld off Fld.irqSrcPend = 0) ||
      decide (t.fld off Fld.irqSrcEn = 0) || t.watch.delivered.contains n then s
    else s.deliverSrc i n)

/-- The private source that a claim of processor `k` takes: the lowest one delivered (R502). -/
def Site.claimPriv (t : Site) (k : Nat) : Option Nat :=
  (List.range 64).find? fun n =>
    bitOf (t.reg (rIrqPrivPendLo k + (if n < 32 then 0 else 4))) (n % 32) &&
    (bitOf (t.reg (rIrqPrivEnLo k + (if n < 32 then 0 else 4))) (n % 32) || (decide (k = 0) && decide (n < 4)))

/-- The shared source it takes when no private one is delivered: the highest PRIO, the lower number on a tie. -/
def Site.claimShared (t : Site) (k : Nat) : Option Nat :=
  let live := t.watch.delivered.filter fun n =>
    decide (t.fld (rIrqSrc (n - 0x40)) Fld.irqSrcTarget = k) && decide (t.fld (rIrqSrc (n - 0x40)) Fld.irqSrcPend = 1) &&
    decide (t.fld (rIrqSrc (n - 0x40)) Fld.irqSrcEn = 1)
  let prio := fun n => t.fld (rIrqSrc (n - 0x40)) Fld.irqSrcPrio
  live.foldl (fun best n =>
    match best with
    | none => some n
    | some b => if prio b < prio n ∨ (prio b = prio n ∧ n < b) then some n else some b) none

/-- A claim of private source `n` of processor `proc` (R502): its pending bit and its count clear, and the read returns
them. -/
def State.claimedPriv (s : State) (i proc n : Nat) : State :=
  let t := s.site i
  let off := rIrqPrivPendLo proc + (if n < 32 then 0 else 4)
  let count := lookupD t.watch.privCount (proc * 64 + n) 0
  let s := s.onSite i fun t => t.setReg off (t.reg off &&& ~~~(BitVec.ofNat 32 (2 ^ (n % 32))))
  let s := s.onWatch i fun w => { w with privCount := w.privCount.filter fun c => decide (c.1 ≠ proc * 64 + n) }
  { s with rd := BitVec.ofNat 64 (count * 65536 + n) }

/-- A claim of shared source `n` (R502). -/
def State.claimedShared (s : State) (i n : Nat) : State :=
  let off := rIrqSrc (n - 0x40)
  let count := (s.site i).fld off Fld.irqSrcCount
  let s := (s.setFld i off Fld.irqSrcPend 0).setFld i off Fld.irqSrcCount 0
  let s := s.onWatch i fun w => { w with
    delivered := w.delivered.filter (· ≠ n), srcEdges := w.srcEdges.filter fun c => decide (c.1 ≠ n) }
  { s with rd := BitVec.ofNat 64 (count * 65536 + n) }

/-- IRQ_CLAIM (R502): the read returns the number and COUNT of the source, and clears both. -/
def execIrqClaim (i proc : Nat) (s : State) : Host.Outcome State Fault Refusal :=
  .next (
    let t := s.site i
    if !t.managed || decide (4 ≤ proc) then { s with rd := 0 }
    else match t.claimPriv proc with
      | some n => s.claimedPriv i proc n
      | none =>
        match t.claimShared proc with
        | some n => s.claimedShared i n
        | none => { s with rd := 0xFFF })

/-- IRQ_IPI (R507): bit j pends source 0x004 + k on processor j. -/
def execIrqIpi (i proc : Nat) (value : W32) (s : State) : Host.Outcome State Fault Refusal :=
  .next (
    if !(s.site i).managed || decide (4 ≤ proc) then s
    else (List.range 4).foldl (fun s j => if bitOf value j then s.raisePriv i j (4 + proc) else s) s)

/-! The management rings (R478, R479) -/

/-- Changes the management rings. -/
def State.onRings (s : State) (f : MgmtRings → MgmtRings) : State := s.onPart fun p => { p with rings := f p.rings }

/-- Entries of the request ring posted and not taken. -/
def MgmtRings.posted (g : MgmtRings) (tail : Nat) : Nat := (tail + 2 ^ g.reqLog2 - g.reqHead) % 2 ^ g.reqLog2

/-- REQ_TAIL (R331, R478): ignored while the rings are off; one that would lower the posted requests records nothing. -/
def execReqTail (value : W32) (s : State) : Host.Outcome State Fault Refusal :=
  .next (
    let g := s.part.rings
    let tail := bitsOf value 11 0 % 2 ^ g.reqLog2
    if s.part.lead.isNone || !g.on then s
    else
      let s := if g.posted g.reqTail ≤ g.posted tail then s.onRings fun g => { g with reqTail := tail } else s
      s.raiseSrc s.lead 0x40)

/-- Whether the rings' sizes and bases pass the checks (R329, R478). -/
def MgmtRings.mayStart (g : MgmtRings) (fl pl ql : Nat) : Bool :=
  decide (4 ≤ ql) && decide (ql ≤ 12) && decide (4 ≤ pl) && decide (pl ≤ 12) && decide (6 ≤ fl) && decide (fl ≤ 14) &&
  decide (g.reqBase % (64 * 2 ^ ql) = 0) && decide (g.rplBase % (64 * 2 ^ pl) = 0) &&
  decide (g.fltBase % (64 * 2 ^ fl) = 0)

/-- MANAGEMENT_RING_ENABLE (R329, R478): the checks of the three rings, and their start at entry 0. -/
def execManagementRingEnable (value : W32) (s : State) : Host.Outcome State Fault Refusal :=
  .next (
    let g := s.part.rings
    let (fl, pl, ql) := (bitsOf value 19 16, bitsOf value 11 8, bitsOf value 3 0)
    if s.part.lead.isNone || g.on || !bitOf value 31 then s
    else if g.mayStart fl pl ql then
      (s.onRings fun g => { g with
        on := true, err := false, reqLog2 := ql, rplLog2 := pl, fltLog2 := fl, reqTail := 0, reqHead := 0
        rplHead := 0, rplPos := 0, rplPhase := true, fltHead := 0, fltPos := 0, fltPhase := true }).flushReplies
    else s.onRings fun g => { g with err := true, reqLog2 := ql, rplLog2 := pl, fltLog2 := fl })

/-- MANAGEMENT_RING_DISABLE (R478). -/
def execManagementRingDisable (s : State) : Host.Outcome State Fault Refusal :=
  .next (s.onRings fun g => { g with on := false })

/-- RPL_HEAD (R330, R478): held replies go into the entries released. -/
def execRplHead (value : W32) (s : State) : Host.Outcome State Fault Refusal :=
  .next (if s.part.lead.isNone then s else (s.onRings fun g => { g with rplHead := bitsOf value 11 0 }).flushReplies)

/-- FLT_HEAD (R330, R478). -/
def execFltHead (value : W32) (s : State) : Host.Outcome State Fault Refusal :=
  .next (if s.part.lead.isNone then s else s.onRings fun g => { g with fltHead := bitsOf value 13 0 })

/-- Families of commands that the board controller may issue (R484): power, reset and health, attestation, and telemetry
and test; within them none that names a buffer. -/
def boardMay (op : Nat) : Bool :=
  let f := op / 256
  (decide (f = 2) || decide (f = 3) || decide (f = 5) || decide (f = 8)) && decide (op ≠ 0x503)

/-- The management opcodes of R485. -/
def mgmtOp (op : Nat) : Bool :=
  let n := op % 256
  decide (1 ≤ n) && match op / 256 with
  | 1 => decide (n ≤ 14)
  | 2 => decide (n ≤ 3)
  | 3 => decide (n ≤ 3)
  | 4 => decide (n ≤ 5)
  | 5 => decide (n ≤ 3)
  | 6 => decide (n ≤ 10)
  | 7 => decide (n ≤ 2)
  | 8 => decide (n ≤ 2)
  | 9 => decide (n ≤ 7)
  | 10 => decide (n ≤ 3)
  | _ => false

/-- The 64 bytes of a mailbox. -/
def Mailbox.bytes (b : Mailbox) : Bytes := b.data.flatMap fun w => leBytes 4 w.toNat

/-- Where the next request of an agent stands: on the ring, or in a delivered mailbox of a site. -/
def State.nextRequest (s : State) (agent : Byte) (pkt : Bytes) : Option (Option (Nat × Nat)) :=
  let inBox (m : Nat) : Option (Option (Nat × Nat)) :=
    ((List.range 8).find? fun i => (s.site i).managed && decide (((s.site i).box m).state = .delivered) &&
      decide (((s.site i).box m).bytes = pkt)).map fun i => some (i, m)
  if agent = 0x01 then
    if s.part.rings.on then
      if s.part.rings.err || decide (s.part.rings.posted s.part.rings.reqTail = 0) then none else some none
    else inBox 2
  else if agent = 0x02 then inBox 0
  else none

/-- The request that a packet is (R479, R483). -/
def MReq.of (agent : Byte) (pkt : Bytes) (box : Option Nat) : MReq :=
  { tag := BitVec.ofNat 16 (fieldAt pkt 2 2), op := BitVec.ofNat 16 (fieldAt pkt 0 2), pkt := pkt, agent := agent, box := box }

/-- The request leaves its ring slot or its mailbox and is in progress (R479, R483). -/
def State.takeRequest (s : State) (r : MReq) (place : Option (Nat × Nat)) : State :=
  (match place with
    | none => s.onRings fun g => { g with reqHead := (g.reqHead + 1) % 2 ^ g.reqLog2 }
    | some (i, m) => s.freeBox i m).onPart fun p => { p with reqs := p.reqs ++ [r] }

/-- REQUEST_TAKE (R479, R483): firmware takes the next request, with the first two checks. -/
def execRequestTake (agent : Byte) (pkt : Bytes) (s : State) : Host.Outcome State Fault Refusal :=
  .next (
    if s.part.lead.isNone || s.activating || decide (64 ≤ s.part.reqs.length) || decide (64 ≤ s.part.replies.length) ||
      decide (pkt.length ≠ 64) then s
    else match s.nextRequest agent pkt with
      | none => s
      | some place =>
        let r := MReq.of agent pkt (place.map (·.1))
        let s := s.takeRequest r place
        if !mgmtOp (fieldAt pkt 0 2) then s.reply r stUnknownOpcode
        else if agent = 0x02 ∧ !boardMay (fieldAt pkt 0 2) then s.reply r stDenied
        else if fieldAt pkt 4 4 ≠ 0 then s.reply r stMalformed
        else s)

/-! The fault ring (R491, R532, R533) -/

/-- The 64 bytes of a record, or of a continuation of it. -/
def Rec.bytes (r : Rec) (id : Nat) (phase more : Bool) (body : Bytes) : Bytes :=
  leBytes 1 r.type ++ leBytes 1 (128 * phase.toNat + 64 * more.toNat + 16 * r.sev + id) ++ leBytes 2 r.seq ++
  leBytes 4 r.count ++ leBytes 8 r.first ++ padTo 40 body ++ leBytes 8 r.last

/-- Writes the parts of a record into the fault ring. -/
def writeRec (r : Rec) (id : Nat) : List Bytes → State → State
  | [], s => s
  | b :: rest, s =>
    let g := s.part.rings
    let wrap := decide (g.fltPos + 1 = 2 ^ g.fltLog2)
    let s := s.emit (.hostWrite (256 + s.lead) (g.fltBase + 64 * g.fltPos) (r.bytes id g.fltPhase (!rest.isEmpty) b))
    writeRec r id rest (s.onRings fun g => { g with
      fltPos := if wrap then 0 else g.fltPos + 1, fltPhase := if wrap then !g.fltPhase else g.fltPhase })

/-- FAULT_RECORD_WRITE (R491, R532): the oldest alarm of a site, else its oldest log, goes into the ring; only alarms
may use the last eight free entries. -/
def execFaultRecordWrite (i : Nat) (s : State) : Host.Outcome State Fault Refusal :=
  .next (
    let g := s.part.rings
    let w := (s.site i).watch
    let free := 2 ^ g.fltLog2 - 1 - (g.fltPos + 2 ^ g.fltLog2 - g.fltHead) % 2 ^ g.fltLog2
    if s.part.lead.isNone || !g.on || g.err || !(s.site i).managed then s
    else match w.alarms, w.logs with
      | r :: rest, _ =>
        if free < 1 + r.cont.length then s
        else ((writeRec r (s.site i).id (r.body :: r.cont) s).onWatch i fun w => { w with alarms := rest }).raiseSrc
          s.lead 0x43
      | [], r :: rest =>
        if free < 9 then s
        else ((writeRec r (s.site i).id [r.body] s).onWatch i fun w => { w with logs := rest }).raiseSrc s.lead 0x43
      | [], [] => s)

/-- Adds the counts of one summary body to another's, field by field, saturating (R533). -/
def addLoss (a b : Bytes) : Bytes :=
  (List.range 6).flatMap fun k => leBytes 4 (satAdd (2 ^ 32 - 1) (fieldAt a (4 * k) 4) (fieldAt b (4 * k) 4))

/-- The summary of the records a site lost joins its alarms, or the summary that waits there already (R533). -/
def Watch.summarise (w : Watch) (i us time : Nat) : Watch :=
  let l := w.loss
  let body := leBytes 4 l.err ++ leBytes 4 l.warn ++ leBytes 4 l.info ++ leBytes 4 l.trace ++ leBytes 4 l.coal ++ leBytes 4 us
  let w := { w with loss := {}, losing := false }
  if w.alarms.any fun a => decide (a.type = 0x0A) then
    { w with alarms := w.alarms.map fun a =>
        if a.type = 0x0A then { a with
          count := satAdd (2 ^ 32 - 1) a.count 1, last := time, body := padTo 40 (addLoss a.body body) }
        else a }
  else { w with
    alarms := w.alarms ++ [⟨0x0A, 0, i, w.seq % 65536, 1, time, time, padTo 40 body, []⟩], seq := w.seq + 1 }

/-- LOSS_SUMMARY (R533): the losses of the interval go out as an alarm of their own, or join the one still pending. -/
def execLossSummary (i us : Nat) (s : State) : Host.Outcome State Fault Refusal :=
  .next (
    let t := s.site i
    if !t.managed || !t.watch.losing then s
    else (s.onWatch i (·.summarise i us t.time)).raiseSrc s.lead 0x45)

end Sys2Proof.Machine
end

