-- ==== Sys2Proof/Machine/Craene.lean ====
section
/-! DEFINITION. The Craene queues: rings and doorbells (R329–R334), placement (R333, R339, R340, R377), readiness
(R397), fences (R341, R342, R387–R389), ends, timeouts and aborts (R347, R348), completion records (R345, R346, R350),
resumes (R351), vectors (R355) and the control-stream commands of R337. -/

namespace Sys2Proof.Machine

/-! Rings and doorbells -/

/-- Posted slots of a ring (R331). -/
def Ring.posted (r : Ring) : Nat := (r.tail + 4096 - r.sqHead) % 4096

/-- Posted slots not yet read. -/
def Ring.unreadSlots (r : Ring) : Nat := r.posted - r.fetched.length

/-- A new tail of a ring: accepted only when it does not lower the number of posted slots (R331). -/
def Ring.take (r : Ring) (tail : Nat) : Option Ring :=
  if r.posted ≤ (tail + 4096 - r.sqHead) % 4096 then some { r with tail := tail } else none

/-- A doorbell write to ring `r` (R331): a refused one sets BAD_DB. -/
def State.doorbell (s : State) (v r tail : Nat) : State :=
  let x := (s.vd v).ring r
  if !x.on then s.onFe v fun e => { e with badDb := true }
  else match x.take tail with
    | some y => s.onRing v r fun _ => y
    | none => s.onFe v fun e => { e with badDb := true }

/-- FE_DOORBELL (R331). -/
def execFeDoorbell (vd : Nat) (tail : BitVec 12) (s : State) : Host.Outcome State Fault Refusal :=
  .next (if (s.vd vd).live then s.doorbell vd 0 tail.toNat else s)

/-- Process ring `r` exists and is enabled (R356, R364). -/
def Vd.procRing (d : Vd) (r : Nat) : Bool := d.live && d.noelaver && decide (1 ≤ r) && decide (r < 64) && (d.ring r).on

/-- FE_NOEL_DB (R356, R364): ignored in native mode and while the ring is disabled. -/
def execFeNoelDb (vd ring : Nat) (tail : BitVec 12) (s : State) : Host.Outcome State Fault Refusal :=
  .next (if (s.vd vd).procRing ring then s.doorbell vd ring tail.toNat else s)

/-- The host link carries the virtual device's requests: a TDI's only in RUN (R447). -/
def Vd.hostOpen (d : Vd) : Bool := !d.conf || decide (d.tdi = .run)

/-- The front end of a virtual device works: its home is here, its instance is up, and its link carries its requests. -/
def State.frontUp (s : State) (v : Nat) : Bool :=
  (s.vd v).live && s.homed v && (s.site (s.homeSite v)).up && (s.vd v).hostOpen

/-- SUBMISSION_READ (R331, R332): up to 64 posted slots are read, in order. -/
def execSubmissionRead (vd ring : Nat) (slots : List Bytes) (s : State) : Host.Outcome State Fault Refusal :=
  .next (
    let d := s.vd vd
    let r := d.ring ring
    let ok := match s.ringAddr vd ring (r.sqBase + 64 * ((r.sqHead + r.fetched.length) % 4096)) 1 with
      | .ok _ => true
      | .error _ => false
    if !s.frontUp vd || d.removal.isSome || !r.on || d.fe.fetchLost || d.fe.frozen || !ok || slots.isEmpty ||
      decide (64 < slots.length) || decide (r.unreadSlots < slots.length) then s
    else s.onRing vd ring fun r => { r with
      fetched := r.fetched ++ slots.zipIdx.map fun (b, k) => ((r.sqHead + r.fetched.length + k) % 4096, padTo 64 b) })

/-- FETCH_LOST (R334): a submission read fails; placement stops, and the event and its copy go out. -/
def execFetchLost (vd ring : Nat) (status : BitVec 16) (s : State) : Host.Outcome State Fault Refusal :=
  .next (
    let d := s.vd vd
    let r := d.ring ring
    let known := match s.ringAddr vd ring (r.sqBase + 64 * ((r.sqHead + r.fetched.length) % 4096)) 1 with
      | .ok _ => decide (status = stHostError) || decide (status = stUncorrectable)
      | .error st => decide (status = st)
    if !s.frontUp vd || d.removal.isSome || !r.on || d.fe.fetchLost || d.fe.frozen || !known || decide (r.unreadSlots = 0) then s
    else
      ((s.onFe vd fun e => { e with fetchLost := true }).event vd (s.homeSite vd) 0x06 0 status.toNat).vdException vd 0
        status)

/-! Completion records (R345, R346, R350) -/

/-- The 32 bytes of a completion record (R345). -/
def State.cplRecord (s : State) (c : CmdRef) (k : Cmd) (phase held : Bool) : Bytes :=
  let d := s.vd c.vd
  let u := s.unitOf c.vd c.stream
  let inst := match u with | some u => if c.stream = 0 then d.home % 8 else u.inst | none => d.home % 8
  let part := match u with | some u => if c.stream = 0 then 0 else d.partIdx u.part | none => 0
  let time := if k.finalWr || k.wasIssued then k.endTime else k.placeTime
  leBytes 8 k.userTag ++ leBytes 2 k.status.toNat ++ leBytes 2 k.eng.toNat ++ leBytes 1 c.stream ++
  leBytes 1 (128 * phase.toNat + 64 * held.toNat + inst) ++ leBytes 2 k.slot ++ leBytes 8 time ++
  leBytes 4 k.detail.toNat ++ leBytes 1 part ++ zeros 3

/-- Writes a completion record into the entry reserved for it (R330, R333), with its accumulation (R355). -/
def State.writeCpl (s : State) (c : CmdRef) (k : Cmd) (held : Bool) : Except W16 State :=
  let d := s.vd c.vd
  let r := d.ring k.ring
  match s.ringAddr c.vd k.ring (r.cqBase + 32 * r.cqPos) 2 with
  | .error st => .error st
  | .ok bus =>
    let s := s.emit (.hostWrite c.vd bus (s.cplRecord c k r.cqPhase held))
    let s := s.onRing c.vd k.ring fun r => { r with
      cqRes := r.cqRes - 1
      cqPos := if r.cqPos + 1 = 2 ^ r.cqLog2 then 0 else r.cqPos + 1
      cqPhase := if r.cqPos + 1 = 2 ^ r.cqLog2 then !r.cqPhase else r.cqPhase }
    if k.flag 1 ∨ k.status ≠ stOk then
      .ok (s.accumulate c.vd (if k.ring = 0 then (d.stream c.stream).vec else r.vec))
    else .ok s

/-- Releases the completion-ring entry of a record that will not be written. -/
def State.releaseCpl (s : State) (v ring : Nat) : State := s.onRing v ring fun r => { r with cqRes := r.cqRes - 1 }

/-- A command leaves its stream's queue. -/
def State.unqueue (s : State) (c : CmdRef) : State :=
  s.onStream c.vd c.stream fun t => { t with queue := t.queue.filter fun k => decide (k.id ≠ c.id) }

/-- The steps of R350 that follow a failed completion write: the event and the manager's copy. -/
def State.sinkLost (s : State) (v n : Nat) (st : W16) : State :=
  (s.event v (s.homeSite v) 0x01 n st.toNat).vdException v n st

/-- A record is discarded and counted, and takes its stream to FAULTED (step 3 of R350). -/
def State.overflowRec (s : State) (c : CmdRef) (k : Cmd) : State :=
  let s := ((s.dropRefs c k).unqueue c).releaseCpl c.vd k.ring
  let s := s.onStream c.vd c.stream fun t => { t with state := .faulted, overflow := t.overflow + 1 }
  s.event c.vd (s.homeSite c.vd) 0x02 c.stream ((s.vd c.vd).stream c.stream).overflow

/-- A record goes to the stream's holding area of 16, or is discarded when it is full (R350). -/
def State.holdRec (s : State) (c : CmdRef) (k : Cmd) : State :=
  if 16 ≤ (((s.vd c.vd).stream c.stream).queue.filter (·.held)).length then s.overflowRec c k
  else (s.dropRefs c k).onCmd c fun k => { k with held := true, refs := [] }

/-- A record that is never written: its entry is freed. -/
def State.suppressRec (s : State) (c : CmdRef) (k : Cmd) (count : Bool) : State :=
  let s := ((s.dropRefs c k).unqueue c).releaseCpl c.vd k.ring
  if count then s.onStream c.vd c.stream fun t => { t with suppressed := t.suppressed + 1 } else s

/-- The stream is being destroyed in reference-count mode: every record of it is suppressed (R378). -/
def Vd.discards (d : Vd) (n : Nat) : Bool := d.refcount && decide ((d.stream n).state = .draining)

/-- Whether the record of a command may be dealt with now: it has ended, its signal is over, and no earlier record
waits (R342, R346); the records of a STREAM_ABORT and of a stream destroyed in reference-count mode wait for none. -/
def State.recordDue (s : State) (c : CmdRef) (k : Cmd) : Bool :=
  let d := s.vd c.vd
  let t := d.stream c.stream
  decide (k.phase = .ended) && !k.held &&
  (decide (k.sig = .none) || decide (k.sig = .done) || decide (k.sig = .dropped)) && !d.fe.frozen &&
  (decide ((t.queue.find? fun x => !x.held).map (·.id) = some c.id) || (decide (c.stream = 0) && decide (k.op = 3)) ||
    d.discards c.stream)

/-- Deals with a command's record as the state of its stream decides (R335, R346, R350). -/
def State.recordOf (s : State) (c : CmdRef) (k : Cmd) : State :=
  let d := s.vd c.vd
  let t := d.stream c.stream
  if d.discards c.stream then s.suppressRec c k true
  else if k.flag 2 ∧ k.status = stOk then s.suppressRec c k false
  else match t.state with
    | .sinkLost => s.holdRec c k
    | .faulted => s.overflowRec c k
    | _ =>
      if !(d.ring k.ring).on then s
      else match s.writeCpl c k false with
        | .ok s => (s.dropRefs c k).unqueue c
        | .error st =>
          if t.state = .draining then (s.suppressRec c k false).sinkLost c.vd c.stream st
          else
            let s := s.onStream c.vd c.stream fun t => { t with
              state := .sinkLost, killPending := t.killPending || decide (t.state = .killed) }
            (s.holdRec c k).sinkLost c.vd c.stream st

/-- COMPLETION_RECORD_WRITE (R346). The record of a work item forwarded from another part goes back to its home in the
CONTROL_ACK (R308). -/
def execCompletionRecordWrite (c : CmdRef) (s : State) : Host.Outcome State Fault Refusal :=
  .next (match s.cmd? c with
    | none => s
    | some k =>
      if !s.recordDue c k || !(s.site (s.homeSite c.vd)).up && s.homed c.vd then s
      else match k.home with
        | some (tag, q) =>
          (s.respond ((s.job? c).map (·.i) |>.getD 0) q stOk (leBytes 2 tag ++ s.cplRecord c k false false)).unqueue c
        | none => s.recordOf c k)

/-- Writes the held records of a stream in order with HELD = 1 (step 4 of R350): true when all are out. -/
def writeHeld (v n : Nat) : List Cmd → State → State × Bool
  | [], s => (s, true)
  | k :: r, s =>
    match s.writeCpl ⟨v, n, k.id⟩ k true with
    | .ok s => writeHeld v n r (s.unqueue ⟨v, n, k.id⟩)
    | .error st => (s.sinkLost v n st, false)

/-- Stream `n` resumes: its held records are written, and it is ACTIVE again once all are; a killed stream is ACTIVE
again (R351). -/
def State.resumeStream (s : State) (vd n : Nat) : State :=
  let t := (s.vd vd).stream n
  match t.state with
  | .sinkLost | .faulted =>
    let (s, all) := writeHeld vd n (t.queue.filter (·.held)) s
    s.onStream vd n fun t => { t with
      state := if !all then .sinkLost else if t.killPending then .killed else .active
      killPending := if all then false else t.killPending }
  | .killed => s.onStream vd n fun t => { t with state := .active }
  | _ => s

/-- FE_STREAM_RESUME (R351): resumes a stream by its state, and retries pending writes and the submission read. -/
def execFeStreamResume (vd : Nat) (value : W32) (s : State) : Host.Outcome State Fault Refusal :=
  .next (
    if !s.frontUp vd || !(s.vd vd).ringsOn || (s.vd vd).fe.frozen then s
    else ((s.onFe vd fun e => { e with fetchLost := false }).resumeStream vd (bitsOf value 7 0)).flushEvents vd)

/-! Placement (R333, R339, R340, R356, R377) -/

/-- A free completion-ring entry can be reserved (R330, R333). -/
def Ring.canReserve (r : Ring) : Bool :=
  decide ((r.cqPos + 2 ^ r.cqLog2 - r.cqHead) % 2 ^ r.cqLog2 + r.cqRes + 1 < 2 ^ r.cqLog2)

/-- The opcodes of the control stream only (R343). -/
def ctlOp (op : Nat) : Bool := (decide (1 ≤ op) && decide (op ≤ 5)) || (decide (0x10 ≤ op) && decide (op ≤ 0x16))

/-- The lowest header or extension field that fails step 4 of R339, as DETAIL names it. -/
def headerBad (desc ext : Bytes) (hasExt : Bool) : Option Nat :=
  let enabled (bit off : Nat) := decide (bitsAt ext 48 bit bit = 1) && decide (fieldAt ext off 8 % 8 ≠ 0)
  let header := firstBad [
    (decide (fieldAt desc 4 2 / 32 ≠ 0), 4),
    (decide (bitsAt desc 6 7 5 ≠ 0) || (decide (fieldAt desc 2 1 = 0) && decide (bitsAt desc 6 4 0 ≠ 0)), 6),
    (decide (bitsAt desc 7 7 6 ≠ 0), 7)]
  match header with
  | some n => some n
  | none =>
    if !hasExt then none
    else (firstBad ([(enabled 0 0, 0), (enabled 1 16, 16), (enabled 2 32, 32), (decide (bitsAt ext 48 7 4 ≠ 0), 48)] ++
      reservedSet ext [(49, 15)])).map (· + 256)

/-- Outcome of the header checks of R339: refused at steps 1 to 3, failed at steps 4 to 6, or passed. -/
inductive Header where
  | refuse (st : W16)
  | bad (st : W16) (detail : Nat)
  | good
  deriving DecidableEq, Repr, Inhabited

/-- Noelaver ownership (step 6 of R339, R356). -/
def Vd.owns (d : Vd) (ring : Nat) (desc : Bytes) : Bool :=
  let n := fieldAt desc 2 1
  if !d.noelaver then true
  else if ring = 0 then decide (n = 0) || decide ((d.stream n).owner = 0)
  else decide (bitsAt desc 7 5 0 = ring) && decide (n ≠ 0) && decide ((d.stream n).owner = ring)

/-- The header checks of R339, in their order. -/
def Vd.header (d : Vd) (ring : Nat) (desc ext : Bytes) (hasExt : Bool) : Header :=
  let op := fieldAt desc 0 2
  let n := fieldAt desc 2 1
  let st := (d.stream n).state
  if st = .free ∨ st = .draining then .refuse stBadStream
  else if (ctlOp op ∧ n ≠ 0) ∨ (n = 0 ∧ op ≠ 0 ∧ !ctlOp op) then .refuse stBadStream
  else if kindOf op = none ∨ (op = 5 ∧ !d.noelaver) then .refuse stUnsupported
  else match headerBad desc ext hasExt with
    | some x => .bad stBadDescriptor x
    | none =>
      if !d.sp.asids.contains (bitsAt desc 7 5 0) then .bad stAsidInvalid 0
      else if !d.owns ring desc then .bad stNotOwner 0
      else .good

/-- Byte offsets of the EA fields of a body that are in use. -/
def eaFields (b : Bytes) : List Nat :=
  let op := fieldAt b 0 2
  if op = 0x101 then [32]
  else if op = 0x110 then [16, 32, 40] ++ (if bitsAt b 57 1 1 = 1 then [24] else [])
  else if op = 0x103 then [16, 24, 32, 40]
  else if op = 0x104 ∨ op = 0x105 ∨ op = 0x106 then [16, 24, 32]
  else if op = 0x111 ∨ op = 0x112 ∨ op = 0x200 then [16, 24]
  else if op = 0x201 then [24]
  else if op = 0x300 then
    [16] ++ (if bitsAt b 51 0 0 = 0 then [24] else []) ++ (if bitsAt b 50 3 3 = 1 then [40] else [])
  else if op = 0x303 then [16]
  else if op = 0x304 then [16, 32]
  else if op = 0x305 then if bitsAt b 52 7 4 = 0 then [16] else [16, 24, 32]
  else []

/-- The DVAs whose first byte names a direct object: EA fields in DVA space, then enabled extension addresses, the
signal's last (R377). -/
def directDvas (b ext : Bytes) (hasExt : Bool) : List Nat :=
  ((eaFields b).map (fieldAt b · 8)).filterMap (fun ea => if eaSpace ea = 0 then some (ea % 2 ^ 57) else none) ++
  (if !hasExt then []
   else ((if bitsAt ext 48 0 0 = 1 then [fieldAt ext 0 8] else []) ++
     (if bitsAt ext 48 1 1 = 1 then [fieldAt ext 16 8] else []) ++
     (if bitsAt ext 48 2 2 = 1 then [fieldAt ext 32 8] else [])))

/-- The object a DVA names directly, if it finds a mapping. -/
def Space.direct (p : Space) (asid dva : Nat) : Option Obj :=
  match p.leaf? asid dva with
  | some m => p.objs.find? fun o => decide (o.index = m.obj)
  | none => none

/-- Places a descriptor that passed steps 1 to 3 of R339 in its stream's queue. -/
def State.place (s : State) (v ring slot : Nat) (desc ext : Bytes) (hasExt : Bool) (h : Header) : State :=
  let d := s.vd v
  let n := fieldAt desc 2 1
  let id := d.fe.nextId
  let now := (s.site (s.homeSite v)).time
  let k : Cmd := { id := id, desc := desc, ext := if hasExt then ext else [], ring := ring, slot := slot, placeTime := now }
  let s := s.onFe v fun e => { e with nextId := id + 1 }
  let s := s.onRing v ring fun r => { r with cqRes := r.cqRes + 1 }
  let add (s : State) (k : Cmd) := s.onStream v n fun t => { t with queue := t.queue ++ [k] }
  match h with
  | .good =>
    let objs := (directDvas desc ext hasExt).filterMap (d.sp.direct k.asid)
    let sigObj := if hasExt ∧ bitsAt ext 48 2 2 = 1 then d.sp.direct k.asid (fieldAt ext 32 8) else none
    if objs.any fun o => decide (o.state ≠ .live) then
      let lost := (sigObj.map fun o => decide (o.state ≠ .live)) = some true
      add s { k with phase := .ended, ran := true, status := stObjectGone
                     sig := if lost then .none else k.sigAfter stObjectGone }
    else
      let refs := if d.refcount then ((objs.map (·.index)).eraseDups).take 8 else []
      let s := refs.foldl (fun s o => s.countRef v o true) s
      match s.unitOf v n with
      | some u =>
        if n ≠ 0 ∧ u.part ≠ s.partId then
          let i := s.homeSite v
          let t := s.site i
          if !t.slotActive d.slot then
            add s { k with refs := refs, phase := .ended, ran := true, status := stKeyRevoked, sig := k.sigAfter stKeyRevoked }
          else
            let tag := t.net.nextTag
            let s := add s { k with refs := refs, forwarded := true, phase := .issued, wasIssued := true, issueTime := now }
            let s := s.onNet i fun x => { x with
              nextTag := (tag + 1) % 65536
              fwd := x.fwd ++ [⟨tag, u.part * 8 + u.inst, ⟨v, n, id⟩, now, x.freeTxn⟩] }
            s.control i v (u.part * 8 + u.inst) none .work
              (leBytes 2 tag ++ leBytes 8 id ++ leBytes 1 n ++ desc ++ (if hasExt then ext else []))
        else add s { k with refs := refs }
      | none => add s { k with refs := refs }
  | .bad st detail =>
    let s := add s { k with phase := .ended, ran := true, badHeader := true, status := st
                            detail := BitVec.ofNat 32 detail }
    if st = stNotOwner ∧ ring ≠ 0 then s.event v (s.homeSite v) 0x07 0 (ring + st.toNat * 65536) else s
  | .refuse _ => s

/-- A descriptor refused at steps 1 to 3 of R339: its record is written at once in an entry of its own. -/
def State.refuseDesc (s : State) (v ring slot : Nat) (desc : Bytes) (st : W16) : State :=
  let n := fieldAt desc 2 1
  let c : CmdRef := ⟨v, n, 0⟩
  let k : Cmd := { id := 0, desc := desc, ring := ring, slot := slot, status := st
                   placeTime := (s.site (s.homeSite v)).time }
  let s := s.onRing v ring fun r => { r with cqRes := r.cqRes + 1 }
  match s.writeCpl c k false with
  | .ok s => s
  | .error e => (s.releaseCpl v ring).vdException v n e

/-- The head moves past `n` slots. -/
def State.passSlots (s : State) (v ring n : Nat) : State :=
  s.onRing v ring fun r => { r with sqHead := (r.sqHead + n) % 4096, fetched := r.fetched.drop n }

/-- DESCRIPTOR_PLACE (R333): the descriptor at the head is checked and placed, once its stream's queue has room and a
completion-ring entry can be reserved. -/
def execDescriptorPlace (vd ring : Nat) (s : State) : Host.Outcome State Fault Refusal :=
  .next (
    let d := s.vd vd
    let r := d.ring ring
    if !s.frontUp vd || d.removal.isSome || !r.on || d.fe.fetchLost || d.fe.frozen || !r.canReserve then s
    else match r.fetched with
      | [] => s
      | (slot, desc) :: rest =>
        let hasExt := bitsAt desc 4 0 0 = 1
        if hasExt ∧ rest = [] then s
        else
          let ext := ((rest.head?).map (·.2)).getD []
          let n := if hasExt then 2 else 1
          match d.header ring desc ext hasExt with
          | .refuse st => (s.passSlots vd ring n).refuseDesc vd ring slot desc st
          | h =>
            if 64 ≤ (d.stream (fieldAt desc 2 1)).queue.length then s
            else (s.passSlots vd ring n).place vd ring slot desc ext hasExt h)

/-! Readiness and waits (R341, R397) -/

/-- The enabled waits of a command: address and target value. -/
def Cmd.waits (k : Cmd) : List (Nat × Nat) :=
  (if bitsAt k.ext 48 0 0 = 1 then [(fieldAt k.ext 0 8, fieldAt k.ext 8 8)] else []) ++
  (if bitsAt k.ext 48 1 1 = 1 then [(fieldAt k.ext 16 8, fieldAt k.ext 24 8)] else [])

/-- Reads the waited fences: whether every one has reached its target (R387). -/
def Job.waitsMet (j : Job) : List (Nat × Nat) → Run Bool
  | [] => pure true
  | (a, g) :: r => do
    let b ← j.getDva a 8
    if g ≤ leNat b then j.waitsMet r else pure false

/-- Commands of a stream that stand ahead of a command. -/
def Stream.ahead (t : Stream) (id : Nat) : List Cmd := t.queue.takeWhile fun k => decide (k.id ≠ id)

/-- Commands of the stream may start (R335). -/
def Stream.starts (t : Stream) : Bool := decide (t.state = .active)

/-- A command is next to become ready: every earlier one has been issued, a BARRIER's earlier records are out, and a
stream-0 command other than STREAM_ABORT stands at the head (R344, R392, R397). -/
def Stream.next (t : Stream) (n : Nat) (k : Cmd) : Bool :=
  let a := t.ahead k.id
  if n = 0 then decide (k.op = 3) || a.all fun x => decide (x.phase = .ended)
  else (a.all fun x => decide (x.phase = .issued) || decide (x.phase = .ended)) && (!k.flag 4 || a.isEmpty)

/-- COMMAND_READY (R397): the waits are read; when all are satisfied the command is ready, with its label's entry as it
stands (R407). -/
def execCommandReady (c : CmdRef) (s : State) : Host.Outcome State Fault Refusal :=
  .next (match s.job? c with
    | none => s
    | some j =>
      let t := (s.vd c.vd).stream c.stream
      if decide (j.k.phase ≠ .placed) || !t.starts || !t.next c.stream j.k || !j.k.asks.isEmpty || j.k.hold.isSome ||
        j.k.fault.isSome || (s.vd c.vd).fe.frozen || !(s.site j.i).up then s
      else
        let j := { j with kind := .frontEnd }
        let (r, s') := (j.waitsMet j.k.waits).run s
        match r with
        | .ok true => s'.onCmd c fun k => { k with
            phase := .ready, readyTime := (s.site j.i).time, got := [], lab := (s.vd c.vd).label k.label }
        | .ok false => s
        | .error (.fail st d) => s'.failAccess c st d
        | .error x => j.suspend s x)

/-- FENCE_REEVALUATE (R389): a waited fence is to be read again; what arrived of it before is not used. -/
def execFenceReevaluate (c : CmdRef) (s : State) : Host.Outcome State Fault Refusal :=
  .next (match s.cmd? c with
    | none => s
    | some k =>
      if k.phase = .placed ∧ k.asks.isEmpty ∧ k.waits ≠ [] then s.onCmd c fun k => { k with got := [] } else s)

/-! The end of a command -/

/-- All scalar engines of a SCALAR_RUN and all programs they launched have ended (R122). -/
def Core.scalarDone (k : Core) (r : CmdRef) : Bool :=
  (k.ses.all fun e => decide (e.cmd ≠ some r) || decide (e.mode = .ended) || decide (e.mode = .faulted)) &&
  (k.tickets.all fun t => decide (t.cmd ≠ some r) || t.running.isEmpty) &&
  (k.moves.all fun m => decide (m.cmd ≠ some r) || m.result.isSome)

/-- Result of a SCALAR_RUN: a scalar trap, a vector fault that nothing waited for, or the exit code of the lowest
started engine; engines by their numbers in the binding (R122). -/
def Site.scalarResult (t : Site) (p : Nat) (q : Option Nat) (r : CmdRef) : W16 × W16 :=
  let k := t.core p
  let mine := k.ses.zipIdx.filter fun e => decide (e.1.cmd = some r)
  match mine.find? fun e => decide (e.1.mode = .faulted) with
  | some e => (stProgramFault, BitVec.ofNat 16 (0x1000 + (e.2 - (seSpan q).1) * 256 + e.1.cause))
  | none =>
    let ends := (k.tickets.filter fun x => decide (x.cmd = some r)).flatMap (·.ends)
    let (lo, n) := veSpan q
    let bad := (List.range n).findSome? fun l => ends.findSome? fun x =>
      match x.2 with
      | .faulted c => if t.veMap p (lo + l) = x.1 then some (l, c) else none
      | _ => none
    match bad with
    | some (l, c) => (stProgramFault, BitVec.ofNat 16 (0x2000 + l * 256 + c))
    | none => (stOk, BitVec.ofNat 16 (((mine.head?).map fun e => e.1.exit.toNat).getD 0))

/-- Whether the work of an issued command is over (R141, R297). -/
def State.workOver (s : State) (j : Job) (c : CmdRef) : Bool :=
  if j.kind = .scalar ∧ !j.k.ran then (s.core j.i j.p).scalarDone c else j.k.ran && j.k.chainRows.isEmpty

/-- An issued command ends: its engines are free, its status and its times are recorded, and its fence signal is due
(R141, R297, R342, R418). -/
def State.endRun (s : State) (j : Job) (c : CmdRef) : State :=
  let scalar := decide (j.kind = .scalar) && !j.k.ran
  let (st, eng) := if scalar then (s.site j.i).scalarResult j.p j.q c else (j.k.status, j.k.eng)
  let last := if scalar then (s.site j.i).time else j.k.endTime
  let s := (s.freeEngines c).onCmd c fun k => { k with
    phase := .ended, ran := true, finalWr := true, status := st, eng := eng, endTime := last
    sig := k.sigAfter st, got := [] }
  s.account j.i c.vd c.stream fun a => { a with run := a.run + (last - j.k.issueTime) }

/-- COMMAND_END (R141, R297): the engine has reached its final result write or another end; it is free, and the signal
is due (R342). -/
def execCommandEnd (c : CmdRef) (s : State) : Host.Outcome State Fault Refusal :=
  .next (match s.job? c with
    | none => s
    | some j =>
      if decide (j.k.phase ≠ .issued) || j.k.forwarded || !s.workOver j c || !(s.site j.i).up || j.k.saved then s
      else s.endRun j c)

/-- A step change pauses the core of a command's engines, and its timeout (R575). -/
def State.pausedAt (s : State) (j : Job) : Bool :=
  (match j.kind with | .dma | .fabric | .frontEnd => false | _ => true) &&
  decide (s.fld j.i (rPwrCore j.p) Fld.pwrCorePaused = 1)

/-- COMMAND_TIMEOUT (R347): the command's engines are drained and it ends TIMEOUT. No timeout runs while it is saved
(R404, R579) or its core is paused (R575). -/
def execCommandTimeout (c : CmdRef) (s : State) : Host.Outcome State Fault Refusal :=
  .next (match s.job? c with
    | none => s
    | some j =>
      if decide (j.k.phase ≠ .issued) || j.k.finalWr || decide (c.stream = 0) || j.k.forwarded || j.k.saved ||
        s.pausedAt j then s
      else s.endWith c stTimeout (s.site j.i).time)

/-! Fence signals (R342, R387–R389) -/

/-- Raises a fence word at a memory port of this part: its old value. -/
def State.raiseWord (s : State) (b addr slot v : Nat) : Option (Except W16 Nat × State) :=
  if (s.site b).portHeld addr then none
  else match s.tierRead b addr 8 slot true true with
  | (.error st, s) => some (.error st, s)
  | (.ok x, s1) =>
    let old := leNat x
    if v ≤ old then some (.ok old, s1)
    else match s1.tierWrite b addr (leBytes 8 v) slot true true none with
      | none => none
      | some (.error st, s) => some (.error st, s)
      | some (.ok _, s) => some (.ok old, s)

/-- The signal is over; a value below the fence's was dropped, a regression (R387). -/
def State.signalled (s : State) (j : Job) (old v dva : Nat) : State :=
  let s := s.onCmd j.c fun k => { k with sig := .done, got := [] }
  if v < old then s.event j.v j.i 0x04 j.c.stream dva else s

/-- FENCE_SIGNAL (R342): the signal of an ended command is raised, by the memory port of its word or by the
compare-and-swap loop of R389. -/
def execFenceSignal (c : CmdRef) (s : State) : Host.Outcome State Fault Refusal :=
  .next (match s.job? c with
    | none => s
    | some j =>
      if decide (j.k.phase ≠ .ended) || decide (j.k.sig ≠ .waiting) || !j.k.asks.isEmpty || j.k.hold.isSome ||
        j.k.fault.isSome || (s.vd c.vd).fe.frozen || !(s.site j.i).up then s
      else
        let dva := fieldAt j.k.ext 32 8
        let v := fieldAt j.k.ext 40 8
        let j := { j with kind := .frontEnd }
        match (j.find dva 4).run s with
        | (.error (.fail st d), s) => s.failAccess c st d
        | (.error x, _) => j.suspend s x
        | (.ok p, s) =>
          if p.cls = .host then
            if !(s.site (s.homeSite c.vd)).atomicOps then s.failAccess c stHostError 0
            else match gotRun j.k.got p.addr 8 with
              | none => j.suspend s (.askHost p.addr 8)
              | some b =>
                let old := leNat b
                if v ≤ old then s.signalled j old v dva
                else if j.k.sigSeen = some (BitVec.ofNat 64 old) then
                  (s.onCmd c fun k => { k with sig := .done, got := [], sigSeen := none })
                else
                  (s.emit (.hostCas c.vd p.addr (BitVec.ofNat 64 old) (BitVec.ofNat 64 v))).onCmd c fun k => { k with
                    sigSeen := some (BitVec.ofNat 64 old), got := []
                    asks := k.asks ++ [⟨p.addr, 8, s.epochOf c.vd⟩] }
          else match s.here? p.dst with
            | some b =>
              if 8 ≤ b ∨ !s.joined j.i b then s.failAccess c stFabricTimeout 0
              else match s.raiseWord b p.addr j.slot v with
                | none => s
                | some (.ok old, s) => s.signalled j old v dva
                | some (.error st, s) => s.failAccess c st 0
            | none =>
              (s.onCmd c fun k => { k with
                sig := .sent
                unsent := [{ kind := .fence, dst := p.dst, addr := p.addr, len := 8, slot := j.slot, priv := true
                             payload := leBytes 8 v, epoch := s.epochOf c.vd }] }).pump c)

/-! Vectors (R355) -/

/-- MSIX_COALESCE_EXPIRY (R355). -/
def execMsixCoalesceExpiry (vd vec : Nat) (s : State) : Host.Outcome State Fault Refusal :=
  .next (if (s.vd vd).live ∧ 0 < ((s.vd vd).fe.vectors.getD vec {}).acc then s.sendVector vd vec else s)

/-- Unmasks a vector: a pending message is sent. -/
def State.unmask (s : State) (v n : Nat) : State :=
  let x := (s.vd v).fe.vectors.getD n {}
  let s := s.onFe v fun e => { e with vectors := e.vectors.modify n fun x => { x with masked := false, pend := false } }
  if x.pend then s.emit (.msix v n) else s

/-- MSIX_UNMASK (R355). -/
def execMsixUnmask (vd vec : Nat) (s : State) : Host.Outcome State Fault Refusal :=
  .next (if (s.vd vd).live ∧ ((s.vd vd).fe.vectors.getD vec {}).masked then s.unmask vd vec else s)

/-! Head registers (R330, R352, R364) -/

/-- FE_CQ_HEAD (R330). -/
def execFeCqHead (vd : Nat) (head : W32) (s : State) : Host.Outcome State Fault Refusal :=
  .next (if (s.vd vd).live then s.onRing vd 0 fun r => { r with cqHead := bitsOf head 15 0 } else s)

/-- FE_EQ_HEAD (R352): pending events are written into the entries released. -/
def execFeEqHead (vd : Nat) (head : W32) (s : State) : Host.Outcome State Fault Refusal :=
  .next (if (s.vd vd).live then
      (s.onFe vd fun e => { e with eq := { e.eq with head := bitsOf head 11 0 } }).flushEvents vd
    else s)

/-- FE_FQ_HEAD (R330). -/
def execFeFqHead (vd : Nat) (head : W32) (s : State) : Host.Outcome State Fault Refusal :=
  .next (if (s.vd vd).live then
      s.onFe vd fun e => { e with
        fq := { e.fq with head := bitsOf head 11 0 }, fqFull := none }
    else s)

/-- FE_NOEL_CQ_HEAD (R364): ignored in native mode and while the ring is disabled. -/
def execFeNoelCqHead (vd ring : Nat) (head : W32) (s : State) : Host.Outcome State Fault Refusal :=
  .next (if (s.vd vd).procRing ring then s.onRing vd ring fun r => { r with cqHead := bitsOf head 11 0 } else s)

/-! Setting ENABLE (R329) -/

/-- An outgoing ring's base and size are in range. -/
def ringOk (base log2 lo hi entry : Nat) : Bool :=
  decide (lo ≤ log2) && decide (log2 ≤ hi) && decide (base % (entry * 2 ^ log2) = 0) && decide (base < 2 ^ 57)

/-- The checks of R329. -/
def FrontEnd.ringsOk (e : FrontEnd) : Bool :=
  let r := e.rings.getD 0 {}
  decide (r.sqBase % 2 ^ 18 = 0) && decide (r.sqBase < 2 ^ 57) && ringOk r.cqBase r.cqLog2 8 16 32 &&
  ringOk e.eq.base e.eq.log2 8 12 32 && ringOk e.fq.base e.fq.log2 6 12 64 && decide (e.eq.vec < 32) && decide (e.fq.vec < 32)

/-- Completion-ring entries that placed commands of a ring hold. -/
def FrontEnd.reserved (e : FrontEnd) (ring : Nat) : Nat :=
  (e.streams.map fun t => (t.queue.filter fun k => decide (k.ring = ring)).length).foldl (· + ·) 0

/-- The native rings as runs of DVAs of address space 0 (R328): base and bytes. -/
def FrontEnd.ringRuns (e : FrontEnd) : List (Nat × Nat) :=
  let r := e.rings.getD 0 {}
  [(r.sqBase, 2 ^ 18), (r.cqBase, 32 * 2 ^ r.cqLog2), (e.eq.base, 32 * 2 ^ e.eq.log2), (e.fq.base, 64 * 2 ^ e.fq.log2)]

/-- The first mapping of the native rings. A ring must be mapped to a host object (R328), and the commands that create and
map objects come through the rings: the spec does not say how the first mapping is made. Where a virtual device has never
had an object, setting ENABLE finds each ring mapped, with read and write rights, to a host object of its own at a free
bus address (log entry 4). -/
def Vd.firstRings (d : Vd) (v rights : Nat) : Space :=
  if d.sp.objs ≠ [] ∨ d.sp.maps ≠ [] then d.sp
  else
    let runs := d.fe.ringRuns.zipIdx
    { d.sp with
      objs := runs.map fun (x, k) =>
        { index := k, cls := .host, size := x.2, bus := 4096 * (Config.ringBus v k).toNat }
      maps := runs.map fun (x, k) => ⟨0, x.1, x.2, 0, rights, k, 0⟩ }

/-- The rings start: their positions are cleared, the native ring's structures are formed, and stream 0 is ACTIVE. -/
def State.enableRings (s : State) (vd : Nat) : State :=
  let d := s.vd vd
  let s := s.onRing vd 0 fun r => { r with
    on := true, sqHead := 0, tail := 0, cqHead := 0, cqPos := 0, cqPhase := true, cqRes := d.fe.reserved 0
    fetched := [] }
  let s := s.onFe vd fun e => { e with
    cfgErr := false
    eq := { e.eq with head := 0, pos := 0, phase := true }
    fq := { e.fq with head := 0, pos := 0, phase := true } }
  let s := s.onVd vd fun d => { d with sp := d.firstRings vd (if (s.site (s.homeSite vd)).atomicOps then 7 else 3) }
  (s.onStream vd 0 fun t => { t with state := .active }).flushEvents vd

/-- RING_ENABLE (R329): refused to a TDI that is not in RUN (R447). -/
def execRingEnable (vd : Nat) (s : State) : Host.Outcome State Fault Refusal :=
  .next (
    let d := s.vd vd
    if !d.live || d.ringsOn then s
    else if !d.fe.ringsOk || !d.hostOpen then s.onFe vd fun e => { e with cfgErr := true }
    else s.enableRings vd)

/-- Whether a write of 0 to ENABLE takes effect (R329). -/
def Vd.mayDisable (d : Vd) : Bool :=
  d.fe.streams.zipIdx.all (fun (t, n) =>
    decide (t.state ≠ .draining) && (decide (n = 0) || decide (t.state ≠ .active))) &&
  decide ((d.stream 0).state = .active) && (d.stream 0).queue.isEmpty

/-- RING_DISABLE (R329). -/
def execRingDisable (vd : Nat) (s : State) : Host.Outcome State Fault Refusal :=
  .next (
    let d := s.vd vd
    if !d.live || !d.ringsOn || !d.mayDisable then s
    else
      (s.onRing vd 0 fun r => { r with on := false, fetched := [] }).onStream vd 0 fun t => { t with state := .free })

/-! Control-stream commands (R337, R338, R343, R344) -/

/-- A command that the front end itself runs has ended. -/
def State.endCtl (s : State) (c : CmdRef) (i : Nat) (st : W16) (detail : Nat) : State :=
  s.onCmd c fun k => { k with
    phase := .ended, ran := true, finalWr := true, wasIssued := true, status := st, detail := BitVec.ofNat 32 detail
    endTime := (s.site i).time, sig := k.sigAfter st }

/-- What a control command makes of itself: it ends, or waits for something. -/
inductive CtlEnd where
  | done (st : W16) (detail : Nat)
  | waits
  deriving DecidableEq, Repr, Inhabited

/-- A row in which the front end carries out a ready command; `body` changes the block and says how the command
stands. -/
def ctlRow (c : CmdRef) (op : Nat) (s : State) (body : Job → Run CtlEnd) : Host.Outcome State Fault Refusal :=
  .next (match s.job? c with
    | none => s
    | some j =>
      if decide (j.k.op ≠ op) || decide (j.k.phase ≠ .ready) || !j.k.asks.isEmpty || j.k.hold.isSome ||
        j.k.fault.isSome || (s.vd c.vd).fe.frozen || !(s.site j.i).up then s
      else
        match (body j).run s with
        | (.ok (.done st d), t) =>
          if (j.now t).unsent.isEmpty && decide ((t.site j.i).openTxns c = 0) then t.endCtl c j.i st d
          else ((t.onCmd c fun k => { k with
            phase := .issued, wasIssued := true, sentAll := true, status := st, detail := BitVec.ofNat 32 d }).pump
              c).settle j.i c
        | (.ok .waits, t) => t.onCmd c fun k => { k with phase := .issued, wasIssued := true }
        | (.error (.fail st d), t) => t.endCtl c j.i st d
        | (.error .wait, t) => t.pump c
        | (.error x, _) => j.suspend s x)

/-- Ends a control command with a failed check: no effect. -/
def ctlFail (st : W16) (detail : Nat := 0) : Run CtlEnd := pure (.done st detail)

/-- NOP (R343): the command does nothing but carry its extension. -/
def nopRun (j : Job) : Run CtlEnd :=
  match firstBad (reservedSet j.k.desc [(16, 48)]) with
  | some n => ctlFail stBadDescriptor n
  | none => pure (.done stOk 0)

/-- The row runs `nopRun`. -/
def execNop (c : CmdRef) (s : State) : Host.Outcome State Fault Refusal :=
  ctlRow c 0 s nopRun

/-- Streams that hold a hardware queue of an instance of this part (R336, R337). -/
def State.queuesOf (s : State) (inst : Nat) : Nat :=
  (s.vds.zipIdx.map fun (d, _) =>
    (d.fe.streams.zipIdx.filter fun (t, n) => decide (t.state ≠ .free) &&
      (if n = 0 then decide (d.home = s.partId * 8 + inst)
       else d.hold.units.any fun u => decide (u.num = t.unit) && decide (u.part = s.partId) && decide (u.inst = inst))).length).foldl
    (· + ·) 0

/-- STREAM_CREATE (R337). -/
def streamCreateRun (j : Job) : Run CtlEnd := do
  let s ← get
  let d := s.vd j.v
  let b := j.k.desc
  let (n, unit, vec, owner) := (fieldAt b 16 1, fieldAt b 17 1, bitsAt b 18 4 0, bitsAt b 19 5 0)
  let bad := firstBad ([
    (decide (n = 0), 16),
    (!d.hold.units.any fun u => decide (u.num = unit), 17),
    (decide (bitsAt b 18 7 5 ≠ 0), 18),
    (decide (bitsAt b 19 7 6 ≠ 0) || (!d.noelaver && decide (owner ≠ 0)), 19)] ++ reservedSet b [(20, 4), (32, 32)])
  if n ≠ 0 ∧ (d.stream n).state ≠ .free then ctlFail stStreamBusy
  else match bad with
    | some x => ctlFail stBadDescriptor x
    | none =>
      let inst := ((d.hold.units.find? fun u => decide (u.num = unit)).map (·.inst)).getD 0
      if 8192 ≤ s.queuesOf inst then ctlFail stNoQueue
      else
        set (s.onStream j.v n fun _ =>
          { state := .active, unit := unit, vec := vec, owner := owner, seed := BitVec.ofNat 64 (fieldAt b 24 8) })
        modify fun s => s.replicate j.v (some j.c) (leBytes 8 j.c.id ++ b)
        pure (.done stOk 0)

/-- The row runs `streamCreateRun`. -/
def execStreamCreate (c : CmdRef) (s : State) : Host.Outcome State Fault Refusal :=
  ctlRow c 1 s streamCreateRun

/-- Ends every placed command of a stream that has not been issued (R378). -/
def State.abortWaiting (s : State) (v n : Nat) : State :=
  ((s.vd v).stream n).queue.foldl (fun s k =>
    if k.phase = .placed ∨ k.phase = .ready then s.endWith ⟨v, n, k.id⟩ stAborted k.placeTime else s) s

/-- A stream enters DRAINING (R350, R378): commands not issued end ABORTED; held records are written where they can be,
and otherwise discarded. No resume wrote them, so HELD stays clear (R345). In reference-count mode they are suppressed. -/
def State.drainStream (s : State) (v n : Nat) : State :=
  let s := s.abortWaiting v n
  let s := s.onStream v n fun t => { t with state := .draining }
  (((s.vd v).stream n).queue.filter (·.held)).foldl (fun s k =>
    if (s.vd v).refcount then s.suppressRec ⟨v, n, k.id⟩ k true
    else match s.writeCpl ⟨v, n, k.id⟩ k false with
      | .ok s => s.unqueue ⟨v, n, k.id⟩
      | .error st => (s.suppressRec ⟨v, n, k.id⟩ k false).sinkLost v n st) s

/-- STREAM_DESTROY (R337, R375, R378): replies at once in reference-count mode, and otherwise when its stream is
free. -/
def streamDestroyRun (j : Job) : Run CtlEnd := do
  let s ← get
  let b := j.k.desc
  let n := fieldAt b 16 1
  match firstBad ([(decide (n = 0), 16)] ++ reservedSet b [(17, 47)]) with
  | some x => ctlFail stBadDescriptor x
  | none =>
    let st := ((s.vd j.v).stream n).state
    if st = .free ∨ st = .draining then ctlFail stBadStream
    else
      set (s.drainStream j.v n)
      pure (if (s.vd j.v).refcount then .done stOk 0 else .waits)

/-- The row runs `streamDestroyRun`. -/
def execStreamDestroy (c : CmdRef) (s : State) : Host.Outcome State Fault Refusal :=
  ctlRow c 2 s streamDestroyRun

/-- The matched commands of an abort (R348). -/
def Stream.matched (t : Stream) (all : Bool) (tag : Nat) : List Cmd :=
  t.queue.filter fun k => !k.badHeader && (all || decide (k.userTag = tag))

/-- Aborts one matched command: true when it was aborted, false when it was late (R348). -/
def State.abortCmd (s : State) (c : CmdRef) (k : Cmd) : State × Bool :=
  if k.phase = .ended ∨ k.finalWr then (s, false)
  else if k.forwarded then
    match s.unitOf c.vd c.stream with
    | some u => (s.control (s.homeSite c.vd) c.vd (u.part * 8 + u.inst) none .abort (leBytes 8 k.id ++ leBytes 1 c.stream), true)
    | none => (s, true)
  else
    let now := if k.phase = .issued then ((s.job? c).map fun j => (s.site j.i).time).getD 0 else k.placeTime
    (s.endWith c stAborted now, true)

/-- Aborts the matched commands of a stream: how many were aborted and how many were late. -/
def State.abortAll (s : State) (v n : Nat) (l : List Cmd) : State × Nat × Nat :=
  l.foldl (fun (s, a, b) k =>
    let (s, hit) := s.abortCmd ⟨v, n, k.id⟩ k
    if hit then (s, a + 1, b) else (s, a, b + 1)) (s, 0, 0)

/-- STREAM_ABORT (R348). -/
def streamAbortRun (j : Job) : Run CtlEnd := do
  let s ← get
  let b := j.k.desc
  let n := fieldAt b 16 1
  match firstBad ([(decide (n = 0), 16), (decide (bitsAt b 17 7 1 ≠ 0), 17)] ++ reservedSet b [(18, 6), (32, 32)]) with
  | some x => ctlFail stBadDescriptor x
  | none =>
    let t := (s.vd j.v).stream n
    if t.state = .free then ctlFail stBadStream
    else
      let (s, hit, late) := s.abortAll j.v n (t.matched (bitsAt b 17 0 0 = 1) (fieldAt b 24 8))
      set s
      pure (.done (if hit = 0 then stLateAbort else stOk) (hit % 65536 + late % 65536 * 65536))

/-- The row runs `streamAbortRun`. -/
def execStreamAbort (c : CmdRef) (s : State) : Host.Outcome State Fault Refusal :=
  ctlRow c 3 s streamAbortRun

/-- The unit table of SLICE_INFO (R338). -/
def Vd.unitTable (d : Vd) : Bytes :=
  let top := (d.hold.units.map (·.num + 1)).foldl max 0
  leBytes 1 top ++ leBytes 1 d.hold.parts.length ++ leBytes 1 d.noelaver.toNat ++ leBytes 1 d.refcount.toNat ++ zeros 4 ++
  (List.range top).flatMap fun n =>
    match d.hold.units.find? fun u => decide (u.num = n) with
    | none => 0xFF :: zeros 7
    | some u => leBytes 1 u.quad.isSome.toNat ++ leBytes 1 (d.partIdx u.part) ++ leBytes 1 u.inst ++
        leBytes 1 u.reel.toNat ++ zeros 4

/-- SLICE_INFO (R338). -/
def sliceInfoRun (j : Job) : Run CtlEnd := do
  let b := j.k.desc
  let dest := fieldAt b 16 8
  match firstBad ([(decide (dest % 4096 ≠ 0) || decide (2 ^ 57 ≤ dest), 16)] ++ reservedSet b [(24, 40)]) with
  | some x => ctlFail stBadDescriptor x
  | none =>
    j.putDva dest ((← get).vd j.v).unitTable
    pure (.done stOk 0)

/-- The row runs `sliceInfoRun`. -/
def execSliceInfo (c : CmdRef) (s : State) : Host.Outcome State Fault Refusal :=
  ctlRow c 4 s sliceInfoRun

/-- NOEL_RING_SET (R337): sets up a process ring, or disables it when SQ_BASE is 0. -/
def noelRingSetRun (j : Job) : Run CtlEnd := do
  let s ← get
  let b := j.k.desc
  let (r, lg, vec, sq, cq) := (fieldAt b 16 1, bitsAt b 17 3 0, bitsAt b 18 4 0, fieldAt b 24 8, fieldAt b 32 8)
  let off := decide (sq = 0)
  match firstBad ([
    (decide (r = 0) || decide (63 < r), 16),
    (decide (bitsAt b 17 7 4 ≠ 0) || (!off && (decide (lg < 8) || decide (12 < lg))), 17),
    (decide (bitsAt b 18 7 5 ≠ 0), 18),
    (decide (sq % 2 ^ 18 ≠ 0) || decide (2 ^ 57 ≤ sq), 24),
    (!off && (decide (cq % (32 * 2 ^ lg) ≠ 0) || decide (2 ^ 57 ≤ cq)), 32)] ++
    reservedSet b [(19, 5), (40, 24)]) with
  | some x => ctlFail stBadDescriptor x
  | none =>
    set (s.onRing j.v r fun x =>
      if off then { x with on := false, fetched := [] }
      else { on := true, sqBase := sq, cqBase := cq, cqLog2 := lg, vec := vec, cqRes := (s.vd j.v).fe.reserved r })
    pure (.done stOk 0)

/-- The row runs `noelRingSetRun`. -/
def execNoelRingSet (c : CmdRef) (s : State) : Host.Outcome State Fault Refusal :=
  ctlRow c 5 s noelRingSetRun

/-! Streams freed (R337, R350, R378) -/

/-- A stream's hardware queue is freed: the discarded records are reported, and the stream is FREE. -/
def State.freeStream (s : State) (v n : Nat) : State :=
  let t := (s.vd v).stream n
  let i := s.homeSite v
  let left := t.queue.length + t.suppressed
  let s := t.queue.foldl (fun s k => (s.dropRefs ⟨v, n, k.id⟩ k).releaseCpl v k.ring) s
  let s := s.onStream v n fun _ => {}
  let s := if left = 0 then s else s.event v i 0x03 n left
  s.event v i 0x0A n 0

/-- The streams of an address space's process are destroyed with it, and its ring is disabled, in Noelaver mode
(R374). -/
def State.ownerStreams (s : State) (v a : Nat) : State :=
  let d := s.vd v
  if !d.noelaver then s
  else
    let s := (List.range 256).foldl (fun s n =>
      let t := (s.vd v).stream n
      if n ≠ 0 ∧ t.owner = a ∧ t.state ≠ .free ∧ t.state ≠ .draining then s.drainStream v n else s) s
    s.onRing v a fun r => { r with on := false, fetched := [] }

/-- No stream of an address space's process is left. -/
def Vd.ownedGone (d : Vd) (a : Nat) : Bool :=
  !d.noelaver || (d.fe.streams.drop 1).all fun t => decide (t.owner ≠ a) || decide (t.state = .free)

/-- Ends the ASPACE_DESTROY commands that waited for their streams (R374, R375). -/
def State.endDestroys (s : State) (v : Nat) : State :=
  let d := s.vd v
  let ready := (d.stream 0).queue.filter fun k => decide (k.op = 0x11) && decide (k.phase = .issued) &&
    decide (k.progress = 1) && !k.ran && d.ownedGone (bitsAt k.desc 16 5 0)
  ready.foldl (fun s k => s.endCtl ⟨v, 0, k.id⟩ (s.homeSite v) stOk 0) s

/-- STREAM_FREED (R337): the last command of a draining stream is over; a destroy that waited replies. -/
def execStreamFreed (vd st : Nat) (s : State) : Host.Outcome State Fault Refusal :=
  .next (
    let t := (s.vd vd).stream st
    if !s.frontUp vd || decide (t.state ≠ .draining) || !t.queue.isEmpty || (s.vd vd).fe.frozen then s
    else
      let s := (s.freeStream vd st).endDestroys vd
      match ((s.vd vd).stream 0).queue.find? fun k =>
          decide (k.op = 2) && decide (k.phase = .issued) && decide (fieldAt k.desc 16 1 = st) with
      | some k => s.endCtl ⟨vd, 0, k.id⟩ (s.homeSite vd) stOk 0
      | none => s)

end Sys2Proof.Machine
end

