-- ==== Sys2Proof/Machine/Tensor.lean ====
section
/-! DEFINITION. The tensor array: the input formats and block scales (R49–R55, R74), block sums and accumulation
(R56–R60), sparse weights (R63–R65), the epilogue (R68–R72), the tile command and its checks (R73–R78). -/

namespace Sys2Proof.Machine

/-! Input formats (R51–R55, R74) -/

/-- How a format is scaled: plain, MX or Sward. -/
inductive Scaling where
  | plain | mx | sward
  deriving DecidableEq, Repr, Inhabited

/-- An input format: element bits, whether it is an integer, the element's encoding, and its scaling. -/
structure InFmt where
  bits : Nat
  int : Bool
  fmt : Fmt
  scaling : Scaling
  deriving DecidableEq, Repr, Inhabited

/-- The format code table of R74. -/
def inFmt (code : Nat) : Option InFmt :=
  match code with
  | 0x00 => some ⟨8, true, fp32, .plain⟩
  | 0x01 => some ⟨4, true, fp32, .plain⟩
  | 0x02 => some ⟨8, false, e4m3, .plain⟩
  | 0x03 => some ⟨8, false, e5m2, .plain⟩
  | 0x04 => some ⟨6, false, e2m3, .plain⟩
  | 0x05 => some ⟨6, false, e3m2, .plain⟩
  | 0x06 => some ⟨4, false, e2m1, .plain⟩
  | 0x08 => some ⟨8, false, e4m3, .mx⟩
  | 0x09 => some ⟨8, false, e5m2, .mx⟩
  | 0x0A => some ⟨6, false, e2m3, .mx⟩
  | 0x0B => some ⟨6, false, e3m2, .mx⟩
  | 0x0C => some ⟨4, false, e2m1, .mx⟩
  | 0x10 => some ⟨8, false, e4m3, .sward⟩
  | 0x11 => some ⟨4, false, e2m1, .sward⟩
  | 0x18 => some ⟨16, false, bf16, .plain⟩
  | 0x19 => some ⟨16, false, fp16, .plain⟩
  | _ => none

/-- Bytes of a scale entry (R54). -/
def InFmt.scaleBytes (f : InFmt) : Nat :=
  match f.scaling with
  | .plain => 0
  | .mx => 1
  | .sward => 2

/-- Bytes of a row of `n` elements (R51). -/
def rowBytes (bits n : Nat) : Nat := ceilDiv (n * bits) 8

/-- Bytes of a scale row over `k` elements (R54). -/
def InFmt.scaleRow (f : InFmt) (k : Nat) : Nat := roundUp (k / 32 * f.scaleBytes) 64

/-- The first `n` packed elements of a row (R51). -/
def unpack (bits : Nat) : Nat → Nat → List Nat
  | 0, _ => []
  | n + 1, x => x % 2 ^ bits :: unpack bits n (x >>> bits)

/-- Packs elements (R51). -/
def packBits (bits : Nat) (l : List Nat) : Nat := l.foldr (fun e x => e % 2 ^ bits + x <<< bits) 0

/-- The value of element `k` of a block under its scale word, without the block scale (R52, R53). -/
def InFmt.element (f : InFmt) (sw k e : Nat) : Fp :=
  match f.scaling with
  | .sward => (f.fmt.decode e).scale (-((((sw >>> (8 + 2 * (k / 8))) % 4 : Nat)) : Int))
  | _ => f.fmt.decode e

/-- The exponent of a block scale (R52, R53); 0 for plain formats. -/
def InFmt.exponent (f : InFmt) (sw : Nat) : Int :=
  match f.scaling with
  | .plain => 0
  | _ => ((sw % 256 : Nat) : Int) - 127

/-- The scale makes every element of the block NaN (R52, R53). -/
def InFmt.nanScale (f : InFmt) (sw : Nat) : Bool := decide (f.scaling ≠ .plain) && decide (sw % 256 = 0xFF)

/-- Whether a pair is valid (R55). -/
def validPair (a b : InFmt) : Bool :=
  decide (a.int = b.int) && decide (a.scaling = b.scaling) && (decide (a.bits ≠ 16) && decide (b.bits ≠ 16) || decide (a = b))

/-- Elements of K in a weight-stationary pass of a quadrant's or the whole array (R46, R65, R79). -/
def passK (quad : Bool) (a b : InFmt) (sparse : Bool) : Nat :=
  let full := if a.bits = 16 ∨ a.bits = 8 ∨ b.bits = 8 then 512 else 1024
  (if quad then full / 2 else full) * (if sparse then 2 else 1)

/-! Block sums (R56–R60) -/

/-- The bits of a product that the BF16 block field drops, for the largest product of the block (R57). -/
def cutProduct (top : Int) : Fp → Fp
  | .fin n m e => if e < top - 48 then .fin n (m >>> (top - 48 - e).toNat) (top - 48) else .fin n m e
  | x => x

/-- The exponent of a product's leading bit, if it is finite and not zero. -/
def leading : Fp → Option Int
  | .fin _ m e => if m = 0 then none else some ((Nat.log2 m : Int) + e)
  | _ => none

/-- The sum of a block's products under R56, R57 and R59. -/
def blockSum (cut : Bool) (ps : List Fp) : Fp :=
  if ps.any (·.isNan) then .nan false
  else
    let infs := ps.filterMap fun p => match p with | .inf n => some n | _ => none
    match infs with
    | n :: r => if r.any (· != n) then .nan false else .inf n
    | [] =>
      let ps := if cut then
          match (ps.filterMap leading).max? with
          | some top => ps.map (cutProduct top)
          | none => ps
        else ps
      ps.foldl (fun s p => (s.add false p).1) (.fin false 0 0)

/-- The numeric flags of R78 as a mask. -/
def nanIn : W16 := 1
def infIn : W16 := 2
def accOvf : W16 := 4
def outSat : W16 := 8
def outNanLost : W16 := 16
def intSat : W16 := 32
def badMeta : W16 := 64

/-- One fused step of R60: the block sum, scaled, added to the accumulator and rounded once. -/
def fusedAdd (acc : Nat) (sum : Fp) : Nat × W16 :=
  if sum.isZero then (acc, 0)
  else
    let (r, f) := fp32.ieee .rne ((sum.add false (fp32.decode acc)).1)
    let fin := fun x : Fp => match x with | .fin .. => true | _ => false
    (r, if f.of && fin sum && fin (fp32.decode acc) then accOvf else 0)

/-- NAN_IN and INF_IN of the operands of a block. -/
def operandFlags (l : List Fp) : W16 :=
  l.foldl (fun f x => match x with | .nan _ => f ||| nanIn | .inf _ => f ||| infIn | _ => f) 0

/-- One block of one output element: values of A and of B (none where sparse B keeps nothing), scale words, and the
accumulator (R59, R60). -/
def blockStep (fa fb : InFmt) (sa sb : Nat) (a : List Fp) (b : List (Option Fp)) (acc : Nat) : Nat × W16 :=
  if fa.nanScale sa || fb.nanScale sb then
    let (r, f) := fusedAdd acc (.nan false)
    (r, f ||| nanIn)
  else
    let pairs := (a.zip b).filterMap fun (x, y) => y.map fun y => (x, y)
    let sum := blockSum (fa.fmt = bf16 && decide (fa.bits = 16)) (pairs.map fun (x, y) => (x.mul y).1)
    let (r, f) := fusedAdd acc (sum.scale (fa.exponent sa + fb.exponent sb))
    (r, f ||| operandFlags (pairs.flatMap fun (x, y) => [x, y]))

/-- An INT32 sum saturates (R58). -/
def satInt (x : Int) : Int × W16 :=
  let (c, o) := clampInt 32 x
  (c, if o then intSat else 0)

/-- One output element of an integer command over a run of K, from an accumulator value. -/
def intDot (a : List Int) (b : List (Option Int)) (acc : Int) : Int × W16 :=
  (a.zip b).foldl (fun (s, f) (x, y) =>
    match y with
    | some y => let (r, g) := satInt (s + x * y); (r, f ||| g)
    | none => (s, f)) (acc, 0)

/-! Operands of a pass -/

/-- A row of A or column of B over a pass: element codes, none for a position a sparse B does not keep, and the scale
words of its blocks. -/
structure Strip where
  els : List (Option Nat)
  scales : List Nat
  deriving DecidableEq, Repr, Inhabited

/-- Splits a list into runs of `n`. -/
def chunksOf {α : Type} (n : Nat) (l : List α) : List (List α) :=
  (List.range (ceilDiv l.length (max 1 n))).map fun k => (l.drop (k * n)).take n

/-- The values of a strip's blocks. -/
def Strip.values (f : InFmt) (x : Strip) : List (List (Option Fp)) :=
  (chunksOf 32 x.els).zipIdx.map fun (l, b) =>
    l.zipIdx.map fun (e, k) => e.map (f.element (x.scales.getD b 0) k)

/-- The signed integers of a strip. -/
def Strip.ints (f : InFmt) (x : Strip) : List (Option Int) := x.els.map fun e => e.map (toSigned f.bits)

/-- One output element over a pass: the accumulator word and the flags (R58, R60). -/
def dotStep (fa fb : InFmt) (a b : Strip) (acc : Nat) : Nat × W16 :=
  if fa.int then
    let (r, f) := intDot ((a.ints fa).map (·.getD 0)) (b.ints fb) (toSigned 32 acc)
    (wrapNat 32 r, f)
  else
    let av := a.values fa
    let bv := b.values fb
    (av.zip bv).zipIdx.foldl (fun (acc, f) ((x, y), k) =>
      let (r, g) := blockStep fa fb (a.scales.getD k 0) (b.scales.getD k 0) (x.map (·.getD default)) y acc
      (r, f ||| g)) (acc, 0)

/-! The accumulator buffer (R66, R79) -/

/-- Columns of an accumulator row. -/
def accCols (q : Option Nat) : Nat := if q.isSome then 256 else 512

/-- Rows of the accumulator. -/
def accRows (q : Option Nat) : Nat := if q.isSome then 1024 else 2048

/-- Byte address of an accumulator word. -/
def accAddr (q : Option Nat) (r n : Nat) : Nat :=
  match q with
  | none => (r * 512 + n) * 4
  | some q => q * 1048576 + (r * 256 + n) * 4

/-- Reads the first `n` words of an accumulator row. -/
def Core.accRow (c : Core) (q : Option Nat) (r n : Nat) : List Nat :=
  let b := c.acc.read (accAddr q r 0) (4 * n)
  (List.range n).map fun k => fieldAt b (4 * k) 4

/-- Writes them. -/
def Core.setAccRow (c : Core) (q : Option Nat) (r : Nat) (l : List Nat) : Core :=
  { c with acc := c.acc.write (accAddr q r 0) (l.flatMap (leBytes 4)) }

/-! The epilogue (R68–R71) -/

/-- Bits of an output format (R75). -/
def outBits (f : Nat) : Nat := if f = 0 ∨ f = 6 then 32 else if f ≤ 2 then 16 else 8

/-- The floating-point output formats. -/
def outFmt (f : Nat) : Fmt :=
  if f = 0 then fp32 else if f = 1 then bf16 else if f = 2 then fp16 else if f = 3 then e4m3 else e5m2

/-- Rounding of an output element: mode, with its draw where it is stochastic (R71, R75). -/
def outRm (round : Nat) (draw : Nat) : Rm := if round = 0 then .rne else if round = 1 then .rtz else .sto draw

/-- Conversion of an FP32 value to OUT_FMT (R70). -/
def convOut (f : Nat) (rm : Rm) (sat : Bool) (x : Fp) : Nat × W16 :=
  if f = 5 ∨ f = 6 then
    let (v, g) := x.toInt (outBits f) rm
    (wrapNat (outBits f) v, (if g.sat then outSat else 0) ||| (if x.isNan then outNanLost else 0))
  else
    let (v, g) := (outFmt f).convert rm sat x
    (v, if g.sat then outSat else 0)

/-- The value of an element in OUT_FMT, as the residual is read (step 6 of R68). -/
def outValue (f e : Nat) : Fp :=
  if f = 5 then .ofInt (toSigned 8 e) else if f = 6 then .ofInt (toSigned 32 e) else (outFmt f).decode e

/-- One FP32 operation of the epilogue. -/
def epi (x : Fp) : Fp := fp32.decode (fp32.ieee .rne x).1

/-- The tile descriptor (R73). -/
structure Tile where
  a : Nat
  b : Nat
  aScale : Nat
  bScale : Nat
  meta' : Nat
  out : Nat
  epiAddr : Nat
  m : Nat
  n : Nat
  k : Nat
  aStride : Nat
  bStride : Nat
  outStride : Nat
  fa : Option InFmt
  fb : Option InFmt
  sat : Bool
  round : Nat
  outF : Nat
  flags : Nat
  final : Bool
  keep : Bool
  accRow : Nat
  port : Nat
  chain : Bool
  sparse : Bool
  os : Bool
  deriving DecidableEq, Repr, Inhabited

/-- Reads the body of a TENSOR_TILE. -/
def Tile.of (b : Bytes) : Tile :=
  let ctl := BitVec.ofNat 16 (fieldAt b 60 2)
  let mode := BitVec.ofNat 16 (fieldAt b 62 2)
  { a := fieldAt b 16 4, b := fieldAt b 20 4, aScale := fieldAt b 24 4, bScale := fieldAt b 28 4
    meta' := fieldAt b 32 4, out := fieldAt b 36 4, epiAddr := fieldAt b 40 4
    m := fieldAt b 44 2, n := fieldAt b 46 2, k := 32 * fieldAt b 48 2
    aStride := 64 * fieldAt b 50 2, bStride := 64 * fieldAt b 52 2, outStride := 64 * fieldAt b 54 2
    fa := inFmt (bitsAt b 56 4 0), fb := inFmt (bitsAt b 57 4 0)
    sat := decide (bitsAt b 58 6 6 = 1), round := bitsAt b 58 5 4, outF := bitsAt b 58 3 0, flags := bitsAt b 59 5 0
    final := bitOf ctl 12, keep := bitOf ctl 11, accRow := bitsOf ctl 10 0
    port := bitsOf mode 3 3, chain := bitOf mode 2, sparse := bitOf mode 1, os := bitOf mode 0 }

/-- The epilogue reads its parameter block (R69). -/
def Tile.block (t : Tile) : Bool := decide (t.flags ≠ 0) || decide (t.round = 2)

/-- Epilogue step `n` is on. -/
def Tile.epi (t : Tile) (n : Nat) : Bool := t.flags.testBit n

/-- Bytes of an output row. -/
def Tile.outRow (t : Tile) : Nat := rowBytes (outBits t.outF) t.n

/-- A range of rows at a stride reaches past the binding. -/
def rowsPast (lim addr rows stride row : Nat) : Bool := decide (lim < addr + (rows - 1) * stride + row)

/-- The BAD_DESCRIPTOR checks of the body itself (R76). -/
def Tile.bad (t : Tile) (b : Bytes) (q : Option Nat) : List Check :=
  let lim := bindingSize q
  let fa := t.fa.getD default
  let fb := t.fb.getD default
  let scaledA := decide (fa.scaling ≠ .plain)
  let scaledB := decide (fb.scaling ≠ .plain)
  let store := t.final && !t.chain
  let meta64 := roundUp (t.k / 8) 64
  [(decide (t.a % 64 ≠ 0), 16), (decide (t.b % 64 ≠ 0), 20),
   (scaledA && decide (t.aScale % 64 ≠ 0), 24), (scaledB && decide (t.bScale % 64 ≠ 0), 28),
   (t.sparse && decide (t.meta' % 64 ≠ 0), 32), (store && decide (t.out % 64 ≠ 0), 36),
   (t.block && (decide (t.epiAddr % 64 ≠ 0) || decide (lim < t.epiAddr + 64)), 40)] ++
  [(decide (t.m = 0) || decide (accRows q < t.accRow + t.m) || rowsPast lim t.a t.m t.aStride (rowBytes fa.bits t.k) ||
      (scaledA && decide (lim < t.aScale + t.m * fa.scaleRow t.k)) ||
      (store && rowsPast lim t.out t.m t.outStride t.outRow), 44),
   (decide (t.n = 0) || decide (accCols q < t.n) || (scaledB && decide (lim < t.bScale + t.n * fb.scaleRow t.k)) ||
      (t.sparse && decide (lim < t.meta' + t.n * meta64)), 46),
   (decide (t.k = 0) ||
      rowsPast lim t.b (if t.sparse then t.k / 2 else t.k) t.bStride (rowBytes fb.bits t.n), 48),
   (decide (t.aStride < rowBytes fa.bits t.k), 50), (decide (t.bStride < rowBytes fb.bits t.n), 52),
   ((store || t.epi 4) && decide (t.outStride < t.outRow), 54)] ++
  [(decide (bitsAt b 56 7 5 ≠ 0) || t.fa.isNone, 56), (decide (bitsAt b 57 7 5 ≠ 0) || t.fb.isNone, 57),
   (decide (bitsAt b 58 7 7 ≠ 0) || decide (t.round = 3) || decide (6 < t.outF), 58),
   (decide (bitsAt b 59 7 6 ≠ 0), 59), (decide (fieldAt b 60 2 / 8192 ≠ 0), 60),
   (decide (fieldAt b 62 2 / 16 ≠ 0) || (t.chain && (match q with | some q => decide (t.port ≠ q / 2) | none => false)),
      62)]

/-- The epilogue parameter block (R69). -/
structure Epi where
  alpha : Nat
  lo : Nat
  hi : Nat
  row : Nat
  col : Nat
  bias : Nat
  resid : Nat
  off : Nat
  deriving DecidableEq, Repr, Inhabited

/-- Reads the block. -/
def Epi.of (b : Bytes) : Epi :=
  { alpha := fieldAt b 0 4, lo := fieldAt b 4 4, hi := fieldAt b 8 4, row := fieldAt b 16 4, col := fieldAt b 20 4
    bias := fieldAt b 24 4, resid := fieldAt b 28 4, off := fieldAt b 32 8 }

/-- The checks of the block (R76), by offsets in it. -/
def Tile.badBlock (t : Tile) (b : Bytes) (q : Option Nat) : List Check :=
  let lim := bindingSize q
  let e := Epi.of b
  let at' (n addr len : Nat) : Bool := t.epi n && (decide (addr % 64 ≠ 0) || decide (lim < addr + len))
  [(at' 1 e.row (4 * t.m), 16), (at' 2 e.col (4 * t.n), 20),
   (at' 3 e.bias (4 * t.n), 24), (at' 4 e.resid ((t.m - 1) * t.outStride + t.outRow), 28)] ++
  reservedSet b [(12, 4), (40, 24)]

/-- The checks of R76 in the order of R596. -/
def Job.checkTile (j : Job) : Run (Option (W16 × Nat)) := do
  let b := j.k.desc
  let t := Tile.of b
  let own := firstBad (t.bad b j.q)
  let reads := t.block && decide (t.epiAddr % 64 = 0) && decide (t.epiAddr + 64 ≤ bindingSize j.q)
  let blk ← if reads then j.getCm t.epiAddr 64 else pure (zeros 64)
  let inner := if reads then firstBad (t.badBlock blk j.q) else none
  match own, inner with
  | some n, some x => pure (some (stBadDescriptor, if n ≤ 40 then n else blockDetail 40 x))
  | some n, none => pure (some (stBadDescriptor, n))
  | none, some x => pure (some (stBadDescriptor, blockDetail 40 x))
  | none, none =>
    let fa := t.fa.getD default
    let fb := t.fb.getD default
    let noSparse := t.os || decide (fa.bits = 16) || decide (fa.bits = 6) || decide (fb.bits = 6)
    if !validPair fa fb || (t.sparse && noSparse) then pure (some (stUnsupported, 0)) else pure none

/-! Running a tile -/

/-- The scale words of blocks `lo … lo + n − 1` of a scale row. -/
def Job.scaleWords (j : Job) (f : InFmt) (addr lo n : Nat) : Run (List Nat) := do
  if f.scaling = .plain then pure []
  else
    let w := f.scaleBytes
    let b ← j.getCm (addr + lo * w) (n * w)
    pure ((List.range n).map fun k => fieldAt b (k * w) w)

/-- Row `m` of A over `[k0, k1)`. -/
def Job.stripA (j : Job) (t : Tile) (f : InFmt) (k0 k1 m : Nat) : Run Strip := do
  let b ← j.getCm (t.a + m * t.aStride + k0 * f.bits / 8) ((k1 - k0) * f.bits / 8)
  let sc ← j.scaleWords f (t.aScale + m * f.scaleRow t.k) (k0 / 32) ((k1 - k0) / 32)
  pure ⟨(unpack f.bits (k1 - k0) (leNat b)).map some, sc⟩

/-- The positions of a column of sparse B from its kept values and metadata nibbles (R63, R64). -/
def spreadColumn (kept nibbles : List Nat) : List (Option Nat) :=
  nibbles.zipIdx.flatMap fun (x, g) =>
    let (i, k) := if x % 4 < x / 4 % 4 then (x % 4, x / 4 % 4) else (0, 1)
    (List.range 4).map fun p => if p = i then kept[2 * g]? else if p = k then kept[2 * g + 1]? else none

/-- The columns of B over `[k0, k1)`, and whether a nibble was malformed. -/
def Job.stripsB (j : Job) (t : Tile) (f : InFmt) (k0 k1 : Nat) : Run (List Strip × W16) := do
  let d := if t.sparse then 2 else 1
  let rows ← (List.range ((k1 - k0) / d)).mapM fun r => do
    let b ← j.getCm (t.b + (k0 / d + r) * t.bStride) (rowBytes f.bits t.n)
    pure (unpack f.bits t.n (leNat b))
  let cols := (List.range t.n).map fun n => rows.map fun r => r.getD n 0
  let out ← cols.zipIdx.mapM fun (c, n) => do
    let sc ← j.scaleWords f (t.bScale + n * f.scaleRow t.k) (k0 / 32) ((k1 - k0) / 32)
    if t.sparse then
      let b ← j.getCm (t.meta' + n * roundUp (t.k / 8) 64 + k0 / 8) ((k1 - k0) / 8)
      let nib := unpack 4 ((k1 - k0) / 4) (leNat b)
      pure ((⟨spreadColumn c nib, sc⟩ : Strip), if nib.any fun x => decide (x / 4 % 4 ≤ x % 4) then badMeta else 0)
    else pure ((⟨c.map some, sc⟩ : Strip), 0)
  pure (out.map (·.1), out.foldl (fun f x => f ||| x.2) 0)

/-- One pass over `[k0, k1)`: reads its operands, then accumulates onto the words that `start` gives each row. -/
def Job.pass (j : Job) (t : Tile) (fa fb : InFmt) (k0 k1 : Nat) (start : Nat → List Nat) : Run (List (List Nat)) := do
  let as' ← (List.range t.m).mapM (j.stripA t fa k0 k1)
  let (bs, f) ← j.stripsB t fb k0 k1
  let rows := as'.zipIdx.map fun (a, m) => (bs.zip (start m)).map fun (b, w) => dotStep fa fb a b w
  j.flags (f ||| rows.foldl (fun f r => r.foldl (fun f x => f ||| x.2) f) 0)
  pure (rows.map fun r => r.map (·.1))

/-- Stores accumulator rows. -/
def Job.putAcc (j : Job) (row : Nat) (rows : List (List Nat)) : Run Unit :=
  modify fun s => s.onCore j.i j.p fun c => rows.zipIdx.foldl (fun c (l, m) => c.setAccRow j.q (row + m) l) c

/-- The accumulator words of a row. -/
def Job.acc (j : Job) (s : State) (row n : Nat) : List Nat := (s.core j.i j.p).accRow j.q row n

/-- The weight-stationary passes (R47, R60, R67). -/
def Job.passesWs (j : Job) (t : Tile) (fa fb : InFmt) : List Nat → Run Unit
  | [] => pure ()
  | p :: r => do
    let len := passK j.q.isSome fa fb t.sparse
    let s ← get
    let start (m : Nat) : List Nat :=
      if p = 0 ∧ !t.keep then List.replicate t.n 0 else j.acc s (t.accRow + m) t.n
    let rows ← j.pass t fa fb (p * len) (min t.k (p * len + len)) start
    j.putAcc t.accRow rows
    j.passesWs t fa fb r

/-- The drain of an output-stationary cell onto its word with KEEP set (R48). -/
def drainCell (int : Bool) (cell word : Nat) : Nat × W16 :=
  if cell = 0 then (word, 0)
  else if int then
    let (r, f) := satInt (toSigned 32 word + toSigned 32 cell)
    (wrapNat 32 r, f)
  else
    let (x, y) := (fp32.decode cell, fp32.decode word)
    let (r, f) := fp32.ieee .rne (x.add false y).1
    let fin := fun x : Fp => match x with | .fin .. => true | _ => false
    (r, if f.of && fin x && fin y then accOvf else 0)

/-- The output-stationary tile and its drain (R48). -/
def Job.passOs (j : Job) (t : Tile) (fa fb : InFmt) : Run Unit := do
  let rows ← j.pass t fa fb 0 t.k fun _ => List.replicate t.n 0
  if t.keep then
    let s ← get
    let sums := rows.zipIdx.map fun (r, m) => (r.zip (j.acc s (t.accRow + m) t.n)).map fun (x, w) => drainCell fa.int x w
    j.flags (sums.foldl (fun f r => r.foldl (fun f x => f ||| x.2) f) 0)
    j.putAcc t.accRow (sums.map fun r => r.map (·.1))
  else j.putAcc t.accRow rows

/-- `n` FP32 values of core memory, if the step is on. -/
def Job.floats (j : Job) (on : Bool) (addr n : Nat) : Run (List Fp) := do
  if on then
    let b ← j.getCm addr (4 * n)
    pure ((List.range n).map fun k => fp32.decode (fieldAt b (4 * k) 4))
  else pure []

/-- One output element through the epilogue (R68). -/
def epiElem (t : Tile) (e : Epi) (int : Bool) (rowS colS bias resid : Fp) (draw word : Nat) : Nat × W16 :=
  if int && decide (t.outF = 6) && decide (t.flags = 0) then (word, 0)
  else
    let x := if int then epi (.ofInt (toSigned 32 word)) else fp32.decode word
    let x := if t.epi 0 then epi (x.mul (fp32.decode e.alpha)).1 else x
    let x := if t.epi 1 then epi (x.mul rowS).1 else x
    let x := if t.epi 2 then epi (x.mul colS).1 else x
    let x := if t.epi 3 then epi (x.add false bias).1 else x
    let x := if t.epi 4 then epi (x.add false resid).1 else x
    let x := if t.epi 5 then
        let (lo, hi) := (fp32.decode e.lo, fp32.decode e.hi)
        if x.isNan then x else if x.lt lo then lo else if hi.lt x then hi else x
      else x
    convOut t.outF (outRm t.round draw) t.sat x

/-- The epilogue: column scales and biases, then row by row its scale and residual, and the row's output. -/
def Job.epilogue (j : Job) (t : Tile) (int : Bool) : Run Unit := do
  let seed := (← get).seedOf (some j.c)
  let e ← if t.block then (do let b ← j.getCm t.epiAddr 64; pure (Epi.of b)) else pure default
  let cols ← j.floats (t.epi 2) e.col t.n
  let bias ← j.floats (t.epi 3) e.bias t.n
  (List.range t.m).forM fun m => do
    let rowS ← j.floats (t.epi 1) (e.row + 4 * m) 1
    let resid ← if t.epi 4 then (do
        let b ← j.getCm (e.resid + m * t.outStride) t.outRow
        pure ((unpack (outBits t.outF) t.n (leNat b)).map (outValue t.outF))) else pure []
    let words := j.acc (← get) (t.accRow + m) t.n
    let outs := words.zipIdx.map fun (w, n) =>
      let draw := if t.round = 2 then drawFor seed e.off (m * t.n + n) else 0
      epiElem t e int (rowS.getD 0 default) (cols.getD n default) (bias.getD n default) (resid.getD n default) draw w
    j.flags (outs.foldl (fun f x => f ||| x.2) 0)
    let row := leBytes t.outRow (packBits (outBits t.outF) (outs.map (·.1)))
    if t.chain then modify fun s => s.onCmd j.c fun k => { k with chainRows := k.chainRows ++ [(m, row)] }
    else j.putCm (t.out + m * t.outStride) row

/-- The half of the chaining port a tile command feeds (R72, R111). -/
def Tile.half (t : Tile) (q : Option Nat) : Nat :=
  match q with
  | none => 2 * t.port
  | some q => q

/-- TENSOR_TILE (R47, R48, R67, R72, R86). -/
def tensorTileRun (j : Job) : Run (W16 × W16 × Nat) := do
  match ← j.checkTile with
  | some (st, d) => pure (st, 0, d)
  | none =>
    let t := Tile.of j.k.desc
    let fa := t.fa.getD default
    let fb := t.fb.getD default
    if t.os then j.passOs t fa fb
    else j.passesWs t fa fb (List.range (ceilDiv t.k (passK j.q.isSome fa fb t.sparse)))
    if t.final then
      if t.chain then
        modify fun s => s.onCore j.i j.p fun k => { k with
          halves := k.halves.modify (t.half j.q) fun h => { h with cmd := some j.c } }
      j.epilogue t fa.int
    pure (stOk, (j.now (← get)).eng, 0)

/-- The row runs `tensorTileRun`. -/
def execTensorTile (c : CmdRef) (s : State) : Host.Outcome State Fault Refusal :=
  runRow c 0x100 s tensorTileRun

end Sys2Proof.Machine
end

