-- ==== Sys2Proof/Machine/Zoo.lean ====
section
/-! DEFINITION. The fixed-function engines of a core and the expert router: attention (R143–R150), routing (R151–R155),
selection and sampling (R156–R160), gather, scatter and combine (R161–R164), layout (R165–R167) and the codec with its
Bale format (R168–R173). -/

namespace Sys2Proof.Machine

/-! FP32 steps -/

/-- Rounds an exact value to FP32. -/
def f32 (x : Fp × Bool) : Fp := fp32.decode (fp32.ieee .rne x.1).1

/-- FP32 addition, multiplication and division, to nearest even. -/
def fAdd (a b : Fp) : Fp := f32 (a.add false b)
def fSub (a b : Fp) : Fp := f32 (a.add false b.neg)
def fMul (a b : Fp) : Fp := f32 (a.mul b)
def fDiv (a b : Fp) : Fp := let (q, i, _) := a.div b; f32 (q, i)

/-- The exponential and the logarithm, of VEXP and VLOG (R105, R147). -/
def fExp (x : Fp) : Fp := (transc 0 x).1
def fLog (x : Fp) : Fp := (transc 1 x).1

/-- The FP32 encoding. -/
def f32bits (x : Fp) : Nat := (fp32.convert .rne false x).1

/-- Zero. -/
def fZero : Fp := .fin false 0 0

/-! Attention -/

/-- The ATTENTION descriptor (R143). -/
structure Att where
  q : Nat
  o : Nat
  stage : Nat
  lse : Nat
  pages : Nat
  tokens : Nat
  pos0 : Nat
  scale : Nat
  window : Nat
  m : Nat
  g : Nat
  d : Nat
  code : Nat
  sat : Bool
  round : Nat
  outF : Nat
  wantLse : Bool
  mask : Nat
  row : Nat
  deriving DecidableEq, Repr

/-- Reads the body. -/
def Att.of (b : Bytes) : Att :=
  { q := fieldAt b 16 4, o := fieldAt b 20 4, stage := fieldAt b 24 4, lse := fieldAt b 28 4, pages := fieldAt b 32 8
    tokens := fieldAt b 40 4, pos0 := fieldAt b 44 4, scale := fieldAt b 48 4, window := fieldAt b 52 2
    m := fieldAt b 54 2, g := bitsAt b 56 7 4 + 1, d := 32 * bitsAt b 56 3 0, code := bitsAt b 57 4 0
    sat := decide (bitsAt b 58 6 6 = 1), round := bitsAt b 58 5 4, outF := bitsAt b 58 3 0
    wantLse := decide (bitsAt b 59 2 2 = 1), mask := bitsAt b 59 1 0, row := fieldAt b 60 2 % 2048 }

/-- The format of Q, K and V. -/
def Att.fmt (a : Att) : InFmt := (inFmt a.code).getD default

/-- Query rows. -/
def Att.rows (a : Att) : Nat := a.m * a.g

/-- Bytes of an element row of Q, K or V (R144, R145). -/
def Att.rb (a : Att) : Nat := roundUp (rowBytes a.fmt.bits a.d) 64

/-- Bytes of an output row. -/
def Att.ob (a : Att) : Nat := roundUp (rowBytes (outBits a.outF) a.d) 64

/-- Bytes of a K page and of a V page (R145). -/
def Att.kPage (a : Att) : Nat := 64 * a.rb + (if a.fmt.scaling = .sward then 64 * a.fmt.scaleRow a.d else 0)
def Att.vPage (a : Att) : Nat := 64 * a.rb + (if a.fmt.scaling = .sward then 2 * roundUp (2 * a.d) 64 else 0)

/-- Pages of the list. -/
def Att.count (a : Att) : Nat := ceilDiv a.tokens 64

/-- Pages of a chunk (R149). -/
def chunkPages (q : Option Nat) : Nat := if q.isSome then 4 else 8

/-- Bytes of a row of the block mask, and of all its rows (R146). -/
def Att.maskRow (a : Att) : Nat := roundUp (ceilDiv a.count 8) 64
def Att.maskBytes (a : Att) : Nat := if a.mask = 3 then ceilDiv a.m 64 * a.maskRow else 0

/-- The checks of R137, R143–R145 and R148. -/
def Job.checkAttention (j : Job) : Run (Option (W16 × Nat)) := do
  let s ← get
  let b := j.k.desc
  let a := Att.of b
  let lim := bindingSize j.q
  let stage := a.maskBytes + 2 * chunkPages j.q * (a.kPage + a.vPage)
  let qBytes := a.rows * a.rb + (if a.fmt.scaling = .sward then a.rows * a.fmt.scaleRow a.d else 0)
  let bad := firstBad ([
    (decide (a.q % 64 ≠ 0) || decide (lim < a.q), 16), (decide (a.o % 64 ≠ 0) || decide (lim < a.o), 20),
    (decide (a.stage % 64 ≠ 0) || decide (lim < a.stage + stage), 24),
    (a.wantLse && (decide (a.lse % 64 ≠ 0) || decide (lim < a.lse)), 28),
    (badEa a.pages || decide (eaSpace a.pages = 1), 32),
    (decide (a.tokens = 0) || decide (2 ^ 24 < a.tokens) || j.past s a.pages (16 * a.count), 40)] ++
    [(decide (a.mask = 2) && decide (a.window = 0), 52),
     (decide (a.m = 0) || decide (accRows j.q < a.rows) || decide (accRows j.q < a.row + a.rows) ||
       decide (lim < a.q + qBytes) || decide (lim < a.o + a.rows * a.ob) ||
       (a.wantLse && decide (lim < a.lse + 4 * a.rows)), 54),
     (decide (a.d = 0) || decide (256 < a.d), 56),
     (decide (bitsAt b 57 7 5 ≠ 0) || (inFmt a.code).isNone, 57),
     (decide (bitsAt b 58 7 7 ≠ 0) || decide (a.round = 3) || decide (6 < a.outF), 58),
     (decide (bitsAt b 59 7 3 ≠ 0), 59), (decide (fieldAt b 60 2 / 2048 ≠ 0), 60)] ++ reservedSet b [(62, 2)])
  match bad with
  | some n => pure (some (stBadDescriptor, n))
  | none =>
    let listed := [0x02, 0x03, 0x10, 0x18].contains a.code && decide (a.outF ≤ 3) && decide (a.round ≠ 2)
    pure (if listed then none else some (stUnsupported, 0))

/-- The exponent of the leading bit of the largest magnitude, if any value is not zero. -/
def topExp (l : List Fp) : Option Int := (l.filterMap leading).max?

/-- Exponent of the largest finite value of an element format (R172). -/
def eMax (f : Fmt) : Int := (Nat.log2 f.maxFin.1 : Int) + f.maxFin.2

/-- Encodes a block of 32 finite values: scale word, elements, and whether one saturated (R53, R172). -/
def encodeBlock (f : InFmt) (rm : Rm) (l : List Fp) : Nat × List Nat × Bool :=
  let x : Int := match topExp l with
    | none => 0
    | some t => max 0 (min 254 (t - eMax f.fmt + 127))
  let mus : List Nat := (chunksOf 8 l).map fun g =>
    match f.scaling, topExp l, topExp g with
    | .sward, some t, some u => min 3 (t - u).toNat
    | _, _, _ => 0
  let els := l.zipIdx.map fun (v, k) => f.fmt.convert rm true (v.scale (127 - x + ((mus.getD (k / 8) 0 : Nat) : Int)))
  let sw := x.toNat + (mus.zipIdx.foldl (fun s (m, g) => s + m <<< (8 + 2 * g)) 0)
  (sw, els.map (·.1), els.any fun e => e.2.sat)

/-- Rows of a page as strips. -/
def pageRows (f : InFmt) (d rb sc : Nat) (b : Bytes) : List Strip :=
  (List.range 64).map fun r =>
    let els := (unpack f.bits d (leNat ((b.drop (r * rb)).take rb))).map some
    let sb := (b.drop (64 * rb + r * sc)).take sc
    ⟨els, if f.scaling = .plain then [] else (List.range (d / 32)).map fun k => fieldAt sb (2 * k) 2⟩

/-- Columns of the V rows of a chunk: elements by token, and the scale words of the 32-token blocks. -/
def valueCols (a : Att) (pages : List Bytes) : List Strip :=
  let f := a.fmt
  let rows := pages.flatMap fun b => (List.range 64).map fun r => unpack f.bits a.d (leNat ((b.drop (r * a.rb)).take a.rb))
  let sr := roundUp (2 * a.d) 64
  let scs := pages.flatMap fun b => (List.range 2).map fun h => (b.drop (64 * a.rb + h * sr)).take sr
  (List.range a.d).map fun n =>
    ⟨rows.map fun r => r[n]?, if f.scaling = .plain then [] else scs.map fun x => fieldAt x (2 * n) 2⟩

/-- Whether query token `i` may attend key `k` (R146). -/
def Att.allows (a : Att) (mask : Bytes) (i k : Nat) : Bool :=
  decide (k < a.tokens) &&
  match a.mask with
  | 0 => true
  | 1 => decide (k ≤ a.pos0 + i)
  | 2 => decide (k ≤ a.pos0 + i) && decide (a.pos0 + i < k + a.window)
  | _ => (mask.getD (i / 64 * a.maskRow + k / 64 / 8) 0).toNat.testBit (k / 64 % 8)

/-- A query row as it runs: maximum, sum, accumulator row, and whether it had an allowed key (R147). -/
structure AttRow where
  m : Fp := .inf true
  l : Fp := .fin false 0 0
  o : List Nat
  any : Bool := false
  deriving Repr

/-- One chunk of one query row (R147). -/
def attChunk (a : Att) (n : Nat) (qs : Strip) (ks vs : List Strip) (ok : Nat → Bool) (r : AttRow) : AttRow × W16 :=
  let f := a.fmt
  let dots := ks.map fun k => dotStep f f qs k 0
  let fl := dots.foldl (fun x y => x ||| y.2) 0
  let sc := dots.zipIdx.map fun (x, k) =>
    if ok k then fMul (fp32.decode a.scale) (fp32.decode x.1) else .inf true
  let mc := sc.foldl Fp.max r.m
  let any := r.any || (List.range n).any ok
  if mc = .inf true then ({ r with any := any }, fl &&& 3)
  else
    let α := if r.m = .inf true then fZero else fExp (fSub r.m mc)
    let p := sc.map fun x => fExp (fSub x mc)
    let sum := fp32.decode (pairTree (Nat.log2 n) (p.map f32bits)).1
    let fp : InFmt := if f.fmt = bf16 then f else { f with fmt := e4m3 }
    let ps : Strip :=
      if f.scaling = .sward then
        let blks := (chunksOf 32 p).map (encodeBlock fp .rne)
        ⟨blks.flatMap fun x => x.2.1.map some, blks.map (·.1)⟩
      else ⟨p.map fun x => some (fp.fmt.convert .rne false x).1, []⟩
    let out := (r.o.zip vs).map fun (w, v) => dotStep fp f ps v (f32bits (fMul (fp32.decode w) α))
    ({ m := mc, l := fAdd (fMul r.l α) sum, o := out.map (·.1), any := any },
      (fl ||| out.foldl (fun x y => x ||| y.2) 0) &&& 3)

/-- The chunks of an ATTENTION, in ascending order; pages pass through the staging area (R148). -/
def Job.attChunks (j : Job) (a : Att) (qs : List Strip) (mask : Bytes) : List Nat → List AttRow → Run (List AttRow)
  | [], rows => pure rows
  | c :: rest, rows => do
    let cp := chunkPages j.q
    let idx := (List.range cp).map (c * cp + ·)
    let pages ← idx.mapM fun p => do
      if p < a.count then
        let e ← j.load (a.pages + 16 * p) 16
        let (ke, ve) := (fieldAt e 0 8, fieldAt e 8 8)
        if eaSpace ke = 1 ∨ eaSpace ve = 1 then fail stBadDescriptor 32
        else
          let kb ← j.loadAt ke a.kPage 32
          let vb ← j.loadAt ve a.vPage 32
          pure (kb, vb)
      else pure (([] : Bytes), ([] : Bytes))
    let here := pages.filter fun p => !p.1.isEmpty
    let base := a.stage + a.maskBytes + c % 2 * (cp * (a.kPage + a.vPage))
    here.zipIdx.forM fun ((kb, vb), p) => do
      j.putCm (base + p * a.kPage) kb
      j.putCm (base + cp * a.kPage + p * a.vPage) vb
    let sc := a.fmt.scaleRow a.d
    let ks := here.flatMap fun p => pageRows a.fmt a.d a.rb sc p.1
    let vs := valueCols a (here.map (·.2))
    let lo := c * cp * 64
    let step := rows.zipIdx.map fun (r, x) => attChunk a (64 * here.length) (qs.getD x ⟨[], []⟩) ks vs (fun k => a.allows mask (x % a.m) (lo + k)) r
    j.flags (step.foldl (fun f x => f ||| x.2) 0)
    j.putAcc a.row (step.map fun x => x.1.o)
    j.attChunks a qs mask rest (step.map (·.1))

/-- ATTENTION (R147): online softmax over the chunks, then the output rows and log-sum-exp values. -/
def attentionRun (j : Job) : Run (W16 × W16 × Nat) := do
  match ← j.checkAttention with
  | some (st, d) => pure (st, 0, d)
  | none =>
    let a := Att.of j.k.desc
    let f := a.fmt
    let qs ← (List.range a.rows).mapM fun r => do
      let e ← j.getCm (a.q + r * a.rb) a.rb
      let sc ← if f.scaling = .plain then pure [] else
        j.scaleWords f (a.q + a.rows * a.rb + r * f.scaleRow a.d) 0 (a.d / 32)
      pure (⟨(unpack f.bits a.d (leNat e)).map some, sc⟩ : Strip)
    let mask ← j.getCm a.stage a.maskBytes
    let chunks := ceilDiv a.tokens (64 * chunkPages j.q)
    let rows ← j.attChunks a qs mask (List.range chunks) (List.replicate a.rows { o := List.replicate a.d 0 })
    let rm := outRm a.round 0
    let outs := rows.map fun r =>
      r.o.map fun w => convOut a.outF rm a.sat (if fZero.lt r.l then fDiv (fp32.decode w) r.l else fZero)
    outs.zipIdx.forM fun (l, r) =>
      j.putCm (a.o + r * a.ob) (leBytes (rowBytes (outBits a.outF) a.d) (packBits (outBits a.outF) (l.map (·.1))))
    if a.wantLse then
      j.putCm a.lse (rows.flatMap fun r =>
        leBytes 4 (f32bits (if fZero.lt r.l then fAdd r.m (fLog r.l) else .inf true)))
    j.flags ((if rows.any fun r => !r.any then 4 else 0) |||
      (if outs.any fun l => l.any fun x => x.2 &&& outSat ≠ 0 then 8 else 0))
    pure (stOk, (j.now (← get)).eng, 0)

/-- The row runs `attentionRun`. -/
def execAttention (c : CmdRef) (s : State) : Host.Outcome State Fault Refusal :=
  runRow c 0x101 s attentionRun

/-! The expert router (R151–R155) -/

/-- The ROUTE descriptor. -/
structure RouteBody where
  logits : Nat
  bias : Nat
  dispatch : Nat
  combine : Nat
  t : Nat
  cap : Nat
  e : Nat
  factor : Nat
  k : Nat
  excess : Nat
  score : Nat
  biasOn : Bool
  lf : Nat
  deriving DecidableEq, Repr

/-- Reads the body (R151). -/
def RouteBody.of (b : Bytes) : RouteBody :=
  { logits := fieldAt b 16 8, bias := fieldAt b 24 8, dispatch := fieldAt b 32 8, combine := fieldAt b 40 8
    t := fieldAt b 48 4, cap := fieldAt b 52 2, e := fieldAt b 54 2 % 1024, factor := fieldAt b 56 4
    k := bitsAt b 60 3 0, excess := bitsAt b 61 7 6, score := bitsAt b 61 5 4, biasOn := decide (bitsAt b 61 3 3 = 1)
    lf := bitsAt b 61 1 0 }

/-- Capacity per expert: CAPACITY, or ⌈CAP_FACTOR × T × K / E⌉ within 1 to 65,535 (R151). -/
def RouteBody.capacity (r : RouteBody) : Nat :=
  if r.cap ≠ 0 then r.cap
  else match fp32.decode r.factor with
    | .fin _ m e =>
      let n := m * r.t * r.k
      let c := if 0 ≤ e then ceilDiv (n <<< e.toNat) r.e else ceilDiv n (r.e <<< (-e).toNat)
      max 1 (min 65535 c)
    | _ => 65535

/-- Bytes of a row of logits. -/
def RouteBody.row (r : RouteBody) : Nat := roundUp (r.e * (if r.lf = 0 then 4 else 2)) 64

/-- Bytes of the parts of the dispatch table (R154). -/
def RouteBody.parts (r : RouteBody) : Nat × Nat × Nat :=
  (roundUp (4 * (r.e + 1)) 64, roundUp (4 * r.e) 64, roundUp (4 * (r.e * r.capacity + r.t * r.k)) 64)

/-- The checks of R137 and R151. -/
def Job.checkRoute (j : Job) : Run (Option (W16 × Nat)) := do
  let s ← get
  let b := j.k.desc
  let r := RouteBody.of b
  let (p, q, z) := r.parts
  let badFactor := match fp32.decode r.factor with
    | .nan _ => true
    | .inf n => n
    | .fin n m _ => n || decide (m = 0)
  pure ((firstBad ([
    (badEa r.logits || j.badStart s r.logits, 16),
    (r.biasOn && (badEa r.bias || j.badStart s r.bias), 24),
    (badEa r.dispatch || j.badStart s r.dispatch, 32), (badEa r.combine || j.badStart s r.combine, 40),
    (decide (r.t = 0) || decide (65536 < r.t) || j.past s r.logits (r.t * r.row) || j.past s r.dispatch (p + q + z) ||
      j.past s r.combine (8 * r.t * r.k), 48),
    (decide (fieldAt b 54 2 / 1024 ≠ 0) || decide (r.e = 0) || decide (512 < r.e) ||
      (r.biasOn && j.past s r.bias (4 * r.e)), 54),
    (decide (r.cap = 0) && badFactor, 56),
    (decide (bitsAt b 60 7 4 ≠ 0) || decide (r.k = 0) || decide (8 < r.k) || decide (r.e < r.k), 60),
    (decide (r.excess = 3) || decide (r.score = 3) || decide (bitsAt b 61 2 2 ≠ 0) || decide (2 ≤ r.lf), 61)] ++ reservedSet b [(62, 2)])).bind badField)

/-- The experts of a token with a number for a logit, by falling selection key, ties to the lower number; and the
weight of each (R152). -/
def rankToken (r : RouteBody) (logits bias : List Fp) : List Nat × (Nat → Fp) :=
  let sig (x : Fp) : Fp := fDiv (.fin false 1 0) (fAdd (.fin false 1 0) (fExp x.neg))
  let key (e : Nat) : Fp :=
    let x := logits.getD e default
    let y := if r.score = 2 then sig x else x
    if r.biasOn then fAdd y (bias.getD e default) else y
  let nums := (List.range r.e).filter fun e => !(logits.getD e default).isNan
  let ranked := nums.mergeSort fun a b => (key b).isNan || (!(key a).isNan && !(key a).lt (key b))
  let sel := ranked.take r.k
  let total (l : List Nat) (f : Nat → Fp) : Fp := l.foldl (fun s e => fAdd s (f e)) fZero
  let soft (l : List Nat) (e : Nat) : Fp :=
    let top := (l.map fun e => logits.getD e default).foldl Fp.max (.inf true)
    let ex (e : Nat) : Fp := fExp (fSub (logits.getD e default) top)
    fDiv (ex e) (total l ex)
  (ranked, fun e =>
    if r.score = 0 then soft nums e
    else if r.score = 1 then soft sel e
    else fDiv (sig (logits.getD e default)) (total sel fun e => sig (logits.getD e default)))

/-- Where the placement stands: slots filled per expert, the token in each slot, and the slot and weight of each
choice. -/
structure Placing where
  fill : List Nat
  slots : List (Nat × Nat) := []
  choice : List ((Nat × Nat) × Nat × Nat) := []
  taken : List (Nat × Nat) := []
  dropped : Bool := false
  deriving Repr

/-- Puts choice `k` of token `t` into the lowest free slot of expert `e` (R153, R154). -/
def Placing.put (p : Placing) (cap t k e w : Nat) : Placing :=
  let n := e * cap + p.fill.getD e 0
  { p with
    fill := p.fill.modify e (· + 1), slots := (n, t) :: p.slots, choice := ((t, k), n, w) :: p.choice
    taken := (t, e) :: p.taken }

/-- One choice (R153). -/
def placeOne (r : RouteBody) (ranked : List Nat) (t k w : Nat) (p : Placing) : Placing :=
  let cap := r.capacity
  match ranked[k]? with
  | none => p
  | some e =>
    if p.fill.getD e 0 < cap then p.put cap t k e w
    else match r.excess with
      | 0 => { p with dropped := true }
      | 1 =>
        let tries := ((ranked.drop r.k).filter fun x => !p.taken.contains (t, x)).take 8
        match tries.find? fun x => decide (p.fill.getD x 0 < cap) with
        | some x => p.put cap t k x w
        | none => { p with dropped := true }
      | _ => p.put cap t k r.e w

/-- ROUTE (R151–R154). -/
def routeRun (j : Job) : Run (W16 × W16 × Nat) := do
  match ← j.checkRoute with
  | some (st, d) => pure (st, 0, d)
  | none =>
    let r := RouteBody.of j.k.desc
    let w := if r.lf = 0 then 4 else 2
    let bias ← if r.biasOn then (do
        let b ← j.load r.bias (4 * r.e)
        pure ((List.range r.e).map fun e => fp32.decode (fieldAt b (4 * e) 4))) else pure []
    let toks ← (List.range r.t).mapM fun t => do
      let b ← j.load (r.logits + t * r.row) (w * r.e)
      let l := (List.range r.e).map fun e => (if r.lf = 0 then fp32 else bf16).decode (fieldAt b (w * e) w)
      let (ranked, wt) := rankToken r l bias
      pure (ranked, (ranked.take r.k).map fun e => f32bits (wt e), l.any (·.isNan))
    let p := (List.range r.k).foldl (fun p k => toks.zipIdx.foldl (fun p ((ranked, ws, _), t) =>
      placeOne r ranked t k (ws.getD k 0) p) p) ({ fill := List.replicate (r.e + 1) 0 } : Placing)
    let (pc, pd, _) := r.parts
    let demand := (List.range r.e).map fun e => (toks.filter fun x => decide (x.1.head? = some e)).length
    j.store r.dispatch (p.fill.flatMap (leBytes 4))
    j.store (r.dispatch + pc) (demand.flatMap (leBytes 4))
    j.store (r.dispatch + pc + pd) ((List.range (r.e * r.capacity + r.t * r.k)).flatMap fun n =>
      leBytes 4 (lookupD p.slots n 0xFFFFFFFF))
    j.store r.combine ((List.range r.t).flatMap fun t => (List.range r.k).flatMap fun k =>
      match p.choice.find? fun x => decide (x.1 = (t, k)) with
      | some (_, n, w) => leBytes 4 n ++ leBytes 4 w
      | none => leBytes 4 0xFFFFFFFF ++ leBytes 4 0)
    j.flags ((if toks.any (·.2.2) then 1 else 0) ||| (if p.dropped then 2 else 0) |||
      (if toks.any fun x => decide (x.1.length < r.k) then 4 else 0))
    pure (stOk, (j.now (← get)).eng, 0)

/-- The row runs `routeRun`. -/
def execRoute (c : CmdRef) (s : State) : Host.Outcome State Fault Refusal :=
  runRow c 0x110 s routeRun

/-! The select engine (R156–R160) -/

/-- The SELECT descriptor. -/
structure SelectBody where
  inp : Nat
  aux : Nat
  out : Nat
  out2 : Nat
  n : Nat
  rows : Nat
  k : Nat
  op : Nat
  kf : Nat
  desc : Bool
  prob : Bool
  deriving DecidableEq, Repr

/-- Reads the body (R156). -/
def SelectBody.of (b : Bytes) : SelectBody :=
  { inp := fieldAt b 16 8, aux := fieldAt b 24 8, out := fieldAt b 32 8, out2 := fieldAt b 40 8, n := fieldAt b 48 4
    rows := fieldAt b 52 2, k := fieldAt b 54 2, op := bitsAt b 56 7 4, kf := bitsAt b 56 3 0
    desc := decide (bitsAt b 57 7 7 = 1), prob := decide (bitsAt b 57 6 6 = 1) }

/-- Bytes of a key. -/
def SelectBody.w (x : SelectBody) : Nat := if x.kf = 0 ∨ 4 ≤ x.kf then 4 else if x.kf = 3 then 1 else 2

/-- The value of a key. -/
def SelectBody.value (x : SelectBody) (e : Nat) : Fp :=
  match x.kf with
  | 0 => fp32.decode e
  | 1 => bf16.decode e
  | 2 => fp16.decode e
  | 3 => e4m3.decode e
  | 4 => .ofInt (toSigned 32 e)
  | _ => .ofInt e

/-- The checks of R137 and R156. -/
def Job.checkSelect (j : Job) : Run (Option (W16 × Nat)) := do
  let s ← get
  let b := j.k.desc
  let x := SelectBody.of b
  let ea (a : Nat) (off : Nat) : Check := (badEa a || j.badStart s a, off)
  let row := roundUp (x.n * x.w) 64
  let two := decide (x.op ≠ 2) || x.prob
  let ext : Bool := match x.op with
    | 0 => j.past s x.inp (x.rows * row) || j.past s x.out (x.rows * roundUp (x.k * x.w) 64) ||
        j.past s x.out2 (x.rows * roundUp (4 * x.k) 64)
    | 1 => false
    | _ => j.past s x.inp (x.rows * row) || j.past s x.out (x.rows * 64) || (x.prob && j.past s x.out2 (x.rows * 64))
  let sortExt := decide (x.op = 1) && (j.past s x.inp row || j.past s x.aux (4 * x.n) || j.past s x.out (x.n * x.w) ||
    j.past s x.out2 (4 * x.n))
  let bad := firstBad ([
    ea x.inp 16, (decide (x.op ≠ 0) && (ea x.aux 24).1, 24), ea x.out 32, (two && (ea x.out2 40).1, 40),
    (decide (x.n < (if x.op = 1 then 2 else 1)) || decide ((if x.op = 1 then 2 ^ 20 else 2 ^ 24) < x.n) || sortExt, 48),
    ((if x.op = 1 then decide (x.rows ≠ 1) else decide (x.rows = 0)) || ext, 52),
    ((decide (x.op = 0) && (decide (x.k = 0) || decide (min 4096 x.n < x.k))) || (decide (x.op = 2) && decide (4096 < x.k)),
      54),
    (decide (2 < x.op) || decide (5 < x.kf), 56), (decide (bitsAt b 57 5 0 ≠ 0), 57)] ++
    reservedSet b [(58, 6)] ++ [(decide (x.op = 2) && j.past s x.aux 64, 24)])
  match bad with
  | some n => pure (some (stBadDescriptor, n))
  | none =>
    if x.op = 2 ∧ 3 < x.kf then pure (some (stUnsupported, 0))
    else pure none

/-- Rank order of keys: NaN last, then by value in the direction asked for. -/
def keyBefore (desc : Bool) (a b : Fp) : Bool := b.isNan || (!a.isNan && (if desc then !a.lt b else !b.lt a))

/-- The sampling parameters (R158). -/
structure SampleBlock where
  temp : Fp
  topP : Fp
  minP : Fp
  off : Nat
  deriving Repr

/-- Reads the block and checks it; the lowest failing offset otherwise (R158). -/
def sampleBlock (b : Bytes) : Except Nat SampleBlock :=
  let f (o : Nat) : Fp := fp32.decode (fieldAt b o 4)
  let one : Fp := .fin false 1 0
  let (t, p, m) := (f 0, f 4, f 8)
  match firstBad ([
    (t.isNan || t.lt fZero, 0), (p.isNan || !fZero.lt p || one.lt p, 4), (m.isNan || m.lt fZero || !m.lt one, 8)] ++
    reservedSet b [(12, 4), (24, 40)]) with
  | some n => .error n
  | none => .ok ⟨t, p, m, fieldAt b 16 8⟩

/-- Adds in list order. -/
def fSum (l : List Fp) : Fp := l.foldl fAdd fZero

/-- The shortest prefix whose running sum reaches `p`. -/
def prefixTo (p : Fp) : Fp → List (Nat × Fp) → List (Nat × Fp)
  | _, [] => []
  | s, x :: r => let s := fAdd s x.2; if !s.lt p then [x] else x :: prefixTo p s r

/-- The first entry whose running sum exceeds `u`, else the last. -/
def pickAbove (u : Fp) : Fp → List (Nat × Fp) → Option (Nat × Fp)
  | _, [] => none
  | _, [x] => some x
  | s, x :: r => let s := fAdd s x.2; if u.lt s then some x else pickAbove u s r

/-- The token of a row of logits, with its probability where the row's sequence gives one (R159). -/
def sampleRow (b : SampleBlock) (topK : Nat) (seed : W64) (r : Nat) (l : List Fp) : Option (Nat × Option Fp) :=
  let nums := (l.zipIdx.map fun (x, i) => (i, x)).filter fun x => !x.2.isNan
  let byZ (l : List (Nat × Fp)) := l.mergeSort fun a b => !a.2.lt b.2
  if b.temp.isZero then (byZ nums).head?.map fun x => (x.1, none)
  else
    let z := byZ (nums.map fun (i, x) => (i, fDiv x b.temp))
    let keep := if topK = 0 then z else z.take topK
    let top := (keep.map (·.2)).foldl Fp.max (.inf true)
    let e := byZ (keep.map fun (i, x) => (i, fExp (fSub x top)))
    let sum := fSum (e.map (·.2))
    let p := byZ (e.map fun (i, x) => (i, fDiv x sum))
    let most := (p.map (·.2)).foldl Fp.max (.inf true)
    let p := if fZero.lt b.minP then p.filter fun x => !x.2.lt (fMul b.minP most) else p
    let p := if b.topP.lt (.fin false 1 0) then prefixTo b.topP fZero p else p
    let total := fSum (p.map (·.2))
    let u : Fp := .fin false ((philox seed b.off r % 2 ^ 32) >>> 8) (-24)
    (pickAbove (fMul u total) fZero p).map fun x => (x.1, some x.2)

/-- SELECT (R157, R159). -/
def selectRun (j : Job) : Run (W16 × W16 × Nat) := do
  match ← j.checkSelect with
  | some (st, d) => pure (st, 0, d)
  | none =>
    let x := SelectBody.of j.k.desc
    let row := roundUp (x.n * x.w) 64
    let read (r : Nat) : Run (List Nat) := do
      let b ← j.load (x.inp + r * row) (x.n * x.w)
      pure (unpack (8 * x.w) x.n (leNat b))
    let order (l : List Nat) : List (Nat × Nat) :=
      (l.zipIdx).mergeSort fun a b => keyBefore x.desc (x.value a.1) (x.value b.1)
    let nan (l : List Nat) : Run Unit := j.flags (if l.any fun e => (x.value e).isNan then 1 else 0)
    match x.op with
    | 0 => (List.range x.rows).forM fun r => do
        let l ← read r
        nan l
        let top := (order l).take x.k
        j.store (x.out + r * roundUp (x.k * x.w) 64) (top.flatMap fun e => leBytes x.w e.1)
        j.store (x.out2 + r * roundUp (4 * x.k) 64) (top.flatMap fun e => leBytes 4 e.2)
    | 1 => do
        let l ← read 0
        let v ← j.load x.aux (4 * x.n)
        nan l
        let all := order l
        j.store x.out (all.flatMap fun e => leBytes x.w e.1)
        j.store x.out2 (all.flatMap fun e => (v.drop (4 * e.2)).take 4)
    | _ => do
        let blk ← j.load x.aux 64
        match sampleBlock blk with
        | .error n => fail stBadDescriptor (blockDetail 24 n)
        | .ok b => (List.range x.rows).forM fun r => do
            let l ← read r
            nan l
            let (f, s) := (← get).draw
            let (tok, p) := match sampleRow b x.k (s.seedOf (some j.c)) r (l.map x.value) with
              | none => (0xFFFFFFFF, 0)
              | some (t, some p) => (t, f32bits p)
              | some (t, none) => (t, f.toNat % 2 ^ 32)
            if b.temp.isZero then set s
            j.store (x.out + 64 * r) (leBytes 4 tok)
            if x.prob then j.store (x.out2 + 64 * r) (leBytes 4 p)
    pure (stOk, (j.now (← get)).eng, 0)

/-- The row runs `selectRun`. -/
def execSelect (c : CmdRef) (s : State) : Host.Outcome State Fault Refusal :=
  runRow c 0x103 s selectRun

/-! Gather, scatter, combine (R161–R164) -/

/-- The GATHER_SCATTER descriptor. -/
structure GatherBody where
  table : Nat
  dense : Nat
  index : Nat
  count : Nat
  row : Nat
  rows : Nat
  mode : Nat
  paged : Bool
  wide : Bool
  stop : Bool
  shift : Nat
  k : Nat
  cdt : Nat
  deriving DecidableEq, Repr

/-- Reads the body (R161). -/
def GatherBody.of (b : Bytes) : GatherBody :=
  { table := fieldAt b 16 8, dense := fieldAt b 24 8, index := fieldAt b 32 8, count := fieldAt b 40 4
    row := fieldAt b 44 4, rows := fieldAt b 48 8, mode := bitsAt b 56 7 6, paged := decide (bitsAt b 56 5 5 = 1)
    wide := decide (bitsAt b 56 4 4 = 1), stop := decide (bitsAt b 56 3 3 = 1), shift := bitsAt b 57 7 4
    k := bitsAt b 57 3 0, cdt := bitsAt b 58 1 0 }

/-- Distance between rows. -/
def GatherBody.pitch (g : GatherBody) : Nat := roundUp g.row 64

/-- Bytes of one index entry, and of a token's entries in combine mode. -/
def GatherBody.entry (g : GatherBody) : Nat := if g.mode = 2 then 8 * g.k else if g.wide then 8 else 4

/-- The checks of R137 and R161. -/
def Job.checkGather (j : Job) : Run (Option (W16 × Nat)) := do
  let s ← get
  let b := j.k.desc
  let g := GatherBody.of b
  pure ((firstBad ([
    (badEa g.table || j.badStart s g.table, 16), (badEa g.dense || j.badStart s g.dense, 24),
    (badEa g.index 8 || j.badStart s g.index, 32),
    (decide (g.count = 0) || decide (2 ^ 24 < g.count) || j.past s g.dense (g.count * g.pitch) ||
      j.past s g.index (g.count * g.entry), 40),
    (decide (g.row < 4) || decide (65536 < g.row) || decide (g.row % 4 ≠ 0), 44),
    (decide (g.rows = 0) ||
      j.past s g.table (if g.paged then 8 * ceilDiv g.rows (2 ^ g.shift) else g.rows * g.pitch), 48),
    (decide (g.mode = 3) || decide (bitsAt b 56 2 0 ≠ 0), 56),
    (decide (g.mode = 2) && (decide (g.k = 0) || decide (8 < g.k)), 57),
    (decide (bitsAt b 58 7 2 ≠ 0) || decide (g.cdt = 3), 58)] ++ reservedSet b [(59, 5)])).bind badField)

/-- Engine address of table row `x`. -/
def Job.tableRow (j : Job) (g : GatherBody) (x : Nat) : Run Nat := do
  if g.paged then
    let e ← j.load (g.table + 8 * (x >>> g.shift)) 8
    pure (leNat e + x % 2 ^ g.shift * g.pitch)
  else pure (g.table + x * g.pitch)

/-- An index as the policy of R163 makes it: empty, a row, or the end of the command. -/
def Job.rowOf (j : Job) (g : GatherBody) (x : Nat) (all : Nat) : Run (Option Nat) := do
  if x = all then pure none
  else if x < g.rows then pure (some x)
  else if g.stop then fail stIndexRange
  else do
    j.flags 1
    pure none

/-- One dense row of combine mode (R162). -/
def Job.combineRow (j : Job) (g : GatherBody) (t : Nat) : Run Unit := do
  let w := if g.cdt = 0 then 4 else 2
  let fmt := outFmt g.cdt
  let n := g.row / w
  let es ← j.load (g.index + t * g.entry) g.entry
  let terms ← (List.range g.k).mapM fun r => do
    match ← j.rowOf g (fieldAt es (8 * r) 4) 0xFFFFFFFF with
    | none => pure none
    | some x =>
      let b ← j.loadAt (← j.tableRow g x) g.row 16
      pure (some (fp32.decode (fieldAt es (8 * r + 4) 4), (unpack (8 * w) n (leNat b)).map fmt.decode))
  let sums := terms.foldl (fun acc t =>
    match t with
    | none => acc
    | some (wt, l) => (acc.zip l).map fun (a, x) => f32 (wt.fma false x a)) (List.replicate n fZero)
  let outs := sums.map (fmt.convert .rne true)
  j.flags ((if terms.any fun t => match t with | some (_, l) => l.any (·.isNan) | none => false then 2 else 0) |||
    (if outs.any fun x => x.2.sat then 4 else 0))
  j.store (g.dense + t * g.pitch) (outs.flatMap fun x => leBytes w x.1)

/-- GATHER_SCATTER (R162, R163). -/
def gatherScatterRun (j : Job) : Run (W16 × W16 × Nat) := do
  match ← j.checkGather with
  | some (st, d) => pure (st, 0, d)
  | none =>
    let g := GatherBody.of j.k.desc
    (List.range g.count).forM fun i => do
      if g.mode = 2 then j.combineRow g i
      else
        let e ← j.load (g.index + i * g.entry) g.entry
        match ← j.rowOf g (leNat e) (2 ^ (8 * g.entry) - 1) with
        | none => if g.mode = 0 then j.store (g.dense + i * g.pitch) (zeros g.row)
        | some x =>
          let a ← j.tableRow g x
          if g.mode = 0 then
            let b ← j.loadAt a g.row 16
            j.store (g.dense + i * g.pitch) b
          else
            let b ← j.load (g.dense + i * g.pitch) g.row
            j.storeAt a b 16
    pure (stOk, (j.now (← get)).eng, 0)

/-- The row runs `gatherScatterRun`. -/
def execGatherScatter (c : CmdRef) (s : State) : Host.Outcome State Fault Refusal :=
  runRow c 0x104 s gatherScatterRun

/-! Layout (R165–R167) -/

/-- A dimension of the parameter block (R166). -/
structure Dim where
  ext : Nat
  start : Int
  src : Int
  dst : Int
  srcExt : Nat
  perm : Nat
  deriving DecidableEq, Repr, Inhabited

/-- Entry `d` of the block. -/
def Dim.of (b : Bytes) (d : Nat) : Dim :=
  let e := b.drop (32 * d)
  ⟨fieldAt e 0 4, toSigned 32 (fieldAt e 4 4), toSigned 64 (fieldAt e 8 8), toSigned 64 (fieldAt e 16 8), fieldAt e 24 4,
    fieldAt e 28 1⟩

/-- The LAYOUT descriptor. -/
structure LayoutBody where
  src : Nat
  dst : Nat
  param : Nat
  dims : Nat
  sdt : Nat
  conv : Bool
  ddt : Nat
  sat : Bool
  rm : Nat
  eb : Nat
  deriving DecidableEq, Repr

/-- Reads the body (R165). -/
def LayoutBody.of (b : Bytes) : LayoutBody :=
  { src := fieldAt b 16 8, dst := fieldAt b 24 8, param := fieldAt b 32 8, dims := bitsAt b 40 2 0
    sdt := bitsAt b 41 6 4, conv := decide (bitsAt b 41 3 3 = 1), ddt := bitsAt b 41 2 0
    sat := decide (bitsAt b 42 2 2 = 1), rm := bitsAt b 42 1 0, eb := 2 ^ bitsAt b 43 1 0 }

/-- Bytes of a source and of an output element. -/
def LayoutBody.sw (l : LayoutBody) : Nat := if l.conv then dtW l.sdt else l.eb
def LayoutBody.dw (l : LayoutBody) : Nat := if l.conv then dtW l.ddt else l.eb

/-- The checks of the body itself. -/
def Job.checkLayout (j : Job) : Run (Option (W16 × Nat)) := do
  let s ← get
  let b := j.k.desc
  let l := LayoutBody.of b
  match firstBad ([
    (badEa l.src 8 || j.badStart s l.src, 16), (badEa l.dst 8 || j.badStart s l.dst, 24),
    (badEa l.param || j.past s l.param 256, 32),
    (decide (bitsAt b 40 7 3 ≠ 0) || decide (l.dims = 0) || decide (6 < l.dims), 40),
    (decide (bitsAt b 41 7 7 ≠ 0), 41), (decide (bitsAt b 42 7 3 ≠ 0) || decide (l.rm = 3), 42),
    (decide (bitsAt b 43 7 2 ≠ 0), 43)] ++ reservedSet b [(44, 20)]) with
  | some n => pure (some (stBadDescriptor, n))
  | none => pure (if l.rm = 2 then some (stUnsupported, 0) else none)

/-- Lowest and highest of the offsets `lo … hi` indices reach at a stride. -/
def strideSpan (lo hi stride : Int) : Int × Int := (min (lo * stride) (hi * stride), max (lo * stride) (hi * stride))

/-- Whether the elements a side of the command touches leave a core-memory or cluster-memory space. -/
def Job.spanPast (j : Job) (s : State) (ea w : Nat) (spans : List (Int × Int)) : Bool :=
  if eaSpace ea = 0 then false
  else
    let lo := spans.foldl (fun a x => a + x.1) 0
    let hi := spans.foldl (fun a x => a + x.2) 0
    let a : Int := ((ea % 2 ^ 32 : Nat) : Int)
    decide (a + lo < 0) || decide (((j.limit s ea : Nat) : Int) < a + hi + w)

/-- The checks of the parameter block (R166), by offsets in it. -/
def Job.badDims (j : Job) (s : State) (l : LayoutBody) (b : Bytes) : List Check :=
  let ds := (List.range l.dims).map (Dim.of b)
  let ext (d : Dim) : Int := ((d.ext : Nat) : Int)
  let srcSpans := ds.map fun d =>
    let lo := max 0 d.start
    let hi := min ((d.srcExt : Nat) : Int) (d.start + ext d) - 1
    (lo, hi, (ds.getD d.perm default).src)
  let reads := srcSpans.all fun x => decide (x.1 ≤ x.2.1)
  let permBad := !(List.range l.dims).all fun x => ds.any fun d => decide (d.perm = x)
  [(j.spanPast s l.dst l.dw (ds.map fun d => strideSpan 0 (ext d - 1) d.dst) ||
     (reads && j.spanPast s l.src l.sw (srcSpans.map fun x => strideSpan x.1 x.2.1 x.2.2)), 0)] ++
  (ds.zipIdx.flatMap fun (d, k) => [
    (decide (d.ext = 0), 32 * k), (permBad && decide (k = 0), 28),
    (decide (fieldAt b (32 * k + 29) 3 ≠ 0), 32 * k + 29)]) ++
  reservedSet b [(200, b.length - 200)]

/-- The index vectors of an extent list, dimension 0 innermost. -/
def indexVectors : List Nat → List (List Nat)
  | [] => [[]]
  | e :: r => (indexVectors r).flatMap fun t => (List.range e).map fun x => x :: t

/-- An engine address moved by a signed offset, within its space. -/
def moveEa (ea : Nat) (d : Int) : Nat :=
  let m : Nat := if eaSpace ea = 0 then 2 ^ 57 else 2 ^ 32
  ea / m * m + (((ea % m : Nat) : Int) + d).emod (m : Nat) |>.toNat

/-- LAYOUT (R166). -/
def layoutRun (j : Job) : Run (W16 × W16 × Nat) := do
  match ← j.checkLayout with
  | some (st, d) => pure (st, 0, d)
  | none =>
    let l := LayoutBody.of j.k.desc
    let b ← j.load l.param 256
    match firstBad (j.badDims (← get) l b) with
    | some n => fail stBadDescriptor (blockDetail 32 n)
    | none =>
      let ds := (List.range l.dims).map (Dim.of b)
      let pad := fieldAt b 192 l.dw
      (indexVectors (ds.map (·.ext))).forM fun o => do
        let dst := (ds.zip o).foldl (fun a (d, x) => a + d.dst * ((x : Nat) : Int)) 0
        let idx := (ds.zip o).map fun (d, x) => (d.start + ((x : Nat) : Int), d)
        let inside := idx.all fun (x, d) => decide (0 ≤ x) && decide (x < ((ds.getD d.perm default).srcExt : Nat))
        if inside then
          let src := idx.foldl (fun a (x, d) => a + x * (ds.getD d.perm default).src) 0
          let e ← j.load (moveEa l.src src) l.sw
          if l.conv then
            let rm := if l.rm = 0 then Rm.rne else .rtz
            let (v, f) := cvtElem l.sdt l.ddt rm l.sat (leNat e)
            let lost := dtFloat l.sdt && !dtFloat l.ddt && ((dtFmt l.sdt).decode (leNat e)).isNan
            j.flags ((if lost then 1 else 0) ||| (if f.sat then 2 else 0))
            j.store (moveEa l.dst dst) (leBytes l.dw v)
          else j.store (moveEa l.dst dst) e
        else j.store (moveEa l.dst dst) (leBytes l.dw pad)
      pure (stOk, (j.now (← get)).eng, 0)

/-- The row runs `layoutRun`. -/
def execLayout (c : CmdRef) (s : State) : Host.Outcome State Fault Refusal :=
  runRow c 0x105 s layoutRun

/-! The codec (R168–R173) -/

/-- The CODEC descriptor. -/
structure CodecBody where
  src : Nat
  dst : Nat
  aux : Nat
  count : Nat
  cols : Nat
  op : Nat
  w : Nat
  rot : Bool
  axis : Bool
  qf : Nat
  fdt : Nat
  rm : Nat
  deriving DecidableEq, Repr

/-- Reads the body (R168). -/
def CodecBody.of (b : Bytes) : CodecBody :=
  { src := fieldAt b 16 8, dst := fieldAt b 24 8, aux := fieldAt b 32 8, count := fieldAt b 40 4, cols := fieldAt b 44 4
    op := bitsAt b 48 7 4, w := bitsAt b 48 3 2, rot := decide (bitsAt b 48 1 1 = 1), axis := decide (bitsAt b 48 0 0 = 1)
    qf := bitsAt b 49 4 0, fdt := bitsAt b 50 2 0, rm := bitsAt b 51 1 0 }

/-- The quantised format. -/
def CodecBody.fmt (x : CodecBody) : InFmt := (inFmt x.qf).getD default

/-- Row sizes of the float side and of the quantised side. -/
def CodecBody.fRow (x : CodecBody) : Nat := roundUp (x.cols * dtW x.fdt) 64
def CodecBody.qRow (x : CodecBody) : Nat := roundUp (rowBytes x.fmt.bits x.cols) 64

/-- Number of scale rows and bytes of each (R172). -/
def CodecBody.scales (x : CodecBody) : Nat × Nat :=
  if x.axis then (x.cols, x.fmt.scaleRow x.count) else (x.count, x.fmt.scaleRow x.cols)

/-- The checks of R137 and R168; the output of PACK is checked at its greatest length. -/
def Job.checkCodec (j : Job) : Run (Option (W16 × Nat)) := do
  let s ← get
  let b := j.k.desc
  let x := CodecBody.of b
  let quant := decide (2 ≤ x.op)
  let (sn, sb) := x.scales
  let ext : Bool := match x.op with
    | 0 => j.past s x.src (4096 * x.count) || j.past s x.dst (4160 * x.count) || j.past s x.aux (4 * (x.count + 1))
    | 1 => j.past s x.dst (4096 * x.count) || j.past s x.aux (4 * (x.count + 1))
    | 2 => j.past s x.src (x.count * x.fRow) || j.past s x.dst (x.count * x.qRow) || j.past s x.aux (sn * sb)
    | _ => j.past s x.src (x.count * x.qRow) || j.past s x.dst (x.count * x.fRow) || j.past s x.aux (sn * sb)
  match firstBad ([
    (badEa x.src || j.badStart s x.src, 16), (badEa x.dst || j.badStart s x.dst, 24),
    (badEa x.aux || j.badStart s x.aux, 32),
    (decide (x.count = 0) || decide (65536 < x.count) || (quant && x.axis && decide (x.count % 32 ≠ 0)) || ext, 40),
    (quant && (decide (x.cols < 32) || decide (2 ^ 20 < x.cols) || (!x.axis && decide (x.cols % 32 ≠ 0))), 44),
    (decide (3 < x.op) || (decide (x.op = 0) && decide (x.w = 3)), 48),
    (decide (bitsAt b 49 7 5 ≠ 0) || (quant && (inFmt x.qf).isNone), 49), (decide (bitsAt b 50 7 3 ≠ 0), 50),
    (decide (bitsAt b 51 7 2 ≠ 0) || (quant && decide (x.rm = 3)), 51)] ++ reservedSet b [(52, 12)]) with
  | some n => pure (some (stBadDescriptor, n))
  | none =>
    let listed := [0x08, 0x09, 0x0A, 0x0B, 0x0C, 0x10, 0x11].contains x.qf && decide (x.fdt < 3) && decide (x.rm ≠ 2)
    pure (if quant && !listed then some (stUnsupported, 0) else none)

/-- One bit of CRC-32C, reflected. -/
def crcBit (c : BitVec 32) : BitVec 32 := if c.getLsbD 0 then (c >>> 1) ^^^ 0x82F63B78 else c >>> 1

/-- CRC-32C (Castagnoli) of bytes (R169). -/
def crc32c (b : Bytes) : Nat :=
  let r := b.foldl (fun c x => (List.range 8).foldl (fun c _ => crcBit c) (c ^^^ x.setWidth 32)) (0xFFFFFFFF : BitVec 32)
  (r ^^^ 0xFFFFFFFF).toNat

/-- Rotates an element of `w` bytes left by `k` bits. -/
def rotElem (w k x : Nat) : Nat := (x <<< k) % 2 ^ (8 * w) ||| x >>> (8 * w - k)

/-- Bytes of a block with every element rotated. -/
def rotBlock (w k : Nat) (b : Bytes) : Bytes :=
  (List.range (b.length / w)).flatMap fun i => leBytes w (rotElem w k (fieldAt b (i * w) w))

/-- The byte planes of a block (R170). -/
def planes (w : Nat) (b : Bytes) : List Bytes :=
  (List.range w).map fun p => (List.range (b.length / w)).map fun i => b.getD (i * w + p) 0

/-- Codes one lane of 64 bytes (R170). -/
def codeLane (l : Bytes) : Bytes :=
  let vs := l.map (·.toNat)
  let lo := vs.foldl min 255
  let hi := vs.foldl max 0
  let n := if hi = lo then 0 else Nat.log2 (hi - lo) + 1
  if n = 0 then 0 :: leBytes 1 lo
  else if n < 8 then leBytes 1 n ++ leBytes 1 lo ++ leBytes (8 * n) (packBits n (vs.map (· - lo)))
  else 8 :: l

/-- The frame of a block, padded to 64 bytes, and whether it is raw (R169, R170). -/
def packFrame (wc : Nat) (rot : Bool) (b : Bytes) : Bytes × Bool :=
  let w := 2 ^ wc
  let src := if rot then rotBlock w 1 b else b
  let coded := (planes w src).flatMap fun p => (chunksOf 64 p).flatMap codeLane
  let raw := decide (4096 ≤ coded.length)
  let body := if raw then b else coded
  let frame := leBytes 2 body.length ++ leBytes 1 (8 * raw.toNat + 4 * rot.toNat + wc) ++ [0] ++ leBytes 4 (crc32c b) ++ body
  (padTo (roundUp frame.length 64) frame, raw)

/-- Decodes `n` lanes; none where the bytes break a rule (R171). -/
def decodeLanes : Nat → Bytes → Option (List Bytes)
  | 0, r => if r.isEmpty then some [] else none
  | _ + 1, [] => none
  | k + 1, h :: r =>
    let n := h.toNat
    let (size, lane) : Nat × Bytes :=
      if n = 0 then (1, List.replicate 64 (r.getD 0 0))
      else if n < 8 then
        (1 + 8 * n, (unpack n 64 (leNat ((r.drop 1).take (8 * n)))).map fun d => r.getD 0 0 + BitVec.ofNat 8 d)
      else (64, r.take 64)
    if 8 < n ∨ r.length < size then none else (decodeLanes k (r.drop size)).map (lane :: ·)

/-- The block of a frame; none where it breaks a rule of R169–R171. -/
def unpackFrame (hdr body : Bytes) : Option Bytes :=
  let fl := (hdr.getD 2 0).toNat
  let (raw, rot, w) := (fl.testBit 3, fl.testBit 2, 2 ^ (fl % 4))
  if 16 ≤ fl ∨ fl % 4 = 3 ∨ fieldAt hdr 3 1 ≠ 0 then none
  else
    let blk : Option Bytes :=
      if raw then if body.length = 4096 then some body else none
      else if 4096 ≤ body.length then none
      else (decodeLanes 64 body).map fun ls =>
        let ps := chunksOf (64 / w) ls |>.map List.flatten
        let src := (List.range (4096 / w)).flatMap fun i => ps.map fun p => p.getD i 0
        if rot then rotBlock w (8 * w - 1) src else src
    blk.filter fun b => decide (crc32c b = fieldAt hdr 4 4)

/-- PACK (R169): the frames, then the block index. -/
def Job.pack (j : Job) (x : CodecBody) : List Nat → Nat → Bytes → Run Unit
  | [], off, index => j.store x.aux (index ++ leBytes 4 off)
  | b :: r, off, index => do
    let blk ← j.load (x.src + 4096 * b) 4096
    let (f, raw) := packFrame x.w x.rot blk
    j.flags (if raw then 1 else 0)
    j.store (x.dst + off) f
    j.pack x r (off + f.length) (index ++ leBytes 4 off)

/-- UNPACK (R171). -/
def Job.unpackAll (j : Job) (x : CodecBody) : Run Unit := do
  let index ← j.load x.aux (4 * (x.count + 1))
  (List.range x.count).forM fun b => do
    let off := fieldAt index (4 * b) 4
    if off % 64 ≠ 0 then fail stCodecFormat
    let hdr ← j.loadAt (x.src + off) 8 16 8
    let n := fieldAt hdr 0 2
    if n = 0 ∨ 4096 < n then fail stCodecFormat
    let body ← j.loadAt (x.src + off + 8) n 16 8
    match unpackFrame hdr body with
    | none => fail stCodecFormat
    | some blk => j.store (x.dst + 4096 * b) blk

/-- A matrix turned. -/
def turn {α : Type} [Inhabited α] (n : Nat) (l : List (List α)) : List (List α) :=
  (List.range n).map fun c => l.map fun r => r.getD c default

/-- QUANT (R172). -/
def Job.quant (j : Job) (x : CodecBody) : Run Unit := do
  let f := x.fmt
  let w := dtW x.fdt
  let rm := if x.rm = 0 then Rm.rne else .rtz
  let rows ← (List.range x.count).mapM fun r => do
    let b ← j.load (x.src + r * x.fRow) (x.cols * w)
    pure ((unpack (8 * w) x.cols (leNat b)).map (dtFmt x.fdt).decode)
  let lines := if x.axis then turn x.cols rows else rows
  let coded := lines.map fun l => (chunksOf 32 l).map fun blk =>
    if blk.any fun v => match v with | .fin .. => false | _ => true then (0xFF, List.replicate 32 0, false, true)
    else let (sw, e, s) := encodeBlock f rm blk; (sw, e, s, false)
  let els := coded.map fun l => l.flatMap fun b => b.2.1
  let els := if x.axis then turn x.count els else els
  j.flags ((if coded.any fun l => l.any fun b => b.2.2.2 then 2 else 0) |||
    (if coded.any fun l => l.any fun b => b.2.2.1 then 4 else 0))
  els.zipIdx.forM fun (e, r) => j.store (x.dst + r * x.qRow) (leBytes (rowBytes f.bits x.cols) (packBits f.bits e))
  coded.zipIdx.forM fun (l, r) =>
    j.store (x.aux + r * x.scales.2) (l.flatMap fun b => leBytes f.scaleBytes b.1)

/-- DEQUANT (R172). -/
def Job.dequant (j : Job) (x : CodecBody) : Run Unit := do
  let f := x.fmt
  let rm := if x.rm = 0 then Rm.rne else .rtz
  let (sn, sb) := x.scales
  let n := if x.axis then x.count else x.cols
  let scs ← (List.range sn).mapM fun r => j.load (x.aux + r * sb) (n / 32 * f.scaleBytes)
  (List.range x.count).forM fun r => do
    let b ← j.load (x.src + r * x.qRow) (rowBytes f.bits x.cols)
    let outs := (unpack f.bits x.cols (leNat b)).zipIdx.map fun (e, c) =>
      let (line, k) := if x.axis then (c, r) else (r, c)
      let sw := fieldAt (scs.getD line []) (k / 32 * f.scaleBytes) f.scaleBytes
      let v : Fp := if f.nanScale sw then .nan false else (f.element sw (k % 32) e).scale (f.exponent sw)
      (dtFmt x.fdt).convert rm false v
    j.flags (if outs.any fun o => o.2.sat then 4 else 0)
    j.store (x.dst + r * x.fRow) (outs.flatMap fun o => leBytes (dtW x.fdt) o.1)

/-- CODEC (R168–R172). -/
def codecRun (j : Job) : Run (W16 × W16 × Nat) := do
  match ← j.checkCodec with
  | some (st, d) => pure (st, 0, d)
  | none =>
    let x := CodecBody.of j.k.desc
    match x.op with
    | 0 => j.pack x (List.range x.count) 0 []
    | 1 => j.unpackAll x
    | 2 => j.quant x
    | _ => j.dequant x
    pure (stOk, (j.now (← get)).eng, 0)

/-- The row runs `codecRun`. -/
def execCodec (c : CmdRef) (s : State) : Host.Outcome State Fault Refusal :=
  runRow c 0x106 s codecRun

end Sys2Proof.Machine
end

