-- ==== Sys2Proof/Machine/Mover.lean ====
section
/-! DEFINITION. The reduction engine (R174–R176) with its landing windows, and the DMA copy engines (R177, R178). -/

namespace Sys2Proof.Machine

/-! Reduction (R174) -/

/-- A reduction body. -/
structure ReduceBody where
  dst : Nat
  srcs : Nat
  count : Nat
  n : Nat
  op : Nat
  inDt : Nat
  outDt : Nat
  sat : Bool
  rm : Nat
  fence : Nat
  value : Nat
  expect : Nat
  window : Nat
  deriving DecidableEq, Repr, Inhabited

/-- The fields of a reduction body. -/
def ReduceBody.of (b : Bytes) : ReduceBody :=
  ⟨fieldAt b 16 8, fieldAt b 24 8, fieldAt b 32 4, bitsAt b 36 7 4, bitsAt b 36 3 2, bitsAt b 37 2 0, bitsAt b 38 2 0,
   bitsAt b 38 5 5 == 1, bitsAt b 38 4 3, fieldAt b 40 8, fieldAt b 48 8, fieldAt b 56 2, bitsAt b 58 5 0⟩

/-- The input types of the reduction engine (R174). -/
def reduceIn (dt : Nat) : Bool := [0, 1, 3, 4].contains dt

/-- The combinations the engine lists: anything else is UNSUPPORTED. -/
def ReduceBody.listed (r : ReduceBody) : Bool := reduceIn r.inDt && dtFloat r.outDt && decide (r.rm ≠ 2)

/-- Fields that REDUCE and REDUCE_ARM check alike. -/
def ReduceBody.common (r : ReduceBody) (b : Bytes) : List Check :=
  [(decide (r.op = 3) || decide (bitsAt b 36 1 0 ≠ 0), 36), (decide (bitsAt b 37 7 3 ≠ 0), 37),
   (decide (bitsAt b 38 7 6 ≠ 0) || decide (r.rm = 3), 38)] ++ reservedSet b [(39, 1)]

/-- The checks of a REDUCE body (R137, R174). -/
def Job.checkReduce (j : Job) : Run (Option (W16 × Nat)) := do
  let s ← get
  let b := j.k.desc
  let r := ReduceBody.of b
  match firstBad ([(badEa r.dst || j.badStart s r.dst, 16), (badEa r.srcs || j.badStart s r.srcs, 24),
      (decide (r.count = 0) || decide (2 ^ 28 < r.count) || j.past s r.dst (r.count * dtW r.outDt), 32),
      (decide (r.n < 2) || decide (8 < r.n) || j.past s r.srcs (8 * r.n), 36)] ++ r.common b ++
      reservedSet b [(40, 8), (48, 8), (56, 8)]) with
  | some n => pure (badField n)
  | none => pure (if r.listed then none else some (stUnsupported, 0))

/-- The checks of a REDUCE_ARM body. -/
def Job.checkArm (j : Job) : Run (Option (W16 × Nat)) := do
  let s ← get
  let b := j.k.desc
  let r := ReduceBody.of b
  match firstBad ([(badEa r.dst || j.badStart s r.dst, 16),
      (badEa r.srcs || decide (eaSpace r.srcs ≠ 2) || j.badStart s r.srcs, 24),
      (decide (r.count = 0) || decide (2 ^ 22 < r.count) || j.past s r.dst (r.count * dtW r.outDt) ||
        j.past s r.srcs (4 * r.count), 32),
      (decide (bitsAt b 36 7 4 ≠ 0), 36), (decide (r.fence % 8 ≠ 0) || decide (2 ^ 57 ≤ r.fence), 40),
      (decide (r.expect = 0), 56), (decide (bitsAt b 58 7 6 ≠ 0), 58)] ++ r.common b ++ reservedSet b [(59, 5)]) with
  | some n => pure (badField n)
  | none => pure (if r.listed then none else some (stUnsupported, 0))

/-- One step of a reduction, rounded to nearest even (R174, R175). -/
def reduceStep (op : Nat) (a b : Fp) : Fp :=
  if op = 0 then fAdd a b else if op = 1 then a.max b else a.min b

/-- The elements of an array, exactly. -/
def elements (dt n : Nat) (b : Bytes) : List Fp :=
  (List.range n).map fun i => (dtFmt dt).decode (fieldAt b (i * dtW dt) (dtW dt))

/-- Converts results to OUT_DT by R70: bytes, and whether one saturated. -/
def ReduceBody.encode (r : ReduceBody) (l : List Fp) : Bytes × Bool :=
  let es := l.map fun x => (dtFmt r.outDt).convert (if r.rm = 1 then .rtz else .rne) r.sat x
  (es.flatMap fun e => leBytes (dtW r.outDt) e.1, es.any fun e => e.2.sat)

/-- REDUCE (R174). -/
def reduceRun (j : Job) : Run (W16 × W16 × Nat) := do
  match ← j.checkReduce with
  | some (st, d) => pure (st, 0, d)
  | none =>
    let r := ReduceBody.of j.k.desc
    let list ← j.load r.srcs (8 * r.n)
    let cols ← (List.range r.n).mapM fun k => do
      let b ← j.loadAt (fieldAt list (8 * k) 8) (r.count * dtW r.inDt) 24
      pure (elements r.inDt r.count b)
    let nan := cols.any fun l => l.any (·.isNan)
    let sums := match cols with
      | [] => []
      | a :: rest => rest.foldl (fun acc l => List.zipWith (reduceStep r.op) acc l) a
    let (bytes, sat) := r.encode sums
    j.flags ((if nan then 1 else 0) ||| (if sat then 2 else 0))
    j.store r.dst bytes
    pure (stOk, (j.now (← get)).eng, 0)

/-- The row runs `reduceRun`. -/
def execReduce (c : CmdRef) (s : State) : Host.Outcome State Fault Refusal :=
  runRow c 0x111 s reduceRun

/-! Landing windows (R175) -/

/-- The identity of an operation. -/
def reduceUnit (op : Nat) : Fp := if op = 0 then fZero else .inf (decide (op = 1))

/-- The window a command armed. -/
def Cluster.windowOf (k : Cluster) (c : CmdRef) : Option Window := k.windows.find? fun w => decide (w.cmd = c)

/-- Every element has received EXPECT contributions. -/
def Window.full (w : Window) : Bool := (List.range w.count).all fun e => decide (w.expect ≤ lookupD w.got e 0)

/-- Raises a fence word from inside an engine (R175, R387–R389): local words by their memory port, host words by the
compare-and-swap loop, words of other parts by a fence request. -/
def Job.raiseFence (j : Job) (dva v : Nat) : Run Unit := do
  let p ← j.find dva 4
  let s ← get
  let k := j.now s
  match p.cls with
  | .host =>
    if !(s.site (s.homeSite j.v)).atomicOps then fail stHostError
    else match gotRun k.got p.addr 8 with
      | none => throw (.askHost p.addr 8)
      | some b =>
        let old := leNat b
        if v ≤ old ∨ k.sigSeen = some (BitVec.ofNat 64 old) then
          if v < old then set (s.event j.v j.i 0x04 j.c.stream dva) else pure ()
        else
          set ((s.emit (.hostCas j.v p.addr (BitVec.ofNat 64 old) (BitVec.ofNat 64 v))).onCmd j.c fun k => { k with
            sigSeen := some (BitVec.ofNat 64 old), got := [], asks := k.asks ++ [⟨p.addr, 8, s.epochOf j.v⟩] })
          throw .wait
  | _ =>
    match s.here? p.dst with
    | some b =>
      if 8 ≤ b ∨ !s.joined j.i b then fail stFabricTimeout
      else
        let old ← viaHold fun s => s.raiseWord b p.addr j.slot v
        if v < old then modify fun s => s.event j.v j.i 0x04 j.c.stream dva else pure ()
    | none =>
      j.send { kind := .fence, dst := p.dst, addr := p.addr, len := 8, slot := j.slot, priv := true
               payload := leBytes 8 v, epoch := s.epochOf j.v }

/-- What REDUCE_ARM does as far as its window has come: it arms; full, it writes DST; with DST written it signals FENCE
and completes (R175). -/
def Job.armBody (j : Job) : Run (W16 × W16 × Nat) := do
  let r := ReduceBody.of j.k.desc
  match ((← get).site j.i).cluster j.cl |>.windowOf j.c with
  | none =>
    match ← j.checkArm with
    | some (st, d) => pure (st, 0, d)
    | none =>
      if (((← get).site j.i).cluster j.cl).windows.any fun w => decide (w.num = r.window) then pure (stWindowBusy, 0, 0)
      else
        j.putClm (r.srcs % 2 ^ 32) ((List.replicate r.count (leBytes 4 (f32bits (reduceUnit r.op)))).flatten)
        modify fun s => s.onSite j.i (·.onCluster j.cl fun k => { k with
          windows := k.windows ++ [⟨r.window, j.v, j.c, r.op, r.inDt, r.count, r.expect, r.srcs % 2 ^ 32, [], false, false⟩] })
        throw .wait
  | some w =>
    if (j.now (← get)).progress = 0 then
      if !w.full then throw .stall
      else
        let b ← j.rawClm w.acc (4 * w.count)
        let (bytes, sat) := r.encode (elements 0 w.count b)
        j.flags ((if w.nanIn then 1 else 0) ||| (if sat then 2 else 0) ||| (if w.excess then 4 else 0))
        j.store r.dst bytes
        modify fun s => s.onCmd j.c fun k => { k with progress := 1, got := [] }
        throw .wait
    else
      let s ← get
      if !(j.now s).unsent.isEmpty || decide (0 < (s.site j.i).openTxns j.c) then throw .stall
      else
        modify fun s => s.onCmd j.c fun k => { k with finalWr := true }
        j.raiseFence r.fence r.value
        modify fun s => s.onSite j.i (·.onCluster j.cl fun k => { k with
          windows := k.windows.filter fun w => decide (w.cmd ≠ j.c) })
        pure (stOk, (j.now (← get)).eng, 0)

/-- REDUCE_ARM (R175). -/
def execReduceArm (c : CmdRef) (s : State) : Host.Outcome State Fault Refusal := runRow c 0x112 s Job.armBody

/-- Elements of a contribution combined into a window: the cluster, and whether some element was beyond EXPECT. -/
def Cluster.combine (k : Cluster) (w : Window) (off : Nat) (xs : List Fp) : Cluster × Bool :=
  let late := fun e : Nat => decide (w.expect ≤ lookupD w.got e 0)
  let els := xs.zipIdx.map fun (x, n) => (off + n, x)
  let take := els.filter fun e => !late e.1
  let step (k : Cluster) (e : Nat × Fp) : Cluster :=
    let old := fp32.decode (leNat (k.read w.slice (w.acc + 4 * e.1) 4))
    k.write w.slice (w.acc + 4 * e.1) (leBytes 4 (f32bits (reduceStep w.op old e.2)))
  let k := take.foldl step k
  let w' := { w with
    got := take.foldl (fun g e => keep g e.1 (lookupD g e.1 0 + 1)) w.got
    excess := w.excess || decide (take.length < els.length)
    nanIn := w.nanIn || take.any (·.2.isNan) }
  ({ k with windows := k.windows.map fun x => if x = w then w' else x }, decide (take.length < els.length))

/-- A contribution reaches site `b` (R175, R304): combined into its window, or discarded and counted. The answer is
whether it is acknowledged: some element of it has been combined. -/
def State.contribute (s : State) (b cl num slice off inDt : Nat) (data : Bytes) : State × Bool :=
  let k := (s.site b).cluster cl
  let n := data.length / dtW inDt
  let dropped (s : State) := s.bump b (rRedStatus cl) Fld.redStatusDropped
  match k.windows.find? fun w => decide (w.num = num) with
  | none => (dropped s, false)
  | some w =>
    if w.slice ≠ slice ∨ w.inDt ≠ inDt ∨ w.count < off + n ∨ data.length % dtW inDt ≠ 0 then (dropped s, false)
    else
      let (k', late) := k.combine w off (elements inDt n data)
      let s := s.onSite b (·.onCluster cl fun _ => k')
      let all := decide (0 < n) && (List.range n).all fun e => decide (w.expect ≤ lookupD w.got (off + e) 0)
      let s := if late then dropped s else s
      let s := if ((k'.windowOf w.cmd).map (·.full)) = some true then
          match execReduceArm w.cmd s with
          | .next t => t
          | _ => s
        else s
      (s, !all)

/-! DMA copy engines (R177, R178) -/

/-- A DMA body. -/
structure DmaBody where
  src : Nat
  dst : Nat
  bytes : Nat
  rows : Nat
  sPitch : Int
  dPitch : Int
  deriving DecidableEq, Repr, Inhabited

/-- The fields of a DMA body. -/
def DmaBody.of (b : Bytes) : DmaBody :=
  ⟨fieldAt b 16 8, fieldAt b 24 8, fieldAt b 32 4, fieldAt b 36 4, toSigned 64 (fieldAt b 40 8), toSigned 64 (fieldAt b 48 8)⟩

/-- An engine address lies in core or cluster memory. -/
def eaNear (ea : Nat) : Bool := decide (eaSpace ea = 1) || decide (eaSpace ea = 2)

/-- Whether rows of a pitch leave their core-memory or cluster-memory space. -/
def Job.rowsOut (j : Job) (s : State) (ea rows bytes : Nat) (pitch : Int) : Bool :=
  let a : Int := ((ea % 2 ^ 32 : Nat) : Int)
  let z := a + ((rows - 1 : Nat) : Int) * pitch
  eaNear ea && (decide (min a z < 0) || decide (((j.limit s ea : Nat) : Int) < max a z + ((bytes : Nat) : Int)))

/-- The checks of DMA_COPY, or of DMA_FILL where `fill` (R137, R177). -/
def Job.checkDma (j : Job) (fill : Bool) : Run (Option (W16 × Nat)) := do
  let s ← get
  let b := j.k.desc
  let d := DmaBody.of b
  let sn := !fill && eaNear d.src
  let dn := eaNear d.dst
  let al (ea : Nat) := if eaNear ea then 64 else 1
  match firstBad ([(!fill && (badEa d.src (al d.src) || j.badStart s d.src), 16),
      (badEa d.dst (al d.dst) || j.badStart s d.dst, 24),
      (decide (d.bytes = 0) || ((sn || dn) && decide (d.bytes % 64 ≠ 0)), 32),
      (decide (d.rows = 0) || decide (2 ^ 20 < d.rows) || (!fill && j.rowsOut s d.src d.rows d.bytes d.sPitch) ||
        j.rowsOut s d.dst d.rows d.bytes d.dPitch, 36),
      (!fill && sn && decide (d.sPitch % 64 ≠ 0), 40), (dn && decide (d.dPitch % 64 ≠ 0), 48)] ++
      reservedSet b ([(56, 8)] ++ if fill then [(40, 8)] else [])) with
  | some n => pure (badField n)
  | none => pure none

/-- DMA_COPY (R177, R178). -/
def dmaCopyRun (j : Job) : Run (W16 × W16 × Nat) := do
  match ← j.checkDma false with
  | some (st, d) => pure (st, 0, d)
  | none =>
    let d := DmaBody.of j.k.desc
    (List.range d.rows).forM fun r => do
      let b ← j.load (moveEa d.src (d.sPitch * ((r : Nat) : Int))) d.bytes
      j.store (moveEa d.dst (d.dPitch * ((r : Nat) : Int))) b
    pure (stOk, 0, 0)

/-- The row runs `dmaCopyRun`. -/
def execDmaCopy (c : CmdRef) (s : State) : Host.Outcome State Fault Refusal :=
  runRow c 0x200 s dmaCopyRun

/-- Byte `n` of a fill row. -/
def fillRow (pattern : Bytes) (n : Nat) : Bytes := (List.range n).map fun k => pattern.getD (k % 8) 0

/-- DMA_FILL (R177). -/
def dmaFillRun (j : Job) : Run (W16 × W16 × Nat) := do
  match ← j.checkDma true with
  | some (st, d) => pure (st, 0, d)
  | none =>
    let d := DmaBody.of j.k.desc
    let row := fillRow ((j.k.desc.drop 16).take 8) d.bytes
    (List.range d.rows).forM fun r => j.store (moveEa d.dst (d.dPitch * ((r : Nat) : Int))) row
    pure (stOk, 0, 0)

/-- The row runs `dmaFillRun`. -/
def execDmaFill (c : CmdRef) (s : State) : Host.Outcome State Fault Refusal :=
  runRow c 0x201 s dmaFillRun

end Sys2Proof.Machine
end

