-- ==== Sys2Proof/Machine/FabricCmd.lean ====
section
/-! DEFINITION. The fabric commands: FAB_ATOMIC (R295, R296, R301), the loft's acquire and release (R300), multicast
(R302, R303) and collectives (R304, R305). -/

namespace Sys2Proof.Machine

/-- A command's sent requests are all answered. -/
def Job.quiet (j : Job) (s : State) : Bool :=
  (j.now s).unsent.isEmpty && decide ((s.site j.i).openTxns j.c = 0)

/-- Notes how a branch ended, the first outcome standing. -/
def State.noteBranch (s : State) (c : CmdRef) (b : Nat) (st : W16) : State :=
  s.onCmd c fun k => if k.branches.any (·.1 == b) then k else { k with branches := k.branches ++ [(b, st)] }

/-- A branch that fails is noted, and the command goes on with the others. -/
def Job.tryBranch (j : Job) (b : Nat) (x : Run Unit) : Run Unit :=
  tryCatch x fun e => match e with
    | .fail st _ => modify fun s => s.noteBranch j.c b st
    | e => throw e

/-! FAB_ATOMIC (R295, R296) -/

/-- Bytes of a word of an atomic operation. -/
def atomicWidth (op : Nat) : Nat := if op = 3 then 4 else 8

/-- Words per packet of an operation. -/
def atomicLimit (op : Nat) : Nat := if op = 2 then 1 else if op = 3 then 1024 else 512

/-- The new value of a word (R295): operation, old value, operand, compare value. -/
def atomicNew (op old x cmp : Nat) : Nat :=
  if op = 0 then (old + x) % 2 ^ 64 else if op = 1 then max old x
  else if op = 2 then if old = cmp then x else old
  else f32bits (fAdd (fp32.decode old) (fp32.decode x))

/-- One word updated at its memory port: its old value. None: the write must wait. -/
def State.atomicWord (s : State) (b addr op x cmp slot : Nat) : Option (Except W16 Nat × State) :=
  let w := atomicWidth op
  if (s.site b).portHeld addr then none
  else match s.tierRead b addr w slot true true with
  | (.error st, s) => some (.error st, s)
  | (.ok o, s1) =>
    let old := leNat o
    if op = 2 ∧ old ≠ cmp then some (.ok old, s1)
    else match s1.tierWrite b addr (leBytes w (atomicNew op old x cmp)) slot true true none with
      | none => none
      | some (.error st, s) => some (.error st, s)
      | some (.ok _, s) => some (.ok old, s)

/-- The FAB_ATOMIC body. -/
structure AtomicBody where
  target : Nat
  operand : Nat
  compare : Nat
  result : Nat
  count : Nat
  fetch : Bool
  op : Nat
  imm : Bool
  deriving DecidableEq, Repr, Inhabited

/-- Reads the body. -/
def AtomicBody.of (b : Bytes) : AtomicBody :=
  ⟨fieldAt b 16 8, fieldAt b 24 8, fieldAt b 32 8, fieldAt b 40 8, fieldAt b 48 2, bitsAt b 50 3 3 == 1, bitsAt b 50 2 0,
   bitsAt b 51 0 0 == 1⟩

/-- The checks of a FAB_ATOMIC body. -/
def Job.checkAtomic (j : Job) : Run (Option (W16 × Nat)) := do
  let s ← get
  let b := j.k.desc
  let a := AtomicBody.of b
  let w := atomicWidth a.op
  match firstBad ([(badEa a.target w || decide (eaSpace a.target ≠ 0), 16),
      (!a.imm && (badEa a.operand || j.badStart s a.operand), 24),
      (a.fetch && (badEa a.result || j.badStart s a.result || j.past s a.result w), 40),
      (decide (a.count = 0) || decide (1024 < a.count) || (decide (a.op < 4) && decide (atomicLimit a.op < a.count)) ||
        ((a.fetch || a.imm) && decide (a.count ≠ 1)) || (!a.imm && j.past s a.operand (w * a.count)), 48),
      (decide (bitsAt b 50 7 4 ≠ 0) || decide (3 < a.op) || (decide (a.op = 2) && !a.fetch), 50),
      (decide (bitsAt b 51 7 1 ≠ 0), 51)] ++ reservedSet b [(52, 12)]) with
  | some n => pure (badField n)
  | none => pure none

/-- Writes back the given granules of a frame, adjacent ones joined within each 4 KiB (R300). -/
def Job.writeBack (j : Job) (f : Frame) (which : BitVec 256) : Run Unit := do
  let data := ((← get).site j.i).fast.data
  let starts := (bitsSet which).filter fun g => decide (g % 16 = 0) || !which.getLsbD (g - 1)
  starts.forM fun g => do
    let n := ((List.range (16 - g % 16)).takeWhile fun k => which.getLsbD (g + k)).length
    j.tryBranch (f.page * 256 + g)
      (j.farPut ⟨.priv, f.part * 8 + f.inst, f.page * 65536 + g * 256, 0⟩ (data.read (f.ppn * 65536 + g * 256) (n * 256))
        (f.page * 256 + g) none)
  modify fun s => s.onFrame j.i f.slice (f.part * 8 + f.inst) f.page fun x => { x with dirty := x.dirty &&& ~~~which }

/-- An atomic to a page of the loft: dirty granules of its sub-page go home first, then the sub-page is invalid
(R301). -/
def Job.cleanFrame (j : Job) (p : Spot) : Run Unit := do
  match ((← get).site j.i).frame? j.v p.dst (p.addr / 65536) with
  | none => pure ()
  | some f =>
    let sub := p.addr % 65536 / 4096
    let dirty := f.dirty &&& BitVec.ofNat 256 (0xFFFF <<< (16 * sub))
    if dirty ≠ 0 then
      j.writeBack f dirty
      throw .wait
    else if j.quiet (← get) then
      modify fun s => s.onFrame j.i j.v p.dst (p.addr / 65536) fun x =>
        { x with valid := x.valid &&& ~~~(BitVec.ofNat 16 (2 ^ sub)) }
    else throw .stall

/-- An atomic on a host word (R595): FetchAdd and CAS AtomicOps, the other operations by a compare-and-swap loop. -/
def Job.hostAtomic (j : Job) (op bus x cmp : Nat) : Run Nat := do
  let s ← get
  let w := atomicWidth op
  if !(s.site (s.homeSite j.v)).atomicOps then fail stHostError
  else
    let k := j.now s
    let await (m : Msg) (seen : Option W64) : Run Nat := do
      set ((s.emit m).onCmd j.c fun k => { k with
        sigSeen := seen, got := [], asks := k.asks ++ [⟨bus, w, s.epochOf j.v⟩] })
      throw .wait
    match gotRun k.got bus w with
    | none =>
      if op = 0 then await (.hostAdd j.v bus (BitVec.ofNat 64 x)) none
      else if op = 2 then await (.hostCas j.v bus (BitVec.ofNat 64 cmp) (BitVec.ofNat 64 x)) none
      else throw (.askHost bus w)
    | some b =>
      let old := leNat b
      let new := atomicNew op old x cmp
      if op = 0 ∨ op = 2 ∨ new = old ∨ k.sigSeen = some (BitVec.ofNat 64 old) then
        set (s.onCmd j.c fun k => { k with sigSeen := none, got := [] })
        pure old
      else await (.hostCas j.v bus (BitVec.ofNat 64 old) (BitVec.ofNat 64 new)) (some (BitVec.ofNat 64 old))

/-- The words of an atomic from the first one not yet done; the old value of the last. -/
def Job.atomics (j : Job) (a : AtomicBody) (ops : Bytes) : Nat → Run Nat
  | 0 => pure 0
  | n + 1 => do
    let w := atomicWidth a.op
    let k := (j.now (← get)).progress
    let x := fieldAt ops (k * w) w
    let p ← j.find (a.target % 2 ^ 57 + k * w) 4
    let done (m : Nat) : Run Unit := modify fun s => s.onCmd j.c fun c => { c with progress := k + m }
    if p.cls = .shared ∨ p.loft = 1 then fail stRightsFault
    else
      if p.loft ≠ 0 then j.cleanFrame p
      let s ← get
      match p.cls, s.here? p.dst with
      | .host, _ =>
        let old ← j.hostAtomic a.op p.addr x a.compare
        done 1
        if k + 1 = a.count then pure old else j.atomics a ops n
      | _, some b =>
        if 8 ≤ b ∨ !s.joined j.i b then fail stFabricTimeout
        else
          j.charge p w
          let old ← viaHold fun s => s.atomicWord b p.addr a.op x a.compare j.slot
          done 1
          if k + 1 = a.count then pure old else j.atomics a ops n
      | _, none =>
        let m := min (a.count - k) ((4096 - p.addr % 4096) / w)
        let body := if a.op = 2 then leBytes 8 a.compare ++ leBytes 8 x else (ops.drop (k * w)).take (m * w)
        j.charge p body.length
        j.send { kind := .atomic, op := a.op + 8 * a.fetch.toNat, dst := p.dst, addr := p.addr, len := body.length
                 slot := j.slot, priv := true, payload := body, epoch := s.epochOf j.v }
        done m
        if a.fetch then
          modify fun s => s.onCmd j.c fun c => { c with
            asks := c.asks ++ [⟨fabKey p.dst p.addr, w, s.epochOf j.v⟩] }
          throw .wait
        else if k + m = a.count then pure 0 else j.atomics a ops n

/-- FAB_ATOMIC (R296). -/
def fabAtomicRun (j : Job) : Run (W16 × W16 × Nat) := do
  match ← j.checkAtomic with
  | some (st, d) => pure (st, 0, d)
  | none =>
    let a := AtomicBody.of j.k.desc
    let w := atomicWidth a.op
    let old ←
      if j.k.progress < a.count then do
        let ops ← if a.imm then pure (leBytes 8 a.operand) else j.load a.operand (w * a.count)
        j.atomics a ops a.count
      else pure (leNat (((j.k.got.head?).map (·.2)).getD []))
    if a.fetch then j.store a.result (leBytes w old)
    pure (stOk, 0, 0)

/-- The row runs `fabAtomicRun`. -/
def execFabAtomic (c : CmdRef) (s : State) : Host.Outcome State Fault Refusal :=
  runRow c 0x300 s fabAtomicRun

/-! The loft's epochs (R300) -/

/-- BASE, LEN and INVAL of a loft body. -/
def loftBody (b : Bytes) : Nat × Nat × Bool := (fieldAt b 16 8, fieldAt b 24 8, bitsAt b 32 0 0 == 1)

/-- The checks of a loft body. -/
def loftBad (b : Bytes) : Option Nat :=
  let (base, len, _) := loftBody b
  firstBad ([(decide (base % 4096 ≠ 0) || decide (2 ^ 57 ≤ base), 16),
    (decide (len % 4096 ≠ 0) || decide (len = 0) || decide (2 ^ 57 < base + len), 24), (decide (bitsAt b 32 7 1 ≠ 0), 32)] ++
    reservedSet b [(33, 31)])

/-- Sub-pages that a granule map touches. -/
def subsOf (m : BitVec 256) : BitVec 16 :=
  BitVec.ofNat 16 (((List.range 16).filter fun j => decide (bitsOf m (16 * j + 15) (16 * j) ≠ 0)).foldl (fun x j => x + 2 ^ j) 0)

/-- Invalidates sub-pages of a slice's frames: `which` gives the granules of a frame in the range; frames left empty are
freed. -/
def State.dropSubs (s : State) (v i : Nat) (which : Frame → BitVec 256) (keepDirty : Bool) : State :=
  let cut := fun f : Frame =>
    if f.slice ≠ v then f
    else
      let hold := if keepDirty then subsOf f.dirty else 0
      { f with valid := f.valid &&& ~~~(subsOf (which f) &&& ~~~hold)
               dirty := if keepDirty then f.dirty else f.dirty &&& ~~~(which f) }
  (s.onNet i fun n => { n with frames := n.frames.map cut }).dropFrames i fun f =>
    decide (f.slice = v) && decide (f.valid = 0) && decide (f.dirty = 0)

/-- The granules of a frame behind some remote runs. -/
def Frame.inRuns (f : Frame) (runs : List (Nat × Nat × Nat × Nat)) : BitVec 256 :=
  runs.foldl (fun m (_, dst, addr, n) => m ||| f.within dst addr n) 0

/-- LOFT_ACQUIRE (R300). -/
def loftAcquireRun (j : Job) : Run (W16 × W16 × Nat) := do
  match loftBad j.k.desc with
  | some n => pure (stBadDescriptor, 0, n)
  | none =>
    let (base, len, _) := loftBody j.k.desc
    let runs := (← get).loftRuns j.v j.i j.asid base len
    modify fun s => (s.dropSubs j.v j.i (·.inRuns runs) true).onNet j.i fun n => { n with
      epochs := n.epochs.filter (· ≠ ⟨j.v, j.asid, base, len⟩) ++ [⟨j.v, j.asid, base, len⟩] }
    pure (stOk, 0, 0)

/-- The row runs `loftAcquireRun`. -/
def execLoftAcquire (c : CmdRef) (s : State) : Host.Outcome State Fault Refusal :=
  runRow c 0x301 s loftAcquireRun

/-- FABRIC_TIMEOUT when any branch timed out, else the first error, else OK (R300, R305). -/
def branchStatus (l : List (Nat × W16)) : W16 :=
  if (l.map (·.2)).contains stFabricTimeout then stFabricTimeout else (l.map (·.2)).headD stOk

/-- LOFT_RELEASE (R300): write-backs, their acknowledgements, then the frames go and the epoch closes. -/
def loftReleaseRun (j : Job) : Run (W16 × W16 × Nat) := do
  match loftBad j.k.desc with
  | some n => pure (stBadDescriptor, 0, n)
  | none =>
    let (base, len, inval) := loftBody j.k.desc
    let s ← get
    let runs := s.loftRuns j.v j.i j.asid base len
    if j.k.progress = 0 then
      let mine := (s.site j.i).net.frames.filter fun f => decide (f.slice = j.v)
      mine.forM fun f => j.writeBack f (f.dirty &&& f.inRuns runs)
      modify fun s => s.onCmd j.c fun k => { k with progress := 1 }
      throw .wait
    else if !j.quiet s then throw .stall
    else
      let drop := runs.filter fun r => decide (r.1 = 2) || inval
      modify fun s => (s.dropSubs j.v j.i (·.inRuns drop) false).onNet j.i fun n => { n with
        epochs := n.epochs.filter fun e => !(decide (e.slice = j.v) && decide (e.asid = j.asid) &&
          decide (base ≤ e.base) && decide (e.base + e.len ≤ base + len)) }
      pure (branchStatus (j.now (← get)).branches, 0, 0)

/-- The row runs `loftReleaseRun`. -/
def execLoftRelease (c : CmdRef) (s : State) : Host.Outcome State Fault Refusal :=
  runRow c 0x302 s loftReleaseRun

/-! Multicast (R302, R303) -/

/-- A group number lies in a range granted to the slice on an instance. -/
def Vd.mcOwns (d : Vd) (inst g : Nat) : Bool :=
  d.hold.mcRanges.any fun (i, first, n) => decide (i = inst) && decide (first ≤ g) && decide (g < first + n)

/-- MCAST_GROUP_SET (R302). -/
def mcastGroupSetRun (j : Job) : Run (W16 × W16 × Nat) := do
  let s ← get
  let b := j.k.desc
  let (list, g, n) := (fieldAt b 16 8, fieldAt b 24 2 % 4096, fieldAt b 26 1)
  match firstBad ([(badEa list || j.badStart s list, 16),
      (decide (bitsAt b 25 7 4 ≠ 0) || !(s.vd j.v).mcOwns (s.site j.i).id g, 24),
      (decide (n = 0) || decide (64 < n) || j.past s list (8 * n), 26)] ++ reservedSet b [(27, 37)]) with
  | some x => pure (stBadDescriptor, 0, x)
  | none =>
    let l ← j.load list (8 * n)
    modify fun s => s.onNet j.i fun t => { t with
      groups := t.groups.filter (fun x => decide (x.num ≠ g)) ++
        [⟨g, j.v, j.asid, (List.range n).map fun k => fieldAt l (8 * k) 8⟩] }
    pure (stOk, 0, 0)

/-- The row runs `mcastGroupSetRun`. -/
def execMcastGroupSet (c : CmdRef) (s : State) : Host.Outcome State Fault Refusal :=
  runRow c 0x303 s mcastGroupSetRun

/-- The command's final status from its branches' (R303). -/
def mcStatus (n : Nat) (failed : List (Nat × W16)) : W16 :=
  let bad := (List.range n).filterMap fun b => (failed.find? fun x => decide (x.1 = b)).map (·.2)
  if bad.isEmpty then stOk
  else if bad.length < n then stPartial
  else if bad.contains stFabricTimeout then stFabricTimeout
  else bad.headD stOk

/-- MCAST_WRITE (R303). -/
def mcastWriteRun (j : Job) : Run (W16 × W16 × Nat) := do
  let s ← get
  let b := j.k.desc
  let (src, off, res, len, g) := (fieldAt b 16 8, fieldAt b 24 8, fieldAt b 32 8, fieldAt b 40 4, fieldAt b 44 2 % 4096)
  let group := (s.site j.i).net.groups.find? fun x => decide (x.num = g) && decide (x.slice = j.v)
  match firstBad ([(badEa src || j.badStart s src, 16), (badEa res || j.badStart s res || j.past s res 8, 32),
      (decide (len = 0) || j.past s src len, 40),
      (decide (bitsAt b 45 7 4 ≠ 0) || !(s.vd j.v).mcOwns (s.site j.i).id g || group.isNone, 44)] ++
      reservedSet b [(46, 18)]) with
  | some x => pure (stBadDescriptor, 0, x)
  | none =>
    let ts := ((group.map (·.targets)).getD []).zipIdx
    if j.k.progress = 0 then
      if 16 ≤ (s.site j.i).net.mcRuns.length then throw .stall
      else
        let data ← j.load src len
        ts.forM fun (base, n) => j.tryBranch n (do
          let dva := (base + off) % 2 ^ 64
          let b : Job := { j with asid := (group.map (·.asid)).getD j.asid }
          if 2 ^ 57 < dva + len then fail stTranslationFault else b.putDva dva data n (some g))
        modify fun s => (s.onNet j.i fun t => { t with mcRuns := t.mcRuns ++ [j.c] }).onCmd j.c fun k =>
          { k with progress := 1 }
        throw .wait
    else if !j.quiet s then throw .stall
    else
      let failed := (j.now s).branches
      let mask := (ts.filter fun x => !failed.any (·.1 == x.2)).foldl (fun m x => m + 2 ^ x.2) 0
      j.store res (leBytes 8 mask)
      pure (mcStatus ts.length failed, 0, 0)

/-- The row runs `mcastWriteRun`. -/
def execMcastWrite (c : CmdRef) (s : State) : Host.Outcome State Fault Refusal :=
  runRow c 0x304 s mcastWriteRun

/-- A branch of a multicast fails and sends nothing further (R303). -/
def State.branchFails (s : State) (c : CmdRef) (b : Nat) (st : W16) : State :=
  (s.noteBranch c b st).onCmd c fun k => { k with unsent := k.unsent.filter fun r => decide (r.branch ≠ b) }

/-- HOLD_TIME_EXPIRY (R303): a branch with something still to send has been unable to for the hold time. -/
def execHoldTimeExpiry (c : CmdRef) (branch : Nat) (s : State) : Host.Outcome State Fault Refusal :=
  .next (match s.cmd? c with
    | none => s
    | some k =>
      if k.op = 0x304 ∧ k.phase = .issued ∧ !k.ran ∧ k.unsent.any fun r => decide (r.branch = branch) then
        s.branchFails c branch stFabricTimeout
      else s)

/-! Collectives (R304, R305) -/

/-- The element index, cluster and IN_DT of a CONTRIB packet as ADDR carries them: the index in [21:0] by R279, the
others above it (log entry 32). -/
def contribAddr (index cl dt : Nat) : Nat := index % 2 ^ 22 + cl <<< 22 + dt <<< 23

/-- The kind 0 COLLECTIVE (R304). -/
def Job.contribBody (j : Job) : Run (W16 × W16 × Nat) := do
  let s ← get
  let b := j.k.desc
  let (src, target, count, off, dt) := (fieldAt b 16 8, fieldAt b 24 8, fieldAt b 40 4, fieldAt b 44 4, bitsAt b 52 2 0)
  let w := dtW dt
  match firstBad ([(badEa src || j.badStart s src, 16), (decide (2 ^ 18 ≤ target), 24),
      (decide (count = 0) || decide (2 ^ 22 < count) || decide (2 ^ 22 < off + count) || j.past s src (count * w), 40),
      (decide (bitsAt b 52 3 3 ≠ 0), 52), (decide (bitsAt b 53 7 6 ≠ 0), 53)] ++
      reservedSet b [(32, 8), (48, 2), (50, 2), (54, 10)]) with
  | some x => pure (stBadDescriptor, 0, x)
  | none =>
    if !reduceIn dt then pure (stUnsupported, 0, 0)
    else
      let data ← j.load src (count * w)
      let (dst, cl, num, per) := (target % 2 ^ 17, target / 2 ^ 17, bitsAt b 53 5 0, 4096 / w)
      (List.range (ceilDiv count per)).forM fun k => do
        let bs := (data.drop (k * 4096)).take 4096
        let s ← get
        match s.here? dst with
        | some site =>
          if 8 ≤ site ∨ !s.joined j.i site then fail stFabricTimeout
          else
            let (s, ok) := s.contribute site cl num j.v (off + k * per) dt bs
            set s
            if ok then pure () else fail stFabricTimeout
        | none =>
          j.send { kind := .contrib, dst := dst, addr := contribAddr (off + k * per) cl dt, len := bs.length, slot := j.slot
                   priv := true, payload := bs, window := num, epoch := s.epochOf j.v }
      pure (stOk, 0, 0)

/-- Gives the fabric reads of a run a branch number. -/
def asBranch {α : Type} (n : Nat) (x : Run α) : Run α :=
  tryCatch x fun e => match e with
    | .askFab rs => throw (.askFab (rs.map fun r => { r with branch := n }))
    | e => throw e

/-- The kind 1 COLLECTIVE (R305). -/
def Job.allToAll (j : Job) : Run (W16 × W16 × Nat) := do
  let s ← get
  let b := j.k.desc
  let (tokens, table, map, t, row) := (fieldAt b 16 8, fieldAt b 24 8, fieldAt b 32 8, fieldAt b 40 4, fieldAt b 44 4)
  let (e, cap, back) := (fieldAt b 48 2, fieldAt b 50 2, bitsAt b 52 3 3 == 1)
  let rb := roundUp row 64
  let (pc, pd) := (roundUp (4 * (e + 1)) 64, roundUp (4 * e) 64)
  match firstBad ([(badEa tokens || j.badStart s tokens, 16), (badEa table || j.badStart s table, 24),
      (badEa map || j.badStart s map, 32),
      (decide (t = 0) || decide (65536 < t) || (!back && j.past s tokens (t * rb)), 40),
      (decide (row < 4) || decide (65536 < row) || decide (row % 4 ≠ 0), 44),
      (decide (e = 0) || decide (512 < e) || j.past s map (16 * (e + 1)) || j.past s table (pc + pd + 4 * (e * cap)) ||
        (back && j.past s tokens (e * cap * rb)), 48),
      (decide (bitsAt b 52 2 0 ≠ 0), 52)] ++ reservedSet b [(53, 1), (54, 10)]) with
  | some x => pure (stBadDescriptor, 0, x)
  | none =>
    if j.k.progress = 1 then if j.quiet s then pure (branchStatus (j.now s).branches, 0, 0) else throw .stall
    else
    let counts ← j.load table (4 * (e + 1))
    let bases ← j.load map (16 * (e + 1))
    (List.range (e + 1)).forM fun x => do
      let n := fieldAt counts (4 * x) 4
      let n := if x < e then min n cap else n
      let slots ← j.loadAt (table + pc + pd + 4 * (x * cap)) (4 * n) 24 4
      (List.range n).forM fun k => do
        let tok := fieldAt slots (4 * k) 4
        let place := x * cap + k
        if tok = 0xFFFFFFFF ∨ (j.now (← get)).branches.any (·.1 == place) then pure ()
        else j.tryBranch place (asBranch place (do
          let dva := fieldAt bases (16 * x + (if back then 8 else 0)) 8 + k * rb
          if 2 ^ 57 < dva + row then fail stBadDescriptor 32
          else if back then do
            let r ← j.getDva dva row
            j.storeAt (tokens + place * rb) r 16
          else do
            let r ← j.loadAt (tokens + tok * rb) row 16
            j.putDva dva r place))
    if j.quiet (← get) then pure (branchStatus (j.now (← get)).branches, 0, 0)
    else
      modify fun s => s.onCmd j.c fun k => { k with progress := 1 }
      throw .wait

/-- COLLECTIVE (R304, R305). -/
def collectiveRun (j : Job) : Run (W16 × W16 × Nat) := do
  let kind := bitsAt j.k.desc 52 7 4
  if kind = 0 then j.contribBody
  else if kind = 1 then j.allToAll
  else pure (stBadDescriptor, 0, 52)

/-- The row runs `collectiveRun`. -/
def execCollective (c : CmdRef) (s : State) : Host.Outcome State Fault Refusal :=
  runRow c 0x305 s collectiveRun

end Sys2Proof.Machine
end

