-- ==== Sys2Proof/Machine/Links.lean ====
section
/-! DEFINITION. Fabric link ports: frames, acknowledgement and credit (R274–R276), training (R272, R273); die-to-die
ports (R306, R553); routing entries (R293) and quiescence (R179, R312). -/

namespace Sys2Proof.Machine

/-! Link frames (R275, R276) -/

/-- `a` lies at or behind `b` in the 24-bit sequence. -/
def seqLe (a b : Nat) : Bool := decide ((b % 2 ^ 24 + 2 ^ 24 - a % 2 ^ 24) % 2 ^ 24 < 2 ^ 23)

/-- Capacity of the fabric egress in GB/s (R409). -/
def Site.egress (t : Site) : Nat :=
  ((List.range 8).map fun l => if t.linkState l = 6 then 24 * t.fld (rFabLink l) Fld.fabLinkWidth else 0).foldl (· + ·) 0

/-- The fault-ring record of a link's state and the capacity that goes with it (R272, R273, R411, R492). -/
def State.linkRecord (s : State) (i l : Nat) : State :=
  let t := s.site i
  s.report i 0x03 2 (leBytes 1 3 ++ leBytes 1 l ++ leBytes 1 (t.linkState l) ++ leBytes 1 0 ++ leBytes 4 t.egress)

/-- An ACTIVE link leaves that state: it enters RETRAIN, and what waits on it chooses its route anew (R272, R275,
R284). -/
def State.retrain (s : State) (i l : Nat) : State :=
  let s := (s.setFld i (rFabLink l) Fld.fabLinkState 7).onLink i l fun k => { k with step := 1, refusals := 0, nak := none }
  ((s.reroute i l).raiseSrc i (0x58 + l)).linkRecord i l

/-- Counts one more refusal of the same frame; the eighth in a row takes the link to RETRAIN (R275). -/
def State.refused (s : State) (i l : Nat) : State :=
  let n := ((s.site i).link l).refusals + 1
  if 8 ≤ n then s.retrain i l else s.onLink i l fun k => { k with refusals := n }

/-- LINK_FRAME (R275, R276): a frame in sequence is taken and its credits return as it leaves the buffer; a repeated one
is acknowledged again; a failed CRC or a gap is refused. The codewords that FEC could not correct in a frame with a
failed CRC are a free number (log entry 33). -/
def execLinkFrame (i l seq : Nat) (crcOk : Bool) (units : Nat) (s : State) : Host.Outcome State Fault Refusal :=
  .next (
    let t := s.site i
    let k := t.link l
    if !t.linkUp l then s
    else if crcOk && decide (seq % 2 ^ 24 = k.rxSeq) then
      let s := s.onLink i l fun k => { k with rxSeq := (k.rxSeq + 1) % 2 ^ 24, refusals := 0 }
      (s.emit (.control i l 0 (seq % 2 ^ 24))).emit (.control i l 2 units)
    else if crcOk && seqLe seq k.rxSeq then s.emit (.control i l 0 ((k.rxSeq + 2 ^ 24 - 1) % 2 ^ 24))
    else
      let (s, n) := if crcOk then (s, 0) else
        let (f, s) := s.draw
        (s, f.toNat % 65536)
      ((s.bump i (rFabLinkErr l) Fld.fabLinkErrFecUncorr n).emit (.control i l 1 k.rxSeq)).refused i l)

/-- ACKNOWLEDGEMENT (R275): replay space up to the named frame is free. -/
def execAcknowledgement (i l seq : Nat) (s : State) : Host.Outcome State Fault Refusal :=
  .next (if !(s.site i).linkUp l then s
    else (s.onLink i l fun k => { k with
      replay := k.replay.filter fun f => !seqLe f.seq seq, refusals := 0, nak := none }).drain i l)

/-- Resends frames from the replay buffer, counted in RETRIES (R275, R320). -/
def State.resendFrom (s : State) (i l : Nat) (fs : List LinkFrame) : State :=
  (fs.foldl (fun s f => s.emit (.resend i l f.seq)) s).bump i (rFabLinkErr l) Fld.fabLinkErrRetries fs.length

/-- NEGATIVE_ACKNOWLEDGEMENT (R275): the frames from the named one are sent again; the eighth refusal of one frame in a
row takes the link to RETRAIN. -/
def execNegativeAcknowledgement (i l seq : Nat) (s : State) : Host.Outcome State Fault Refusal :=
  .next (
    let k := (s.site i).link l
    if !(s.site i).linkUp l then s
    else
      let s := s.onLink i l fun k => { k with nak := some (seq % 2 ^ 24), refusals := if k.nak = some (seq % 2 ^ 24) then k.refusals else 0 }
      (s.resendFrom i l (k.replay.filter fun f => seqLe seq f.seq)).refused i l)

/-- CREDIT_RETURN (R276). -/
def execCreditReturn (i l : Nat) (cr : CreditGrant) (s : State) : Host.Outcome State Fault Refusal :=
  .next (if !(s.site i).linkUp l then s
    else (s.onLink i l fun k => { k with credits := creditAdd k.credits cr }).drain i l)

/-! Training (R272, R273) -/

/-- The bring-up state a link stands at: its own, or the one its RETRAIN has come to. -/
def Site.bringUp (t : Site) (l : Nat) : Nat := if t.linkState l = 7 then (t.link l).step else t.linkState l

/-- The link may train: the port is enabled and its port group is up. -/
def Site.mayTrain (t : Site) (l : Nat) : Bool :=
  t.pins.coldRstN && t.domUp 19 && decide (l < 8) && decide (t.fld rFabCfg Fld.fabCfgEnable = 1) && !(t.link l).disabled

/-- The state a link starts from: DETECT, or DISABLED where it may not train (R272). -/
def Site.linkStart (t : Site) (l : Nat) : Nat := if t.fld rFabCfg Fld.fabCfgEnable = 1 ∧ !(t.link l).disabled then 1 else 0

/-- A link is held DISABLED: what waits on it chooses its route anew (R272, R284). -/
def State.linkOff (s : State) (i l : Nat) : State :=
  let was := (s.site i).linkState l
  if was = 0 ∨ was = 9 ∨ was = 10 then s
  else
    let s := (s.setFld i (rFabLink l) Fld.fabLinkState 0).setFld i (rFabLink l) Fld.fabLinkWidth 0
    let s := (s.onLink i l fun k => { k with step := 0, refusals := 0, nak := none }).reroute i l
    if was = 6 then (s.raiseSrc i (0x58 + l)).linkRecord i l else s

/-- A DISABLED link that may train starts at DETECT. -/
def State.linkOn (s : State) (i l : Nat) : State :=
  if (s.site i).linkState l = 0 then s.setFld i (rFabLink l) Fld.fabLinkState ((s.site i).linkStart l) else s

/-- Moves bring-up on. -/
def State.bringTo (s : State) (i l n : Nat) : State :=
  if (s.site i).linkState l = 7 then s.onLink i l fun k => { k with step := n }
  else s.setFld i (rFabLink l) Fld.fabLinkState n

/-- The link has fewer than two usable lanes: FAILED; out of RETRAIN its replay frames are discarded and counted. -/
def State.linkFails (s : State) (i l : Nat) : State :=
  let from7 := decide ((s.site i).linkState l = 7)
  let s := s.onLink i l fun k => if from7 then { k with
    discarded := k.discarded + k.replay.length, replay := [], step := 0 } else k
  let s := (s.setFld i (rFabLink l) Fld.fabLinkState 8).setFld i (rFabLink l) Fld.fabLinkWidth 0
  ((s.linkRecord i l).raiseSrc i (0x58 + l)).reroute i l

/-- DETECT (R272): the receivers have signal. -/
def execDetect (i l : Nat) (signal : BitVec 5) (s : State) : Host.Outcome State Fault Refusal :=
  .next (
    let t := s.site i
    if !t.mayTrain l || decide (t.bringUp l ≠ 1) then s
    else if ((List.range 5).filter signal.getLsbD).length < 2 then s.linkFails i l
    else s.bringTo i l 2)

/-- Far-end port of a lane: switch, part, instance and port. -/
def LaneFar (o : LaneObs) : Option (Bool × Nat × Nat × Nat) :=
  match o with
  | .far sw part site port _ => some (sw, part, site, port)
  | _ => none

/-- Far-end lane number. -/
def laneNo (o : LaneObs) : Nat :=
  match o with
  | .far _ _ _ _ n => n
  | _ => 0

/-- The far-end port that supplies the most lanes, ties going to the lower port number (R273). -/
def keptPort (lanes : List LaneObs) : Option (Bool × Nat × Nat × Nat) :=
  let fars := lanes.filterMap LaneFar
  let count := fun f : Bool × Nat × Nat × Nat => (fars.filter (· == f)).length
  fars.foldl (fun best f =>
    match best with
    | none => some f
    | some b => if count b < count f ∨ (count b = count f ∧ f.2.2.2 < b.2.2.2) then some f else some b) none

/-- Lays a link on its usable lanes, given with their far-end numbers in rising physical order: lane map, width, SPARE_USED
and REVERSED, or FAILED (R273). -/
def State.layLanes (s : State) (i l : Nat) (usable : List (Nat × Nat)) (next : Nat) : State :=
  let bad := ((List.range 5).filter fun n => !usable.any (·.1 == n)).foldl (fun m n => m + 2 ^ n) 0
  let chosen := usable.take 4
  let order := chosen.mergeSort fun a b => decide (a.2 ≤ b.2)
  let s := s.setFld i (rFabLink l) Fld.fabLinkLaneBad bad
  if chosen.length < 2 then s.linkFails i l
  else
    let s := (s.setFld i (rFabLink l) Fld.fabLinkWidth chosen.length).setFld i (rFabLink l) Fld.fabLinkSpareUsed
      (chosen.any (·.1 == 4)).toNat
    let s := s.setFld i (rFabLink l) Fld.fabLinkReversed (decide (order ≠ chosen)).toNat
    (s.onLink i l fun k => { k with laneMap := order.map (·.1) }).bringTo i l next

/-- What MAP found on the receive lanes (R273, R565): the far end is recorded, its lanes are laid in order, and a crossed
or looped port is reported. -/
def State.mapLanes (s : State) (i l : Nat) (lanes : List LaneObs) : State :=
  let kept := keptPort lanes
  let crossed := decide (1 < ((lanes.filterMap LaneFar).eraseDups).length)
  let usable := lanes.zipIdx.filterMap fun (o, n) =>
    if kept.isSome && decide (LaneFar o = kept) then some (n, laneNo o) else none
  let s := s.setFld i (rFabLink l) Fld.fabLinkCrossed crossed.toNat
  let s := match kept with
    | none => s
    | some (sw, part, site, port) =>
      let s := (s.setFld i (rFabLink l) Fld.fabLinkFarPort port).setFld i (rFabLinkFar l) Fld.fabLinkFarValid 1
      ((s.setFld i (rFabLinkFar l) Fld.fabLinkFarSwitch sw.toNat).setFld i (rFabLinkFar l) Fld.fabLinkFarFarPart
        (if sw then 0 else part)).setFld i (rFabLinkFar l) Fld.fabLinkFarFarInst (if sw then 0 else site)
  let s := s.layLanes i l usable 3
  if crossed || lanes.contains .own then s.linkRecord i l else s

/-- LINK_MAP (R273, R565): each lane is classified, and the far-end port kept is shown. -/
def execLinkMap (i l : Nat) (lanes : List LaneObs) (s : State) : Host.Outcome State Fault Refusal :=
  .next (if !(s.site i).mayTrain l || decide ((s.site i).bringUp l ≠ 2) then s else s.mapLanes i l (lanes.take 5))

/-- EQUALISE (R272): adaptation of the chosen lanes is over; a lane without signal is unusable (log entry 34). -/
def execEqualise (i l : Nat) (signal : BitVec 5) (s : State) : Host.Outcome State Fault Refusal :=
  .next (
    let t := s.site i
    let k := t.link l
    if !t.mayTrain l || decide (t.bringUp l ≠ 3) then s
    else if k.laneMap.all signal.getLsbD then s.bringTo i l 4
    else
      let bad := t.fld (rFabLink l) Fld.fabLinkLaneBad
      let far := fun n => (k.laneMap.findIdx? (· == n)).getD n
      s.layLanes i l (((List.range 5).filter fun n => signal.getLsbD n && !bad.testBit n).map fun n => (n, far n)) 4)

/-- ALIGN (R272): FEC codewords lock and the lanes deskew; without lock no lane is usable (log entry 34). -/
def execAlign (i l : Nat) (ok : Bool) (s : State) : Host.Outcome State Fault Refusal :=
  .next (
    let t := s.site i
    if !t.mayTrain l || decide (t.bringUp l ≠ 4) then s
    else if ok then s.bringTo i l 5 else s.linkFails i l)

/-- The link is ACTIVE (R272): the far end's credits and the round trip are recorded, frames not acknowledged are sent
again, and what waits goes out. -/
def State.linkStarts (s : State) (i l : Nat) (cr : CreditGrant) (rtt : Nat) : State :=
  let u := (s.setFld i (rFabLink l) Fld.fabLinkState 6).setFld i (rFabLink l) Fld.fabLinkRtt (min 255 (ceilDiv rtt 64))
  let u := u.onLink i l fun k => { k with credits := cr, step := 0, refusals := 0, nak := none }
  (((u.resendFrom i l ((s.site i).link l).replay).raiseSrc i (0x58 + l)).linkRecord i l).drain i l

/-- CREDIT (R272, R275–R277): the round trip, in ns, is shown; grants and sequence numbers are exchanged, the link is ACTIVE, and frames not acknowledged
are sent again. -/
def execCredit (i l : Nat) (cr : CreditGrant) (rtt : Nat) (s : State) : Host.Outcome State Fault Refusal :=
  .next (if !(s.site i).mayTrain l || decide ((s.site i).bringUp l ≠ 5) then s else s.linkStarts i l cr rtt)

/-- LANE_LOSS (R272): an ACTIVE link loses a lane of its map. -/
def execLaneLoss (i l lane : Nat) (s : State) : Host.Outcome State Fault Refusal :=
  .next (
    let t := s.site i
    if !t.linkUp l || !(t.link l).laneMap.contains lane then s
    else (s.setFld i (rFabLink l) Fld.fabLinkLaneBad (t.fld (rFabLink l) Fld.fabLinkLaneBad ||| 2 ^ lane)).retrain i l)

/-- LINK_RETRY (R272): a FAILED port starts again from DETECT. -/
def execLinkRetry (i l : Nat) (s : State) : Host.Outcome State Fault Refusal :=
  .next (
    let t := s.site i
    if t.mayTrain l && decide (t.linkState l = 8) then s.setFld i (rFabLink l) Fld.fabLinkState 1 else s)

/-! Die-to-die ports (R37, R38, R306, R553) -/

/-- The record of a die-to-die port's state and capacity: PATH 4 + j, 240 GB/s per module (R409, R492). -/
def State.d2dRecord (s : State) (i j : Nat) : State :=
  let t := s.site i
  let m := t.fld (rD2dPort j) Fld.d2dPortModules
  let n := ((List.range 4).filter fun k => m.testBit k).length
  (s.report i 0x03 2 (leBytes 1 (4 + j) ++ leBytes 1 j ++ leBytes 1 (t.fld (rD2dPort j) Fld.d2dPortState) ++ leBytes 1 0 ++
    leBytes 4 (240 * n))).raiseSrc i (0x61 + j)

/-- Sets a port's state, modules and peer. -/
def State.setD2d (s : State) (i j st : Nat) (modules : BitVec 4) (peer : Nat) : State :=
  ((s.setFld i (rD2dPort j) Fld.d2dPortState st).setFld i (rD2dPort j) Fld.d2dPortModules modules.toNat).setFld i
    (rD2dPort j) Fld.d2dPortPeer peer

/-- A port with these modules: 2 up with all four, 3 degraded, 4 down with none. -/
def d2dState (m : BitVec 4) : Nat := if m = 15 then 2 else if m = 0 then 4 else 3

/-- A die-to-die port leaves training (R37, R38, R306, R553). -/
def State.trainD2d (s : State) (i j : Nat) (r : D2dReport) : State :=
  let s := if (s.site i).domState (domD2d j) = 5 then s.setFld i (rHltDom (domD2d j)) Fld.hltDomState 0 else s
  if r.selfWired then (s.setD2d i j 5 0 r.peer).d2dRecord i j
  else if !r.streaming then (s.setD2d i j 4 0 r.peer).d2dRecord i j
  else
    let s := s.setD2d i j (d2dState r.modules) r.modules r.peer
    if r.modules = 15 then s.raiseSrc i (0x61 + j) else s.d2dRecord i j

/-- D2D_TRAINING (R37, R38, R306, R553): a port wired back to its own instance does not come up, nor one whose adapter
negotiates another protocol. -/
def execD2dTraining (i j : Nat) (r : D2dReport) (s : State) : Host.Outcome State Fault Refusal :=
  .next (
    let t := s.site i
    if !t.pins.coldRstN || decide (4 ≤ j) || t.d2dUp j || decide (t.domState (domD2d j) = 2) then s
    else s.trainD2d i j r)

/-- D2D_PORT_DOWN (R306): the last module, or the peer, is lost. -/
def execD2dPortDown (i j : Nat) (s : State) : Host.Outcome State Fault Refusal :=
  .next (if j < 4 ∧ (s.site i).d2dUp j then (s.setD2d i j 4 0 (s.fld i (rD2dPort j) Fld.d2dPortPeer)).d2dRecord i j else s)

/-- MODULE_LEAVES_PORT (R306): the port runs on with the modules that remain; with none it is down. -/
def execModuleLeavesPort (i j k : Nat) (s : State) : Host.Outcome State Fault Refusal :=
  .next (
    let t := s.site i
    let m := BitVec.ofNat 4 (t.fld (rD2dPort j) Fld.d2dPortModules)
    if j < 4 ∧ k < 4 ∧ t.d2dUp j ∧ m.getLsbD k then
      let m := m &&& ~~~(BitVec.ofNat 4 (2 ^ k))
      (s.setD2d i j (d2dState m) m (t.fld (rD2dPort j) Fld.d2dPortPeer)).d2dRecord i j
    else s)

/-! Routes and quiescence -/

/-- A write of a route's high word takes both words of the route over at once (R293). -/
def Site.setRoute (t : Site) (d : Nat) (hi : W32) : Site :=
  let lo := lookupD t.latch (2 ^ 25 + rFabRtLo d) (t.reg (rFabRtLo d))
  { (t.setReg (rFabRtLo d) lo).setReg (rFabRtLo d + 4) (hi &&& 0x80FFF000) with
    latch := t.latch.filter fun c => decide (c.1 ≠ 2 ^ 25 + rFabRtLo d) }

/-- FAB_RT (R293): the write of the high word installs the entry, whose low word was staged before. -/
def execFabRt (i d : Nat) (hi : W32) (s : State) : Host.Outcome State Fault Refusal :=
  .next (
    if !(s.site i).pins.coldRstN || !(s.site i).domUp 19 || decide (2 ^ 14 ≤ d) then s
    else s.onSite i (·.setRoute d hi))

/-- FAB_QUIESCE_REQ (R312): firmware asks for quiescence of a key slot. -/
def execFabQuiesceReq (i slot : Nat) (s : State) : Host.Outcome State Fault Refusal :=
  .next (if !(s.site i).pins.coldRstN || !(s.site i).domUp 19 || decide (1024 ≤ slot) then s
    else ((s.setFld i rFabQuiesce Fld.fabQuiesceKeyId slot).setFld i rFabQuiesce Fld.fabQuiesceReq 1).setFld i rFabQuiesce
      Fld.fabQuiesceDone 0)

/-- No transaction entry under a slot is open, and T_e has passed since the last packet under it (R312). -/
def Site.fabQuiet (t : Site) (slot : Nat) : Bool :=
  (t.net.txns.all fun x => decide (x.slot ≠ slot)) &&
  match t.slot? slot with
  | some k => decide (k.lastSent + t.te ≤ t.time)
  | none => true

/-- FAB_QUIESCE_DONE (R312). -/
def execFabQuiesceDone (i : Nat) (s : State) : Host.Outcome State Fault Refusal :=
  .next (
    let t := s.site i
    if t.fld rFabQuiesce Fld.fabQuiesceReq = 1 ∧ t.fabQuiet (t.fld rFabQuiesce Fld.fabQuiesceKeyId) then
      s.setFld i rFabQuiesce Fld.fabQuiesceDone 1
    else s)

/-- DMA_QUIESCE_REQ (R179): firmware asks for quiescence of the copy engines; DONE is what `dmaQuiet` says. -/
def execDmaQuiesceReq (i slot : Nat) (s : State) : Host.Outcome State Fault Refusal :=
  .next (if !(s.site i).up || decide (1024 ≤ slot) then s
    else (s.setFld i rDmaQuiesce Fld.dmaQuiesceKeyId slot).setFld i rDmaQuiesce Fld.dmaQuiesceReq 1)

/-- No copy engine of a site holds a transfer under a slot (R179). -/
def State.dmaQuiet (s : State) (i slot : Nat) : Bool :=
  (s.site i).dma.all fun d => match d with
    | some c => decide ((s.vd c.vd).slot ≠ slot)
    | none => true

/-- QUIESCE_CLEAR (R184, R317): clearing REQ clears DONE. -/
def execQuiesceClear (i : Nat) (fab : Bool) (s : State) : Host.Outcome State Fault Refusal :=
  .next (
    let t := s.site i
    if fab then
      if t.pins.coldRstN && t.domUp 19 then
        (s.setFld i rFabQuiesce Fld.fabQuiesceReq 0).setFld i rFabQuiesce Fld.fabQuiesceDone 0
      else s
    else if t.up then s.setFld i rDmaQuiesce Fld.dmaQuiesceReq 0 else s)

end Sys2Proof.Machine
end

