-- ==== Sys2Proof/Machine/Tiers.lean ====
section
/-! DEFINITION. The memory tiers at work: requests at the memory ports (R228–R233, R517), refresh and PHY requests
(R238, R239), training (R222, R237, R240, R241), the tedder and its moves (R242–R247), retirement (R250) and the traffic
generators (R252, R257). -/

namespace Sys2Proof.Machine

/-! Requests at a port -/

/-- The port that holds a tenant page. -/
def Site.portOfAddr (t : Site) (addr : Nat) : Option Nat :=
  let (ns, page, _) := splitAddr addr
  (t.entry? ns page).map fun e => portOf ((t.tier e.slow).chOf e.ppn)

/-- Whether a reply to a request is stale: its tag is not its domain's current one; the block's own traffic carries 0
(R516, R517). -/
def Site.staleReq (t : Site) (r : MemReq) : Bool := decide (r.tag ≠ 0) && decide (r.tag ≠ t.gen r.dom)

/-- A request that stays within one sub-page. -/
def reqInSub (r : MemReq) : Bool := decide (0 < r.len) && decide (r.addr % 4096 + r.len ≤ 4096)

/-- The moves of a site that hold a tenant page are abandoned: the page stays on its source and the destination is free
(step 6 of R244, R245). -/
def State.abandonMoves (s : State) (i : Nat) (which : TierMove → Bool) : State :=
  let t := s.site i
  let gone := t.moves.filterMap fun m => m.filter which
  let s := gone.foldl (fun s m =>
    (s.onSite i fun t => (t.onEntry m.ns m.page fun e => { e with moving := false }).freePage m.dstSlow m.dst).bump i
      rTedMoves Fld.tedMovesAbandoned) s
  s.onSite i fun t => { t with
    moves := t.moves.map fun m => m.filter fun x => !which x
    moveQueue := t.moveQueue.filter fun x => !which x }

/-- Tells the command that issued a read how it ended (R138). -/
def State.readEnds (s : State) (c : Option CmdRef) (st : W16) : State :=
  match c with
  | some r => s.failAccess r st 0
  | none => s

/-- What the checks of a read found and what follows from it (R233, R249): the record, the lost sub-page, the
moves that are given up, and the end of the read. -/
def State.readFound (s : State) (i : Nat) (r : MemReq) (e : TierEntry) (cmd : Option CmdRef) (f : ReadFinding) : State :=
  let (ns, page, off) := splitAddr r.addr
  let j := off / 4096
  let bad := fun m : TierMove => decide (m.ns = ns) && decide (m.page = page) && decide (m.kind ≠ 2)
  match f with
  | .clean => s
  | .corrected => if e.slow then s else s.memCorrected i false e.ppn r.addr e.slice
  | .tagReread => s.memCorrected i e.slow e.ppn r.addr e.slice
  | .uncorrectable =>
    if e.slow then s
    else ((s.memUncorrectable i ns page j e r.addr).abandonMoves i bad).readEnds cmd stUncorrectable
  | .tagFail =>
    if e.slow then ((s.memUncorrectable i ns page j e r.addr).abandonMoves i bad).readEnds cmd stUncorrectable
    else ((s.memIntegrity i e r.addr).abandonMoves i bad).readEnds cmd stIntegrityFail
  | .treeFail =>
    let root := ((s.site i).tier e.slow).root e.ppn j
    (((s.onSite i fun t => { t with failedMeta := root :: t.failedMeta.filter (· ≠ root) }).memIntegrity i e
      r.addr).abandonMoves i bad).readEnds cmd stIntegrityFail

/-- Whether a port accepts an engine's request (R228). -/
def Site.takesReq (t : Site) (r : MemReq) (p : Nat) : Bool :=
  t.up && reqInSub r && t.portServes p && !(r.engine && !t.slotActive r.slot && r.priv)

/-- A stale request is counted (R517). -/
def State.countStale (s : State) (i : Nat) (r : MemReq) : State :=
  if (s.site i).staleReq r then s.bump i (rHltDom r.dom) Fld.hltDomStale else s

/-- MEMORY_READ (R228, R233, R242): a read at the memory port that holds its page, with what the checks found. -/
def execMemoryRead (i : Nat) (r : MemReq) (f : ReadFinding) (s : State) : Host.Outcome State Fault Refusal :=
  .next (
    let t := s.site i
    let (ns, page, off) := splitAddr r.addr
    match t.portOfAddr r.addr, t.entry? ns page with
    | some p, some e =>
      if !t.takesReq r p then s
      else
        let cmd := if t.staleReq r then none else r.cmd
        let (res, s1) := (s.countStale i r).tierRead i r.addr r.len r.slot r.priv r.engine
        let bad := fun m : TierMove => decide (m.ns = ns) && decide (m.page = page) && decide (m.kind ≠ 2)
        match res with
        | .error st => (s1.abandonMoves i bad).readEnds cmd st
        | .ok _ =>
          if ((t.tier e.slow).sub (e.ppn * 16 + off / 4096)).version = 0 then s1 else s1.readFound i r e cmd f
    | _, _ => s)

/-- MEMORY_WRITE (R228–R232, R244): a write at the memory port that holds its page; one that meets a hold waits at the
port for the switch. -/
def execMemoryWrite (i : Nat) (r : MemReq) (data : Bytes) (s : State) : Host.Outcome State Fault Refusal :=
  .next (
    let t := s.site i
    let (ns, page, off) := splitAddr r.addr
    match t.portOfAddr r.addr with
    | some p =>
      if !t.takesReq r p || decide (data.length ≠ r.len) then s
      else
        let s := s.countStale i r
        match s.tierWrite i r.addr data r.slot r.priv r.engine none with
        | some (.ok _, s) => s
        | some (.error st, s) => s.readEnds (if t.staleReq r then none else r.cmd) st
        | none =>
          match t.moveOf ns page with
          | some (k, m) => s.onSite i fun t => { t with
              moves := t.moves.set k (some { m with held := m.held ++ [(off, data)], slot := r.slot }) }
          | none => s
    | none => s)

/-- REFRESH (R239): the port paces a per-bank refresh; no byte and no register changes. -/
def execRefresh (i ch : Nat) (s : State) : Host.Outcome State Fault Refusal :=
  .next (if (s.site i).chServes ch then s else s)

/-- PHY_MASTER_REQUEST (R238): the port closes the channel's open banks and grants; no byte and no register changes. -/
def execPhyMasterRequest (i ch : Nat) (s : State) : Host.Outcome State Fault Refusal :=
  .next (if 64 ≤ ch ∧ (s.site i).chServes ch then s else s)

/-! Training (R222, R237, R240, R241) -/

/-- The first channel index of a port, and how many channels it has. -/
def portChannels (p : Nat) : Nat × Nat := if p < 2 then (32 * p, 32) else (64 + 4 * (p - 2), 4)

/-- A channel's state and repaired lanes after training. -/
def outcomeCode : ChannelOutcome → Nat × Nat
  | .unwired => (0, 0)
  | .clean => (1, 0)
  | .repaired n => (2, n)
  | .failed => (3, 0)

/-- Reports every mapped page of a channel that left service (R241, R249). -/
def State.channelLost (s : State) (i ch kind : Nat) : State :=
  let t := s.site i
  let pages := (t.fast.map.map fun e => (0, e)) ++ (t.slow.map.map fun e => (1, e))
  pages.foldl (fun s (ns, e) =>
    if (t.tier e.slow).chOf e.ppn = ch ∧ ((ch < 64) ↔ e.slow = false) then
      s.memError i kind e.slow e.ppn (joinAddr ns e.page 0) e.slice true
    else s) s

/-- The new capacity of a tier path, as its record carries it (R411, R492): 56 or 16 GB/s per channel. -/
def State.capacityRecord (s : State) (i : Nat) (slow : Bool) : State :=
  let t := s.site i
  let n := ((t.tier slow).channels.filter t.chServes).length
  s.report i 0x03 2 (leBytes 1 slow.toNat ++ zeros 3 ++ leBytes 4 (n * if slow then 16 else 56))

/-- Sets the state a port comes to, with its counts of channels. -/
def Site.setPort (t : Site) (p state last : Nat) : Site :=
  let (lo, n) := portChannels p
  let chs := (List.range n).map (lo + ·)
  let up := (chs.filter t.chServes).length
  let wired := (chs.filter fun c => decide (t.chState c ≠ 0)).length
  (((t.setFld (rMpPort p) Fld.mpPortState state).setFld (rMpPort p) Fld.mpPortChUp up).setFld (rMpPort p)
    Fld.mpPortChWired wired).setFld (rMpPort p) Fld.mpPortLastTrain last

/-- The tier channels of cold boot: the wired channels in service of a tier, in ascending order (R223). -/
def Site.fixChannels (t : Site) (slow : Bool) : Site :=
  let l := ((List.range (if slow then 16 else 64)).map fun c => c + if slow then 64 else 0).filter t.chServes
  t.onTier slow fun r => { r with channels := l }

/-- Firmware recomputes the reserve of a tier from the pages that remain (R225, R266). -/
def Site.fixReserve (t : Site) (slow : Bool) : Site :=
  let n := ((t.tier slow).channels.filter t.chServes).length * chUsable slow
  t.setFld (rTedReserve slow.toNat) Fld.tedReserveRemaining (reserveOf n)

/-- A port that is trained again leaves self refresh or its reset behind; pages listed for repair come back (R240
step 7, R250). -/
def Site.repaired (t : Site) (slow : Bool) (pages : List Nat) : Site :=
  t.onTier slow fun r =>
    let good := r.repairs.filter pages.contains
    { r with repairs := r.repairs.filter fun p => !good.contains p, retired := r.retired.filter fun p => !good.contains p }

/-- A channel leaves training (R240). -/
def State.trainChannel (s : State) (i c : Nat) (o : ChannelOutcome) : State :=
  let was := s.fld i (rMpCh c) Fld.mpChState
  let (st, lanes) := outcomeCode o
  let s := (s.setFld i (rMpCh c) Fld.mpChState st).setFld i (rMpCh c) Fld.mpChLanesRepaired lanes
  if st = 3 ∧ (was = 1 ∨ was = 2 ∨ was = 4) then s.channelLost i c 4 else s

/-- A memory port leaves training with what it found (R222, R223, R240, R250). -/
def State.trainPort (s : State) (i port : Nat) (t : TrainReport) : State :=
  let slow := decide (2 ≤ port)
  let s := t.channels.zipIdx.foldl (fun s (o, k) => s.trainChannel i ((portChannels port).1 + k) o) s
  let any := t.channels.any fun o => (outcomeCode o).1 = 1 || (outcomeCode o).1 = 2
  let worst := if t.channels.any (fun o => (outcomeCode o).1 = 3) then 3
    else if t.channels.any fun o => (outcomeCode o).1 = 2 then 2 else 1
  let s := s.onSite i fun x =>
    let x := x.setPort port (if any then 2 else 5) (if any then worst else 4)
    let x := x.repaired slow t.repairedRows
    let x := if x.fld rPwrBoot Fld.pwrBootStep < 8 then x.fixChannels slow else x
    x.fixReserve slow
  if worst = 3 then (s.memError i 6 slow 0 0 0 false).capacityRecord i slow else s

/-- MEMORY_PORT_TRAINING (R240): the port comes up with the channels that trained. The PHY's read latency must lie
within 8 to 64 port clocks (R2, R237). A port found unwired at start-up is absent (R237, R563). -/
def execMemoryPortTraining (i port : Nat) (t : TrainReport) (s : State) : Host.Outcome State Fault Refusal :=
  let x := s.site i
  if 6 ≤ port ∨ !x.pins.coldRstN ∨ x.fld (rMpPort port) Fld.mpPortState ≠ 1 ∨
      t.channels.length ≠ (portChannels port).2 ∨ x.domState (domPort port) = 2 then .next s
  else if (t.channels.all fun o => decide (o = .unwired)) ∧ x.fld rPwrBoot Fld.pwrBootStep < 8 then
    .next ((s.setFld i (rMpPort port) Fld.mpPortState 0).setFld i (rHltDom (domPort port)) Fld.hltDomState 5)
  else if !t.organisationOk then .next (s.onSite i (·.setPort port 5 4))
  else if port < 2 ∧ (t.readLatency < 8 ∨ 64 < t.readLatency) then .fault .surroundings
  else .next (s.trainPort i port t)

/-- PHY_READY_TIMEOUT (R237): a PHY that does not come ready within 10 ms holds its port out of service. -/
def execPhyReadyTimeout (i port : Nat) (s : State) : Host.Outcome State Fault Refusal :=
  .next (
    let x := s.site i
    if 6 ≤ port ∨ x.fld (rMpPort port) Fld.mpPortState ≠ 1 then s
    else
      let (lo, n) := portChannels port
      let lost := (List.range n).map (lo + ·) |>.filter x.chServes
      let s := lost.foldl (fun s c => (s.setFld i (rMpCh c) Fld.mpChState 3).channelLost i c 5) s
      s.onSite i (·.setPort port 5 4))

/-! The tedder -/

/-- Free pages of a tier outside its reserve (R225, R267). -/
def Site.freeOutside (t : Site) (slow : Bool) : Nat :=
  t.freeCount slow - t.fld (rTedReserve slow.toNat) Fld.tedReserveRemaining

/-- A move of a page out of a tier, not yet claimed. -/
def TierMove.queue (ns : Nat) (e : TierEntry) (dstSlow : Bool) (kind : Nat) : TierMove :=
  ⟨ns, e.page, e.slow, e.ppn, dstSlow, 0, 0, 0, 0, 0, [], 0, kind, 0⟩

/-- Entries of a site's tier map that are not being moved, with their namespaces, in page order. -/
def Site.movable (t : Site) : List (Nat × TierEntry) :=
  ((t.fast.map.map fun e => (0, e)) ++ (t.slow.map.map fun e => (1, e))).filter fun (ns, e) =>
    !e.moving && !t.moveQueue.any fun m => decide (m.ns = ns) && decide (m.page = e.page)

/-- The promotion candidates of a sweep, in descending COUNT, ties to the lower tenant page (R242). -/
def Site.promotions (t : Site) : List (Nat × TierEntry) :=
  (t.movable.filter fun (_, e) => e.slow &&
    ((decide (e.policy = 0) && decide (t.fld rTedThresh Fld.tedThreshPromote ≤ e.count)) || decide (e.policy = 2))).mergeSort
    fun a b => decide (b.2.count < a.2.count) || (decide (b.2.count = a.2.count) && decide (a.2.page ≤ b.2.page))

/-- The pages of the fast tier that may give way, in the order of R242: prefer-slow, then auto by rising COUNT, then
prefer-fast. -/
def Site.demotions (t : Site) : List (Nat × TierEntry) :=
  let fast := t.movable.filter fun (_, e) => !e.slow
  (fast.filter fun (_, e) => decide (e.policy = 3)) ++
  ((fast.filter fun (_, e) => decide (e.policy = 0) && decide (e.count ≤ t.fld rTedThresh Fld.tedThreshDemote)).mergeSort
    fun a b => decide (a.2.count ≤ b.2.count)) ++
  (fast.filter fun (_, e) => decide (e.policy = 2))

/-- The moves a sweep queues: prefer-slow pages go out, and each promotion takes a page above the floor, or one that a
demotion frees first. -/
def planMoves (floor : Nat) : List (Nat × TierEntry) → List (Nat × TierEntry) → Nat → List TierMove
  | [], _, _ => []
  | (ns, e) :: ps, ds, free =>
    if floor < free then TierMove.queue ns e false 0 :: planMoves floor ps ds (free - 1)
    else match ds with
      | (nd, d) :: ds =>
        if floor < free + 1 then
          TierMove.queue nd d true 0 :: TierMove.queue ns e false 0 :: planMoves floor ps ds free
        else TierMove.queue nd d true 0 :: planMoves floor ps ds (free + 1)
      | [] => planMoves floor ps [] free

/-- The moves a sweep asks for (R242, R243). -/
def Site.sweepPlan (t : Site) : List TierMove :=
  let ds := t.demotions
  let slowly := ds.filter fun (_, e) => decide (e.policy = 3)
  (slowly.map fun (ns, e) => TierMove.queue ns e true 0) ++
    planMoves (256 * t.fld rTedCtrl Fld.tedCtrlFloor) t.promotions (ds.filter fun (_, e) => decide (e.policy ≠ 3))
      (t.freeOutside false + slowly.length)

/-- A sweep: its moves join the queue while the tedder is enabled, and every access counter is halved (R242). -/
def Site.sweep (t : Site) : Site :=
  let half (r : Tier) : Tier := { r with map := r.map.map fun e => { e with count := e.count / 2 } }
  { t with
    fast := half t.fast, slow := half t.slow
    moveQueue := if t.fld rTedCtrl Fld.tedCtrlEnable = 1 then
        (t.moveQueue ++ t.sweepPlan).take (max 4096 t.moveQueue.length)
      else t.moveQueue
    watch := { t.watch with pageErr := [] } }

/-- SWEEP (R242): every COUNT is halved, and the pages are decided by their policies; at most 4,096 moves are queued.
The counts of corrected errors start anew with the epoch (R249). -/
def execSweep (i : Nat) (s : State) : Host.Outcome State Fault Refusal :=
  .next (if !(s.site i).up then s else s.onSite i (·.sweep))

/-- Whether a queued move still names the page where it lies. -/
def Site.moveValid (t : Site) (m : TierMove) : Bool :=
  match t.entry? m.ns m.page with
  | some e => decide (e.slow = m.srcSlow) && decide (e.ppn = m.src) && !e.moving
  | none => false

/-- The destination of a move: outside the reserve, or from it for a retirement (R244, R250). -/
def Site.destination (t : Site) (m : TierMove) : Option Nat :=
  if m.kind ≠ 2 ∧ t.freeOutside m.dstSlow = 0 then none
  else t.drawPage m.dstSlow (if m.kind = 3 then [(t.tier m.srcSlow).chOf m.src] else [])

/-- The move at the front of the queue has no destination: it is given up, and what asked for it is told (R244, R247,
R250). -/
def State.noRoom (s : State) (i : Nat) (m : TierMove) : State :=
  let t := s.site i
  if m.kind = 3 then
    let c := (t.tier m.srcSlow).chOf m.src
    let s := s.onSite i fun t => { t with
      moveQueue := t.moveQueue.filter fun x => !(decide (x.kind = 3) && decide (x.srcSlow = m.srcSlow) &&
        decide ((t.tier x.srcSlow).chOf x.src = c)) }
    (s.setFld i (rMpCh c) Fld.mpChState 1).answer 0x0603
      (fun b => decide (fieldAt b 8 1 = t.id) && decide (fieldAt b 9 1 = c)) stNoResource
  else
    let s := s.onSite i fun t => { t with moveQueue := t.moveQueue.drop 1 ++ (if m.kind = 1 then [m] else []) }
    if m.kind = 2 then s.answer 0x0602 (fun b => decide (fieldAt b 8 1 = t.id) &&
      decide (fieldAt b 9 1 = m.srcSlow.toNat) && decide (fieldAt b 12 4 = m.src)) stNoResource
    else s

/-- The move takes channel `ch` and destination page `d` (step 1 of R244). -/
def Site.startMove (t : Site) (ch : Nat) (m : TierMove) (d : Nat) : Site :=
  let e := (t.entry? m.ns m.page).getD default
  let t := { t with moveQueue := t.moveQueue.drop 1 }
  let t := (t.takePage m.dstSlow d).onEntry m.ns m.page fun e => { e with moving := true }
  let t := if m.kind = 2 then t.setFld (rTedReserve m.dstSlow.toNat) Fld.tedReserveRemaining
      (t.fld (rTedReserve m.dstSlow.toNat) Fld.tedReserveRemaining - 1) else t
  { t with
    moves := t.moves.set ch (some { m with
      dst := d, step := 1, dirty := 0, todo := 0, rounds := 0, bad := if m.kind = 2 then e.poison else 0 }) }

/-- CLAIM (step 1 of R244): a move channel takes the next queued move, with a destination page; MOVING is set and the
dirty map clear. With no destination left, an evacuation or a retirement ends NO_RESOURCE (R247, R250), a pin-fast move
waits for a page that a demotion frees, and any other move is dropped. -/
def execClaim (i ch : Nat) (s : State) : Host.Outcome State Fault Refusal :=
  .next (
    let t := s.site i
    match t.moveQueue with
    | [] => s
    | m :: rest =>
      if !t.up || decide (4 ≤ ch) || (t.moves.getD ch none).isSome then s
      else if !t.moveValid m then s.onSite i fun t => { t with moveQueue := rest }
      else match t.destination m with
        | none => s.noRoom i m
        | some d => s.onSite i (·.startMove ch m d))

/-- Copies sub-pages of a move from source to destination, ciphertext and tags carried over, versions raised (step 2 of
R244); a sub-page never written has nothing to carry. -/
def Site.copySubs (t : Site) (m : TierMove) (which : BitVec 16) : Site :=
  (List.range 16).foldl (fun t j =>
    if !which.getLsbD j then t
    else
      let src := (t.tier m.srcSlow).sub (m.src * 16 + j)
      let old := (t.tier m.dstSlow).sub (m.dst * 16 + j)
      if src.version = 0 then t
      else
        let data := (t.tier m.srcSlow).data
        let root := (t.tier m.dstSlow).root m.dst j
        { t.onTier m.dstSlow fun r =>
            { r with data := data.copy (m.src * 65536 + j * 4096) 4096 r.data (m.dst * 65536 + j * 4096) }.setSub
              { src with sub := m.dst * 16 + j, version := max src.version old.version + 1 } with
          roots := keep t.roots root (lookupD t.roots root 0 + 1) }) t

/-- Changes the move of a channel. -/
def State.onMove (s : State) (i ch : Nat) (f : TierMove → TierMove) : State :=
  s.onSite i fun t => { t with moves := t.moves.modify ch fun m => m.map f }

/-- A read of the source fails while a move copies (R245): a retirement marks the sub-pages, any other move is
abandoned. -/
def State.moveReadFails (s : State) (i ch : Nat) (m : TierMove) : State :=
  if m.kind = 2 then
    let (f, s) := s.draw
    s.onMove i ch fun m => { m with bad := m.bad ||| f.setWidth 16 }
  else s.abandonMoves i fun x => decide (x.ns = m.ns) && decide (x.page = m.page)

/-- The move of a channel at this step, if the site works. -/
def Site.moveAt (t : Site) (ch step : Nat) : Option TierMove :=
  if t.up then (t.moves.getD ch none).filter fun m => decide (m.step = step) else none

/-- COPY (step 2 of R244): the sixteen sub-pages have been copied in order. -/
def execCopy (i ch : Nat) (ok : Bool) (s : State) : Host.Outcome State Fault Refusal :=
  .next (match (s.site i).moveAt ch 1 with
    | none => s
    | some m =>
      let poisoned := (((s.site i).entry? m.ns m.page).map (·.poison)).getD 0
      let s := if !ok ∨ (poisoned ≠ 0 ∧ m.kind ≠ 2) then s.moveReadFails i ch m else s
      match (s.site i).moveAt ch 1 with
      | none => s
      | some m => (s.onSite i (·.copySubs m (~~~m.bad))).onMove i ch fun m => { m with
          step := 2, todo := m.dirty, dirty := 0 })

/-- Set bits of a dirty map. -/
def dirtyCount (m : BitVec 16) : Nat := ((List.range 16).filter m.getLsbD).length

/-- RE_COPY (step 3 of R244): a round ends; the move holds when at most four sub-pages were written meanwhile, and is
abandoned after eight rounds. -/
def execReCopy (i ch : Nat) (ok : Bool) (s : State) : Host.Outcome State Fault Refusal :=
  .next (match (s.site i).moveAt ch 2 with
    | none => s
    | some m =>
      let s := if !ok then s.moveReadFails i ch m else s
      match (s.site i).moveAt ch 2 with
      | none => s
      | some m =>
        let s := s.onSite i (·.copySubs m (m.todo &&& ~~~m.bad))
        if dirtyCount m.dirty ≤ 4 then s.onMove i ch fun m => { m with step := 4, todo := m.dirty, dirty := 0 }
        else if 8 ≤ m.rounds + 1 then s.abandonMoves i fun x => decide (x.ns = m.ns) && decide (x.page = m.page)
        else s.onMove i ch fun m => { m with rounds := m.rounds + 1, todo := m.dirty, dirty := 0 })

/-- Whether any mapped page lies on a channel. -/
def Site.chMapped (t : Site) (ch : Nat) : Bool :=
  (t.fast.map ++ t.slow.map).any fun e => decide ((t.tier e.slow).chOf e.ppn = ch) && decide (ch < 64 ↔ e.slow = false)

/-- A page is retired: listed, its rows queued for repair, and the record rewritten (step 4 of R250, R531). -/
def Site.retire (t : Site) (slow : Bool) (ppn : Nat) : Site :=
  let t := t.freePage slow ppn
  let t := t.onTier slow fun r => { r with
    retired := ppn :: r.retired.filter (· ≠ ppn), repairs := ppn :: r.repairs.filter (· ≠ ppn) }
  { t with flash := { t.flash with recSeq := t.flash.recSeq.modify 2 (· + 1) } }

/-- The map entry comes to name the destination, and the source page is free or retired (step 4 of R244). -/
def Site.switchMove (t : Site) (ch : Nat) (m : TierMove) : Site :=
  let t := t.copySubs m (m.todo &&& ~~~m.bad)
  let t := t.onEntry m.ns m.page fun e => { e with
    slow := m.dstSlow, ppn := m.dst, moving := false, poison := if m.kind = 2 then m.bad else e.poison }
  let t := { t with moves := t.moves.set ch none }
  if m.kind = 2 then t.retire m.srcSlow m.src else t.freePage m.srcSlow m.src

/-- The writes held during step 4 go ahead. -/
def State.runHeld (s : State) (i : Nat) (m : TierMove) : State :=
  m.held.foldl (fun s (off, bs) =>
    match s.tierWrite i (joinAddr m.ns m.page off) bs m.slot true false none with
    | some (_, s) => s
    | none => s) s

/-- A move has ended: a retirement is answered, and an evacuation once no page is left in its channel (R247, R250). -/
def State.moveDone (s : State) (i : Nat) (m : TierMove) : State :=
  let t := s.site i
  if m.kind = 2 then
    s.answer 0x0602 (fun b => decide (fieldAt b 8 1 = t.id) && decide (fieldAt b 9 1 = m.srcSlow.toNat) &&
      decide (fieldAt b 12 4 = m.src)) stOk
  else if m.kind = 3 then
    let c := (t.tier m.srcSlow).chOf m.src
    if t.chMapped c then s
    else (s.setFld i (rMpCh c) Fld.mpChState 5).answer 0x0603
      (fun b => decide (fieldAt b 8 1 = t.id) && decide (fieldAt b 9 1 = c)) stOk
  else s

/-- SWITCH (steps 4 and 5 of R244): the last dirty sub-pages are copied, the entry names the destination, the held
writes land there, and the source page is free; a retirement retires it, and an evacuation ends with its last page. -/
def execSwitch (i ch : Nat) (s : State) : Host.Outcome State Fault Refusal :=
  .next (match (s.site i).moveAt ch 4 with
    | none => s
    | some m => (((s.onSite i (·.switchMove ch m)).runHeld i m).bump i rTedMoves Fld.tedMovesDone).moveDone i m)

/-! Traffic generators (R252, R257) -/

/-- GO (R252, R257): the pattern starts on a channel in the test state; elsewhere, and for a reserved pattern, REFUSED
sets and nothing starts. The other fields of the write are stored. -/
def execGo (i ch : Nat) (value : W32) (s : State) : Host.Outcome State Fault Refusal :=
  .next (
    let t := s.site i
    if 80 ≤ ch ∨ !t.pins.coldRstN ∨ !bitOf value 31 then s
    else
      let r := rMpTgCtrl ch
      let s := s.onSite i fun t => t.setReg r ((t.reg r &&& ~~~(0xFFFF07 : W32)) ||| (value &&& 0xFFFF07))
      if t.chState ch ≠ 5 ∨ 6 ≤ bitsOf value 2 0 then s.setFld i r Fld.mpTgCtrlRefused 1
      else
        (((((s.setFld i r Fld.mpTgCtrlRefused 0).setFld i r Fld.mpTgCtrlBusy 1).onSite i
          (·.setReg (rMpTgFailAddr ch) 0)).onSite i (·.setReg (rMpTgFailLanes ch) 0)).onSite i
          (·.setReg (rMpTgFailLanes ch + 4) 0)).onSite i (·.setReg (rMpTgFailMeta ch) 0))

/-- STOP (R257): a running pattern stops at the next granule. -/
def execStop (i ch : Nat) (s : State) : Host.Outcome State Fault Refusal :=
  .next (if 80 ≤ ch then s else s.setFld i (rMpTgCtrl ch) Fld.mpTgCtrlBusy 0)

/-- TG_PATTERN_DONE (R252, R259, R260): a pattern ends with its counts and its first failing granule. -/
def execTgPatternDone (i ch : Nat) (r : TgReport) (s : State) : Host.Outcome State Fault Refusal :=
  .next (
    let t := s.site i
    if 80 ≤ ch ∨ t.fld (rMpTgCtrl ch) Fld.mpTgCtrlBusy = 0 then s
    else
      let s := s.setFld i (rMpTgCtrl ch) Fld.mpTgCtrlBusy 0
      if r.errors = 0 then s
      else s.onSite i fun t =>
        let t := t.setReg (rMpTgErrors ch) (BitVec.ofNat 32 (satAdd (2 ^ 32 - 1) (t.reg (rMpTgErrors ch)).toNat r.errors))
        (((t.setReg (rMpTgFailAddr ch) (BitVec.ofNat 32 r.addr)).setReg (rMpTgFailLanes ch) (r.lanes.setWidth 32)).setReg
          (rMpTgFailLanes ch + 4) ((r.lanes >>> 32).setWidth 32)).setReg (rMpTgFailMeta ch)
          (if ch < 64 then r.metaLanes.setWidth 32 else 0))

end Sys2Proof.Machine
end

