-- ==== Sys2Proof/Machine/Mmu.lean ====
section
/-! DEFINITION. Objects, translation and teardown: address spaces, objects and mappings (R365–R374), release (R370,
R376–R378), faults (R382–R384), invalidations (R385, R386), and what comes back from the host (R382, R594). -/

namespace Sys2Proof.Machine

/-! Mappings -/

/-- Bytes of a page size (R371). -/
def pageSize (p : Nat) : Nat :=
  if p = 0 then 4096 else if p = 1 then 65536 else if p = 2 then 2 ^ 21 else 2 ^ 30

/-- A mapping of this space meets a DVA range. -/
def Mapping.meets (m : Mapping) (asid lo hi : Nat) : Bool :=
  decide (m.asid = asid) && decide (lo < m.dva + m.len) && decide (m.dva < hi)

/-- What is left of a mapping when a DVA range is withdrawn. -/
def Mapping.cut (asid lo hi : Nat) (m : Mapping) : List Mapping :=
  if !m.meets asid lo hi then [m]
  else (if m.dva < lo then [{ m with len := lo - m.dva }] else []) ++
    (if hi < m.dva + m.len then
      [{ m with dva := hi, len := m.dva + m.len - hi, off := m.off + (hi - m.dva) }] else [])

/-- The range takes in only part of a page of a mapping (R372). -/
def Mapping.split (asid lo hi : Nat) (m : Mapping) : Bool :=
  m.meets asid lo hi &&
  ((decide (m.dva < lo) && decide ((lo - m.dva) % pageSize m.psize ≠ 0)) ||
   (decide (hi < m.dva + m.len) && decide ((hi - m.dva) % pageSize m.psize ≠ 0)))

/-- A mapping reaches a tenant page of its object. -/
def Mapping.touches (o : Obj) (page : Nat) (m : Mapping) : Bool :=
  decide (m.obj = o.index) && decide (o.base ≤ page) && decide (m.off < (page - o.base + 1) * 65536) &&
  decide ((page - o.base) * 65536 < m.off + m.len)

/-- The pages that lose their last mapping are no longer poisoned, and moves of them are abandoned (R245, R248). -/
def State.clearUnmapped (s : State) (v : Nat) (old new : List Mapping) : State :=
  (s.vd v).sp.objs.foldl (fun s o =>
    if o.cls ≠ .priv ∨ o.state = .released then s
    else match s.here? o.home with
      | none => s
      | some i =>
        let gone (p : Nat) : Bool := old.any (·.touches o p) && !new.any (·.touches o p)
        let s := s.onSite i fun t => t.onTier (o.ns = 1) fun r => { r with
          map := r.map.map fun e => if e.slice = v ∧ gone e.page then { e with poison := 0 } else e }
        s.abandonMoves i fun m => decide (m.ns = o.ns) && gone m.page) s

/-- Withdraws mappings: each is replaced by what `keepOf` leaves of it. -/
def State.withdraw (s : State) (v : Nat) (keepOf : Mapping → List Mapping) : State :=
  let old := (s.vd v).sp.maps
  let new := old.flatMap keepOf
  (s.onSp v fun p => { p with maps := new }).clearUnmapped v old new

/-- The fields of a MAP or UNMAP body (R371). -/
structure MapBody where
  dva : Nat
  len : Nat
  off : Nat
  handle : Nat
  rights : Nat
  psize : Nat
  asid : Nat
  deriving DecidableEq, Repr

/-- Reads them. -/
def mapBody (b : Bytes) : MapBody :=
  { dva := fieldAt b 16 8, len := fieldAt b 24 8, off := fieldAt b 32 8, handle := fieldAt b 40 4
    rights := bitsAt b 44 2 0, psize := bitsAt b 44 7 6, asid := bitsAt b 45 5 0 }

/-- The mapping a MAP makes. -/
def MapBody.mapping (m : MapBody) : Mapping :=
  { asid := m.asid, dva := m.dva, len := m.len, psize := m.psize, rights := m.rights, obj := m.handle % 65536
    off := m.off }

/-- The object a handle names, if its generation is the current one (R368). -/
def Space.byHandle (p : Space) (h : Nat) : Option Obj := (p.obj? (h % 65536)).filter fun o => decide (o.gen = h / 65536)

/-- The LIVE object a handle names. -/
def Space.liveHandle (p : Space) (h : Nat) : Option Obj := (p.byHandle h).filter fun o => decide (o.state = .live)

/-- A MAP only adds rights to the pages that are mapped there (R372). -/
def MapBody.adds (m : MapBody) (old : Mapping) : Bool :=
  decide (old.obj = m.handle % 65536) && decide (old.off + m.dva = m.off + old.dva) &&
  decide (old.rights &&& m.rights = old.rights)

/-- The table change of a control command with this body, on the tables this part holds: true when it withdraws
mappings, so that an invalidation runs (R372, R380). A MAP that withdraws adds its mapping at the acknowledgement. -/
def State.tableChange (s : State) (v id : Nat) (b : Bytes) : State × Bool :=
  let p := (s.vd v).sp
  match fieldAt b 0 2 with
  | 0x10 => (s.onSp v fun p => { p with asids := p.asids ++ [bitsAt b 16 5 0] }, false)
  | 0x11 =>
    let a := bitsAt b 16 5 0
    (s.withdraw v fun m => if m.asid = a then [] else [m], p.maps.any fun m => decide (m.asid = a))
  | 0x13 =>
    let h := fieldAt b 16 4
    (s.onSp v fun p => { p with objs := p.objs.map fun o =>
      if o.index = h % 65536 ∧ o.state = .live then { o with state := .freeing, freedId := id } else o }, false)
  | 0x14 =>
    let m := mapBody b
    let hit := p.maps.filter (·.meets m.asid m.dva (m.dva + m.len))
    let s := s.withdraw v (Mapping.cut m.asid m.dva (m.dva + m.len))
    if hit.all m.adds then (s.onSp v fun p => { p with maps := p.maps ++ [m.mapping] }, false) else (s, true)
  | 0x15 =>
    let m := mapBody b
    (s.withdraw v (Mapping.cut m.asid m.dva (m.dva + m.len)), p.maps.any (·.meets m.asid m.dva (m.dva + m.len)))
  | _ => (s, false)

/-- What an acknowledged invalidation of a control command still changes: the mapping of a MAP, the space of an
ASPACE_DESTROY (R372, R374). -/
def State.tableLater (s : State) (v : Nat) (b : Bytes) : State :=
  match fieldAt b 0 2 with
  | 0x11 => s.onSp v fun p => { p with asids := p.asids.filter (· ≠ bitsAt b 16 5 0) }
  | 0x14 => s.onSp v fun p => { p with maps := p.maps ++ [(mapBody b).mapping] }
  | _ => s

/-- Carries out a table change on every replica; at most four invalidations of a virtual device run at once (R385). -/
def Job.change (j : Job) : Run CtlEnd := do
  let s ← get
  if 4 ≤ (s.vd j.v).sp.invals.length then throw .stall
  else
    let b := j.k.desc
    let (s, inval) := s.tableChange j.v j.c.id b
    let s := s.replicate j.v (some j.c) (leBytes 8 j.c.id ++ b)
    if inval then
      set (s.invalidate j.v (some j.c.id) none none)
      pure .waits
    else
      set (s.tableLater j.v (if fieldAt b 0 2 = 0x11 then b else []))
      pure (.done stOk 0)

/-! The commands (R371, R372) -/

/-- ASPACE_CREATE (R371, R372). -/
def aspaceCreateRun (j : Job) : Run CtlEnd := do
  let b := j.k.desc
  let a := bitsAt b 16 5 0
  match firstBad ([(decide (bitsAt b 16 7 6 ≠ 0) || decide (a = 0) || (((← get).vd j.v).sp.asids.contains a), 16)] ++
    reservedSet b [(17, 47)]) with
  | some n => ctlFail stBadDescriptor n
  | none => j.change

/-- The row runs `aspaceCreateRun`. -/
def execAspaceCreate (c : CmdRef) (s : State) : Host.Outcome State Fault Refusal :=
  ctlRow c 0x10 s aspaceCreateRun

/-- ASPACE_DESTROY (R371, R374): the mappings go, then the space; in Noelaver mode its streams are destroyed and its
process ring is disabled. -/
def aspaceDestroyRun (j : Job) : Run CtlEnd := do
  let b := j.k.desc
  let a := bitsAt b 16 5 0
  match firstBad ([(decide (bitsAt b 16 7 6 ≠ 0) || decide (a = 0), 16)] ++ reservedSet b [(17, 47)]) with
  | some n => ctlFail stBadDescriptor n
  | none =>
    if !(((← get).vd j.v).sp.asids.contains a) then ctlFail stAsidInvalid
    else
      let r ← j.change
      modify fun s => s.ownerStreams j.v a
      if r = .waits then pure .waits
      else
        modify fun s => s.onCmd j.c fun k => { k with progress := 1 }
        pure (if ((← get).vd j.v).refcount || ((← get).vd j.v).ownedGone a then r else .waits)

/-- The row runs `aspaceDestroyRun`. -/
def execAspaceDestroy (c : CmdRef) (s : State) : Host.Outcome State Fault Refusal :=
  ctlRow c 0x11 s aspaceDestroyRun

/-- The lowest free object index (R368, R372). -/
def Space.freeIndex (p : Space) : Option Nat :=
  (List.range (min 65536 (p.objs.length + 1))).find? fun n => (p.obj? n).isNone

/-- The generation an index will be issued under (R368). -/
def Space.genOf (p : Space) (n : Nat) : Nat := ((p.objs.find? fun o => decide (o.index = n)).map (·.gen)).getD 1

/-- Adds an object record, in place of a released one. -/
def Space.addObj (p : Space) (o : Obj) : Space :=
  { p with objs := o :: p.objs.filter fun x => decide (x.index ≠ o.index) }

/-- Pages that the slice's objects and save areas hold of a namespace of an instance (R402, R431). -/
def Vd.pagesHeld (d : Vd) (dst ns : Nat) : Nat :=
  let saved (u : UnitBind) : Nat := if ns = 0 ∧ u.part * 8 + u.inst = dst then u.save.length else 0
  ((d.sp.objs.filter fun o => decide (o.cls = .priv) && decide (o.state ≠ .released) && decide (o.home = dst) &&
    decide (o.ns = ns)).map fun o => o.size / 65536).foldl (· + ·) 0 + (d.hold.units.map saved).foldl (· + ·) 0

/-- The slice's page allotment (kinds 1 and 2 of R486). -/
def Vd.pageAllot (d : Vd) (part inst ns : Nat) : Nat :=
  ((d.hold.allots.filter fun a => decide (a.kind = 1 + ns) && decide (a.part = part) && decide (a.inst = inst)).map
    (·.count)).foldl (· + ·) 0

/-- Tenant page numbers of a namespace (R226). -/
def Site.tenantPages (t : Site) (ns : Nat) : Nat :=
  (t.tier (ns = 1)).pages (ns = 1) - reserveOf ((t.tier (ns = 1)).pages (ns = 1))

/-- The lowest run of `n` free tenant pages (R367): it starts at 0 or behind a mapped page. -/
def Site.tenantRun (t : Site) (ns n : Nat) : Option Nat :=
  let m := (t.tier (ns = 1)).map
  let free (b : Nat) : Bool := decide (b + n ≤ t.tenantPages ns) &&
    m.all fun e => decide (e.page < b) || decide (b + n ≤ e.page)
  let starts := (0 :: m.map fun e => e.page + 1).filter free
  match starts with
  | [] => none
  | a :: r => some (r.foldl min a)

/-- Maps `pages` onto tenant pages from `base`. -/
def Site.mapPages (t : Site) (ns base v policy : Nat) (pages : List Nat) : Site :=
  let t := t.onTier (ns = 1) fun r => { r with map := r.map ++ pages.zipIdx.map fun (p, k) =>
    ⟨base + k, policy, false, v, 0, 0, decide (ns = 1), p⟩ }
  if policy = 1 ∧ ns = 1 then
    { t with moveQueue := t.moveQueue ++ pages.zipIdx.map fun (p, k) =>
      ⟨ns, base + k, true, p, false, 0, 0, 0, 0, 0, [], 0, 1, 0⟩ }
  else t

/-- Draws the pages of an object on a site: its first tenant page (R224, R226, R367). -/
def State.drawObject (s : State) (i v ns n policy : Nat) : Option (Nat × State) :=
  match (s.site i).tenantRun ns n with
  | none => none
  | some base =>
    match Site.drawPages (ns = 1) n (s.site i) with
    | none => none
    | some (pages, t) => some (base, s.onSite i fun _ => t.mapPages ns base v policy pages)

/-- The rights that mappings of an object may grant at most (R367, R595). -/
def State.greatest (s : State) (v : Nat) (o : Obj) : Nat :=
  let own (o : Obj) : Nat :=
    match o.cls with
    | .shared => 1
    | .host => if (s.site (s.homeSite v)).atomicOps then 7 else 3
    | _ => 7
  if o.cls = .remote then
    if o.loft = 1 then 1
    else ((s.vd v).sp.objs.find? fun x => decide (x.index = o.target)).map own |>.getD 7
  else own o

/-- REF_DVA of an OBJ_CREATE is out of its limits (R372). -/
def Space.badRef (p : Space) (dva : Nat) : Bool :=
  decide (dva % 8 ≠ 0) || decide (2 ^ 57 ≤ dva) ||
  (match p.translate 0 dva 7 0 with
   | .found o _ => decide (o.cls ≠ .host)
   | _ => true)

/-- An object record as a replica is told it (R380). -/
def Obj.fields (o : Obj) : Bytes :=
  leBytes 2 o.index ++ leBytes 2 o.gen ++ leBytes 1 (match o.cls with | .priv => 0 | .shared => 1 | .host => 2 | .remote => 3) ++
  leBytes 1 o.loft ++ leBytes 1 o.ns ++ leBytes 4 o.home ++ leBytes 4 o.base ++ leBytes 8 o.size ++ leBytes 8 o.bus ++
  leBytes 2 o.target ++ leBytes 4 o.grant ++ leBytes 1 o.policy

/-- Reads it. -/
def Obj.ofFields (b : Bytes) : Obj :=
  { index := fieldAt b 0 2, gen := fieldAt b 2 2
    cls := match fieldAt b 4 1 with | 0 => .priv | 1 => .shared | 2 => .host | _ => .remote
    loft := fieldAt b 5 1, ns := fieldAt b 6 1, home := fieldAt b 7 4, base := fieldAt b 11 4, size := fieldAt b 15 8
    bus := fieldAt b 23 8, target := fieldAt b 31 2, grant := fieldAt b 33 4, policy := fieldAt b 37 1 }

/-- Adds the new object of an OBJ_CREATE, with its reference word written to 1 (R376); its handle. -/
def Job.newObj (j : Job) (o : Obj) : Run CtlEnd := do
  modify fun s => s.onSp j.v (·.addObj o)
  let s ← get
  if (s.vd j.v).refcount then
    match s.ringAddr j.v 0 o.refDva 2 with
    | .ok bus => set (s.emit (.hostWrite j.v bus (leBytes 8 1)))
    | .error _ => pure ()
  modify fun s => s.replicate j.v (some j.c) (leBytes 8 j.c.id ++ j.k.desc ++ o.fields)
  pure (.done stOk (o.gen * 65536 + o.index))

/-- OBJ_CREATE (R371, R372, R376): a private object takes the lowest free run of tenant pages. One homed on another part
is drawn there, and its acknowledgement brings the first tenant page. -/
def objCreateRun (j : Job) : Run CtlEnd := do
  let s ← get
  let d := s.vd j.v
  let b := j.k.desc
  let cls := bitsAt b 16 1 0
  let (loft, size, bus, ref) := (bitsAt b 17 1 0, fieldAt b 24 8, fieldAt b 32 8, fieldAt b 40 8)
  let target := if cls = 3 then d.sp.byHandle (fieldAt b 20 4) else none
  let live := target.filter fun o => decide (o.state = .live)
  match firstBad ([
    (decide (bitsAt b 16 7 2 ≠ 0), 16),
    (decide (bitsAt b 17 7 2 ≠ 0) || (decide (cls = 3) && decide (loft = 3)), 17),
    (decide (cls = 0) && decide (d.hold.parts.length ≤ fieldAt b 18 1), 18),
    (decide (cls = 0) && decide (bitsAt b 19 7 4 ≠ 0), 19),
    ((live.map fun o => decide (o.cls = .host) || decide (o.cls = .remote)) == some true, 20),
    ((decide (cls = 0) && decide (size % 65536 ≠ 0)) || (decide (cls = 2) && decide (size % 4096 ≠ 0)), 24),
    (decide (cls = 2) && decide (bus % 4096 ≠ 0), 32),
    (d.refcount && d.sp.badRef ref, 40)] ++ reservedSet b [(48, 16)]) with
  | some n => ctlFail stBadDescriptor n
  | none =>
    match d.sp.freeIndex with
    | none => ctlFail (if cls = 3 ∧ live.isNone then stObjectGone else stDenied)
    | some n =>
      let o : Obj := { index := n, gen := d.sp.genOf n, refDva := ref, policy := d.hold.policy }
      match cls with
      | 0 =>
        let part := d.hold.parts.getD (fieldAt b 18 1) 0
        let (ns, inst) := (bitsAt b 19 3 3, bitsAt b 19 2 0)
        let dst := part * 8 + inst
        let o := { o with home := dst, ns := ns, size := size }
        if d.pageAllot part inst ns < d.pagesHeld dst ns + size / 65536 then ctlFail stDenied
        else match s.here? dst with
          | some i =>
            if 8 ≤ i then ctlFail stDenied
            else match s.drawObject i j.v ns (size / 65536) d.hold.policy with
              | none => ctlFail stDenied
              | some (base, s) =>
                set s
                j.newObj { o with base := base }
          | none => j.newObj o
      | 1 =>
        match d.hold.grants.find? fun g => decide (g.1 = fieldAt b 20 4) with
        | none => ctlFail stDenied
        | some g =>
          match s.part.weights.find? fun w => decide (w.num = g.2) with
          | none => ctlFail stDenied
          | some w =>
            let (inst, slow, page) := w.copies.getD 0 (0, false, 0)
            j.newObj { o with cls := .shared, grant := g.1, home := s.partId * 8 + inst, ns := slow.toNat, base := page
                              size := w.size }
      | 2 => j.newObj { o with cls := .host, home := d.home, bus := bus, size := size }
      | _ =>
        match live with
        | none => ctlFail stObjectGone
        | some t => j.newObj { o with cls := .remote, loft := loft, target := t.index, home := t.home, size := t.size }

/-- The row runs `objCreateRun`. -/
def execObjCreate (c : CmdRef) (s : State) : Host.Outcome State Fault Refusal :=
  ctlRow c 0x12 s objCreateRun

/-- OBJ_FREE (R378): the object enters FREEING; in reference-count mode the guest's reference drops and the free
replies, otherwise it waits for the release. -/
def objFreeRun (j : Job) : Run CtlEnd := do
  let b := j.k.desc
  let h := fieldAt b 16 4
  match firstBad (reservedSet b [(20, 44)]) with
  | some n => ctlFail stBadDescriptor n
  | none =>
    match ((← get).vd j.v).sp.liveHandle h with
    | none => ctlFail stObjectGone
    | some o =>
      let r ← j.change
      if ((← get).vd j.v).refcount then
        modify fun s => s.countRef j.v o.index false
        pure r
      else pure .waits

/-- The row runs `objFreeRun`. -/
def execObjFree (c : CmdRef) (s : State) : Host.Outcome State Fault Refusal :=
  ctlRow c 0x13 s objFreeRun

/-- MAP (R371, R372). -/
def mapRun (j : Job) : Run CtlEnd := do
  let s ← get
  let p := (s.vd j.v).sp
  let b := j.k.desc
  let m := mapBody b
  let z := pageSize m.psize
  let o := p.liveHandle m.handle
  let object : List Check := match o with
    | none => []
    | some o => [(decide (o.size < m.off + m.len), 24), (decide (m.rights &&& s.greatest j.v o ≠ m.rights), 44)]
  match firstBad ([
    (decide (m.dva % z ≠ 0) || decide (2 ^ 57 ≤ m.dva) ||
      (p.maps.any fun x => decide (x.psize ≠ 0) && x.split m.asid m.dva (m.dva + m.len)), 16),
    (decide (m.len = 0) || decide (m.len % z ≠ 0) || decide (2 ^ 57 < m.dva + m.len), 24),
    (decide (m.off % z ≠ 0), 32),
    (decide (bitsAt b 44 5 3 ≠ 0) || decide (m.rights = 0), 44),
    (decide (bitsAt b 45 7 6 ≠ 0), 45)] ++ object ++ reservedSet b [(46, 18)]) with
  | some n => ctlFail stBadDescriptor n
  | none =>
    if !p.asids.contains m.asid then ctlFail stAsidInvalid
    else if o.isNone then ctlFail stObjectGone
    else j.change

/-- The row runs `mapRun`. -/
def execMap (c : CmdRef) (s : State) : Host.Outcome State Fault Refusal :=
  ctlRow c 0x14 s mapRun

/-- UNMAP (R371, R372, R385): with nothing mapped in the range it completes at once. -/
def unmapRun (j : Job) : Run CtlEnd := do
  let p := ((← get).vd j.v).sp
  let b := j.k.desc
  let m := mapBody b
  match firstBad ([
    (decide (m.dva % 4096 ≠ 0) || decide (2 ^ 57 ≤ m.dva) ||
      (p.maps.any fun x => decide (x.psize ≠ 0) && x.split m.asid m.dva (m.dva + m.len)), 16),
    (decide (m.len = 0) || decide (m.len % 4096 ≠ 0) || decide (2 ^ 57 < m.dva + m.len), 24),
    (decide (bitsAt b 45 7 6 ≠ 0), 45)] ++ reservedSet b [(32, 13), (46, 18)]) with
  | some n => ctlFail stBadDescriptor n
  | none => if !p.asids.contains m.asid then ctlFail stAsidInvalid else j.change

/-- The row runs `unmapRun`. -/
def execUnmap (c : CmdRef) (s : State) : Host.Outcome State Fault Refusal :=
  ctlRow c 0x15 s unmapRun

/-- FAULT_RESOLVE (R384): retries or fails the commands held at an entry; DETAIL is their number. -/
def faultResolveRun (j : Job) : Run CtlEnd := do
  let s ← get
  let b := j.k.desc
  match firstBad ([(decide (bitsAt b 20 7 1 ≠ 0), 20)] ++ reservedSet b [(21, 43)]) with
  | some n => ctlFail stBadDescriptor n
  | none =>
    match (s.vd j.v).sp.faults.find? fun f => decide (f.fid = fieldAt b 16 4) with
    | none => pure (.done stOk 0)
    | some f =>
      set (if bitsAt b 20 0 0 = 1 then s.failEntry j.v f else s.retryEntry j.v f)
      pure (.done stOk f.cmds.length)

/-- The row runs `faultResolveRun`. -/
def execFaultResolve (c : CmdRef) (s : State) : Host.Outcome State Fault Refusal :=
  ctlRow c 0x16 s faultResolveRun

/-! Release (R370, R376–R378, R445) -/

/-- A shared-plain object whose grant has been withdrawn (R445). -/
def Vd.revoked (d : Vd) (o : Obj) : Bool :=
  decide (o.cls = .shared) && !d.hold.grants.any fun g => decide (g.1 = o.grant)

/-- An object in FREEING may be released: its count is 0, or every command placed before the free is over; no remote
object names it (R369, R378). -/
def Vd.mayRelease (d : Vd) (o : Obj) : Bool :=
  decide (o.state = .freeing) &&
  !(d.sp.objs.any fun x => decide (x.cls = .remote) && decide (x.state ≠ .released) && decide (x.target = o.index)) &&
  (d.revoked o ||
   if d.refcount then decide (o.count = 0)
   else d.fe.streams.all fun t => t.queue.all fun k => decide (o.freedId ≤ k.id) || k.held)

/-- The slice holds a unit on an instance other than the object's home (R370). -/
def Vd.unitElsewhere (d : Vd) (o : Obj) : Bool := d.hold.units.any fun u => decide (u.part * 8 + u.inst ≠ o.home)

/-- Frees the pages of a private object on its home site (step 2 of R370). -/
def State.freeObject (s : State) (v : Nat) (o : Obj) : State :=
  match s.here? o.home with
  | none => s
  | some i =>
    let slow := decide (o.ns = 1)
    let mine (e : TierEntry) : Bool := decide (e.slice = v) && decide (o.base ≤ e.page) &&
      decide (e.page < o.base + o.size / 65536)
    let s := s.abandonMoves i fun m => decide (m.ns = o.ns) && decide (o.base ≤ m.page) &&
      decide (m.page < o.base + o.size / 65536)
    s.onSite i fun t =>
      let gone := (t.tier slow).map.filter mine
      let t := gone.foldl (fun t e => t.freePage e.slow e.ppn) t
      let t := t.onTier slow fun r => { r with map := r.map.filter fun e => !mine e }
      let stays (l : CacheLine) : Bool := !gone.any fun e => decide (l.page = joinAddr o.ns e.page 0)
      { t with clusters := t.clusters.map fun c => { c with lines := c.lines.filter stays } }

/-- Frees the loft frames of a remote object on every site of the part; dirty granules are counted (step 3 of R370). -/
def State.freeLoft (s : State) (v : Nat) (o : Obj) : State :=
  match (s.vd v).sp.objs.find? fun x => decide (x.index = o.target) with
  | none => s
  | some x =>
    let first := joinAddr x.ns x.base 0 / 65536
    let hit (f : Frame) : Bool := decide (f.slice = v) && decide (f.part * 8 + f.inst = x.home) && decide (first ≤ f.page) &&
      decide (f.page < first + ceilDiv x.size 65536)
    (List.range 8).foldl (fun s i =>
      let dirty := (((s.site i).net.frames.filter hit).map fun f =>
        ((List.range 256).filter f.dirty.getLsbD).length).foldl (· + ·) 0
      (if dirty = 0 then s else s.bump i rFabLoft Fld.fabLoftWbFail dirty).dropFrames i hit) s

/-- Steps 2 to 4 of R370, and the reply of an OBJ_FREE that waited. -/
def State.released (s : State) (v : Nat) (o : Obj) : State :=
  let s := match o.cls with
    | .priv => s.freeObject v o
    | .remote => s.freeLoft v o
    | _ => s
  let s := s.onSp v fun p => { p with objs := p.objs.map fun x =>
    if x.index = o.index then { x with
      state := .released, gen := if x.gen = 65535 then 1 else x.gen + 1, withdrawn := false, waitTe := false }
    else x }
  match ((s.vd v).stream 0).queue.find? fun k =>
      decide (k.op = 0x13) && decide (k.phase = .issued) && !k.ran && decide (fieldAt k.desc 16 2 = o.index) with
  | some k => if (s.vd v).refcount then s else s.endCtl ⟨v, 0, k.id⟩ (s.homeSite v) stOk 0
  | none => s

/-- The body by which a release reaches the replicas of other parts: an opcode no descriptor has, and the index. -/
def releaseBody (n : Nat) : Bytes := leBytes 8 0 ++ padTo 64 (leBytes 2 0xFFFF ++ zeros 14 ++ leBytes 2 n)

/-- The object leaves use (R370): every mapping onto it is withdrawn, the other parts are told where a unit of the slice
lies elsewhere, and it is released at once where nothing waits. -/
def State.startRelease (s : State) (vd obj : Nat) (o : Obj) : State :=
  let d := s.vd vd
  let far := d.unitElsewhere o
  let mark (s : State) := s.onSp vd fun p => { p with objs := p.objs.map fun x =>
    if x.index = obj then { x with withdrawn := true, waitTe := far } else x }
  let hit (m : Mapping) : Bool := decide (m.obj = obj)
  if d.sp.maps.any hit then
    if 4 ≤ d.sp.invals.length then s
    else ((mark (s.withdraw vd fun m => if hit m then [] else [m])).replicate vd none (releaseBody obj)).invalidate
      vd none (some obj) none
  else if far then (mark s).replicate vd none (releaseBody obj)
  else s.released vd o

/-- RELEASE (R370): the mappings are withdrawn under R385; without any, and with no unit elsewhere, the object is
released at once. -/
def execRelease (vd obj : Nat) (s : State) : Host.Outcome State Fault Refusal :=
  .next (
    let d := s.vd vd
    match d.sp.obj? obj with
    | none => s
    | some o => if !s.frontUp vd || o.withdrawn || !d.mayRelease o || d.fe.frozen then s else s.startRelease vd obj o)

/-- RELEASE_WAIT_EXPIRY (R370): T_e after the last replica write, the release goes on. -/
def execReleaseWaitExpiry (vd obj : Nat) (s : State) : Host.Outcome State Fault Refusal :=
  .next (
    match (s.vd vd).sp.obj? obj with
    | none => s
    | some o =>
      if !s.frontUp vd || !o.withdrawn || !o.waitTe || (s.vd vd).sp.invals.any fun x => decide (x.obj = some obj) then s
      else s.released vd o)

/-! Invalidations (R385, R386) -/

/-- An invalidation has acknowledged: what waited for it goes on. -/
def State.acknowledged (s : State) (v : Nat) (x : Inval) : State :=
  let s := s.onSp v fun p => { p with invals := p.invals.filter fun y => decide (y.k ≠ x.k) }
  let s := match x.cmd with
    | some id =>
      match s.cmd? ⟨v, 0, id⟩ with
      | some k =>
        let s := s.tableLater v k.desc
        if k.op = 0x11 ∧ !(s.vd v).refcount then (s.onCmd ⟨v, 0, id⟩ fun k => { k with progress := 1 }).endDestroys v
        else s.endCtl ⟨v, 0, id⟩ (s.homeSite v) stOk 0
      | none => s
    | none => s
  let s := match x.obj with
    | some n =>
      match (s.vd v).sp.obj? n with
      | some o => if o.waitTe then s else s.released v o
      | none => s
    | none => s
  let s := match x.ats with
    | some (bus, len) => s.emit (.atsDone v bus len)
    | none => s
  match x.home with
  | some (i, q) => (s.tableLater v (q.payload.drop 11)).respond i q stOk []
  | none => s

/-- INVALIDATION_ACK (step 4 of R385). -/
def execInvalidationAck (vd k : Nat) (s : State) : Host.Outcome State Fault Refusal :=
  .next (match (s.vd vd).sp.invals.find? fun x => decide (x.k = k) with
    | none => s
    | some x =>
      let open' := match x.cmd with
        | some id => decide (0 < (s.site (s.homeSite vd)).openTxns ⟨vd, 0, id⟩)
        | none => false
      if s.oldTransfers vd x.epoch || open' then s else s.acknowledged vd x)

/-- Commands of a slice that hold a transfer of an epoch before `e` on this part (R386). -/
def State.oldCommands (s : State) (v e : Nat) : List CmdRef :=
  let asking := ((s.vd v).fe.streams.zipIdx.flatMap fun (t, n) =>
    (t.queue.filter fun k => k.asks.any fun a => decide (a.epoch < e)).map fun k => (⟨v, n, k.id⟩ : CmdRef))
  let open' := s.sites.flatMap fun t => t.net.txns.filterMap fun x =>
    if x.epoch < e ∧ x.kind ≠ .control then x.cmd.filter fun c => decide (c.vd = v) else none
  (asking ++ open').eraseDups

/-- What still holds up an invalidation past its limit is given up: the contexts of the older commands are killed,
and their transfers are forgotten (R386). -/
def State.killOlder (s : State) (vd : Nat) (x : Inval) : State :=
  let cs := s.oldCommands vd x.epoch
  let at' (c : CmdRef) : Nat := ((s.job? c).map (·.i)).getD (s.homeSite vd)
  let ctxs := (cs.filterMap fun c => (s.vd vd).context c.stream).eraseDups
  let s := (cs.map at').eraseDups.foldl (fun s i => s.bump i rMmuCnt Fld.mmuCntInvalKills) s
  let s := ctxs.foldl (fun s n => s.killContext vd n (s.homeSite vd)) s
  let s := cs.foldl (fun s c => if c.stream = 0 then s.onCmd c fun k => { k with asks := [], unsent := [] } else s) s
  { s with sites := s.sites.map fun t => { t with net := { t.net with
      txns := t.net.txns.filter fun y => !(decide (y.epoch < x.epoch) && decide (y.kind ≠ .control) &&
        (match y.cmd with | some c => decide (c.vd = vd) | none => false)) } } }

/-- INVALIDATION_DRAIN (R386): the engines that hold old transfers are drained, their commands end KILLED and their
contexts are killed; commands of stream 0 begin their access anew. -/
def execInvalidationDrain (vd k : Nat) (s : State) : Host.Outcome State Fault Refusal :=
  .next (match (s.vd vd).sp.invals.find? fun x => decide (x.k = k) with
    | none => s
    | some x => if !s.oldTransfers vd x.epoch then s else s.killOlder vd x)

/-- ATS_INVALIDATION (R382, R385): the host withdraws translations of a bus range. -/
def execAtsInvalidation (vd bus len : Nat) (s : State) : Host.Outcome State Fault Refusal :=
  .next (if (s.vd vd).live ∧ (s.vd vd).ats ∧ (s.vd vd).sp.invals.length < 4 then s.invalidate vd none none (some (bus, len))
    else s)

/-! Faults (R383, R384) -/

/-- Opens or joins the fault entry of an access: none when a further entry may not open (R383). -/
def State.openFault (s : State) (j : Job) (dva access bit : Nat) (rights : Bool) (home : CmdRef) (inst part : Nat) :
    Option State :=
  let p := (s.vd home.vd).sp
  let page := dva / 4096
  let fits (f : FaultEntry) : Bool := decide (f.asid = j.asid) && decide (f.page = page) && (f.rightsKind == rights) &&
    (!f.written || decide (f.access &&& access = access))
  match p.faults.find? fits with
  | some f =>
    some (s.onSp home.vd fun p => { p with faults := p.faults.map fun x =>
      if x.fid = f.fid then { x with
        engines := x.engines ||| BitVec.ofNat 64 (2 ^ bit)
        access := if x.written then x.access else x.access ||| access
        cmds := x.cmds ++ [(home.stream, home.id)] }
      else x })
  | none =>
    if 256 ≤ p.faults.length then none
    else
      let d := s.vd home.vd
      let f : FaultEntry := {
        fid := p.nextFid, asid := j.asid, page := page, dva := dva, rightsKind := rights, access := access
        engines := BitVec.ofNat 64 (2 ^ bit), cmds := [(home.stream, home.id)], unit := (d.stream home.stream).unit
        tag := BitVec.ofNat 64 j.k.userTag, stream := home.stream, inst := inst + 8 * part, time := (s.site j.i).time }
      some ((s.onSp home.vd fun p => { p with faults := p.faults ++ [f], nextFid := (p.nextFid + 1) % 2 ^ 32 }).bump j.i
        rMmuCnt Fld.mmuCntFaults)

/-- The bit of ENGINE_MASK of the engine that a command holds; the front end reads its fences and raises its signal. -/
def Job.bit (j : Job) (s : State) : Nat :=
  engBit (if j.k.phase = .issued then j.kind else .frontEnd) (((s.site j.i).dma.findIdx? fun d => decide (d = some j.c)).getD 0)

/-- A held access becomes a fault: at home in an entry, on another part by a CONTROL packet to the home (R308, R383). -/
def State.faulted (s : State) (j : Job) (dva access : Nat) (rights : Bool) : State :=
  let t := s.site j.i
  let bit := j.bit s
  match j.k.home with
  | some (tag, q) =>
    (s.onCmd j.c fun k => { k with fault := some 0 }).control j.i j.v (Hdr.of q.hdr).src none .fault
      (leBytes 2 tag ++ leBytes 8 dva ++ leBytes 1 access ++ leBytes 1 bit ++ leBytes 1 rights.toNat ++ leBytes 1 t.id)
  | none =>
    match s.openFault j dva access bit rights j.c t.id ((s.vd j.v).partIdx s.partId) with
    | none => s
    | some s => s.onCmd j.c fun k => { k with fault := some 0 }

/-- The bus address of a held access to a host object. -/
def State.hostAt (s : State) (j : Job) (dva access : Nat) : Option Nat :=
  match (s.vd j.v).sp.translate j.asid dva access j.c.id with
  | .found o off => if o.cls = .host then some (o.bus + off) else none
  | _ => none

/-- DVA_FAULT (R382, R383): the access at which an engine holds has no valid leaf or too few rights; or, where the
function uses ATS, the host grants it no access. An access that the tables satisfy meanwhile is tried again. -/
def execDvaFault (c : CmdRef) (dva : Nat) (access : BitVec 3) (engine : Nat) (s : State) :
    Host.Outcome State Fault Refusal :=
  .next (match s.job? c with
    | none => s
    | some j =>
      let need := access.toNat
      let d := s.vd c.vd
      if engine ≠ j.bit s then s
      else match j.k.hold with
        | some (a, n) =>
          if a ≠ dva ∨ n ≠ need ∨ j.k.fault.isSome then s
          else match d.sp.translate j.asid dva need c.id with
            | .fault rights => s.faulted j dva need rights
            | _ => if d.ats && (s.hostAt j dva need).isSome then s else s.onCmd c fun k => { k with hold := none }
        | none =>
          match s.hostAt j dva need with
          | some bus =>
            if !d.ats || !j.k.asks.any fun a => decide (a.key = bus) then s
            else
              let s := s.onCmd c fun k => { k with asks := [], hold := some (dva, need) }
              if d.pri then s.emit (.pageRequest c.vd bus) else s.faulted j dva need false
          | none => s)

/-- PAGE_REQUEST_RESPONSE (R382): success retries the held access, a failure becomes a fault. -/
def execPageRequestResponse (c : CmdRef) (ok : Bool) (s : State) : Host.Outcome State Fault Refusal :=
  .next (match s.job? c with
    | none => s
    | some j =>
      match j.k.hold with
      | some (dva, need) =>
        if !(s.vd c.vd).pri || j.k.fault.isSome || (s.hostAt j dva need).isNone then s
        else if ok then s.onCmd c fun k => { k with hold := none }
        else s.faulted j dva need false
      | none => s)

/-- The 64 bytes of a fault record (R354). -/
def FaultEntry.record (f : FaultEntry) (last phase : Bool) (batch : Nat) : Bytes :=
  leBytes 8 f.dva ++ leBytes 4 f.fid ++ leBytes 2 f.status.toNat ++ leBytes 1 f.asid ++
  leBytes 1 (128 * last.toNat + f.access) ++ leBytes 1 (128 * phase.toNat + f.inst % 8) ++ leBytes 1 (f.inst / 8) ++
  leBytes 2 batch ++ leBytes 1 f.unit ++ zeros 3 ++ leBytes 8 f.engines.toNat ++ leBytes 8 f.tag.toNat ++
  leBytes 1 f.stream ++ zeros 7 ++ leBytes 8 f.time ++ zeros 8

/-- A batch that cannot be written fails every fault of it (R354). -/
def State.loseBatch (s : State) (v : Nat) (batch : List FaultEntry) : State :=
  let s := batch.foldl (fun s f => s.failEntry v f) s
  (s.onFe v fun e => { e with fqLost := true, fqFull := none }).event v (s.homeSite v) 0x0B 0 batch.length

/-- Writes the records of a batch in order while the ring has room. -/
def writeBatch (v : Nat) : List FaultEntry → State → Except Unit State
  | [], s =>
    let q := (s.vd v).fe.fq
    let s := (s.onFe v fun e => { e with fqFull := none }).onSp v fun p => { p with batch := (p.batch + 1) % 65536 }
    .ok (s.accumulate v q.vec)
  | f :: r, s =>
    let q := (s.vd v).fe.fq
    if q.unread + 1 = 2 ^ q.log2 then
      let now := (s.site (s.homeSite v)).time
      .ok (s.onFe v fun e => { e with fqFull := e.fqFull.orElse fun _ => some now })
    else match s.ringAddr v 0 (q.base + 64 * q.pos) 2 with
      | .error _ => .error ()
      | .ok bus =>
        let s := s.emit (.hostWrite v bus (f.record r.isEmpty q.phase (s.vd v).sp.batch))
        let s := s.onFe v fun e => { e with fq := e.fq.advance }
        let s := s.onSp v fun p => { p with faults := p.faults.map fun x =>
          if x.fid = f.fid then { x with written := true } else x }
        writeBatch v r s

/-- FAULT_BATCH_WRITE (R354, R383): up to 64 unwritten entries are written as one batch. -/
def execFaultBatchWrite (vd : Nat) (s : State) : Host.Outcome State Fault Refusal :=
  .next (
    let d := s.vd vd
    let batch := (d.sp.faults.filter fun f => !f.written).take 64
    if !s.frontUp vd || batch.isEmpty || d.fe.frozen then s
    else if !d.ringsOn then s.loseBatch vd batch
    else match writeBatch vd batch s with
      | .ok s => s
      | .error _ => s.loseBatch vd batch)

/-- FAULT_RING_FULL_EXPIRY (R354): the ring has stayed full for 50 µs with a batch ready. -/
def execFaultRingFullExpiry (vd : Nat) (s : State) : Host.Outcome State Fault Refusal :=
  .next (
    let d := s.vd vd
    let batch := (d.sp.faults.filter fun f => !f.written).take 64
    if !s.frontUp vd || d.fe.fqFull.isNone || batch.isEmpty then s else s.loseBatch vd batch)

/-- FAULT_ENTRY_EXPIRY (R384): an entry open 1 s after its record was written is failed. -/
def execFaultEntryExpiry (vd fid : Nat) (s : State) : Host.Outcome State Fault Refusal :=
  .next (match (s.vd vd).sp.faults.find? fun f => decide (f.fid = fid) with
    | some f => if f.written && s.frontUp vd then s.failEntry vd f else s
    | none => s)

/-! What the host answers (R376, R594) -/

/-- The status of a host access that ended with an error. -/
def hostStatus : HostStatus → Option W16
  | .success => none
  | .poisoned => some stUncorrectable
  | _ => some stHostError

/-- HOST_COMPLETION (R594): the bytes of a read, or the old value of an AtomicOp, arrive, or the access ends with an
error. A FetchAdd of a reference word that failed leaves the word to a later update (R376). -/
def execHostCompletion (c : CmdRef) (st : HostStatus) (bus : Nat) (data : Bytes) (s : State) :
    Host.Outcome State Fault Refusal :=
  .next (
    let failed := hostStatus st
    let asked := (s.cmd? c).bind fun k => k.asks.find? fun a => decide (a.key = bus) && decide (bus < 2 ^ 64)
    match asked with
    | some a =>
      match failed with
      | some x => s.failAccess c x 0
      | none =>
        if data.length ≠ a.len then s
        else s.onCmd c fun k => { k with asks := k.asks.erase a, got := (bus, data) :: k.got }
    | none =>
      if failed.isNone then s
      else s.onSp c.vd fun p =>
        let word (o : Obj) : Bool := match s.ringAddr c.vd 0 o.refDva 2 with
          | .ok b => decide (b = bus)
          | .error _ => false
        let mark (o : Obj) : Obj :=
          if o.state ≠ .released ∧ (s.vd c.vd).refcount ∧ word o then { o with refFailed := true } else o
        { p with objs := p.objs.map mark })

/-- HOST_COMPLETION_TIMEOUT (R594): no completion comes in time. -/
def execHostCompletionTimeout (c : CmdRef) (s : State) : Host.Outcome State Fault Refusal :=
  .next (match s.cmd? c with
    | none => s
    | some k => if k.asks.any fun a => decide (a.key < 2 ^ 64) then s.failAccess c stHostError 0 else s)

end Sys2Proof.Machine
end

