-- ==== Sys2Proof/Machine/Fabric.lean ====
section
/-! DEFINITION. Fabric packets as they arrive: the checks of R289, remote operations (R294, R295), responses (R281, R286,
R288), control packets (R308, R309, R380) and timeouts (R283, R309). -/

namespace Sys2Proof.Machine

/-! The checks of R289 -/

/-- A packet for another instance of the part leaves by an up port of FAB_D2D_RT, round-robin (R292); toward a peer whose
ports are down it is discarded and counted (R310). -/
def State.forwardNear (s : State) (i : Nat) (p : Pkt) : State :=
  let t := s.site i
  let mask := t.reg (rFabD2dRt ((Hdr.of p.hdr).dst % 8))
  let js := (List.range 4).filter fun j => bitOf mask j
  match js.filter t.d2dUp, js with
  | a :: r, _ => (s.onNet i fun n => { n with rr := n.rr + 1 }).handOff i ((a :: r).getD (t.net.rr % (r.length + 1)) a) p
  | [], j :: _ => s.bump i (rD2dPort j) Fld.d2dPortDiscard
  | [], [] => s.dropped i rFabDrop304 Fld.fabDrop304NoRoute

/-- Takes an arriving packet of a type through steps 1 to 6 of R289; `run` carries on with one that passes. The replay
window moves only for a packet whose ICV holds. -/
def State.arrive (s : State) (i type : Nat) (p : Pkt) (run : State → Hdr → State) : State :=
  let t := s.site i
  let h := Hdr.of p.hdr
  let drop (off : Nat) (f : Nat × Nat) := s.dropped i off f
  if !t.present then s
  else if badHeader p then drop rFabDrop30c Fld.fabDrop30cBadHeader
  else if h.type ≠ type then s
  else if t.domState 20 ≠ 0 then drop rFabDrop304 Fld.fabDrop304InstReset
  else if h.dst ≠ s.addrOf i then if h.dst / 8 = s.partId then s.forwardNear i p else s.inject i p
  else match t.slot? h.keyId with
    | none => drop rFabDrop300 Fld.fabDrop300StaleKey
    | some k =>
      if k.state = .free ∨ k.gen ≠ h.keyGen then drop rFabDrop300 Fld.fabDrop300StaleKey
      else
        let net := if isResponse type then some t.net else t.net.accept h.keyId h.src p.nonce.toNat
        match net with
        | none => drop rFabDrop308 Fld.fabDrop308Replay
        | some net =>
          if !p.icvOk then
            ((drop rFabDrop308 Fld.fabDrop308SealFail).report i 0x04 0 (leBytes 3 h.src ++ zeros 1 ++ leBytes 2 h.keyId ++
              leBytes 1 type)).raiseSrc i 0x60
          else run (s.onNet i fun _ => net) h

/-! Requests at the target (R289 step 8, R294) -/

/-- The slice of this part that owns a key slot. -/
def State.sliceOf (s : State) (slot : Nat) : Option Nat := s.vds.findIdx? fun d => d.live && decide (d.slot = slot)

/-- Number under which the tier map keeps a weight page: no slice has it. -/
def weightSlice : Nat := 256

/-- A tenant page is a page of a copy of a weight granted to a slice (R367, R445). -/
def State.grantedPage (s : State) (v inst ns page : Nat) : Bool :=
  (s.vd v).hold.grants.any fun g => s.part.weights.any fun w => decide (w.num = g.2) && w.copies.any fun c =>
    decide (c.1 = inst) && decide (c.2.1.toNat = ns) && decide (c.2.2 ≤ page) && decide (page < c.2.2 + ceilDiv w.size 65536)

/-- What a request may do to its target page (step 8 of R289): its class is private or shared-plain, or the request is
answered with a status. -/
def State.targetOf (s : State) (i : Nat) (h : Hdr) (writes : Bool) : Except W16 Bool :=
  let (ns, page, _) := splitAddr h.addr
  match s.sliceOf h.keyId, (s.site i).entry? ns page with
  | some v, some e =>
    if e.slice = v then .ok true
    else if e.slice = weightSlice ∧ s.grantedPage v (s.site i).id ns page then
      if writes then .error stRightsFault else .ok false
    else .error stTranslationFault
  | _, _ => .error stTranslationFault

/-- READ_REQ (R294): one for a port that does not answer waits there (R580). -/
def execReadReq (i : Nat) (p : Pkt) (s : State) : Host.Outcome State Fault Refusal :=
  .next (s.arrive i 1 p fun t h =>
    match t.targetOf i h false with
    | .error st => t.respond i p st []
    | .ok priv =>
      if (t.site i).portHeld h.addr then s
      else match t.tierRead i h.addr h.len h.keyId priv true with
      | (.ok b, s) => s.respond i p stOk b
      | (.error st, s) => s.respond i p st [])

/-- WRITE (R294): a write to a page held for the switch of a move waits at the port. -/
def execWrite (i : Nat) (p : Pkt) (s : State) : Host.Outcome State Fault Refusal :=
  .next (s.arrive i 3 p fun t h =>
    match t.targetOf i h true with
    | .error st => t.respond i p st []
    | .ok priv =>
      match t.tierWrite i h.addr p.payload h.keyId priv true none with
      | none => s
      | some (.ok _, t) => t.respond i p stOk []
      | some (.error st, t) => t.respond i p st [])

/-- Carries out the words of an ATOMIC packet from word `k`: the old value of the last, none when it must wait (R295). -/
def atomicPacket (i : Nat) (h : Hdr) (b : Bytes) : Nat → Nat → State → Option (Except W16 Nat × State)
  | 0, _, s => some (.ok 0, s)
  | n + 1, k, s =>
    let op := h.op % 8
    let w := atomicWidth op
    let (x, cmp) := if op = 2 then (fieldAt b 8 8, fieldAt b 0 8) else (fieldAt b (k * w) w, 0)
    match s.atomicWord i (h.addr + k * w) op x cmp h.keyId with
    | some (.ok old, s) => if n = 0 then some (.ok old, s) else atomicPacket i h b n (k + 1) s
    | r => r

/-- ATOMIC (R294, R295). -/
def execAtomic (i : Nat) (p : Pkt) (s : State) : Host.Outcome State Fault Refusal :=
  .next (s.arrive i 5 p fun t h =>
    match t.targetOf i h true with
    | .error st => t.respond i p st []
    | .ok _ =>
      let w := atomicWidth (h.op % 8)
      let n := if h.op % 8 = 2 then 1 else p.payload.length / w
      match atomicPacket i h p.payload n 0 t with
      | none => s
      | some (.ok old, t) => t.respond i p stOk (if 8 ≤ h.op then leBytes w old else [])
      | some (.error st, t) => t.respond i p st [])

/-- FENCE_REGRESSION, the status by which a FENCE_ACK reports a regression (R349, R387, log entry 35). -/
def stRegression : W16 := 0x0104

/-- FENCE_SIG (R294, R387): an atomic max on the fence word. -/
def execFenceSig (i : Nat) (p : Pkt) (s : State) : Host.Outcome State Fault Refusal :=
  .next (s.arrive i 7 p fun t h =>
    match t.targetOf i h true with
    | .error st => t.respond i p st []
    | .ok _ =>
      let v := fieldAt p.payload 0 8
      match t.raiseWord i h.addr h.keyId v with
      | none => s
      | some (.ok old, t) => t.respond i p (if v < old then stRegression else stOk) []
      | some (.error st, t) => t.respond i p st [])

/-- CONTRIB (R294, R304): elements for a landing window of the cluster that ADDR names (log entry 32); a discarded
contribution gets no response. -/
def execContrib (i : Nat) (p : Pkt) (s : State) : Host.Outcome State Fault Refusal :=
  .next (s.arrive i 9 p fun s h =>
    match s.sliceOf h.keyId with
    | none => s.respond i p stTranslationFault []
    | some v =>
      let (s, ok) := s.contribute i ((h.addr >>> 22) % 2) h.window v (h.addr % 2 ^ 22) ((h.addr >>> 23) % 8) p.payload
      if ok then s.respond i p stOk [] else s)

/-! Responses (R281, R286, R288) -/

/-- Closes a transaction entry; ordered flows and the slice's waiting requests go on (R281, R282, R284). -/
def State.closeTxn (s : State) (i num : Nat) : State :=
  (s.onNet i fun n => { n with txns := n.txns.filter fun x => decide (x.num ≠ num) }).rerouteDown i

/-- Sends what the commands of a slice still have to send. -/
def State.pumpSlice (s : State) (v : Nat) : State :=
  (s.vd v).fe.streams.zipIdx.foldl (fun (s : State) ((t, n) : Stream × Nat) =>
    t.queue.foldl (fun s k => if k.unsent.isEmpty then s else s.pump ⟨v, n, k.id⟩) s) s

/-- Takes a response through step 7 of R289: `run` gets the entry it closes. -/
def State.matchTxn (s : State) (i : Nat) (h : Hdr) (kinds : List TxnKind) (run : State → Txn → State) : State :=
  let t := s.site i
  match t.net.txns.find? fun x => decide (x.num = h.txn) && decide (x.dst = h.src) && decide (x.slot = h.keyId) &&
      kinds.contains x.kind with
  | none => s.dropped i rFabDrop300 Fld.fabDrop300StaleGen
  | some x =>
    let s := s.closeTxn i x.num
    if h.gen ≠ t.gen x.dom then s.dropped i rFabDrop300 Fld.fabDrop300StaleGen
    else
      let s := run s x
      match x.cmd with
      | some c => (s.settle i c).pumpSlice c.vd
      | none => s

/-- A request of a command has failed: the branch it belongs to, or the command, ends with the status (R289, R300, R303,
R305). -/
def State.requestFails (s : State) (c : CmdRef) (x : Txn) (st : W16) : State :=
  match s.cmd? c with
  | none => s
  | some k =>
    if k.op = 0x304 ∧ x.kind = .write then s.branchFails c x.branch st
    else if k.op = 0x302 ∧ x.kind = .write then s.noteBranch c x.branch st
    else if k.op = 0x305 ∧ bitsAt k.desc 52 7 4 = 1 ∧ (x.kind = .write ∨ x.branch ≠ 0) then
      (s.noteBranch c x.branch st).onCmd c fun k => { k with
        asks := k.asks.filter fun a => decide (a.key ≠ fabKey x.dst x.addr) }
    else s.failAccess c st 0

/-- The answer to a request that a command waits for has arrived: the command has the bytes and asks no longer. -/
def State.gotFab (s : State) (c : CmdRef) (x : Txn) (bs : Bytes) : State :=
  s.onCmd c fun k =>
    if k.asks.any fun a => decide (a.key = fabKey x.dst x.addr) then { k with
      got := (fabKey x.dst x.addr, bs) :: k.got
      asks := k.asks.filter fun a => decide (a.key ≠ fabKey x.dst x.addr) }
    else k

/-- A READ_RSP (R288, R298): its bytes go to the command, and into the loft frame they were asked for. -/
def State.tookRead (s : State) (i : Nat) (h : Hdr) (x : Txn) (payload : Bytes) : State :=
  match x.cmd with
  | none => s
  | some c =>
    let st := BitVec.ofNat 16 h.addr
    if st ≠ stOk then s.requestFails c x st
    else
      (if x.kind = .fill then s.fillFrame i c.vd x.dst x.addr (padTo x.len payload) else s).gotFab c x
        (padTo x.len payload)

/-- READ_RSP (R288): the bytes reach the command that asked, or the loft frame they fill. -/
def execReadRsp (i : Nat) (p : Pkt) (s : State) : Host.Outcome State Fault Refusal :=
  .next (s.arrive i 2 p fun s h => s.matchTxn i h [.read, .fill] fun s x => s.tookRead i h x p.payload)

/-- What an acknowledgement of a write or contribution does. -/
def State.acked (s : State) (h : Hdr) (x : Txn) : State :=
  match x.cmd with
  | some c => if BitVec.ofNat 16 h.addr = stOk then s else s.requestFails c x (BitVec.ofNat 16 h.addr)
  | none => s

/-- WRITE_ACK (R288). -/
def execWriteAck (i : Nat) (p : Pkt) (s : State) : Host.Outcome State Fault Refusal :=
  .next (s.arrive i 4 p fun s h => s.matchTxn i h [.write] fun s x => s.acked h x)

/-- CONTRIB_ACK (R288). -/
def execContribAck (i : Nat) (p : Pkt) (s : State) : Host.Outcome State Fault Refusal :=
  .next (s.arrive i 0xA p fun s h => s.matchTxn i h [.contrib] fun s x => s.acked h x)

/-- An ATOMIC_RSP (R296): the old values go to the command. -/
def State.tookAtomic (s : State) (h : Hdr) (x : Txn) (payload : Bytes) : State :=
  match x.cmd with
  | none => s
  | some c =>
    let st := BitVec.ofNat 16 h.addr
    if st ≠ stOk then s.requestFails c x st else s.gotFab c x payload

/-- ATOMIC_RSP (R296): the old value reaches a command that fetches it. -/
def execAtomicRsp (i : Nat) (p : Pkt) (s : State) : Host.Outcome State Fault Refusal :=
  .next (s.arrive i 6 p fun s h => s.matchTxn i h [.atomic] fun s x => s.tookAtomic h x p.payload)

/-- DVA of the fence a command raises: the signal's of its extension, or FENCE of a REDUCE_ARM. -/
def Cmd.fenceDva (k : Cmd) : Nat :=
  if k.op = 0x112 ∧ k.phase = .issued then (ReduceBody.of k.desc).fence else fieldAt k.ext 32 8

/-- A FENCE_ACK (R387): the command's signal is done; a value below the word's raises the FENCE_REGRESSION event. -/
def State.tookFence (s : State) (i : Nat) (h : Hdr) (x : Txn) : State :=
  match x.cmd.bind fun c => (s.cmd? c).map fun k => (c, k) with
  | none => s
  | some (c, k) =>
    let st := BitVec.ofNat 16 h.addr
    if st ≠ stOk ∧ st ≠ stRegression then s.requestFails c x st
    else
      (if st = stRegression then s.event c.vd i 0x04 c.stream k.fenceDva else s).onCmd c fun k =>
        if k.sig = .sent then { k with sig := .done } else k

/-- FENCE_ACK (R387): the signal is over; a regression is reported, an error drops it. -/
def execFenceAck (i : Nat) (p : Pkt) (s : State) : Host.Outcome State Fault Refusal :=
  .next (s.arrive i 8 p fun s h => s.matchTxn i h [.fence] fun s x => s.tookFence i h x)

/-! Control packets (R308, R309, R380; layout: log entry 21) -/

/-- A forwarded work item joins its stream's queue on this part. -/
def State.takeWork (s : State) (i v : Nat) (q : Pkt) (b : Bytes) : State :=
  let n := fieldAt b 10 1
  let k : Cmd := { id := fieldAt b 2 8, desc := (b.drop 11).take 64, ext := b.drop 75, placeTime := (s.site i).time
                   home := some (fieldAt b 0 2, { q with payload := [] }) }
  s.onStream v n fun t => { t with state := .active, queue := t.queue ++ [k] }

/-- The home aborts a forwarded command (R309, R348). -/
def State.abortFar (s : State) (v : Nat) (b : Bytes) : State :=
  let c : CmdRef := ⟨v, fieldAt b 8 1, fieldAt b 0 8⟩
  match s.cmd? c with
  | some k => if k.phase = .ended ∨ k.finalWr then s else s.endWith c stAborted (((s.job? c).map fun j => (s.site j.i).time).getD 0)
  | none => s

/-- An event record of another part is posted at the home. -/
def State.eventFrom (s : State) (v : Nat) (b : Bytes) : State :=
  s.postHere v ⟨fieldAt b 0 1, fieldAt b 1 1, fieldAt b 2 1 % 128, fieldAt b 3 1, fieldAt b 4 4, fieldAt b 8 8,
    fieldAt b 16 8, fieldAt b 24 8⟩

/-- A fault of a forwarded command opens or joins an entry at the home (R308, R383). -/
def State.faultFrom (s : State) (i v : Nat) (b : Bytes) : State :=
  match (s.site i).net.fwd.find? fun f => decide (f.tag = fieldAt b 0 2) && decide (f.cmd.vd = v) with
  | none => s
  | some f =>
    match s.cmd? f.cmd with
    | none => s
    | some k =>
      let j : Job := ⟨f.cmd, k, i, 0, none, .frontEnd, k.asid, (s.vd v).slot, s⟩
      match s.openFault j (fieldAt b 2 8) (fieldAt b 10 1) (fieldAt b 11 1) (fieldAt b 12 1 = 1) f.cmd (fieldAt b 13 1)
          ((s.vd v).partIdx (f.dst / 8)) with
      | none => s
      | some s => s.onCmd f.cmd fun k => { k with fault := some 0 }

/-- What became of a fault entry reaches the commands held here (R384). -/
def State.resolveFar (s : State) (v : Nat) (b : Bytes) : State :=
  let c : CmdRef := ⟨v, fieldAt b 8 1, fieldAt b 0 8⟩
  if fieldAt b 9 1 = 1 then s.failAccess c (BitVec.ofNat 16 (fieldAt b 10 2)) (fieldAt b 12 4)
  else s.onCmd c fun k => { k with hold := none, fault := none }

/-- An object that the home created is added to the replica, or drawn here when its pages lie here: its record, and the
first tenant page. -/
def State.objectHere (s : State) (v : Nat) (o : Obj) : Except W16 (State × Nat) :=
  match (s.vd v).sp.obj? o.index with
  | some x =>
    if s.here? o.home = none then .ok (s.onSp v fun p => { p with objs := p.objs.map fun y =>
      if y.index = o.index then { y with base := o.base } else y }, o.base)
    else .ok (s, x.base)
  | none =>
    match o.cls, s.here? o.home with
    | .priv, some i =>
      match s.drawObject i v o.ns (o.size / 65536) o.policy with
      | none => .error stDenied
      | some (base, s) => .ok (s.onSp v (·.addObj { o with base := base }), base)
    | _, _ => .ok (s.onSp v (·.addObj o), o.base)

/-- Tables change on a replica of another part (R380); with mappings withdrawn the answer waits for the transfers of
earlier epochs (R385). -/
def State.replicaFrom (s : State) (i v : Nat) (q : Pkt) (b : Bytes) : State :=
  let d := b.drop 8
  let done (s : State) (x : Bytes) := s.respond i q stOk x
  match fieldAt d 0 2 with
  | 0x01 =>
    done (s.onStream v (fieldAt d 16 1) fun t => { t with
      state := .active, unit := fieldAt d 17 1, owner := bitsAt d 19 5 0, seed := BitVec.ofNat 64 (fieldAt d 24 8) }) []
  | 0x12 =>
    match s.objectHere v (Obj.ofFields (d.drop 64)) with
    | .ok (s, base) => done s (leBytes 4 base)
    | .error st => s.respond i q st []
  | 0xFFFF =>
    let n := fieldAt d 16 2
    let hit (m : Mapping) : Bool := decide (m.obj = n)
    let had := (s.vd v).sp.maps.any hit
    let s := s.withdraw v fun m => if hit m then [] else [m]
    let s := match (s.vd v).sp.obj? n with
      | some o => s.released v o
      | none => s
    if had then s.invalidate v none none none (some (i, q)) else done s []
  | op =>
    let (s, inval) := s.tableChange v (fieldAt b 0 8) d
    if inval then s.invalidate v none none none (some (i, q))
    else done (s.tableLater v (if op = 0x11 then d else [])) []

/-- The home's kill of a context ends its commands here (R353). -/
def State.killFar (s : State) (v ctx : Nat) : State :=
  let d := s.vd v
  (List.range 256).foldl (fun s n =>
    if d.context n = some ctx then (d.stream n).queue.foldl (fun s k => s.killCmd ⟨v, n, k.id⟩) s else s) s

/-- A CONTROL packet of slice `v`, by its kind (R308, R380). -/
def State.tookControl (s : State) (i v : Nat) (p : Pkt) : State :=
  let b := p.payload.drop 3
  match fieldAt p.payload 0 1 with
  | 1 => s.takeWork i v p b
  | 2 => (s.abortFar v b).respond i p stOk []
  | 3 => (s.eventFrom v b).respond i p stOk []
  | 4 => (s.faultFrom i v b).respond i p stOk []
  | 5 => s.replicaFrom i v p b
  | 6 => (s.resolveFar v b).respond i p stOk []
  | 7 => (s.killFar v (fieldAt b 0 1)).respond i p stOk []
  | _ => s.respond i p stUnsupported []

/-- CONTROL (R308, R380): a work item is answered when it completes, everything else when it has been done. -/
def execControl (i : Nat) (p : Pkt) (s : State) : Host.Outcome State Fault Refusal :=
  .next (s.arrive i 0xB p fun s h =>
    match s.sliceOf h.keyId with
    | none => s.respond i p stTranslationFault []
    | some v => s.tookControl i v p)

/-- The record of a forwarded command has come to its home (R308, R309). -/
def State.completeFar (s : State) (i : Nat) (b : Bytes) : State :=
  match (s.site i).net.fwd.find? fun f => decide (f.tag = fieldAt b 0 2) with
  | none => s.dropped i rFabDrop300 Fld.fabDrop300StaleGen
  | some f =>
    let r := b.drop 2
    let s := s.onNet i fun n => { n with fwd := n.fwd.filter fun x => decide (x.tag ≠ f.tag) }
    (s.leaveFault f.cmd).onCmd f.cmd fun k =>
      if k.phase = .ended then k
      else { k with
        phase := .ended, ran := true, finalWr := true, sig := .none, status := BitVec.ofNat 16 (fieldAt r 8 2)
        eng := BitVec.ofNat 16 (fieldAt r 10 2), endTime := fieldAt r 16 8, detail := BitVec.ofNat 32 (fieldAt r 24 4) }

/-- A part has answered a table update: the first tenant page of an object drawn there comes with it, and goes on to the
other replicas; a refusal ends the command, whose object is taken back (R372). -/
def State.replicaAnswered (s : State) (x : Txn) (c : CmdRef) (st : W16) (b : Bytes) : State :=
  let d := (x.req.payload.drop 3).drop 8
  if fieldAt d 0 2 ≠ 0x12 then if st = stOk then s else s.failAccess c st 0
  else
    let o := Obj.ofFields (d.drop 64)
    if st ≠ stOk then
      (s.onSp c.vd fun p => { p with objs := p.objs.filter fun y => decide (y.index ≠ o.index) }).failAccess c st 0
    else if o.cls = .priv ∧ o.home / 8 = x.dst / 8 ∧ s.here? o.home = none then
      let o := { o with base := fieldAt b 0 4 }
      let s := s.onSp c.vd fun p => { p with objs := p.objs.map fun y => if y.index = o.index then { y with base := o.base } else y }
      ((s.otherParts c.vd).filter (· ≠ x.dst / 8)).foldl (fun s n =>
        s.control (s.homeSite c.vd) c.vd (s.partDst c.vd n) (some c) .replica
          ((x.req.payload.drop 3).take 72 ++ o.fields)) s
    else s

/-- A CONTROL_ACK (R308, R309): a work item's completion, or the answer to a replica update. -/
def State.tookControlAck (s : State) (i : Nat) (h : Hdr) (x : Txn) (payload : Bytes) : State :=
  if x.branch = Ctl.work.code then s.completeFar i payload
  else match x.cmd with
    | some c => s.replicaAnswered x c (BitVec.ofNat 16 h.addr) payload
    | none => s

/-- CONTROL_ACK (R308). -/
def execControlAck (i : Nat) (p : Pkt) (s : State) : Host.Outcome State Fault Refusal :=
  .next (s.arrive i 0xC p fun s h => s.matchTxn i h [.control] fun s x => s.tookControlAck i h x p.payload)

/-! Timeouts -/

/-- A request has gone unanswered for T_e (R283): its entry is free, a replica update is repeated (R373), and the
command's request fails, or is kept for after the migration of a frozen slice (R456). -/
def State.txnLost (s : State) (i : Nat) (x : Txn) : State :=
  let s := s.closeTxn i x.num
  let s := if x.kind = .control ∧ x.branch = Ctl.replica.code ∧ (s.site i).slotActive x.slot then
      s.request i ⟨none, 20, 0, 2, 0, true⟩
        { kind := .control, dst := x.dst, addr := 0, len := x.req.payload.length, slot := x.slot, priv := true
          payload := x.req.payload, branch := x.branch }
    else s
  match x.cmd with
  | none => s
  | some c =>
    if (s.vd c.vd).fe.frozen then s.onCmd c fun k => { k with retry := k.retry ++ [x] }
    else
      let lost := match s.cmd? c with
        | some k => if k.op = 0x302 ∧ x.kind = .write then x.len / 256 else 0
        | none => 0
      let s := if lost = 0 then s else s.bump i rFabLoft Fld.fabLoftWbFail lost
      ((s.requestFails c x stFabricTimeout).settle i c).pumpSlice c.vd

/-- TRANSPORT_TIMEOUT (R283): the entry closes, and what waited for it ends FABRIC_TIMEOUT. A replica update is sent anew
until it lands (R373); the entry of a work item stands until R309 ends it. A request of a frozen slice is noted as
retry-needed (R456). -/
def execTransportTimeout (i txn : Nat) (s : State) : Host.Outcome State Fault Refusal :=
  .next (match (s.site i).net.txns.find? fun x => decide (x.num = txn) with
    | none => s
    | some x =>
      if x.kind = .control ∧ x.branch = Ctl.work.code ∧ (s.site i).net.fwd.any fun f => decide (f.txn = txn) then s
      else s.txnLost i x)

/-- A forwarded command's part has not answered (R309): it is aborted there, and ends here with FABRIC_TIMEOUT. -/
def State.fwdLost (s : State) (i : Nat) (f : Fwd) : State :=
  let s := (s.onNet i fun n => { n with fwd := n.fwd.filter fun x => decide (x.tag ≠ f.tag) }).closeTxn i f.txn
  let s := s.control i f.cmd.vd f.dst none .abort (leBytes 8 f.cmd.id ++ leBytes 1 f.cmd.stream)
  match s.cmd? f.cmd with
  | some k => if k.phase = .ended then s else
      (s.endWith f.cmd stFabricTimeout (s.site i).time).onCmd f.cmd fun k => { k with sig := .none }
  | none => s

/-- FORWARD_TIMEOUT (R309): the home aborts the forwarded command and writes FABRIC_TIMEOUT. -/
def execForwardTimeout (i tag : Nat) (s : State) : Host.Outcome State Fault Refusal :=
  .next (match (s.site i).net.fwd.find? fun f => decide (f.tag = tag) with
    | none => s
    | some f => s.fwdLost i f)

end Sys2Proof.Machine
end

