-- ==== Sys2Proof/Machine/Issue.lean ====
section
/-! DEFINITION. Issue of ready commands to engines (R84, R178, R397–R399, R418), and SCALAR_RUN (R121–R123). -/

namespace Sys2Proof.Machine

/-! SCALAR_RUN (R121, R122) -/

/-- SE_MASK of a SCALAR_RUN body. -/
def Cmd.seMask (k : Cmd) : Nat := fieldAt k.desc 56 1
/-- VE_MASK of a SCALAR_RUN body. -/
def Cmd.veMask (k : Cmd) : Nat := fieldAt k.desc 58 2 % 4096

/-- The checks of R122. -/
def Job.checkScalar (j : Job) : Run (Option (W16 × Nat)) := do
  let b := j.k.desc
  let entry := fieldAt b 16 4
  match firstBad [(decide (entry % 4 ≠ 0) || decide (bindingSize j.q ≤ entry), 16),
      (decide (j.k.seMask = 0) || decide (2 ^ (seSpan j.q).2 ≤ j.k.seMask), 56), (decide (fieldAt b 57 1 ≠ 0), 57),
      (decide (bitsAt b 59 7 4 ≠ 0) || decide (2 ^ (veSpan j.q).2 ≤ j.k.veMask), 58),
      (decide (fieldAt b 60 4 ≠ 0), 60)] with
  | some n => pure (badField n)
  | none => pure none

/-- A scalar engine as a SCALAR_RUN starts it (R121): every other register is zero. -/
def Se.start (e : Se) (b : Bytes) (code : Mem) : Se :=
  let arg (n : Nat) : W64 := BitVec.ofNat 64 (fieldAt b (24 + 8 * n) 8)
  let x := (((Vector.replicate 32 (0 : W64)).set 2 (BitVec.ofNat 64 (fieldAt b 20 4))).set 10 (arg 0)).set 11 (arg 1)
  { e with
    x := (x.set 12 (arg 2)).set 13 (arg 3), f := Vector.replicate 32 0, pc := BitVec.ofNat 64 (fieldAt b 16 4), mode := .running
    wait := .none, exit := 0, cause := 0, resv := none, code := code, veMask := fieldAt b 58 2 % 4096 }

/-- SCALAR_RUN (R121, R122): the engines that COMMAND_ISSUE reserved start at ENTRY. -/
def execScalarRun (c : CmdRef) (s : State) : Host.Outcome State Fault Refusal :=
  .next (match s.job? c with
    | none => s
    | some j =>
      if !j.k.live 0x102 || !j.runs s then s
      else s.onCore j.i j.p fun k => { k with
        ses := k.ses.map fun e =>
          if e.cmd = some c ∧ e.mode = .idle then e.start j.k.desc k.cmem else e })

/-! Issue (R398) -/

/-- The check of a command's body. -/
def Job.check (j : Job) : Run (Option (W16 × Nat)) :=
  match j.k.op with
  | 0x100 => j.checkTile
  | 0x101 => j.checkAttention
  | 0x102 => j.checkScalar
  | 0x103 => j.checkSelect
  | 0x104 => j.checkGather
  | 0x105 => j.checkLayout
  | 0x106 => j.checkCodec
  | 0x110 => j.checkRoute
  | 0x111 => j.checkReduce
  | 0x112 => j.checkArm
  | 0x200 => j.checkDma false
  | 0x201 => j.checkDma true
  | _ => pure none

/-- A vector engine of a binding, by its number there, is idle and not held by a SCALAR_RUN. -/
def Site.veFree (t : Site) (p : Nat) (q : Option Nat) (n : Nat) : Bool :=
  let k := t.core p
  let (lo, _) := veSpan q
  let v := k.ves.getD (t.veMap p (lo + n)) {}
  !v.busy && !k.ses.zipIdx.any fun (e, m) => e.cmd.isSome && decide (k.seQuad m = q) && e.veMask.testBit n

/-- A scalar engine of a binding is idle. -/
def Core.seFree (k : Core) (q : Option Nat) (n : Nat) : Bool := (k.ses.getD ((seSpan q).1 + n) {}).cmd.isNone

/-- The copy engine that takes a command: the lowest idle one in service (R178, R185). -/
def Site.dmaFree (t : Site) : Option Nat :=
  (List.range 16).find? fun e => decide (t.dma.getD e none = none) && decide (t.fld (rDmaEngStatus e) Fld.dmaEngStatusOffline = 0)

/-- Every engine that a command needs is free (R122, R140, R398). -/
def Job.enginesFree (j : Job) (s : State) : Bool :=
  let t := s.site j.i
  let k := t.core j.p
  let q := j.q.getD 0
  let cl := t.cluster j.cl
  match j.kind with
  | .array => decide (k.array.getD q none = none)
  | .scalar =>
    ((List.range 8).all fun n => !j.k.seMask.testBit n || decide ((seSpan j.q).2 ≤ n) || k.seFree j.q n) &&
    (List.range 12).all fun n => !j.k.veMask.testBit n || decide ((veSpan j.q).2 ≤ n) || t.veFree j.p j.q n
  | .router => !cl.router.any fun r => decide (r.vd = j.v)
  | .reduction => decide (j.k.op = 0x112) || !cl.reducer.any fun r => decide (r.vd = j.v)
  | .dma => t.dmaFree.isSome
  | .fabric | .frontEnd => true
  | kind =>
    (decide (kind ≠ .attention) || decide (k.array.getD q none = none)) &&
    !k.zoo.any fun z => decide (z.1 = kind) && decide (z.2.1 = q)

/-- Two commands of a unit need a common engine. -/
def Job.competes (a b : Job) : Bool :=
  let arr := fun k : EngineKind => decide (k = .array) || decide (k = .attention)
  (arr a.kind && arr b.kind) ||
  (decide (a.kind = .scalar) && decide (b.kind = .scalar) &&
    (decide (a.k.seMask &&& b.k.seMask ≠ 0) || decide (a.k.veMask &&& b.k.veMask ≠ 0))) ||
  (decide (a.kind = b.kind) && decide (a.kind ≠ .scalar))

/-- The keys of R398: class, command deadline of real-time commands, ready time, stream. -/
def Cmd.rank (k : Cmd) (stream : Nat) : List Nat :=
  let (cls, _, deadline) := k.lab
  [cls, if cls = 0 then k.readyTime + deadline * 64 else 0, k.readyTime, stream]

/-- Lexicographic order of keys. -/
def keysBefore : List Nat → List Nat → Bool
  | a :: r, b :: t => decide (a < b) || (decide (a = b) && keysBefore r t)
  | _, _ => false

/-- The first command of a stream that waits for its engine: later ones start after it. -/
def Stream.firstReady (t : Stream) : Option Cmd :=
  match t.queue.find? fun k => decide (k.phase = .ready) || decide (k.phase = .placed) with
  | some k => if k.phase = .ready then some k else none
  | none => none

/-- The ready commands of the streams bound to a unit of a slice. -/
def State.readyOn (s : State) (v unit : Nat) : List (Nat × Cmd) :=
  (s.vd v).fe.streams.zipIdx.filterMap fun (t, n) =>
    if n ≠ 0 ∧ t.unit = unit ∧ t.starts then t.firstReady.map fun k => (n, k) else none

/-- The slice is the one that the unit serves: bound to it, and resident under Reel (R399–R401, R403, R192). -/
def Job.served (j : Job) (s : State) : Bool :=
  let k := s.core j.i j.p
  let u := k.unit j.q
  decide (j.v ∈ u.group) && (!u.reel || decide (u.resident = some j.v)) && u.preempt.isNone && u.switching.isNone &&
  k.pendQuad.isNone && (match j.q with | some q => !k.clearing.getLsbD q | none => decide (k.clearing = 0))

/-- The conditions under which a command is issued, but for its rank; a NOP is issued to no engine. -/
def Job.issuable (j : Job) (s : State) : Bool :=
  let t := s.site j.i
  let st := (s.vd j.v).stream j.c.stream
  st.starts && decide ((st.firstReady.map (·.id)) = some j.c.id) && !(s.vd j.v).fe.frozen && t.up &&
  t.domUp (domOf j.kind j.p) && j.enginesFree s &&
  match j.kind with
  | .frontEnd => false
  | .dma | .fabric => true
  | .router | .reduction => j.served s
  | _ => j.served s && t.coreRuns j.p

/-- Occupies the engines of a command. -/
def Job.occupy (j : Job) (s : State) : State :=
  let q := j.q.getD 0
  let r := j.c
  match j.kind with
  | .dma =>
    let e := ((s.site j.i).dmaFree).getD 0
    (s.onSite j.i fun t => { t with dma := t.dma.set e (some r) }).onCmd r fun k => { k with engine := e }
  | .fabric | .frontEnd => s
  | .router => s.onSite j.i (·.onCluster j.cl fun k => { k with router := k.router ++ [r] })
  | .reduction =>
    if j.k.op = 0x112 then s else s.onSite j.i (·.onCluster j.cl fun k => { k with reducer := k.reducer ++ [r] })
  | .array => s.onCore j.i j.p fun k => { k with array := k.array.set q (some r) }
  | .scalar => s.onCore j.i j.p fun k => { k with
      ses := k.ses.zipIdx.map fun (e, n) =>
        if (seSpan j.q).1 ≤ n ∧ n < (seSpan j.q).1 + (seSpan j.q).2 ∧ j.k.seMask.testBit (n - (seSpan j.q).1) then
          { e with cmd := some r, mode := .idle, wait := .none, veMask := j.k.veMask }
        else e }
  | kind => s.onCore j.i j.p fun k =>
      let k := { k with zoo := k.zoo ++ [(kind, q, r)] }
      if kind = .attention then { k with array := k.array.set q (some r), attOwn := k.attOwn ||| BitVec.ofNat 4 (2 ^ q) }
      else k

/-- The bucket of a waiting time (R418). -/
def waitBucket (w : Nat) : Nat := if w < 128 then 0 else min 15 (Nat.log2 (w / 64))

/-- Whether a ready command of the same unit that comes first by its keys competes for the engine (R398). -/
def State.outranked (s : State) (j : Job) (c : CmdRef) : Bool :=
  (s.readyOn c.vd ((s.vd c.vd).stream c.stream).unit).any fun (n, k) =>
    keysBefore (k.rank n) (j.k.rank c.stream) &&
    match s.job? ⟨c.vd, n, k.id⟩ with
    | some o => o.competes j && o.issuable s
    | none => false

/-- The command takes its engine and its wait is accounted; one whose body fails its checks ends at once (R137, R398,
R418). -/
def State.issue (s : State) (j : Job) (c : CmdRef) : State :=
  let now := (s.site j.i).time
  let w := now - j.k.readyTime
  let s := (j.occupy s).onCmd c fun k => { k with
    phase := .issued, wasIssued := true, issueTime := now, got := [] }
  let s := s.account j.i c.vd c.stream fun a => { a with
    waitSum := satAdd (2 ^ 64 - 1) a.waitSum w, waitMax := max a.waitMax w
    hist := a.hist.modify (waitBucket w) (satAdd (2 ^ 32 - 1) · 1)
    commands := satAdd (2 ^ 64 - 1) a.commands 1 }
  match (j.check.run s).1 with
  | .ok (some (st, d)) => s.finish j.i c st 0 d
  | .error (.fail st d) => s.finish j.i c st 0 d
  | _ => s

/-- COMMAND_ISSUE (R398): the command goes to its engines, which check its body (R137, R596). -/
def execCommandIssue (c : CmdRef) (s : State) : Host.Outcome State Fault Refusal :=
  .next (match s.job? c with
    | none => s
    | some j =>
      if decide (c.stream = 0) || decide (j.k.phase ≠ .ready) || !j.issuable s ||
        (s.outranked j c && decide (j.kind ≠ .dma) && decide (j.kind ≠ .fabric)) then s
      else s.issue j c)

end Sys2Proof.Machine
end

