-- ==== Sys2Proof/Machine/Sched.lean ====
section
/-! DEFINITION. Clearing a unit's engines (R80, R125, R192), Reel (R400–R406), mode changes (R31, R188, R597), budget
windows and guarantees (R413–R417), and accounting snapshots (R423, R424). -/

namespace Sys2Proof.Machine

/-! The engine state of a unit -/

/-- A physical vector engine belongs to a unit: every one of a whole core, the three of a quarter-core. -/
def Site.veOf (t : Site) (p : Nat) (q : Option Nat) (e : Nat) : Bool :=
  match q with
  | none => true
  | some q => (List.range 3).any fun n => decide (t.veMap p (3 * q + n) = e)

/-- A scalar engine belongs to a unit. -/
def seOf (q : Option Nat) (n : Nat) : Bool := decide ((seSpan q).1 ≤ n) && decide (n < (seSpan q).1 + (seSpan q).2)

/-- A chaining port half belongs to a unit (R111). -/
def halfOf (q : Option Nat) (h : Nat) : Bool := q.isNone || decide (q = some h)

/-- A quarter belongs to a unit. -/
def quarterOf (q : Option Nat) (n : Nat) : Bool := q.isNone || decide (q = some n)

/-- Engines, scratch, chaining FIFOs, accumulator words and array occupancy of a unit zeroed (R80, R125). -/
def Site.wipe (t : Site) (p : Nat) (q : Option Nat) : Site :=
  t.onCore p fun c =>
    let accLo := match q with | none => 0 | some q => q * 1048576
    { c with
      acc := c.acc.clear accLo (if q.isNone then 4194304 else 1048576)
      ves := c.ves.zipIdx.map fun (v, e) => if t.veOf p q e then { offline := v.offline } else v
      ses := c.ses.zipIdx.map fun (e, n) => if seOf q n then {} else e
      halves := c.halves.zipIdx.map fun (h, n) => if halfOf q n then {} else h
      tickets := c.tickets.filter fun k => !quarterOf q k.quarter
      moves := c.moves.filter fun m => !quarterOf q m.quarter
      array := c.array.zipIdx.map fun (a, n) => if quarterOf q n then none else a
      attOwn := match q with | none => 0 | some q => c.attOwn &&& ~~~(BitVec.ofNat 4 (2 ^ q))
      zoo := c.zoo.filter fun z => !quarterOf q z.2.1 }

/-- The banks of a unit zeroed: no command reads them before ZEROING_DONE (R188, R192). -/
def Site.zero (t : Site) (p : Nat) (q : Option Nat) : Site :=
  t.onCore p fun c => { c.zeroBanks q with
    clearing := match q with | none => 0xF | some q => c.clearing ||| BitVec.ofNat 4 (2 ^ q) }

/-- Number within a unit of a physical vector engine (R91). -/
def Site.veLocal (t : Site) (p : Nat) (q : Option Nat) (e : Nat) : Option Nat :=
  (List.range (veSpan q).2).find? fun n => decide (t.veMap p ((veSpan q).1 + n) = e)

/-- Physical vector engine of a unit's number. -/
def Site.vePhys (t : Site) (p : Nat) (q : Option Nat) (n : Nat) : Nat := t.veMap p ((veSpan q).1 + n)

/-- First byte and bytes of a unit's core memory, and of its accumulator words. -/
def unitSpan (q : Option Nat) : Nat × Nat × Nat × Nat :=
  match q with
  | none => (0, 100663296, 0, 4194304)
  | some n => (n * 25165824, 25165824, n * 1048576, 1048576)

/-- The state of a unit as steps 4 and 5 of R401 save it, its banks, engines and quarters numbered from 0. -/
def Site.grab (t : Site) (p : Nat) (q : Option Nat) (slice since : Nat) : Image :=
  let c := t.core p
  let (lo, n, accLo, accN) := unitSpan q
  let k := q.getD 0
  let se := (seSpan q).1
  { slice := slice, since := since
    cmem := Mem.copy c.cmem lo n [] 0
    poison := (c.poison.filter fun x => decide (lo ≤ x * 32) && decide (x * 32 < lo + n)).map (· - lo / 32)
    acc := Mem.copy c.acc accLo accN [] 0
    ves := (List.range (veSpan q).2).map fun n =>
      let v := c.ves.getD (t.vePhys p q n) {}
      { v with offline := false, launcher := v.launcher - se }
    ses := (c.ses.drop se).take (seSpan q).2
    halves := ((if q.isNone then c.halves else [c.halves.getD k {}])).map fun (h : Half) =>
      { h with waiters := h.waiters.filterMap fun x => (t.veLocal p q x.1).map fun n => (n, x.2) }
    tickets := (c.tickets.filter fun x => quarterOf q x.quarter).map fun (x : Ticket) => { x with
      running := x.running.filterMap (t.veLocal p q)
      ends := x.ends.filterMap fun y => (t.veLocal p q y.1).map fun n => (n, y.2)
      quarter := x.quarter - k }
    moves := (c.moves.filter fun m => quarterOf q m.quarter).map fun (m : Move) => { m with se := m.se - se, quarter := m.quarter - k } }

/-- An image put into a cleared unit (steps 5 and 6 of R401). -/
def Site.putImage (t : Site) (p : Nat) (q : Option Nat) (m : Image) : Site :=
  t.onCore p fun c =>
    let (lo, n, accLo, accN) := unitSpan q
    let k := q.getD 0
    let se := (seSpan q).1
    { c with
      cmem := Mem.copy m.cmem 0 n c.cmem lo
      poison := c.poison ++ m.poison.map (· + lo / 32)
      acc := Mem.copy m.acc 0 accN c.acc accLo
      ves := c.ves.zipIdx.map fun (v, e) => match t.veLocal p q e with
        | some n =>
          let w := m.ves.getD n {}
          { w with offline := v.offline, launcher := w.launcher + se }
        | none => v
      ses := c.ses.zipIdx.map fun (e, n) => if seOf q n then m.ses.getD (n - se) {} else e
      halves := c.halves.zipIdx.map fun (h, n) => if halfOf q n then
          (let h : Half := m.halves.getD (n - k) {}
           { h with waiters := h.waiters.map fun x => (t.vePhys p q x.1, x.2) })
        else h
      tickets := c.tickets ++ m.tickets.map fun (x : Ticket) => { x with
        running := x.running.map (t.vePhys p q)
        ends := x.ends.map fun y => (t.vePhys p q y.1, y.2)
        quarter := x.quarter + k }
      moves := c.moves ++ m.moves.map fun (y : Move) => { y with se := y.se + se, quarter := y.quarter + k }
      nextTicket := m.tickets.foldl (fun n x => max n (x.id + 1)) c.nextTicket }

/-- Changes the Reel unit of a binding. -/
def State.onUnit (s : State) (i p : Nat) (q : Option Nat) (f : ReelUnit → ReelUnit) : State :=
  s.onCore i p fun c => { c with units := c.units.modify (q.getD 0) f }

/-! Who uses a unit -/

/-- The binding that a slice holds on a piece of hardware. -/
def State.unitAt (s : State) (v i p : Nat) (q : Option Nat) : Option UnitBind :=
  (s.vd v).hold.units.find? fun u => decide (u.part = s.partId) && decide (s.siteOf u.inst = i) && decide (u.core = p) &&
    decide (u.quad = q)

/-- A command that runs on the engines of its core: not on a cluster engine, a copy engine or the transport. -/
def onCoreEngine (k : Cmd) : Bool :=
  match kindOf k.op with
  | some .dma | some .fabric | some .frontEnd | some .router | some .reduction => false
  | some _ => true
  | none => false

/-- A command that its unit's sequencer issues. -/
def onUnitEngine (k : Cmd) : Bool :=
  match kindOf k.op with
  | some .dma | some .fabric | some .frontEnd => false
  | some _ => true
  | none => false

/-- Commands of a slice that are issued on the engines of a unit and have not ended. -/
def State.issuedOn (s : State) (v i p : Nat) (q : Option Nat) : List (Nat × Cmd) :=
  match s.unitAt v i p q with
  | none => []
  | some u => (s.vd v).fe.streams.zipIdx.flatMap fun (t, n) =>
      if n ≠ 0 ∧ t.unit = u.num then
        (t.queue.filter fun k => decide (k.phase = .issued) && onCoreEngine k && !k.forwarded).map fun k => (n, k)
      else []

/-- A slice has a command to run on a unit: a ready one, or one that a pre-emption saved (R400, R404). -/
def State.hasReady (s : State) (v i p : Nat) (q : Option Nat) : Bool :=
  match s.unitAt v i p q with
  | none => false
  | some u => ((s.readyOn v u.num).any fun x => onUnitEngine x.2) ||
    (!(s.vd v).fe.frozen && (s.issuedOn v i p q).any fun x => x.2.saved)

/-- The slices of a group after the resident one, in group order. -/
def ReelUnit.others (u : ReelUnit) : List Nat :=
  match u.resident with
  | none => u.group
  | some r =>
    let k := (u.group.findIdx? (· == r)).getD 0
    u.group.drop (k + 1) ++ u.group.take k

/-! Pre-emption (R401–R404) -/

/-- Step 1 of a pre-emption: the sequencer stops issuing the resident slice's commands. -/
def State.preempt (s : State) (i p : Nat) (q : Option Nat) (target : Nat) : State :=
  s.onUnit i p q fun u => { u with preempt := some ((s.site i).time, target) }

/-- Accounting of a pre-emption (R418). -/
def State.countPreempt (s : State) (i v : Nat) (streams : List Nat) : State :=
  let one (s : State) (n : Nat) : State := s.onWatch i fun w =>
    let hit := fun a : Acct => decide (a.vd = v) && decide (a.stream = n)
    let a := (w.acct.find? hit).getD ⟨v, n, 0, 0, 0, 0, 0, List.replicate 16 0⟩
    { w with acct := { a with preempt := satAdd (2 ^ 32 - 1) a.preempt 1 } :: w.acct.filter fun a => !hit a }
  (256 :: streams).foldl one s

/-- Steps 2 to 4 of a pre-emption: the unit's state goes to the switch buffer, and the switch window opens: the image
is written out and the banks are zeroed (R192, R402). -/
def State.saveUnit (s : State) (i p : Nat) (q : Option Nat) (start target : Nat) : State :=
  let u := (s.core i p).unit q
  let s := if 25000 < (s.site i).time - start then s.bump i rSchReel Fld.schReelLate else s
  let s := match u.resident with
    | none => s
    | some r =>
      let cmds := s.issuedOn r i p q
      let s := cmds.foldl (fun (s : State) ((n, k) : Nat × Cmd) =>
        if k.ran ∧ k.chainRows = [] then s else s.onCmd ⟨r, n, k.id⟩ fun k => { k with saved := true }) s
      let s := s.countPreempt i r (cmds.map fun x : Nat × Cmd => x.1).eraseDups
      let m := (s.site i).grab p q r start
      s.onUnit i p q fun u => { u with images := m :: u.images.filter fun x => decide (x.slice ≠ r) }
  (s.onSite i fun t => (t.wipe p q).onCore p (·.zeroBanks q)).onUnit i p q fun u =>
    { u with preempt := none, resident := none, switching := some target }

/-- Gives a resumed command its engine slots again. -/
def Core.reoccupy (c : Core) (q : Nat) (r : CmdRef) (kind : EngineKind) : Core :=
  match kind with
  | .array => { c with array := c.array.set q (some r) }
  | .attention => { c with
      array := c.array.set q (some r), attOwn := c.attOwn ||| BitVec.ofNat 4 (2 ^ q), zoo := c.zoo ++ [(kind, q, r)] }
  | .select | .gatherScatter | .layout | .codec => { c with zoo := c.zoo ++ [(kind, q, r)] }
  | _ => c

/-- A slice becomes resident: its image is restored, or it starts clear, and its saved commands run on, with the time
they were saved taken out of their run time and timeout (R401, R402, R404). -/
def State.restore (s : State) (i p : Nat) (q : Option Nat) (v : Nat) : State :=
  let now := (s.site i).time
  let u := (s.core i p).unit q
  let s := match u.images.find? fun m => decide (m.slice = v) with
    | some m =>
      let s := s.onSite i (·.putImage p q m)
      (s.issuedOn v i p q).foldl (fun (s : State) ((n, k) : Nat × Cmd) =>
        if k.saved then
          (s.onCmd ⟨v, n, k.id⟩ fun k => { k with saved := false, issueTime := k.issueTime + (now - m.since) }).onCore i p
            (·.reoccupy (q.getD 0) ⟨v, n, k.id⟩ ((kindOf k.op).getD .scalar))
        else s) s
    | none => s
  s.onUnit i p q fun u => { u with
    switching := none, resident := some v, quantumStart := now, idleSince := now
    images := u.images.filter fun m => decide (m.slice ≠ v) }

/-- The end of a switch window: the incoming slice is restored, and the switch counts (R422). -/
def State.resume (s : State) (i p : Nat) (q : Option Nat) (v : Nat) : State :=
  (s.restore i p q v).bump i rSchReel Fld.schReelSwitches

/-- The unit that a row names: a whole core counts as its quadrant 0. -/
def State.unitQ (s : State) (i p q : Nat) : Option Nat := if (s.core i p).quad then some q else none

/-- A row that names an existing unit of a working core, in C0 and not paused (R574, R578). -/
def State.unitRow (s : State) (i p q : Nat) : Bool :=
  decide (i < 8) && decide (p < 6) && decide (q < 4) && ((s.core i p).quad || decide (q = 0)) && (s.site i).up &&
  (s.site i).domUp (domCore p) && decide ((s.site i).fld (rPwrCore p) Fld.pwrCoreState = 0) &&
  decide ((s.site i).fld (rPwrCore p) Fld.pwrCorePaused = 0)

/-- QUANTUM_EXPIRY (R400): the group switches to the next slice with a ready command, or the resident slice begins a
fresh quantum. -/
def execQuantumExpiry (i core q : Nat) (s : State) : Host.Outcome State Fault Refusal :=
  .next (
    let uq := s.unitQ i core q
    let u := (s.core i core).unit uq
    if !s.unitRow i core q || !u.reel || u.resident.isNone || u.preempt.isSome || u.switching.isSome then s
    else match u.others.find? fun v => s.hasReady v i core uq with
      | some v => s.preempt i core uq v
      | none => s.onUnit i core uq fun u => { u with quantumStart := (s.site i).time })

/-- REEL_IDLE_YIELD (R400): also where a freeze left the unit with no resident slice (R455). -/
def execReelIdleYield (i core q : Nat) (s : State) : Host.Outcome State Fault Refusal :=
  .next (
    let uq := s.unitQ i core q
    let u := (s.core i core).unit uq
    match u.resident with
    | none =>
      if !s.unitRow i core q || !u.reel || u.switching.isSome then s
      else match u.group.find? fun v => s.hasReady v i core uq with
        | some v => s.onUnit i core uq fun u => { u with switching := some v }
        | none => s
    | some r =>
      if !s.unitRow i core q || !u.reel || u.preempt.isSome || u.switching.isSome || s.hasReady r i core uq ||
        !(s.issuedOn r i core uq).isEmpty then s
      else match u.others.find? fun v => s.hasReady v i core uq with
        | some v => s.preempt i core uq v
        | none => s)

/-! Mode changes (R31, R188, R597) -/

/-- The slices that hold a unit of a core. -/
def State.coreOwners (s : State) (i p : Nat) : List Nat :=
  (List.range 256).filter fun v => (s.vd v).hold.units.any fun u =>
    decide (u.part = s.partId) && decide (s.siteOf u.inst = i) && decide (u.core = p)

/-- The lowest free unit number of a slice. -/
def Holdings.freeUnit (h : Holdings) : Option Nat := (List.range 255).find? fun n => !h.units.any fun u => decide (u.num = n)

/-- The units of a slice after its core changed mode (R597), with the streams bound to them. -/
def Vd.remode (d : Vd) (part inst p : Nat) (quad : Bool) : Vd :=
  let here := fun u : UnitBind => decide (u.part = part) && decide (u.inst = inst) && decide (u.core = p)
  let mine := d.hold.units.filter here
  match mine with
  | [] => d
  | a :: rest =>
    if quad then
      let add (h : Holdings) (q : Nat) : Holdings :=
        match h.freeUnit with
        | some n => { h with units := h.units ++ [{ a with num := n, quad := some q }] }
        | none => h
      let h := { d.hold with units := d.hold.units.map fun u => if here u then { u with quad := some 0 } else u }
      { d with hold := [1, 2, 3].foldl add h }
    else
      let keepNum := rest.foldl (fun m u => min m u.num) a.num
      let gone := (mine.map (·.num)).filter (· ≠ keepNum)
      { d with
        hold := { d.hold with
          units := (d.hold.units.filter fun u => !gone.contains u.num).map fun u =>
            if u.num = keepNum then { u with quad := none } else u }
        fe := { d.fe with streams := d.fe.streams.map fun t => if gone.contains t.unit then { t with unit := keepNum } else t } }

/-- A mode change takes place: engines cleared, every bank zeroed, the owning slice's units changed. Its commands that
had been issued on the core and had not ended are ready again and start anew in the new mode (log entry 31). -/
def State.setMode (s : State) (i p : Nat) (quad : Bool) : State :=
  let owners := s.coreOwners i p
  let qs : List (Option Nat) := if quad then [none] else [some 0, some 1, some 2, some 3]
  let back (s : State) (v : Nat) : State := qs.foldl (fun s q =>
    (s.issuedOn v i p q).foldl (fun s (n, k) =>
      if k.ran then s
      else (s.leaveFault ⟨v, n, k.id⟩).onCmd ⟨v, n, k.id⟩ fun k => { k with
        phase := .ready, asks := [], unsent := [], got := [], chainRows := [], eng := 0, progress := 0, saved := false }) s) s
  let s := owners.foldl back s
  let inst := (s.site i).id
  let s := owners.foldl (fun s v => s.onVd v (·.remode s.partId inst p quad)) s
  let s := s.onSite i fun t => ((t.wipe p none).zero p none).onCore p fun c => { c with
    quad := quad, pendQuad := none
    units := (List.range 4).map fun n =>
      let u := c.units.getD 0 {}
      if quad ∨ n = 0 then { group := u.group, resident := u.resident, reel := u.reel, quantumStart := t.time } else {} }
  s.answer 0x108 (fun b => decide (fieldAt b 8 1 = inst) && decide (fieldAt b 9 1 = p)) stOk

/-- TILE_BOUNDARY (R31, R85, R401): the array has reached a tile boundary, the other engines theirs, and a pending
pre-emption or mode change takes effect. -/
def execTileBoundary (i core q : Nat) (s : State) : Host.Outcome State Fault Refusal :=
  .next (
    let uq := s.unitQ i core q
    let c := s.core i core
    if !s.unitRow i core q then s
    else match (c.unit uq).preempt with
      | some (start, v) => s.saveUnit i core uq start v
      | none => match c.pendQuad with
        | some m => if (s.site i).fld (rPwrCore core) Fld.pwrCoreState = 0 then s.setMode i core m else s
        | none => s)

/-- WORK_UNIT_BOUNDARY (R141, R142, R401): a per-core engine other than the array has reached its work unit; where no
command owns the array or quadrant, that completes a pending pre-emption. The cluster and copy engines are not
pre-empted (R142), and an abort ends its commands when STREAM_ABORT is carried out. -/
def execWorkUnitBoundary (i core q : Nat) (kind : EngineKind) (s : State) : Host.Outcome State Fault Refusal :=
  .next (
    let uq := s.unitQ i core q
    let c := s.core i core
    if !s.unitRow i core q || decide (kind = .dma) || decide (kind = .router) || decide (kind = .reduction) ||
      decide (kind = .fabric) || decide (kind = .frontEnd) || decide (c.array.getD (uq.getD 0) none ≠ none) then s
    else match (c.unit uq).preempt with
      | some (start, v) => s.saveUnit i core uq start v
      | none => s)

/-- SWITCH_WINDOW (R403): the window ends, and the incoming slice resumes. -/
def execSwitchWindow (i core q : Nat) (s : State) : Host.Outcome State Fault Refusal :=
  .next (
    let uq := s.unitQ i core q
    if !s.unitRow i core q then s
    else match ((s.core i core).unit uq).switching with
      | some v => s.resume i core uq v
      | none => s)

/-- ZEROING_DONE (R192). -/
def execZeroingDone (i core q : Nat) (s : State) : Host.Outcome State Fault Refusal :=
  .next (
    if !s.unitRow i core q then s
    else s.onCore i core fun c => { c with
      clearing := if c.quad then c.clearing &&& ~~~(BitVec.ofNat 4 (2 ^ q)) else 0 })

/-! Budget windows and guarantees (R413–R417) -/

/-- A guarantee's outcome in a window: whether it is met and its measured value in 65,536ths; none where the window is
not evaluated. -/
def Guard.outcome (g : Guard) (used : Nat) (m : WindowMeasure) : Option (Bool × Nat) :=
  if g.kind = 0 then
    if m.rtDone = 0 then none
    else some (decide (g.target * m.rtDone ≤ 256 * m.rtMet), min 65535 (m.rtMet * 65536 / m.rtDone))
  else
    some (decide (m.requested ≤ used) || decide (g.target * m.offered ≤ 256 * used),
      if m.offered = 0 then 65535 else min 65535 (used * 65536 / m.offered))

/-- Counts and reports a missed guarantee (R417). -/
def State.guardMiss (s : State) (i : Nat) (g : Guard) (v : Nat) : State :=
  (s.report i 0x05 0 (leBytes 1 g.slice ++ leBytes 1 g.bset ++ leBytes 1 g.path ++ leBytes 1 g.kind ++ leBytes 1 g.target ++
    zeros 3 ++ leBytes 2 v)).raiseSrc i 0x44

/-- The end of a budget window: every guarantee on it is judged, and the budget starts afresh (R413–R417). -/
def State.endWindow (s : State) (i slice bset path : Nat) (b : Budget) (m : WindowMeasure) : State :=
  let mine := (s.site i).watch.guards.filter fun g =>
    decide (g.slice = slice) && decide (g.bset = bset) && decide (g.path = path)
  let s := mine.foldl (fun s g =>
    match g.outcome b.used m with
    | none => s
    | some (met, v) =>
      let s := s.onWatch i fun w => { w with guards := w.guards.map fun x =>
        if x.g = g.g then { x with last := v, misses := if met then x.misses else satAdd 255 x.misses 1 } else x }
      if met then s else s.guardMiss i g v) s
  s.onWatch i fun w => { w with budgets := w.budgets.map fun x =>
    if x.slice = slice ∧ x.bset = bset ∧ x.path = path then { x with used := 0 } else x }

/-- BUDGET_WINDOW_END (R413–R417). -/
def execBudgetWindowEnd (i slice bset path : Nat) (m : WindowMeasure) (s : State) : Host.Outcome State Fault Refusal :=
  .next (match (s.site i).budget? slice bset path with
    | none => s
    | some b => if !(s.site i).up then s else s.endWindow i slice bset path b m)

/-! Snapshots (R423, R424) -/

/-- The accounting words of a client or stream. -/
def Acct.words (a : Acct) : List Nat :=
  [a.waitSum % 2 ^ 32, a.waitSum / 2 ^ 32, min (2 ^ 32 - 1) a.waitMax, a.preempt, a.run % 2 ^ 32, a.run / 2 ^ 32,
   a.commands % 2 ^ 32, a.commands / 2 ^ 32] ++ a.hist

/-- Takes a snapshot of the selected counts; `clear` zeroes them. -/
def State.snapshot (s : State) (i : Nat) (value : W32) (clear : Bool) : State :=
  let v := bitsOf value 23 16
  let n := bitsOf value 8 0
  let hit := fun a : Acct => decide (a.vd = v) && decide (a.stream = n)
  let words := match (s.site i).watch.acct.find? hit with
    | some a => if n ≤ 256 then a.words else List.replicate 24 0
    | none => List.replicate 24 0
  let s := s.onSite i fun t =>
    let t := t.setReg rSchAcctSel (BitVec.ofNat 32 (v * 65536 + n))
    words.zipIdx.foldl (fun t (x, k) => t.setReg (rSchAcctData k) (BitVec.ofNat 32 x)) t
  if clear then s.onWatch i fun w => { w with acct := w.acct.filter fun a => !hit a } else s

/-- SNAP (R423): a write of SCH_ACCT_SEL with SNAP = 1. -/
def execSnap (i : Nat) (value : W32) (s : State) : Host.Outcome State Fault Refusal :=
  .next (if (s.site i).up ∧ bitOf value 31 then s.snapshot i value (bitOf value 30) else s)

/-- SNAP_CLEAR (R423): with CLEAR = 1, the source counts are zeroed in the same step. -/
def execSnapClear (i : Nat) (value : W32) (s : State) : Host.Outcome State Fault Refusal :=
  .next (if (s.site i).up ∧ bitOf value 31 ∧ bitOf value 30 then s.snapshot i value true else s)

end Sys2Proof.Machine
end

