-- ==== Sys2Proof/Machine/Slices.lean ====
section
/-! DEFINITION. The part's state (R452), key slots (R434–R439), units, allotments and save areas bound and released
(R400, R402, R431, R433), and the removal of a tenant (R460–R462). -/

namespace Sys2Proof.Machine

/-! SETTLED and UNSETTLED (R452) -/

/-- The digest of the firmware image an instance runs. -/
def Site.running (t : Site) : BitVec 384 := t.flash.digest.getD (t.fld rPwrBoot Fld.pwrBootBank) 0

/-- The sites of the part that are up. -/
def State.upSites (s : State) : List Site := s.sites.filter (·.up)

/-- A conflict of a configuration record of start-up stands (R452, R530): its state is 2 or 3. -/
def Site.recordConflict (t : Site) : Bool :=
  (List.range 3).any fun r => [2, 3].contains (t.fld (rHltCfgrec r) Fld.hltCfgrecState)

/-- The part is UNSETTLED (R452). -/
def State.unsettled (s : State) : Bool :=
  !s.part.settledOnce || s.part.lead.isNone ||
  (s.part.members.any fun n => !s.upSites.any fun t => decide (t.id = n)) ||
  (s.sites.any fun t => t.present && t.flash.pending) ||
  (s.upSites.any fun t => decide (t.running ≠ (s.site s.lead).running)) ||
  !s.part.strapConflicts.isEmpty || (s.sites.any fun t => t.present && t.recordConflict)

/-! The layout of a slice -/

/-- The instances where a slice holds units, memory or loft frames, and its home, as `part * 8 + instance`. -/
def Vd.layout (d : Vd) : List Nat :=
  (d.home :: d.hold.units.map (fun (u : UnitBind) => u.part * 8 + u.inst) ++
    d.hold.allots.map (fun (a : Allot) => a.part * 8 + a.inst) ++
    (d.hold.loft.filterMap fun l => if l.2 = 0 then none else some (d.home / 8 * 8 + l.1))).eraseDups

/-- The parts of a slice, its home part first (R338). -/
def Vd.partList (d : Vd) : List Nat := (d.layout.map (· / 8)).eraseDups

/-- Every holder's nonce counters and replay windows follow the slice's layout (R287, R288). -/
def State.relist (s : State) (v : Nat) : State :=
  let d := s.vd v
  let s := s.onHold v fun h => { h with parts := d.partList }
  { s with sites := s.sites.map fun t =>
      if (t.slot? d.slot).any fun k => decide (k.state ≠ .free) then
        { t with net := { t.net with
          listed := (t.net.listed.filter fun p => decide (p.1 ≠ d.slot)) ++ d.layout.map fun x => (d.slot, x) } }
      else t }

/-! Key slots (R434–R437) -/

/-- Changes a slot of a key store; one never used is FREE at generation 0. -/
def Site.onSlot (t : Site) (n : Nat) (f : KeySlot → KeySlot) : Site :=
  let k := (t.slot? n).getD { num := n }
  { t with slots := f k :: t.slots.filter fun x => decide (x.num ≠ n) }

/-- A tenant slot is FREE. -/
def Site.slotFree (t : Site) (n : Nat) : Bool := decide (n < 960) && ((t.slot? n).all fun k => decide (k.state = .free))

/-- A slot becomes ACTIVE with a secret. -/
def State.fillSlot (s : State) (i n slice gen : Nat) (secret : BitVec 256) : State :=
  s.onSite i (·.onSlot n fun k => { k with
    state := .active, gen := gen % 64, slice := slice, secret := secret, lastSent := (s.site i).time })

/-- A secret that the DRBG draws (R435). -/
def State.drawSecret (s : State) : BitVec 256 × State := (Config.drbg s.free, { s with free := s.free + 1 })

/-- The sites of this part that hold a slice's slot, ACTIVE or DRAINING. -/
def State.holders (s : State) (v : Nat) : List Nat :=
  (List.range 8).filter fun i => ((s.site i).slot? (s.vd v).slot).any fun k =>
    decide (k.slice = v) && decide (k.state ≠ .free)

/-- A slice's key reaches one more site of the part: false where the slot is not free there, or no site holds it. -/
def State.shareKey (s : State) (v i : Nat) : Option State :=
  let n := (s.vd v).slot
  if (s.holders v).contains i then some s
  else match (s.holders v).findSome? fun b => (s.site b).slot? n with
    | some k => if (s.site i).slotFree n then some (s.fillSlot i n v k.gen k.secret) else none
    | none => none

/-- A tenant may have keys made for it: the part is SETTLED and not debug-unlocked (R430, R452, R467). -/
def State.keysFlow (s : State) : Bool := !s.unsettled && !s.part.debug

/-- KEY_CREATE (R435, R436): a FREE tenant slot gets a secret. -/
def execKeyCreate (i slot slice : Nat) (s : State) : Host.Outcome State Fault Refusal :=
  .next (
    let t := s.site i
    if !t.up || !t.slotFree slot || !s.keysFlow || !(s.vd slice).live || decide ((s.vd slice).slot ≠ slot) then s
    else
      let (x, s) := s.drawSecret
      (s.fillSlot i slot slice (t.slotGen slot) x).relist slice)

/-- The site of a unit bound in this part. -/
def State.unitSite (s : State) (u : UnitBind) : Option Nat :=
  if u.part = s.partId then (let i := s.siteOf u.inst; if i < 8 then some i else none) else none

/-- The part that has lent this instance to another part, as the home of a slice that comes from there (R433, R487). -/
def State.lender (s : State) (i : Nat) : Option Lend := s.part.lends.find? fun l => decide (l.inst = (s.site i).id)

/-- A slice takes a place on a unit: behind the others of its Reel group, or alone and resident at once (R399, R400). -/
def State.joinUnit (s : State) (v : Nat) (u : UnitBind) : State :=
  match s.unitSite u with
  | none => s
  | some i => s.onUnit i u.core u.quad fun x =>
      if x.group.contains v then x
      else if x.group.isEmpty then
        { group := [v], reel := u.reel, resident := some v, quantumStart := (s.site i).time, idleSince := (s.site i).time }
      else { x with group := x.group ++ [v] }

/-- The slice of another part as this part's record of it holds it: the units and the allotments that were lent to its
home (R433, R438, R487). -/
def State.lentSlice (s : State) (i slot home : Nat) : Vd :=
  let t := s.site i
  let mine := s.part.lends.filter fun x => decide (x.home = home) && decide (x.inst = t.id)
  let units := (mine.filter fun x => decide (x.kind = 0)).zipIdx.map fun (x, n) => ({
    num := n, part := s.partId, inst := t.id, core := x.arg % 256
    quad := if x.arg / 256 % 256 = 255 then none else some (x.arg / 256 % 4), reel := false, quantum := 0 } : UnitBind)
  let allots := (mine.filter fun x => decide (x.kind ≠ 0)).map fun x => ({
    kind := x.kind, part := s.partId, inst := t.id
    cluster := if x.kind < 3 then 0 else x.arg % 256
    count := if x.kind < 3 then x.arg else x.arg / 256 % 256 } : Allot)
  { live := true, home := home * 8, slot := slot, hold := { units := units, allots := allots } }

/-- KEY_INSTALL (R433, R438): a wrapped secret is unwrapped into a FREE slot. One for a slice that this part does not
know makes the record of a slice homed elsewhere, with the units lent to its home on this instance. -/
def execKeyInstall (i slot slice : Nat) (gen : BitVec 6) (secret : BitVec 256) (s : State) :
    Host.Outcome State Fault Refusal :=
  .next (
    let t := s.site i
    if !t.up || !t.slotFree slot || s.unsettled || s.part.debug || decide (256 ≤ slice) then s
    else if (s.vd slice).live then
      if (s.vd slice).slot = slot then (s.fillSlot i slot slice gen.toNat secret).relist slice else s
    else match s.lender i with
      | none => s
      | some l =>
        let d := s.lentSlice i slot l.home
        ((d.hold.units.foldl (fun s u => s.joinUnit slice u) (s.onVd slice fun _ => d)).fillSlot i slot slice gen.toNat
          secret).relist slice)

/-- A peer of R439. -/
def State.accepts (s : State) (p : PeerReport) : Bool :=
  p.chainOk && p.familyOk && decide (s.fld s.lead rSecState Fld.secStateSvn ≤ p.svn) && p.settled && !p.debug

/-- KEY_WRAP (R438, R439): a slot secret goes to an accepted peer, wrapped. -/
def execKeyWrap (i slot : Nat) (peer : PeerReport) (s : State) : Host.Outcome State Fault Refusal :=
  .next (
    match (s.site i).slot? slot with
    | some k =>
      if !(s.site i).up || decide (k.state ≠ .active) || s.unsettled || s.part.debug ||
        !(decide (peer.part = s.partId) || s.accepts peer) then s
      else s.emit (.spdm 0x11 (leBytes 2 slot ++ leBytes 1 k.gen ++ Config.aesWrap k.secret))
    | none => s)

/-! Units leave (R400, R402, R431) -/

/-- A unit's engines, accumulator and banks zeroed, with no command to run before ZEROING_DONE (R80, R125, R192). -/
def State.zeroUnit (s : State) (i p : Nat) (q : Option Nat) : State := s.onSite i fun t => (t.wipe p q).zero p q

/-- A slice leaves the group of a unit; when it was resident, its state is zeroed, and the next slice with a ready command,
or else the next one, comes in through a switch window (R400, R405). -/
def State.leaveGroup (s : State) (i p : Nat) (q : Option Nat) (v : Nat) : State :=
  let u := (s.core i p).unit q
  let gone : ReelUnit := { u with
    group := u.group.filter (· ≠ v)
    images := u.images.filter fun m => decide (m.slice ≠ v)
    preempt := u.preempt.filter fun x => decide (x.2 ≠ v) }
  if !u.group.contains v then s
  else if u.resident = some v ∨ u.switching = some v ∨ (u.resident = none ∧ u.switching = none) then
    let others := { u with resident := some v }.others
    let next := match others.find? fun x => s.hasReady x i p q with
      | some x => some x
      | none => others.head?
    let s := match next with
      | some _ => s.onSite i fun t => (t.wipe p q).onCore p (·.zeroBanks q)
      | none => s.zeroUnit i p q
    s.onUnit i p q fun _ =>
      if next.isNone then {} else { gone with resident := none, preempt := none, switching := next }
  else s.onUnit i p q fun _ => gone

/-- The pages of a unit's save area are free again. -/
def State.freeSave (s : State) (u : UnitBind) : State :=
  match s.unitSite u with
  | some i => s.onSite i fun t => u.save.foldl (fun t p => t.freePage false p) t
  | none => s

/-- A unit leaves a slice: its hardware is zeroed and unbound, its save area freed (R431). -/
def State.dropUnit (s : State) (v : Nat) (u : UnitBind) : State :=
  let s := match s.unitSite u with
    | some i => (s.leaveGroup i u.core u.quad v).freeSave u
    | none => s
  s.onHold v fun h => { h with units := h.units.filter fun x => decide (x.num ≠ u.num) }

/-- A holder of no unit and no allotment on an instance gives up its slot there (R433): the slot drains. -/
def State.drainSlot (s : State) (i v : Nat) : State :=
  let s := s.abandonMoves i fun m => ((s.site i).entry? m.ns m.page).any fun e => decide (e.slice = v)
  let hit (f : Frame) : Bool := decide (f.slice = v)
  let dirty := (((s.site i).net.frames.filter hit).map fun f => ((List.range 256).filter f.dirty.getLsbD).length).foldl (· + ·) 0
  let s := (s.bump i rFabLoft Fld.fabLoftWbFail dirty).dropFrames i hit
  let s := s.onNet i fun t => { t with groups := t.groups.filter fun g => decide (g.slice ≠ v) }
  let s := s.onSite i fun t => { t with
    clusters := t.clusters.map fun c => { c with windows := c.windows.filter fun w => decide (w.slice ≠ v) } }
  let s := (s.vd v).hold.units.foldl (fun s u =>
    if s.unitSite u = some i ∧ ((s.core i u.core).unit u.quad).reel then s.leaveGroup i u.core u.quad v else s) s
  s.onSite i (·.onSlot (s.vd v).slot fun k => { k with state := .draining })

/-- A drained slot is destroyed (R436): its secret and counters are gone and its generation has risen. -/
def State.destroySlot (s : State) (i n : Nat) : State :=
  s.onSite i fun t => { t.onSlot n (fun k => { k with state := .free, gen := (k.gen + 1) % 64, secret := 0, slice := 0 }) with
    net := { t.net with
      nonces := t.net.nonces.filter fun x => decide (x.slot ≠ n)
      replays := t.net.replays.filter fun x => decide (x.slot ≠ n)
      listed := t.net.listed.filter fun x => decide (x.1 ≠ n) } }

/-- A holder is quiet under a slot: DMA_QUIESCE and FAB_QUIESCE would both read DONE (R179, R312). -/
def State.slotQuiet (s : State) (i n : Nat) : Bool := (s.site i).fabQuiet n && s.dmaQuiet i n

/-! Removing a tenant (R460) -/

/-- Every context of a slice is killed. -/
def State.killSlice (s : State) (v : Nat) : State :=
  let d := s.vd v
  let ctxs := ((List.range 256).filterMap d.context).eraseDups
  ctxs.foldl (fun s n => s.killContext v n (s.homeSite v)) s

/-- Step 5: every tier page of the slice reads version 0 again. -/
def State.zeroPages (s : State) (v : Nat) : State :=
  let save (t : Site) := (s.vd v).hold.units.flatMap fun u => if u.part = s.partId ∧ u.inst = t.id then u.save else []
  let blank (t : Site) (slow : Bool) (ppns : List Nat) : Site := t.onTier slow fun r => { r with
    data := ppns.foldl (fun m p => m.clear (p * 65536) 65536) r.data
    subs := r.subs.filter fun m => !ppns.contains (m.sub / 16) }
  { s with sites := s.sites.map fun t =>
      let es := (t.fast.map ++ t.slow.map).filter fun e => decide (e.slice = v)
      let t := blank t false ((es.filter fun e => !e.slow).map (·.ppn) ++ save t)
      blank t true ((es.filter (·.slow)).map (·.ppn)) }

/-- Step 6: banks, engines, accumulators and cluster units of the slice zeroed. -/
def State.clearUnits (s : State) (v : Nat) : State :=
  let s := (s.vd v).hold.units.foldl (fun s u =>
    match s.unitSite u with
    | some i =>
      let x := (s.core i u.core).unit u.quad
      if x.resident = some v ∨ x.group = [v] then s.zeroUnit i u.core u.quad
      else s.onUnit i u.core u.quad fun x => { x with images := x.images.filter fun m => decide (m.slice ≠ v) }
    | none => s) s
  { s with sites := s.sites.map fun t => { t with clusters := t.clusters.map fun c =>
      let mine := (List.range 64).filter fun k => decide (c.alloc.getD k .free = .scratch v)
      { c with
        clm := mine.foldl (fun m k => m.clear (k * 2 ^ 20) (2 ^ 20)) c.clm
        poison := c.poison.filter fun p => !mine.contains (p / 32768)
        lines := c.lines.filter fun l => decide (l.slice ≠ v) } } }

/-- The tier pages of a slice are free. -/
def State.freePages (s : State) (v : Nat) : State :=
  { s with sites := s.sites.map fun t =>
      let es := (t.fast.map ++ t.slow.map).filter fun e => decide (e.slice = v)
      let t := es.foldl (fun t e => t.freePage e.slow e.ppn) t
      (t.onTier false fun r => { r with map := r.map.filter fun e => decide (e.slice ≠ v) }).onTier true fun r =>
        { r with map := r.map.filter fun e => decide (e.slice ≠ v) } }

/-- What a slice that ceases leaves on a site: cluster units, budgets, guarantees, accounting and epochs go. -/
def Site.forget (t : Site) (v : Nat) : Site :=
  let kept (x : ClmUse) : ClmUse := if x = .scratch v ∨ x = .cache v then .free else x
  let w := t.watch
  let n := t.net
  { t with
    clusters := t.clusters.map fun c => { c with alloc := c.alloc.map kept }
    watch := { w with
      acct := w.acct.filter fun a => decide (a.vd ≠ v)
      budgets := w.budgets.filter fun b => decide (b.slice ≠ v)
      guards := w.guards.filter fun g => decide (g.slice ≠ v) }
    net := { n with epochs := n.epochs.filter fun e => decide (e.slice ≠ v) } }

/-- A slice ceases: its units and pages are free, and nothing of it is left. -/
def State.freeSlice (s : State) (v : Nat) : State :=
  let s := (s.vd v).hold.units.foldl (fun s u => s.dropUnit v u) s
  let s := s.freePages v
  let s := { s with sites := s.sites.map fun t => Site.forget t v }
  let held := (s.vd v).hold.grants
  let less (w : Weight) : Weight := { w with grants := w.grants - (held.filter fun g => decide (g.2 = w.num)).length }
  let s := s.onPart fun p => { p with weights := p.weights.map less }
  s.onVd v fun _ => {}

/-- What STOP_INTERFACE_REQUEST keeps of a virtual device: what SLICE_CREATE gave it (R447). -/
def Vd.renewed (d : Vd) : Vd :=
  { d with fe := {}, sp := {}, tdi := .unlocked, removal := none, restored := false, ats := false, pri := false }

/-- A new secret for the slot of a slice on every holder of its layout, at the generation the slot has come to. -/
def State.newSecret (s : State) (v : Nat) : State :=
  let d := s.vd v
  let sites := (d.layout.filter fun x => decide (x / 8 = s.partId)).map fun x => s.siteOf (x % 8)
  let (x, s) := s.drawSecret
  (sites.foldl (fun s i => if i < 8 then s.fillSlot i d.slot v ((s.site i).slotGen d.slot) x else s) s).relist v

/-- Step 7: resources return to the pool, or, for STOP_INTERFACE_REQUEST, the device stands as SLICE_CREATE left it. -/
def State.release (s : State) (v : Nat) (r : Removal) (sites : List Nat) : State :=
  let s := sites.foldl (fun s i => s.bump i rSecScrub Fld.secScrubDone) s
  let ops := r.tag
  let s := if r.why = 1 then
      let s := (s.freePages v).onVd v (·.renewed)
      let s := (s.vd v).hold.units.foldl (fun s u => s.joinUnit v u) s
      if s.unsettled then s else s.newSecret v
    else s.freeSlice v
  match ops with
  | some tag => match s.part.reqs.find? fun m => decide (m.tag = tag) && m.started && decide (m.op = 0x102) with
    | some m => s.reply m stOk
    | none => s
  | none => s

/-- The sites of this part on which a slice holds anything, or its slot. -/
def State.touched (s : State) (v : Nat) : List Nat :=
  (List.range 8).filter fun i => (s.holders v).contains i ||
    (s.vd v).layout.contains (s.partId * 8 + (s.site i).id)

/-- REMOVAL_STEP (R460–R462): the next step of a removal, once the one before has ended on every holder. A slot that STOP
left without a secret gets one as soon as the part is SETTLED (R447). -/
def execRemovalStep (slice : Nat) (s : State) : Host.Outcome State Fault Refusal :=
  .next (
    let d := s.vd slice
    match d.removal with
    | none =>
      if d.live && s.homed slice && (s.holders slice).isEmpty && d.conf && s.keysFlow then s.newSecret slice else s
    | some r =>
      let at' (n : Nat) (s : State) : State := s.onVd slice fun d => { d with removal := some { r with step := n } }
      let hs := s.holders slice
      match r.step with
      | 0 => at' 1 (s.killSlice slice)
      | 1 => at' 2 (hs.foldl (fun s i => s.drainSlot i slice) s)
      | 2 => if hs.all fun i => s.slotQuiet i d.slot then at' 3 s else s
      | 3 => at' 4 (hs.foldl (fun s i => s.destroySlot i d.slot) s)
      | 4 => at' 5 (s.zeroPages slice)
      | 5 => at' 6 (s.clearUnits slice)
      | _ => s.release slice r (s.touched slice))

/-! TDIs and drains (R447) -/

/-- A locked TDI goes to ERROR, and its contexts are killed. -/
def State.tdiError (s : State) (v : Nat) : State :=
  let d := s.vd v
  if d.conf ∧ (d.tdi = .locked ∨ d.tdi = .run) then (s.killSlice v).onVd v fun d => { d with tdi := .error } else s

/-- KEY_DRAIN (R436, R461): the slot drains, with all that R461 lists; a locked TDI goes to ERROR. -/
def execKeyDrain (i slot : Nat) (s : State) : Host.Outcome State Fault Refusal :=
  .next (
    match (s.site i).slot? slot with
    | some k => if !(s.site i).up || decide (k.state ≠ .active) then s else (s.tdiError k.slice).drainSlot i k.slice
    | none => s)

/-- KEY_DESTROY (R433, R436, R461): after the quiesce the secret is erased. The last copy that this part held of a slice
homed elsewhere takes what the slice held here with it. -/
def execKeyDestroy (i slot : Nat) (s : State) : Host.Outcome State Fault Refusal :=
  .next (
    match (s.site i).slot? slot with
    | some k =>
      if !(s.site i).up || decide (k.state ≠ .draining) || !s.slotQuiet i slot then s
      else
        let s := s.destroySlot i slot
        if !s.homed k.slice && (s.holders k.slice).isEmpty then
          ((s.zeroPages k.slice).clearUnits k.slice).freeSlice k.slice
        else s
    | none => s)

end Sys2Proof.Machine
end

