-- ==== Sys2Proof/Machine/Reset.lean ====
section
/-! DEFINITION. Reset domains (R510–R517), hang detection (R518–R520), crash records (R522–R524), escalation (R525, R526)
and spare cores (R528). -/

namespace Sys2Proof.Machine

/-! Domains (R510, R512) -/

/-- The domains that a domain contains. -/
def innerDoms (u : Nat) : List Nat :=
  if u = 6 then [0, 1, 2] else if u = 7 then [3, 4, 5] else if u = 20 then List.range 18 else []

/-- The domains that contain a domain. -/
def outerDoms (u : Nat) : List Nat := (if u < 6 then [6 + u / 3] else []) ++ if u < 18 then [20] else []

/-- A domain is between steps 2 and 6 of R513. -/
def Site.inReset (t : Site) (u : Nat) : Bool := [1, 2, 3].contains (t.domState u)

/-- The next generation tag (R516). -/
def nextTag (g : Nat) : Nat := if g = 255 then 1 else g + 1

/-- What a domain carries beside HLT_DOM. -/
def Site.dom (t : Site) (u : Nat) : Dom := t.watch.doms.getD u {}

/-- Changes it. -/
def State.onDom (s : State) (i u : Nat) (f : Dom → Dom) : State :=
  s.onWatch i fun w => { w with doms := w.doms.modify u f }

/-- Resets of a domain that began within the escalation window that ends now (R525, R538). -/
def Site.recentResets (t : Site) (u : Nat) : List Nat :=
  (t.dom u).starts.filter fun x => decide (t.time < x + t.fld rHltEsc Fld.hltEscWindowS * 1000000000)

/-- A virtual device is affected by a reset between steps 3 and 7 (FE_VD_STATUS.RESETTING). -/
def State.resetting (s : State) (v : Nat) : Bool :=
  s.sites.any fun t => (List.range 21).any fun u => t.inReset u && (t.dom u).vds.contains v

/-! Work in a domain (R366) -/

/-- A command has been issued to an engine of a domain, or has a transfer open through it. -/
def State.worksIn (s : State) (i u v n : Nat) (k : Cmd) : Bool :=
  match s.job? ⟨v, n, k.id⟩ with
  | none => false
  | some j =>
    if decide (k.phase ≠ .issued) || decide (j.i ≠ i) || k.forwarded then false
    else if u < 6 then onCoreEngine k && decide (j.p = u)
    else if u < 8 then
      (onCoreEngine k || decide (j.kind = .router) || decide (j.kind = .reduction)) && decide (j.p / 3 = u - 6)
    else if u = 18 then k.asks.any fun a => decide (a.key < 2 ^ 64)
    else decide (u = 20)

/-- The contexts that a reset of a domain kills: virtual device and context. A host port reset kills every context of
every virtual device on the port (R511). -/
def State.workIn (s : State) (i u : Nat) : List (Nat × Nat) :=
  ((List.range 256).flatMap fun v =>
    let d := s.vd v
    if !d.live then []
    else if u = 18 ∧ s.homed v ∧ d.port = (s.site i).id then ((List.range 256).filterMap d.context).map fun c => (v, c)
    else (List.range 256).flatMap fun n =>
      match d.context n with
      | some c => if (d.stream n).queue.any fun k => s.worksIn i u v n k then [(v, c)] else []
      | none => []).eraseDups

/-! Crash records (R522–R524) -/

/-- The code of an engine that serves a command: 2 in a recorded wait, else 1 (R518, R522). -/
def State.cmdCode (s : State) (c : CmdRef) : Nat :=
  match s.cmd? c, s.job? c with
  | some k, some j =>
    if k.hold.isSome || k.fault.isSome || !k.asks.isEmpty || !k.chainRows.isEmpty || k.saved ||
      (s.site j.i).net.txns.any (fun x => decide (x.cmd = some c)) then 2 else 1
  | _, _ => 1

/-- The highest-ranked of codes: hung, drained, recorded wait, busy, idle (R523). -/
def topCode (l : List Nat) : Nat := ([3, 4, 2, 1].find? l.contains).getD 0

/-- The 27 codes of a core: array, five zoo engines, thirteen vector and eight scalar engines. -/
def State.coreCodes (s : State) (i p : Nat) : List Nat :=
  let c := s.core i p
  let zoo (kind : EngineKind) : Nat := topCode ((c.zoo.filter fun z => decide (z.1 = kind)).map fun z => s.cmdCode z.2.2)
  [topCode (c.array.filterMap fun a => a.map s.cmdCode), zoo .attention, zoo .select, zoo .gatherScatter, zoo .layout,
    zoo .codec] ++
  (c.ves.map fun v => if v.busy then (if v.waiting then 2 else 1) else 0) ++
  c.ses.map fun e => match e.mode with
    | .running => 1
    | .waiting => (match e.wait with | .event .. => 2 | _ => 1)
    | _ => 0

/-- Packs codes of four bits from the low nibble up. -/
def nibbles (n : Nat) (l : List Nat) : Bytes := leBytes n (l.foldr (fun x r => x % 16 + 16 * r) 0)

/-- Code of a copy engine. -/
def State.dmaCodes (s : State) (i : Nat) : List Nat :=
  (s.site i).dma.map fun d => match d with | some c => s.cmdCode c | none => 0

/-- ENGINE_STATUS of a crash record (R523); `hung` names the engine that hung, in the order of the layout. -/
def State.engineStatus (s : State) (i u cause : Nat) (hung : Option Nat) : Bytes :=
  let t := s.site i
  let mark (l : List Nat) : List Nat := match hung with | some n => l.set n 3 | none => l
  let cl (c : Nat) (r : Cluster → List CmdRef) : Nat := topCode ((r (t.cluster c)).map s.cmdCode)
  let sum (p : Nat) : Nat := topCode (s.coreCodes i p)
  let seq (c : Nat) : Nat := if cause = 2 ∧ u = 6 + c then 3 else 0
  if u < 6 then nibbles 24 (mark (s.coreCodes i u))
  else if u < 8 then
    let c := u - 6
    padTo 24 (((List.range 6).map fun p => if p / 3 = c then sum p else 0).map (BitVec.ofNat 8) ++
      ((List.range 2).map fun k => BitVec.ofNat 8 (if k = c then seq c else 0)) ++
      ((List.range 2).map fun k => BitVec.ofNat 8 (if k = c then cl c (·.router) else 0)) ++
      (List.range 2).map fun k => BitVec.ofNat 8 (if k = c then cl c (·.reducer) else 0))
  else if u = 20 then
    ([sum 0, sum 1, sum 2, sum 3, sum 4, sum 5, 0, 0, cl 0 (·.router), cl 1 (·.router), cl 0 (·.reducer), cl 1 (·.reducer),
      if cause = 3 then 3 else 0,
      if s.vds.any (fun d => !d.sp.invals.isEmpty || !d.sp.faults.isEmpty) then 2 else 0,
      if t.moves.any Option.isSome then 1 else 0,
      if t.net.txns.isEmpty then 0 else 2].map (BitVec.ofNat 8)) ++ nibbles 8 (mark (s.dmaCodes i))
  else zeros 24

/-- The 20 bytes of a command entry (R524). -/
def State.crashEntry (s : State) (v n : Nat) (k : Cmd) : Bytes :=
  let d := s.vd v
  let st := if k.saved then 3 else if k.phase = .issued then 2 else if k.phase = .placed ∧ !k.waits.isEmpty then 1 else 0
  leBytes 1 v ++ leBytes 1 n ++ leBytes 2 k.slot ++ leBytes 2 k.op ++ leBytes 2 k.eng.toNat ++ leBytes 1 st ++
  leBytes 1 (d.stream n).unit ++ leBytes 2 (d.ring 0).sqHead ++ leBytes 8 (if k.ext.isEmpty then 0 else fieldAt k.ext 40 8)

/-- Pairs of entries, as continuation records carry them. -/
def pairUp : List Bytes → List Bytes
  | a :: b :: r => (a ++ b) :: pairUp r
  | [a] => [padTo 40 a]
  | [] => []

/-- Escalation never removes the fabric port group, the lead's host port and the lead (R525). -/
def State.neverOut (s : State) (i u : Nat) : Bool := decide (u = 19) || ((decide (u = 18) || decide (u = 20)) && decide (i = s.lead))

/-- The crash record of a reset (R522), queued as an alarm of its instance; CAUSE 6 where the reset is the one that takes
the domain out of service (R525). -/
def State.crashRecord (s : State) (i u cause : Nat) (hung : Option Nat) (ctxs : List (Nat × Nat)) : State :=
  let t := s.site i
  let hit (v n : Nat) : Bool := match (s.vd v).context n with | some c => ctxs.contains (v, c) | none => false
  let vds := (ctxs.map (·.1)).eraseDups
  let streams := vds.flatMap fun v => (List.range 256).filterMap fun n =>
    if hit v n ∧ ((s.vd v).stream n).state ≠ .free then some (v, n) else none
  let cmds := streams.flatMap fun (v, n) => (((s.vd v).stream n).queue.filter fun k => !k.held).map fun k => s.crashEntry v n k
  let killed := streams.filter fun (v, n) => decide (((s.vd v).stream n).state = .active)
  let entries := cmds.take 1024
  let flags := (decide (1024 < cmds.length)).toNat + 4 * ((innerDoms u).any t.inReset).toNat
  let last := decide (t.fld rHltEsc Fld.hltEscLimit ≤ (t.recentResets u).length + 1) && !s.neverOut i u
  let body := leBytes 1 u ++ leBytes 1 (if last then 6 else cause) ++ leBytes 1 (t.gen u) ++ leBytes 1 (nextTag (t.gen u)) ++ leBytes 1 flags ++
    leBytes 1 ((t.recentResets u).length + 1) ++ leBytes 2 entries.length ++ leBytes 2 ctxs.length ++
    leBytes 2 killed.length ++ leBytes 4 vds.length ++ s.engineStatus i u cause hung
  s.report i 0x08 0 body (pairUp entries)

/-- A later cause joins the crash record of a domain while it is still unwritten: CAUSE names it and JOINED is set
(R515). -/
def State.joinCrash (s : State) (i u cause : Nat) : State :=
  let add (r : Rec) : Rec :=
    if r.type = 8 ∧ fieldAt r.body 0 1 = u then
      { r with body := (r.body.set 1 (BitVec.ofNat 8 cause)).set 4 (r.body.getD 4 0 ||| 2) }
    else r
  s.onWatch i fun w => { w with alarms := w.alarms.map add }

/-! Assertion: what a reset clears (R510, step 3 of R513) -/

/-- Registers of a run of offsets take their reset values (R12). -/
def Site.resetRegs (t : Site) (lo hi : Nat) (keepReg : Nat → Bool := fun _ => false) : Site :=
  { t with
    regs := t.regs.filter fun c => decide (c.1 < lo) || decide (hi ≤ c.1) || keepReg c.1
    latch := t.latch.filter fun c => decide (c.1 < lo) || decide (hi ≤ c.1) }

/-- A core reset: engines, scratch, FIFOs, accumulator and engine slots are zeroed; core memory stays. The map and
repair registers come back at step 6 (R87, R125, R126, R193). -/
def Site.resetCore (t : Site) (p : Nat) : Site :=
  let t := (t.wipe p none).onCore p fun c => { c with
    pendQuad := none, units := c.units.map fun u => { u with preempt := none } }
  let map := [rVeMapLo p, rVeMapHi p, rCmemSpare p 0, rCmemSpare p 1, rCmemSpare p 2, rCmemSpare p 3]
  t.resetRegs (coreWindow p) (coreWindow p + 0x100000) map.contains

/-- A cluster reset, its cores apart: windows are disarmed and the cache is invalid; scratch and allotments stay (R175,
R201, R203). -/
def Site.resetCluster (t : Site) (c : Nat) : Site :=
  (t.onCluster c fun k => { k with windows := [], lines := [], router := [], reducer := [], clearing := false }).resetRegs
    (clusterWindow c) (clusterWindow c + 0x100000)

/-- A memory port reset: it trains again; contents, map and metadata stay (R234, R511). A port in M1 goes back there once
trained (R581). -/
def Site.resetPort (t : Site) (p : Nat) : Site :=
  let (lo, n) := portChannels p
  let t := (t.resetRegs (rMpChErr lo) (rMpChErr (lo + n))).resetRegs (rMpTgCtrl lo) (rMpTgCtrl (lo + n))
  let known := t.watch.power.any fun x => decide (x.kind = .memPort) && decide (x.idx = p)
  let t := if t.fld (rMpPort p) Fld.mpPortState = 3 ∧ !known then
      { t with watch := { t.watch with power := ({ kind := .memPort, idx := p, leg := 0, target := 1 } : PowerCmd) :: t.watch.power } }
    else t
  if [2, 3, 5].contains (t.fld (rMpPort p) Fld.mpPortState) then t.setFld (rMpPort p) Fld.mpPortState 1 else t

/-- A die-to-die port reset: the link trains again. -/
def Site.resetD2d (t : Site) (j : Nat) : Site :=
  if t.domState (domD2d j) = 5 then t
  else ((t.resetRegs (rD2dPort j) (rD2dPort j + 4)).setFld (rD2dPort j) Fld.d2dPortState 1)

/-- A fabric port group reset: lane maps, replay buffers, credits, sequence numbers, routing tables and replay windows
are cleared; the links start anew (R313). -/
def Site.resetGroup (t : Site) : Site :=
  let kept := (List.range 8).map fun l => if 9 ≤ t.linkState l then t.linkState l else t.linkStart l
  let t := ((t.resetRegs (rFabLink 0) (rFabLinkErr 0 + 32)).resetRegs (rFabD2dRt 0) (rFabD2dRt 0 + 32)).resetRegs
    (rFabLinkFar 0) (rFabLinkFar 0 + 32)
  let t := t.resetRegs (rFabRtLo 0) (rFabRtLo (2 ^ 14))
  let t := { t with
    links := t.links.map fun k => { disabled := k.disabled }
    net := { t.net with replays := [], flows := [] } }
  kept.zipIdx.foldl (fun t (st, l) => t.setFld (rFabLink l) Fld.fabLinkState st) t

/-- Moves that use a port are abandoned (R245). -/
def Site.onPort (t : Site) (p : Nat) (m : TierMove) : Bool :=
  decide (portOf ((t.tier m.srcSlow).chOf m.src) = p) || decide (portOf ((t.tier m.dstSlow).chOf m.dst) = p)

/-- The front end, MMU, tedder, copy engines and transport of an instance (R301, R419). -/
def Site.resetFront (t : Site) : Site :=
  let t := t.resetRegs 0x200000 0x500000 fun o => decide (o = rTedReserve 0) || decide (o = rTedReserve 1)
  let t := (t.resetRegs rFabMcast (rFabTxn + 4)).resetRegs 0xC00000 0xE00000
  let w := t.watch
  { t with
    dma := t.dma.map fun _ => none
    moveQueue := []
    net := { t.net with mcRuns := [], flows := [] }
    watch := { w with
      acct := []
      budgets := w.budgets.map fun b => { b with used := 0 }
      guards := w.guards.map fun g => { g with misses := 0, last := 0 } } }

/-- The rings and vectors of a virtual device after a reset of its host port: registers at their reset values, nothing
enabled (R511). -/
def FrontEnd.portReset (e : FrontEnd) : FrontEnd :=
  { e with
    rings := List.replicate 64 {}, eq := {}, fq := {}, vectors := List.replicate 32 {}
    cfgErr := false, badDb := false, fetchLost := false, eqLost := false, fqLost := false, fqFull := none, latch := [] }

/-- A host port reset (R446, R447, R496, R511, R595). -/
def State.resetHost (s : State) (i : Nat) : State :=
  let on (v : Nat) : Bool := (s.vd v).live && s.homed v && decide ((s.vd v).port = (s.site i).id)
  let s := ((List.range 256).filter on).foldl (fun s v =>
    (s.tdiError v).onVd v fun d => { d with fe := d.fe.portReset, ats := false, pri := false }) s
  let s := s.onSite i fun t => { t.resetRegs rHifLink (rHifLink + 4) with ide := [], atomicOps := false }
  let s := if i = s.lead then s.onRings fun g => { g with on := false } else s
  s.freeBoxes i 0x01

/-- Resets one domain, those it contains apart. -/
def State.assertDom (s : State) (i u : Nat) : State :=
  if u < 6 then s.onSite i (·.resetCore u)
  else if u < 8 then (s.onSite i (·.resetCluster (u - 6))).freeBoxes i (BitVec.ofNat 8 (0x20 + (u - 6)))
  else if u < 14 then (s.abandonMoves i (Site.onPort (s.site i) (u - 8))).onSite i (·.resetPort (u - 8))
  else if u < 18 then s.onSite i (·.resetD2d (u - 14))
  else if u = 18 then s.resetHost i
  else if u = 19 then s.onSite i (·.resetGroup)
  else if u = 20 then
    let hit (_ : Frame) : Bool := true
    let s := (s.abandonMoves i fun _ => true).dropFrames i hit
    let s := s.onSite i (·.resetFront)
    let here := (List.range 256).filter fun v => (s.vd v).live && s.homed v && decide (s.homeSite v = i)
    here.foldl (fun s v =>
      let s := ((s.vd v).stream 0).queue.foldl (fun s k => s.killCmd ⟨v, 0, k.id⟩) s
      s.onFe v fun e => { e with rings := e.rings.map fun r => { r with fetched := [] } }) s
  else s

/-- A domain resets and its tag advances; one out of service or unwired only stays so (R515, R516). -/
def State.strike (s : State) (i u : Nat) : State :=
  let st := (s.site i).domState u
  if st = 4 ∨ st = 5 then s
  else
    let s := s.setFld i (rHltDom u) Fld.hltDomGen (nextTag ((s.site i).gen u))
    let off := decide (u < 6) && decide ((s.site i).fld (rPwrCore u) Fld.pwrCoreState = 3)
    if off then s else (s.assertDom i u).setFld i (rHltDom u) Fld.hltDomState 2

/-- The type 0x09 record of a domain: 0 begun, 1 ended, 2 out of service (R492). -/
def State.resetRecord (s : State) (i u event : Nat) : State :=
  let t := s.site i
  s.report i 0x09 2 (leBytes 1 u ++ leBytes 1 t.id ++ leBytes 1 event ++ leBytes 1 (t.gen u))

/-- Steps 1 to 4 of R513: the crash record, the new tag, the reset, and the killed contexts. A domain already in reset,
or one contained in such a domain, takes no second reset (R515). -/
def State.resetDomain (s : State) (i u cause : Nat) (hung : Option Nat := none) : State :=
  let t := s.site i
  let st := t.domState u
  if !t.present || decide (20 < u) || decide (st = 4) || decide (st = 5) then s
  else if t.inReset u then s.joinCrash i u cause
  else if (outerDoms u).any t.inReset then s
  else if u < 6 ∧ t.fld (rPwrCore u) Fld.pwrCoreState = 3 then s.strike i u
  else
    let ctxs := s.workIn i u
    let s := s.crashRecord i u cause hung ctxs
    let now := t.time
    let s := s.onDom i u fun d => { d with
      starts := t.recentResets u ++ [now], began := now, vds := (ctxs.map (·.1)).eraseDups }
    let s := s.bump i (rHltDom u) Fld.hltDomResets
    let s := ctxs.foldl (fun s (v, c) => s.killContext v c i) s
    let s := (innerDoms u).foldl (fun s w => s.strike i w) s
    (s.strike i u).resetRecord i u 0

/-- DOMAIN_RESET (R513): a reset of a domain, with its cause as R522 numbers them. -/
def execDomainReset (i u cause : Nat) (s : State) : Host.Outcome State Fault Refusal :=
  .next (if 9 < cause ∨ u = 19 then s else s.resetDomain i u cause)

/-! Release (steps 5 and 6 of R513) -/

/-- Every transaction entry a domain issued has been answered or has reached T_e; an instance also waits out T_e from the
start of its reset (R310, R311). -/
def Site.mayRelease (t : Site) (u : Nat) : Bool :=
  (t.net.txns.all fun x => !(decide (x.dom = u) || (innerDoms u).contains x.dom) || decide (x.born + t.te ≤ t.time)) &&
  (decide (u ≠ 20) || decide ((t.dom 20).began + t.te ≤ t.time))

/-- Failing rows of a core are steered to spares, two a bank (R190, R191). -/
def Core.steer (c : Core) : Core :=
  c.failing.foldl (fun c r =>
    if 2 ≤ (c.steered.filter fun x => decide (x.1 = r.1)).length then c
    else { c with steered := c.steered ++ [r], failing := c.failing.filter (· ≠ r)
                  rowErr := c.rowErr.filter fun e => decide ((e.1, e.2.1) ≠ r) }) c

/-- A domain leaves reset with what it contains (R245, R310, R311, R513). -/
def State.releaseDom (s : State) (i u : Nat) : State :=
  let all := u :: innerDoms u
  let s := all.foldl (fun s w => if (s.site i).domState w = 2 then s.setFld i (rHltDom w) Fld.hltDomState 3 else s) s
  let s := if u = 20 then s.onNet i fun n => { n with txns := [] } else s
  all.foldl (fun s w => if w < 6 then s.onCore i w (·.steer) else s) s

/-- RESET_RELEASE (R245, R310, R311, R513): reset is released, retraining begins and firmware restores what it keeps. -/
def execResetRelease (i u : Nat) (s : State) : Host.Outcome State Fault Refusal :=
  .next (
    let t := s.site i
    if !t.present || decide (t.domState u ≠ 2) || (outerDoms u).any t.inReset || !t.mayRelease u then s
    else s.releaseDom i u)

/-! Spare cores (R21–R26, R528) -/

/-- A core mask of BLK_GRADE. -/
def Site.mask (t : Site) (f : Nat × Nat) (p : Nat) : Bool := (t.fld rBlkGrade f).testBit p

/-- The logical number of a physical core, if it has one. -/
def Site.logical (t : Site) (p : Nat) : Option Nat :=
  (List.range 6).find? fun l => decide (t.fld rBlkCoreMap (4 * l + 3, 4 * l) = 8 + p)

/-- Sets the bit of a core in a mask. -/
def Site.setMask (t : Site) (f : Nat × Nat) (p : Nat) (on : Bool) : Site :=
  let m := t.fld rBlkGrade f
  t.setFld rBlkGrade f (if on then m ||| 2 ^ p else m &&& (63 ^^^ 2 ^ p))

/-- The free spares of a site, in the order R528 takes them for core `p`. -/
def Site.sparesFor (t : Site) (p : Nat) : List Nat :=
  let all := (List.range 6).filter fun k => t.mask Fld.blkGradeSpareMask k
  (all.filter fun k => decide (k / 3 = p / 3)) ++ all.filter fun k => decide (k / 3 ≠ p / 3)

/-- A configuration record is written anew, three copies with rising sequence numbers (R531). -/
def State.rewrite (s : State) (i cls : Nat) : State :=
  let f := (s.site i).flash
  let d := Config.sha384 (leBytes 8 s.free)
  { s with free := s.free + 1 }.onSite i fun t => { t with flash := { f with
    recSeq := f.recSeq.modify (cls - 1) (· + 3), recDigest := f.recDigest.set (cls - 1) d } }

/-- A core leaves GOOD_MASK and the enabled cores. -/
def Site.loseCore (t : Site) (p : Nat) : Site :=
  ((t.setMask Fld.blkGradeGoodMask p false).setMask Fld.blkGradeEnabledMask p false).setMask Fld.blkGradeSpareMask p false

/-- The units of slices on a core. -/
def State.unitsOn (s : State) (i p : Nat) : List (Nat × UnitBind) :=
  (List.range 256).flatMap fun v => ((s.vd v).hold.units.filter fun u =>
    decide (s.unitSite u = some i) && decide (u.core = p)).map fun u => (v, u)

/-- UNIT_UNBIND with FORCE (R431): every context with a stream on the unit is killed, and its streams there are freed. -/
def State.forceUnbind (s : State) (v : Nat) (u : UnitBind) : State :=
  let d := s.vd v
  let ns := (List.range 256).filter fun n => decide (n ≠ 0) && decide ((d.stream n).state ≠ .free) &&
    decide ((d.stream n).unit = u.num)
  let ctxs := (ns.filterMap d.context).eraseDups
  let s := ctxs.foldl (fun s c => s.killContext v c (s.homeSite v)) s
  let s := ns.foldl (fun s n => s.onStream v n fun t => { t with state := .draining, killPending := false }) s
  s.dropUnit v u

/-- An instance is held out of service (R4, R434): it is absent for the part. -/
def State.holdOut (s : State) (i : Nat) : State :=
  let ctxs := s.workIn i 20
  let s := ctxs.foldl (fun s (v, c) => s.killContext v c i) s
  s.onSite i fun t => { t with out := true }

/-- A core's logical number is left vacant and RUN_GRADE falls; below four the instance is held out of service (R23). -/
def State.vacate (s : State) (i p : Nat) : State :=
  let s := (s.unitsOn i p).foldl (fun s (v, u) => s.forceUnbind v u) s
  let s := match (s.site i).logical p with
    | some l => s.setFld i rBlkCoreMap (4 * l + 3, 4 * l) 0
    | none => s
  let g := (s.site i).fld rBlkGrade Fld.blkGradeRunGrade - 1
  let s := s.setFld i rBlkGrade Fld.blkGradeRunGrade g
  if g < 4 then s.holdOut i else s

/-- A core leaves service (R526): its units go to a spare at SPARE_BRING_IN, or, with none free, they are unbound. -/
def State.coreOut (s : State) (i p : Nat) : State :=
  let enabled := (s.site i).mask Fld.blkGradeEnabledMask p
  let s := (s.onSite i (·.loseCore p)).rewrite i 2
  if enabled ∧ ((s.site i).sparesFor p).isEmpty then s.vacate i p else s

/-- A unit's engine state, core memory and images move to another core, which leaves the old place zeroed (steps 4 and 5 of
R432, R528). -/
def State.carryUnit (s : State) (i p : Nat) (q : Option Nat) (i' p' : Nat) (q' : Option Nat) (v : Nat) : State :=
  let u := (s.core i p).unit q
  let m := match u.images.find? fun m => decide (m.slice = v) with
    | some m => m
    | none => (s.site i).grab p q v (s.site i).time
  let s := s.onUnit i' p' q' fun x => { x with images := m :: x.images.filter fun y => decide (y.slice ≠ v) }
  s.leaveGroup i p q v

/-- A spare takes the place of a core: number, mode, groups and unit contents (steps 2 to 4 of R528). -/
def State.takePlace (s : State) (i p k : Nat) : State :=
  let c := s.core i p
  let s : State := match (s.site i).logical p with
    | some l => s.setFld i rBlkCoreMap (4 * l + 3, 4 * l) (8 + k)
    | none => s
  let s : State := s.onSite i fun t => ((t.setMask Fld.blkGradeSpareMask k false).setMask Fld.blkGradeEnabledMask k true).setMask
    Fld.blkGradeEnabledMask p false
  let s : State := s.onCore i k fun d => { d with
    quad := c.quad, cmem := c.cmem, poison := c.poison, units := c.units, ves := d.ves.map fun v => ({ offline := v.offline } : Ve) }
  let s : State := s.onCore i p fun d => { d with units := List.replicate 4 {}, cmem := [], poison := [] }
  let on : BitVec 16 := BitVec.ofNat 16 (2 ^ k + 2 ^ (k + 6))
  let s : State := s.onPins i fun x => { x with pswEn := x.pswEn ||| on, pswAck := x.pswAck ||| on }
  let here (u : UnitBind) : Bool := decide (s.unitSite u = some i) && decide (u.core = p)
  let move (d : Vd) : Vd := { d with hold := { d.hold with
    units := d.hold.units.map fun u => if here u then { u with core := k } else u } }
  ({ s with vds := s.vds.map move }.setFld i (rPwrCore k) Fld.pwrCoreState 0).rewrite i 2

/-- A core that escalation removed and whose logical number still waits for a spare. -/
def Site.awaitsSpare (t : Site) (p : Nat) : Bool :=
  (t.logical p).isSome && !t.mask Fld.blkGradeGoodMask p

/-- SPARE_BRING_IN (R528): the next spare is brought in for a core that left service; one that fails BIST leaves
GOOD_MASK, and with no spare left the core's number is vacant. -/
def execSpareBringIn (i core : Nat) (bistOk : Bool) (s : State) : Host.Outcome State Fault Refusal :=
  .next (
    let t := s.site i
    if !t.up || !t.awaitsSpare core then s
    else match t.sparesFor core with
      | [] => s.vacate i core
      | k :: rest =>
        if bistOk then s.takePlace i core k
        else
          let s := s.onSite i (·.loseCore k)
          if rest.isEmpty then s.vacate i core else s)

/-! Step 7 and escalation (R513, R525, R526) -/

/-- Channels of a memory port leave service (R249, R526). -/
def State.portOut (s : State) (i p : Nat) : State :=
  let t := s.site i
  let (lo, n) := portChannels p
  let lost := (List.range n).map (lo + ·) |>.filter t.chServes
  let s := lost.foldl (fun s c => (s.setFld i (rMpCh c) Fld.mpChState 3).channelLost i c 5) s
  s.onSite i (·.setPort p 5 4)

/-- What a domain out of service takes with it (R526). -/
def State.takeOut (s : State) (i u : Nat) : State :=
  let s := s.setFld i (rHltDom u) Fld.hltDomState 4
  if u < 6 then s.coreOut i u
  else if u < 8 then ([0, 1, 2].map (· + 3 * (u - 6))).foldl (fun s p => (s.setFld i (rHltDom p) Fld.hltDomState 4).coreOut i p) s
  else if u < 14 then s.portOut i (u - 8)
  else if u < 18 then s.setD2d i (u - 14) 4 0 (s.fld i (rD2dPort (u - 14)) Fld.d2dPortPeer)
  else if u = 18 then
    (s.workIn i 18).foldl (fun s (v, c) => s.killContext v c i) s
  else s.holdOut i

/-- The retraining of step 6 is over. -/
def Site.retrained (t : Site) (u : Nat) : Bool :=
  (u :: innerDoms u).all fun w =>
    if 8 ≤ w ∧ w < 14 then decide (t.fld (rMpPort (w - 8)) Fld.mpPortState ≠ 1)
    else if 14 ≤ w ∧ w < 18 then decide (t.domState w = 5) || decide (t.fld (rD2dPort (w - 14)) Fld.d2dPortState ≠ 1)
    else true

/-- The HIF link of a port that comes out of reset: with PERST high it trains, to a rate and width that the link settles
(free values); it answers with retry status until start-up ends (R548, R582, R592). -/
def State.hostLink (s : State) (i : Nat) : State :=
  let t := s.site i
  if !t.pins.perstN then
    (s.onSite i (·.resetRegs rHifLink (rHifLink + 4))).setFld i rHifLink Fld.hifLinkPerst 1
  else
    let (f, s) := s.draw
    let s := (s.setFld i rHifLink Fld.hifLinkPerst 0).setFld i rHifLink Fld.hifLinkState
      (if t.fld rPwrBoot Fld.pwrBootStep = 9 then 3 else 2)
    (s.setFld i rHifLink Fld.hifLinkRate (f.toNat % 6)).setFld i rHifLink Fld.hifLinkWidth (2 ^ (f.toNat / 8 % 5))

/-- A management request that waited for a reset replies (R480, R485). -/
def State.resetReply (s : State) (i u : Nat) (st : W16) : State :=
  let id := (s.site i).id
  let named (b : Bytes) : Bool :=
    let n := fieldAt b 10 1
    let w := match fieldAt b 9 1 with
      | 0 => n | 1 => 6 + n | 2 => 8 + n | 3 => 14 + n | 4 => 18 | _ => 20
    decide (fieldAt b 8 1 = id) && decide (w = u)
  let s := s.answer 0x301 named st
  if u = 20 then
    let st := if st = stOk ∧ (s.site i).flash.fellBack then stFwFallback else st
    (s.onSite i fun t => { t with flash := { t.flash with fellBack := false } }).answer 0x402 (fun b => decide (fieldAt b 8 1 = id)) st
  else if u = 19 then s.answer 0x702 (fun b => decide (fieldAt b 8 1 = id)) st else s

/-- A domain is up again with what it contains, or goes out of service: too many resets within the escalation window, or
a bank beyond repair (R513, R525, R526). -/
def State.domUps (s : State) (i u : Nat) : State :=
  let t := s.site i
  let all := u :: innerDoms u
  let s := all.foldl (fun s w => if (s.site i).domState w = 3 then s.setFld i (rHltDom w) Fld.hltDomState 0 else s) s
  let s := s.onDom i u fun d => { d with vds := [] }
  let s := if u = 18 then s.hostLink i else s
  let limit := decide (t.fld rHltEsc Fld.hltEscLimit ≤ (t.recentResets u).length)
  let broken := decide (u < 6) && !(s.core i u).failing.isEmpty
  if (limit || broken) && !s.neverOut i u then
    ((s.takeOut i u).resetRecord i u 2).resetReply i u (if u = 20 then stAbsent else stOk)
  else
    let s := if limit then s.report i 0x0C 0 (leBytes 1 6 ++ leBytes 1 u) else s
    ((s.resetRecord i u 1).resetReply i u stOk).flushReplies

/-- DOMAIN_UP (R513, R525, R526): the domain reads up, its reset-ended record goes out and escalation counts it; the
domain that reaches the limit, or a core with a bank beyond repair (R191), leaves service. -/
def execDomainUp (i u : Nat) (s : State) : Host.Outcome State Fault Refusal :=
  .next (
    let t := s.site i
    if !t.present || decide (t.domState u ≠ 3) || (outerDoms u).any t.inReset || !t.retrained u then s
    else s.domUps i u)

/-! Hangs and misses (R518–R520) -/

/-- HANG (R518): the counter of a busy engine that is in no recorded wait stood still; its report is raised and firmware
resets the core, or the instance of a copy engine. Engines are numbered as R523 lays them out. -/
def execHang (i core : Nat) (dma : Bool) (engine : Nat) (s : State) : Host.Outcome State Fault Refusal :=
  .next (
    if dma then
      if (s.site i).up ∧ (s.dmaCodes i).getD engine 0 = 1 then
        (s.raiseSrc i 0x84).resetDomain i 20 9 (some engine)
      else s
    else if (s.site i).coreRuns core ∧ core < 6 ∧ (s.coreCodes i core).getD engine 0 = 1 then
      (s.raiseSrc i (0x68 + core)).resetDomain i core 1 (some engine)
    else s)

/-- SEQUENCER_REPORT_MISS (R519). -/
def execSequencerReportMiss (i cl : Nat) (s : State) : Host.Outcome State Fault Refusal :=
  .next (if (s.site i).up ∧ cl < 2 ∧ (s.site i).domUp (domCluster cl) then
      (s.raiseSrc i (0x6E + cl)).resetDomain i (domCluster cl) 2
    else s)

/-- HEARTBEAT_MISS (R519). -/
def execHeartbeatMiss (i : Nat) (s : State) : Host.Outcome State Fault Refusal :=
  .next (if (s.site i).up then (s.raiseSrc i 0x67).resetDomain i 20 3 else s)

/-- FAULT_N is asserted, and ALERT_N with it (R520, R562). -/
def State.assertFault (s : State) (i : Nat) : State := s.onPins i fun p => { p with faultN := false, alertN := false }

/-- WATCHDOG_EXPIRY (R520): only the lead's asserts FAULT_N. -/
def execWatchdogExpiry (i proc : Nat) (s : State) : Host.Outcome State Fault Refusal :=
  .next (if (s.site i).managed ∧ proc < 4 ∧ s.part.lead = some i then s.assertFault i else s)

/-- The record of an instance that has become absent (R492, R520, R583). -/
def State.absentRecord (s : State) (id : Nat) : State :=
  s.report s.lead 0x09 2 (leBytes 1 20 ++ leBytes 1 id ++ leBytes 1 3 ++ leBytes 1 0)

/-- SIBLING_HEARTBEAT_MISS (R520): the lead treats the sibling as absent. -/
def execSiblingHeartbeatMiss (i : Nat) (s : State) : Host.Outcome State Fault Refusal :=
  .next (if s.part.lead.isNone ∨ i = s.lead ∨ (s.site i).absent ∨ !(s.site i).managed then s
    else (s.onSite i fun t => { t with absent := true }).absentRecord (s.site i).id)

/-- DRAIN_FAILURE (R87, R126, R386): a drain that does not end within 1 ms resets the core. -/
def execDrainFailure (i core : Nat) (s : State) : Host.Outcome State Fault Refusal :=
  .next (if core < 6 then s.resetDomain i core 4 else s)

end Sys2Proof.Machine
end

