-- ==== Sys2Proof/Machine/Attest.lean ====
section
/-! DEFINITION. Attestation (R448–R454), the IDE streams and TDISP of the host link (R446, R447), and configuration
requests and resets of the host port (R496, R547, R548, R595). -/

namespace Sys2Proof.Machine

/-! What the part says of itself -/

/-- The 48 bytes of a digest. -/
def digestBytes (d : BitVec 384) : Bytes := leBytes 48 d.toNat

/-- The present instances of the part, in id order: a sibling in instance reset is not among them (R39). -/
def State.presentSites (s : State) : List Site := (List.range 8).filterMap fun n => s.upSites.find? fun t => decide (t.id = n)

/-- PRESENT of measurement 0x30. -/
def State.presentMask (s : State) : Nat := (s.presentSites.map fun t => 2 ^ t.id).foldl (· + ·) 0

/-- ABSENT of measurement 0x30: powered instances and members of the settled part that are not present (R3, R451). -/
def State.absentMask (s : State) : Nat :=
  let known := ((s.sites.filter fun t => t.pins.coldRstN).map (·.id)) ++ s.part.members
  ((known.eraseDups.filter fun n => !s.presentMask.testBit n).map (2 ^ ·)).foldl (· + ·) 0

/-- STATE, FLAGS, PRESENT and ABSENT (R451, R454). -/
def State.stateByte (s : State) : Nat := s.unsettled.toNat

/-- SHA-384 of the identity public key of an instance. -/
def Site.idHash (t : Site) : BitVec 384 := Config.sha384 (digestBytes t.idKey)

/-- Digest of the image staged on an instance, zero when none is. -/
def Site.pendingDigest (t : Site) : BitVec 384 :=
  if t.flash.pending then t.flash.digest.getD (1 - t.fld rPwrBoot Fld.pwrBootBank) 0 else 0

/-- Measurement 0x20 + n: the winning copies of the three records, an unused class as 48 zero bytes (R530). -/
def Site.configDigest (t : Site) : BitVec 384 :=
  Config.sha384 ((List.range 3).flatMap fun r =>
    if t.fld (rHltCfgrec r) Fld.hltCfgrecState = 1 then digestBytes (t.flash.recDigest.getD r 0) else zeros 48)

/-- What the alias key of an instance is derived from (R449). -/
def Site.aliasSeed (t : Site) : Bytes :=
  digestBytes t.idKey ++ digestBytes Config.romDigest ++ digestBytes t.running ++
  leBytes 1 (t.fld rSecState Fld.secStateSvn)

/-- A signature made with the lead's alias key (R449). -/
def State.sign (s : State) (b : Bytes) : Bytes := leBytes 96 (Config.ecdsaP384 ((s.site s.lead).aliasSeed ++ b)).toNat

/-- The value of a measurement index, with its DMTF value type; none for an index that R451 does not list or whose
instance is absent. -/
def State.measure (s : State) (index : Nat) : Option (Nat × Bytes) :=
  let site (n : Nat) : Option Site := s.presentSites.find? fun t => decide (t.id = n)
  if index = 1 then some (0x00, digestBytes Config.romDigest)
  else if index = 2 then some (0x87, (List.range 8).flatMap fun n =>
    leBytes 1 (((site n).map fun t => t.fld rSecState Fld.secStateSvn).getD 0))
  else if 0x10 ≤ index ∧ index < 0x18 then (site (index - 0x10)).map fun t => (0x01, digestBytes t.running)
  else if 0x18 ≤ index ∧ index < 0x20 then (site (index - 0x18)).map fun t => (0x01, digestBytes t.pendingDigest)
  else if 0x20 ≤ index ∧ index < 0x28 then (site (index - 0x20)).map fun t => (0x03, digestBytes t.configDigest)
  else if index = 0x30 then some (0x83,
    leBytes 1 s.stateByte ++ leBytes 1 (Bool.toNat s.part.debug) ++ leBytes 1 s.presentMask ++ leBytes 1 s.absentMask ++
    leBytes 2 s.partId ++ s.presentSites.flatMap fun t => digestBytes t.idHash)
  else none

/-- A measurement block in the DMTF format: index, specification, size, value type, value size, value. -/
def blockBytes (index type : Nat) (v : Bytes) : Bytes :=
  leBytes 1 index ++ [1] ++ leBytes 2 (v.length + 3) ++ leBytes 1 type ++ leBytes 2 v.length ++ v

/-- The blocks that GET_MEASUREMENTS of an index returns: 0xFF names every block. -/
def State.blocks (s : State) (index : Nat) : List Bytes :=
  let all := (List.range 0x31).filter fun n => decide (index = 0xFF) || decide (n = index)
  all.filterMap fun n => (s.measure n).map fun x => blockBytes n x.1 x.2

/-- The entry of a unit in a slice report: KIND 0 for a whole core, 1 for a quarter-core. -/
def Vd.unitEntry (d : Vd) (u : UnitBind) : Bytes :=
  leBytes 1 u.quad.isSome.toNat ++ leBytes 1 (d.partIdx u.part) ++ leBytes 2 u.part ++ leBytes 1 u.inst ++
  leBytes 1 u.core ++ leBytes 1 (u.quad.getD 0xFF) ++ leBytes 1 u.reel.toNat

/-- The slice report of R454, its signature included. -/
def State.sliceReport (s : State) (v : Nat) (nonce : Bytes) : Bytes :=
  let d := s.vd v
  let hash (l : List (BitVec 384)) : Bytes := digestBytes (Config.sha384 (l.flatMap digestBytes))
  let ps := s.presentSites
  let pend := ps.map (·.pendingDigest)
  let flags := Bool.toNat s.part.debug + 2 * (decide (d.tdi = .run)).toNat + 4 * d.restored.toNat
  let grants := d.hold.grants.filterMap fun (g, n) => (s.part.weights.find? fun w => decide (w.num = n)).map fun w =>
    leBytes 1 g ++ [0] ++ leBytes 2 n ++ digestBytes w.digest
  let body := leBytes 2 1 ++ leBytes 1 s.stateByte ++ leBytes 1 flags ++ leBytes 2 s.partId ++ leBytes 1 s.presentMask ++
    leBytes 1 s.absentMask ++ leBytes 1 v ++ leBytes 1 v ++ leBytes 2 grants.length ++ padTo 32 nonce ++
    hash (ps.map (·.running)) ++ (if pend.all (· == 0) then zeros 48 else hash pend) ++ hash (ps.map (·.configDigest)) ++
    digestBytes (s.site s.lead).idHash ++
    (leBytes 1 d.noelaver.toNat ++ leBytes 1 d.refcount.toNat ++ leBytes 1 d.conf.toNat ++ leBytes 1 d.hold.units.length) ++
    d.hold.units.flatMap d.unitEntry ++ grants.flatten
  body ++ s.sign body

/-! SPDM (R450–R454) -/

/-- The lead answers SPDM and TDISP requests: in whatever state, so long as it works at all (R453). -/
def State.answers (s : State) : Bool := match s.part.lead with | some i => (s.site i).managed | none => false

/-- An SPDM ERROR response. -/
def State.spdmError (s : State) (code : Nat) : State := s.emit (.spdm 0x7F (leBytes 1 code))

/-- GET_MEASUREMENTS (R451, R453): the signed blocks; an index of no block answers an error. -/
def execGetMeasurements (index : Nat) (s : State) : Host.Outcome State Fault Refusal :=
  .next (
    if !s.answers then s
    else match s.blocks index with
      | [] => s.spdmError 0x01
      | l =>
        let body := leBytes 1 l.length ++ leBytes 3 l.flatten.length ++ l.flatten
        s.emit (.spdm 0x60 (body ++ s.sign body)))

/-- SLICE_REPORT (R454). -/
def execSliceReport (vd : Nat) (nonce : Bytes) (s : State) : Host.Outcome State Fault Refusal :=
  .next (
    if !s.answers then s
    else if !(s.vd vd).live || !s.homed vd || decide (nonce.length ≠ 32) then s.spdmError 0x01
    else s.emit (.spdm 0x7E (s.sliceReport vd nonce)))

/-- The requests of SPDM 1.3 that the capabilities of R450 name, PSK, SET_CERTIFICATE and GET_CSR left out. -/
def spdmSupported : List Nat :=
  [0x81, 0x82, 0x83, 0x84, 0x85, 0x86, 0xE1, 0xE3, 0xE4, 0xE5, 0xE8, 0xE9, 0xEA, 0xEB, 0xEC, 0xFF]

/-- SPDM_REQUEST (R450, R453): answered at once, with the response of its code or an unsupported-request error; what a
response of the SPDM standard carries is a free value here. -/
def execSpdmRequest (code : Byte) (s : State) : Host.Outcome State Fault Refusal :=
  .next (
    if !s.answers then s
    else if spdmSupported.contains code.toNat then
      let (f, s) := s.draw
      s.emit (.spdm (code.toNat - 0x80) (leBytes 8 f.toNat))
    else s.spdmError 0x07)

/-! IDE (R446) -/

/-- An IDE stream of a site. -/
def Site.ide? (t : Site) (n : Nat) : Option Ide := t.ide.find? fun x => decide (x.stream = n)

/-- A virtual device's IDE stream is secure. -/
def State.ideSecure (s : State) (v : Nat) : Bool :=
  ((s.site (s.siteOf (s.vd v).port)).ide? (s.vd v).ideStream).any (·.secure)

/-- A key of an IDE stream's key set is programmed: the stream is secure once one set has both directions (R446). -/
def Site.setIdeKey (t : Site) (stream keyset : Nat) (rx : Bool) : Site :=
  let x := (t.ide? stream).getD ⟨stream, 0, 0, false⟩
  let bit := BitVec.ofNat 2 (2 ^ keyset)
  let x := if rx then { x with rxKeys := x.rxKeys ||| bit } else { x with txKeys := x.txKeys ||| bit }
  let x := { x with secure := decide (x.rxKeys &&& x.txKeys ≠ 0) }
  { t with ide := x :: t.ide.filter fun y => decide (y.stream ≠ stream) }

/-- IDE_KM (R446): a key set of a selective stream gets its key in one direction; a stream with one key set held in both
directions is secure. -/
def execIdeKm (i stream keyset : Nat) (rx : Bool) (s : State) : Host.Outcome State Fault Refusal :=
  .next (
    let t := s.site i
    if !s.answers || !t.managed || !t.domUp 18 || decide (t.fld rHifLink Fld.hifLinkState < 2) then s
    else if 16 ≤ stream ∨ 2 ≤ keyset then s.spdmError 0x01
    else (s.onSite i (·.setIdeKey stream keyset rx)).emit
      (.spdm 0x7E (leBytes 1 stream ++ leBytes 1 keyset ++ leBytes 1 rx.toNat)))

/-- The virtual devices homed here on the host port of a site. -/
def State.vdsOn (s : State) (i : Nat) : List Nat :=
  (List.range 256).filter fun v => (s.vd v).live && s.homed v && decide ((s.vd v).port = (s.site i).id)

/-- IDE_STREAM_LOSS (R446, R447): the stream leaves the secure state, and its locked TDIs go to ERROR. -/
def execIdeStreamLoss (i stream : Nat) (s : State) : Host.Outcome State Fault Refusal :=
  .next (
    match (s.site i).ide? stream with
    | none => s
    | some x =>
      let s := s.onSite i fun t => { t with
        ide := { x with rxKeys := 0, txKeys := 0, secure := false } :: t.ide.filter fun y => decide (y.stream ≠ stream) }
      (s.vdsOn i).foldl (fun s v => if (s.vd v).ideStream = stream then s.tdiError v else s) s)

/-! TDISP (R447) -/

/-- A TDISP request reaches a TDI: its port's source 0x066 is raised, and the body runs; a virtual device that is no TDI
answers an error. -/
def State.tdisp (s : State) (v : Nat) (body : State → State) : State :=
  if !s.answers then s
  else
    let s := s.raiseSrc (s.siteOf (s.vd v).port) 0x66
    if !(s.vd v).live || !(s.vd v).conf || !s.homed v then s.spdmError 0x01 else body s

/-- A TDISP response. -/
def State.tdispReply (s : State) (code v : Nat) (b : Bytes) : State := s.emit (.spdm 0x7E (leBytes 1 code ++ leBytes 1 v ++ b))

/-- A TDISP error: the TDI is not in a state that the request can be carried out in. -/
def State.tdispWrong (s : State) (v : Nat) : State := s.tdispReply 0x7F v (leBytes 2 4)

/-- The code of a TDI state (R474). -/
def Tdi.code : Tdi → Nat
  | .unlocked => 0
  | .locked => 1
  | .run => 2
  | .error => 3

/-- GET_TDISP_VERSION: version 1.0. -/
def execGetTdispVersion (vd : Nat) (s : State) : Host.Outcome State Fault Refusal :=
  .next (s.tdisp vd fun s => s.tdispReply 0x01 vd [0x10])

/-- GET_TDISP_CAPABILITIES: the requests of R447. -/
def execGetTdispCapabilities (vd : Nat) (s : State) : Host.Outcome State Fault Refusal :=
  .next (s.tdisp vd fun s => s.tdispReply 0x02 vd (leBytes 1 0x7F))

/-- LOCK_INTERFACE_REQUEST: an unlocked TDI is locked onto a secure IDE stream of its port. -/
def execLockInterfaceRequest (vd stream : Nat) (s : State) : Host.Outcome State Fault Refusal :=
  .next (s.tdisp vd fun s =>
    let secure := ((s.site (s.siteOf (s.vd vd).port)).ide? stream).any (·.secure)
    if (s.vd vd).tdi = .unlocked ∧ secure ∧ (s.vd vd).removal.isNone then
      (s.onVd vd fun d => { d with tdi := .locked, ideStream := stream }).tdispReply 0x03 vd (leBytes 1 stream)
    else s.tdispWrong vd)

/-- The device interface report: VF BAR0 and VF BAR2 as TEE-accessible MMIO in 4 KiB pages, and a locked MSI-X table. -/
def interfaceReport : Bytes := leBytes 4 2 ++ leBytes 4 16 ++ leBytes 4 64 ++ [1]

/-- GET_DEVICE_INTERFACE_REPORT: of a TDI that is locked or runs. -/
def execGetDeviceInterfaceReport (vd : Nat) (s : State) : Host.Outcome State Fault Refusal :=
  .next (s.tdisp vd fun s =>
    if (s.vd vd).tdi = .locked ∨ (s.vd vd).tdi = .run then s.tdispReply 0x04 vd interfaceReport else s.tdispWrong vd)

/-- GET_DEVICE_INTERFACE_STATE. -/
def execGetDeviceInterfaceState (vd : Nat) (s : State) : Host.Outcome State Fault Refusal :=
  .next (s.tdisp vd fun s => s.tdispReply 0x05 vd (leBytes 1 (s.vd vd).tdi.code))

/-- START_INTERFACE_REQUEST: a locked TDI runs. -/
def execStartInterfaceRequest (vd : Nat) (s : State) : Host.Outcome State Fault Refusal :=
  .next (s.tdisp vd fun s =>
    if (s.vd vd).tdi = .locked then (s.onVd vd fun d => { d with tdi := .run }).tdispReply 0x06 vd []
    else s.tdispWrong vd)

/-- STOP_INTERFACE_REQUEST: the removal of R460, steps 1 to 6, which REMOVAL_STEP carries on. -/
def execStopInterfaceRequest (vd : Nat) (s : State) : Host.Outcome State Fault Refusal :=
  .next (s.tdisp vd fun s =>
    if (s.vd vd).removal.isSome then s
    else (s.onVd vd fun d => { d with removal := some ⟨0, 1, none⟩ }).tdispReply 0x07 vd [])

/-! The host port (R496, R547, R548, R595) -/

/-- The virtual device of a function of a host port. -/
def State.vdOf (s : State) (i fn : Nat) : Option Nat := (s.vdsOn i).find? fun v => decide ((s.vd v).vf = fn)

/-- A change of a TDI's configuration takes it to ERROR once it is locked (R447). -/
def State.configured (s : State) (v : Nat) (changes : Bool) (f : Vd → Vd) : State :=
  let s := if changes then s.tdiError v else s
  s.onVd v f

/-- CONFIGURATION_REQUEST (R382, R447, R548, R595): retry status until start-up ends or while no lead stands, then the
register's value (a free value: the spec gives the space no layout) or the write; function 0 is the PF. -/
def execConfigurationRequest (i fn : Nat) (r : CfgReq) (s : State) : Host.Outcome State Fault Refusal :=
  .next (
    let t := s.site i
    let st := t.fld rHifLink Fld.hifLinkState
    if !t.managed || !t.pins.perstN || !t.domUp 18 || decide (st < 2) then s
    else if st = 2 ∨ s.part.lead.isNone then s.emit (.cfgReply i fn true 0)
    else
      let done (s : State) : State := s.emit (.cfgReply i fn false 0)
      match r, fn, s.vdOf i fn with
      | .read _, _, _ =>
        let (f, s) := s.draw
        s.emit (.cfgReply i fn false (f.truncate 32))
      | .atomicOpEnable on, 0, _ => done (s.onSite i fun t => { t with atomicOps := on })
      | .atsEnable on, _, some v => done (s.configured v ((s.vd v).ats != on) fun d => { d with ats := on })
      | .priEnable on, _, some v => done (s.configured v ((s.vd v).pri != on) fun d => { d with pri := on })
      | .barOrMsix _, _, some v => done (s.configured v true id)
      | _, _, _ => done s)

/-- A function-level reset of a virtual function: its contexts are killed and its registers take their reset values; a
locked TDI goes to ERROR, as at any change of its configuration (R447). -/
def State.flr (s : State) (v : Nat) : State :=
  let s := if (s.vd v).tdi = .locked ∨ (s.vd v).tdi = .run then s.tdiError v else s.killSlice v
  s.onVd v fun d => { d with fe := d.fe.portReset, ats := false, pri := false }

/-- FUNCTION_LEVEL_RESET (R496, R549): of a virtual function, or of the PF, which takes its virtual functions, the
management rings and AtomicOp Requester Enable with it and frees the PF's mailboxes. -/
def execFunctionLevelReset (i fn : Nat) (s : State) : Host.Outcome State Fault Refusal :=
  .next (
    let t := s.site i
    if !t.managed || !t.domUp 18 || decide (t.fld rHifLink Fld.hifLinkState < 2) then s
    else if fn = 0 then
      let s := (s.vdsOn i).foldl (fun s v => s.flr v) s
      let s := s.onSite i fun t => { t with atomicOps := false }
      let s := if s.part.lead = some i then s.onRings fun g => { g with on := false } else s
      s.freeBoxes i 0x01
    else match s.vdOf i fn with
      | some v => s.flr v
      | none => s)

/-- A reset of a host port domain that its link starts: R522 lists no cause for it, so CAUSE is a free value. -/
def State.resetLink (s : State) (i : Nat) : State :=
  let (f, s) := s.draw
  s.resetDomain i 18 (f.toNat % 10)

/-- HIP_PERST_N (R547, R548, R582): low resets the host port domain; a rise trains the link, at once or as the domain
comes up. -/
def execHipPerstN (i : Nat) (level : Bool) (s : State) : Host.Outcome State Fault Refusal :=
  .next (
    let t := s.site i
    if !t.managed then s.onPins i fun p => { p with perstN := level }
    else if t.pins.perstN = level then s
    else if level then
      let s := s.onPins i fun p => { p with perstN := true }
      if t.domUp 18 then s.hostLink i else s.setFld i rHifLink Fld.hifLinkPerst 0
    else ((s.onPins i fun p => { p with perstN := false }).resetLink i).setFld i rHifLink Fld.hifLinkPerst 1)

/-- HOT_RESET (R496, R511): the host port domain is reset and the PF's mailboxes are freed. -/
def execHotReset (i : Nat) (s : State) : Host.Outcome State Fault Refusal :=
  .next (
    let t := s.site i
    if !t.managed || !t.domUp 18 || decide (t.fld rHifLink Fld.hifLinkState = 0) then s
    else (s.resetLink i).freeBoxes i 0x01)

end Sys2Proof.Machine
end

