-- ==== Sys2Proof/Machine/Manage.lean ====
section
/-! DEFINITION. What every management command shares: the order of requests and their checks (R479, R480, R483, R484), and
how a slice takes and leaves units, pages and cluster memory (R200, R399–R403, R430–R433, R487). -/

namespace Sys2Proof.Machine

/-! The run of a command -/

/-- What a command comes to: a failure without effect; an end with a status and a result; a start whose end comes later;
or nothing yet. -/
inductive MEnd where
  | fail (st : W16) (result : Bytes)
  | done (s : State) (st : W16) (result : Bytes)
  | later (s : State)
  | wait

/-- A command that ends OK. -/
def okWith (s : State) (result : Bytes := []) : MEnd := .done s stOk result

/-- A command that fails without a result. -/
def failWith (st : W16) : MEnd := .fail st []

/-- The slice that a request names (R479). -/
def MReq.slice? (r : MReq) : Option Nat :=
  let op := r.op.toNat
  let named := (decide (op / 256 = 1) && !([0x101, 0x108, 0x10E] : List Nat).contains op) || (decide (op / 256 = 9) && decide (op ≠ 0x904)) ||
    [0x503, 0x601, 0x608, 0x609].contains op
  if named then some (fieldAt r.pkt 8 1) else none

/-- The instance that a request of the firmware family names. -/
def MReq.fw? (r : MReq) : Option Nat := if r.op.toNat / 256 = 4 then some (fieldAt r.pkt 8 1) else none

/-- A request taken earlier and not yet answered names the same slice, or the same instance in the firmware family; a
later one waits for it (R479). Every request waits while the lead activates (R488). -/
def State.behind (s : State) (r : MReq) : Bool :=
  s.activating || (s.part.reqs.takeWhile fun x => decide (x ≠ r)).any fun x =>
    (x.slice?.isSome && x.slice? == r.slice?) || (x.fw?.isSome && x.fw? == r.fw?)

/-- The request that a row runs. -/
def State.mreq? (s : State) (m : MgmtRun) (op : Nat) : Option MReq :=
  s.part.reqs.find? fun r => decide (r.tag = m.tag) && decide (r.op.toNat = op)

/-- Runs a management command: step 3 of R483, then the command's own checks and effect; `bad` says whether a reserved bit
is set or a field is out of its range. A command that has started is carried on. -/
def mgmtRow (m : MgmtRun) (op : Nat) (s : State) (bad : Bytes → Bool) (body : MReq → MEnd) :
    Host.Outcome State Fault Refusal :=
  .next (
    match s.mreq? m op with
    | none => s
    | some r =>
      if !s.answers || s.behind r then s
      else if !r.started && bad r.pkt then s.reply r stMalformed
      else match body r with
        | .fail st b => s.reply r st b
        | .done t st b => t.reply r st b
        | .later t => t.begin r
        | .wait => s)

/-- Bytes from `n` up are not all zero. -/
def dirtyFrom (b : Bytes) (n : Nat) : Bool := anySet (b.drop n)

/-- A run of bytes is not all zero. -/
def dirtyAt (b : Bytes) (off n : Nat) : Bool := anySet ((b.drop off).take n)

/-- A one-byte field is at or above a bound. -/
def byteOver (b : Bytes) (off n : Nat) : Bool := decide (n ≤ fieldAt b off 1)

/-- Steps 4 and R480: a named instance must be present; while it is in instance reset the command waits. -/
def State.atInst (s : State) (id : Nat) (k : Nat → MEnd) : MEnd :=
  let i := s.siteOf id
  if 8 ≤ i then failWith stAbsent
  else if (s.site i).domState 20 ≠ 0 then .wait
  else k i

/-- A core in service: good, and its domain not out of service. -/
def Site.coreServes (t : Site) (p : Nat) : Bool := t.mask Fld.blkGradeGoodMask p && decide (t.domState p ≠ 4)

/-- A named core must be in service (step 4 of R483). -/
def State.atCore (s : State) (id p : Nat) (k : Nat → MEnd) : MEnd :=
  s.atInst id fun i => if (s.site i).coreServes p then k i else failWith stAbsent

/-- Step 5: a named slice must exist, with its home here. -/
def State.ofSlice (s : State) (v : Nat) (k : Vd → MEnd) : MEnd :=
  if (s.vd v).live ∧ s.homed v then k (s.vd v) else failWith stNoSuch

/-- Families 0x01 and 0x09 are DENIED while the part is debug-unlocked, and BUSY for a slice that is being removed
(R489). -/
def State.shapes (s : State) (v : Nat) (k : Vd → MEnd) : MEnd :=
  s.ofSlice v fun d => if s.part.debug then failWith stDenied else if d.removal.isSome then failWith stBusy else k d

/-- A result that the command could not produce ends it. -/
def orFail (r : Except W16 State) (k : State → MEnd) : MEnd :=
  match r with
  | .ok s => k s
  | .error st => failWith st

/-- A PART_ID field: 0xFFFF names the own part. -/
def State.partField (s : State) (b : Bytes) (off : Nat) : Nat :=
  let n := fieldAt b off 2
  if n = 0xFFFF then s.partId else n

/-- A PART_ID field out of its range (R269). -/
def badPart (b : Bytes) (off : Nat) : Bool := decide (2 ^ 14 ≤ fieldAt b off 2) && decide (fieldAt b off 2 ≠ 0xFFFF)

/-! The key reaches a new place (R433, R438, R439, R452) -/

/-- The slice's key is on a site of this part, or comes there. -/
def State.keyOn (s : State) (v i : Nat) : Except W16 State :=
  if (s.holders v).contains i then .ok s
  else if s.unsettled then .error stUnsettled
  else match s.shareKey v i with
    | some s => .ok s
    | none => .error stNoResource

/-- The slice's key is on another part, or is wrapped for its lead, an accepted peer. -/
def State.keyTo (s : State) (v part : Nat) (peer : PeerReport) : Except W16 State :=
  if (s.vd v).layout.any (fun x => decide (x / 8 = part)) then .ok s
  else if s.unsettled || !peer.settled then .error stUnsettled
  else if !s.accepts peer then .error stDenied
  else match (s.holders v).findSome? fun i => (s.site i).slot? (s.vd v).slot with
    | some k => .ok (s.emit (.spdm 0x11 (leBytes 2 k.num ++ leBytes 1 k.gen ++ Config.aesWrap k.secret)))
    | none => .error stKeyRevoked

/-- What the lead of the other part answered, as number `n` of the answers of a run. -/
def farAnswer (m : MgmtRun) (n : Nat) : W16 := BitVec.ofNat 16 (m.found.getD n 0)

/-- A bind on another part: the key goes there, and its lead answers (R433, R487). -/
def State.farBind (s : State) (v part n : Nat) (m : MgmtRun) : Except W16 State :=
  match s.keyTo v part m.peer with
  | .error st => .error st
  | .ok s => if farAnswer m n = stOk then .ok s else .error (farAnswer m n)

/-- A slice that holds nothing more on a site gives up its slot there (R433). -/
def State.leaveSite (s : State) (v i : Nat) : State :=
  let s := s.relist v
  if (s.holders v).contains i ∧ !(s.vd v).layout.contains (s.addrOf i) then s.drainSlot i v else s

/-! Units (R400, R402, R431) -/

/-- Tier pages of a save area (R402). -/
def savePages (q : Option Nat) : Nat := if q.isNone then 1664 else 416

/-- A Reel slice gets a save area on a site, out of its fast-tier allotment there. -/
def State.drawSave (s : State) (v i : Nat) (q : Option Nat) : Except W16 (List Nat × State) :=
  let d := s.vd v
  let n := savePages q
  if d.pageAllot s.partId (s.site i).id 0 < d.pagesHeld (s.addrOf i) 0 + n then .error stNoResource
  else match Site.drawPages false n (s.site i) with
    | some (l, t) => .ok (l, s.onSite i fun _ => t)
    | none => .error stNoResource

/-- Bindings on a core that take part of what a unit would take. -/
def State.clashes (s : State) (i p : Nat) (q : Option Nat) : List (Nat × UnitBind) :=
  (s.unitsOn i p).filter fun x => q.isNone || x.2.quad.isNone || decide (x.2.quad = q)

/-- Whether hardware is free for a unit of a slice: BUSY where a part of it is bound, but a Reel slice joins a group of up
to eight Reel slices; WRONG_STATE where a free core's mode does not match; NO_RESOURCE for a spare (R400, R431, R489). -/
def State.unitCheck (s : State) (v i p : Nat) (q : Option Nat) (reel : Bool) : Option W16 :=
  let t := s.site i
  let l := s.clashes i p q
  let joins := reel && (l.all fun x => x.2.reel && decide (x.2.quad = q) && decide (x.1 ≠ v)) && decide (l.length < 8)
  if !t.coreServes p then some stAbsent
  else if !t.mask Fld.blkGradeEnabledMask p then some stNoResource
  else if !l.isEmpty && !joins then some stBusy
  else if (t.core p).quad ≠ q.isSome then some (if (s.unitsOn i p).isEmpty then stWrongState else stBusy)
  else none

/-- A unit of this part is bound to a slice: key, save area and group, its hardware zeroed when it was free. -/
def State.bindHere (s : State) (v i p : Nat) (q : Option Nat) (num : Nat) (reel : Bool) (quantum : Nat) : Except W16 State :=
  match s.unitCheck v i p q reel with
  | some st => .error st
  | none =>
    match s.keyOn v i with
    | .error st => .error st
    | .ok s =>
      match (if reel then s.drawSave v i q else .ok ([], s)) with
      | .error st => .error st
      | .ok (save, s) =>
        let u : UnitBind := { num := num, part := s.partId, inst := (s.site i).id, core := p, quad := q, reel := reel
                              quantum := quantum, save := save }
        let s := if (s.clashes i p q).isEmpty then s.zeroUnit i p q else s
        .ok (((s.onHold v fun h => { h with units := h.units ++ [u] }).joinUnit v u).relist v)

/-- A unit is bound to a slice, here or on another part whose answer is number `n`. -/
def State.bindUnit (s : State) (v part inst p : Nat) (q : Option Nat) (n : Nat) (m : MgmtRun) : Except W16 (Nat × State) :=
  let d := s.vd v
  match d.hold.freeUnit with
  | none => .error stNoResource
  | some num =>
    if part = s.partId then
      let i := s.siteOf inst
      if 8 ≤ i then .error stAbsent
      else match s.bindHere v i p q num d.reel d.quantum with
        | .ok s => .ok (num, s)
        | .error st => .error st
    else match s.farBind v part n m with
      | .error st => .error st
      | .ok s =>
        let u : UnitBind := { num := num, part := part, inst := inst, core := p, quad := q, reel := d.reel
                              quantum := d.quantum }
        .ok (num, (s.onHold v fun h => { h with units := h.units ++ [u] }).relist v)

/-! Allotments (R200, R201, R203, R431) -/

/-- The slice's units of a cluster in one mode. -/
def clmMine (v kind : Nat) : ClmUse := if kind = 3 then .scratch v else .cache v

/-- Tier pages that a site can allot: those of its channels in service, less the reserve and the retired. -/
def Site.poolPages (t : Site) (slow : Bool) : Nat :=
  let r := t.tier slow
  (r.channels.filter t.chServes).length * chUsable slow - (r.retired.filter fun p => t.chServes (r.chOf p)).length -
    t.fld (rTedReserve slow.toNat) Fld.tedReserveRemaining

/-- Tier pages of a site that slices and weights other than slice `v` are allotted. -/
def State.promised (s : State) (v i ns : Nat) : Nat :=
  ((s.vds.zipIdx.map fun (d, n) => if n = v then 0 else d.pageAllot s.partId (s.site i).id ns).foldl (· + ·) 0) +
    (s.site i).weightAllot.getD ns 0

/-- A command of the slice is issued in a cluster. -/
def State.issuedIn (s : State) (v i c : Nat) : Bool :=
  (List.range 256).any fun n => ((s.vd v).stream n).queue.any fun k =>
    decide (k.phase = .issued) && (match s.job? ⟨v, n, k.id⟩ with
      | some j => decide (j.i = i) && decide (j.cl = c)
      | none => false)

/-- Cluster units given and taken until a slice has `n` of a kind: the lowest free ones are taken, the highest are given
back, zeroed (R201, R203). -/
def Cluster.allotTo (c : Cluster) (v kind n : Nat) : Option Cluster :=
  let at' (x : ClmUse) : List Nat := (List.range 64).filter fun k => decide (c.alloc.getD k .free = x)
  let mine := at' (clmMine v kind)
  let free := at' .free
  if mine.length ≤ n then
    let take := free.take (n - mine.length)
    if mine.length + take.length < n then none
    else some { c with alloc := take.foldl (fun l k => l.set k (clmMine v kind)) c.alloc }
  else
    let back := mine.drop n
    let c := { c with alloc := back.foldl (fun l k => l.set k .free) c.alloc
                      poison := c.poison.filter fun p => !back.contains (p / 32768)
                      clm := back.foldl (fun m k => m.clear (k * 2 ^ 20) (2 ^ 20)) c.clm }
    some (if kind = 4 then { c with lines := c.lines.filter fun l => decide (l.slice ≠ v) } else c)

/-- Which allotment of a slice a record is. -/
def Allot.is (a : Allot) (kind part inst cluster : Nat) : Bool :=
  decide (a.kind = kind) && decide (a.part = part) && decide (a.inst = inst) && decide (a.cluster = cluster)

/-- What a slice is allotted of a kind. -/
def Vd.allotted (d : Vd) (kind part inst cluster : Nat) : Nat :=
  ((d.hold.allots.filter fun a => a.is kind part inst cluster).map (·.count)).foldl (· + ·) 0

/-- Records a new total. -/
def State.noteAllot (s : State) (v kind part inst cluster n : Nat) : State :=
  (s.onHold v fun h => { h with
    allots := (h.allots.filter fun a => !a.is kind part inst cluster) ++
      if n = 0 then [] else [⟨kind, part, inst, cluster, n⟩] }).relist v

/-- The slice's allotment of a kind on an instance becomes `n`, here or on another part whose answer is number `a`. -/
def State.setAllot (s : State) (v kind part inst cluster n a : Nat) (m : MgmtRun) : Except W16 State :=
  let cl := if kind < 3 then 0 else cluster
  if part ≠ s.partId then
    match s.farBind v part a m with
    | .ok s => .ok (s.noteAllot v kind part inst cl n)
    | .error st => .error st
  else
    let i := s.siteOf inst
    if 8 ≤ i then .error stAbsent
    else
      let d := s.vd v
      let ns := kind - 1
      let slow := decide (kind = 2)
      let keyed := if n = 0 then .ok s else s.keyOn v i
      match keyed with
      | .error st => .error st
      | .ok s =>
        if kind < 3 then
          if n < d.pagesHeld (s.addrOf i) ns then .error stBusy
          else if (s.site i).poolPages slow < s.promised v i ns + n then .error stNoResource
          else .ok ((s.noteAllot v kind part inst cl n).leaveSite v i)
        else if kind = 3 ∧ n < d.allotted kind part inst cl ∧ s.issuedIn v i cluster then .error stBusy
        else match ((s.site i).cluster cluster).allotTo v kind n with
          | none => .error stNoResource
          | some c => .ok (((s.onSite i (·.onCluster cluster fun _ => c)).noteAllot v kind part inst cl n).leaveSite v i)

end Sys2Proof.Machine
end

