-- ==== Sys2Proof/Machine/Power.lean ====
section
/-! DEFINITION. Loops and clock steps (R567, R574–R576), power states (R251, R560, R577–R581), the reset pins and the
thermal inputs (R499, R561, R562, R566). -/

namespace Sys2Proof.Machine

/-! Units that are powered -/

/-- The power state a unit is in (R577); a port that trains and a link in any state but F1 and F2 count as active. -/
def Site.unitState (t : Site) (kind : PowerUnit) (n : Nat) : Nat :=
  match kind with
  | .core => t.fld (rPwrCore n) Fld.pwrCoreState
  | .memPort => match t.fld (rMpPort n) Fld.mpPortState with | 3 => 1 | 4 => 2 | _ => 0
  | .link => match t.linkState n with | 9 => 1 | 10 => 2 | _ => 0

/-- The reset domain of a unit. -/
def unitDom (kind : PowerUnit) (n : Nat) : Nat :=
  match kind with
  | .core => n
  | .memPort => 8 + n
  | .link => 19

/-- The command that powers such a unit. -/
def unitOp (kind : PowerUnit) : Nat :=
  match kind with
  | .core => 0x201
  | .memPort => 0x202
  | .link => 0x203

/-- The power command under way on a unit. -/
def Site.powerOf (t : Site) (kind : PowerUnit) (n : Nat) : Option PowerCmd :=
  t.watch.power.find? fun x => decide (x.kind = kind) && decide (x.idx = n)

/-- Records what is under way on a unit. -/
def State.setPower (s : State) (i : Nat) (kind : PowerUnit) (n : Nat) (x : Option PowerCmd) : State :=
  s.onWatch i fun w => { w with
    power := x.toList ++ w.power.filter fun y => !(decide (y.kind = kind) && decide (y.idx = n)) }

/-- A started request with this tag replies. -/
def State.replyTag (s : State) (op : Nat) (tag : Option (BitVec 16)) (st : W16) : State :=
  match tag with
  | none => s
  | some g =>
    match s.part.reqs.find? fun r => r.started && decide (r.tag = g) && decide (r.op.toNat = op) with
    | some r => s.reply r st
    | none => s

/-- A power command ends. -/
def State.endPower (s : State) (i : Nat) (x : PowerCmd) (st : W16) : State :=
  (s.setPower i x.kind x.idx none).replyTag (unitOp x.kind) x.tag st

/-- A mapped page lies on a channel in service of a port (R251). -/
def Site.portMapped (t : Site) (p : Nat) : Bool :=
  let (lo, n) := portChannels p
  (List.range n).any fun k => t.chServes (lo + k) && t.chMapped (lo + k)

/-- What forbids a unit's off state: a bound unit, or a mapped page (R251, R489). -/
def State.keptOn (s : State) (i : Nat) (kind : PowerUnit) (n target : Nat) : Bool :=
  match kind with
  | .core => decide (target = 3) && !(s.unitsOn i n).isEmpty
  | .memPort => decide (target = 2) && (s.site i).portMapped n
  | .link => false

/-- The enables of a core's compute tier and core memory (R560). -/
def coreSwitches (p : Nat) : BitVec 16 := BitVec.ofNat 16 (2 ^ p + 2 ^ (p + 6))

/-- Sets a core's switch enables. -/
def State.switchCore (s : State) (i p : Nat) (on : Bool) : State :=
  s.onPins i fun x => { x with pswEn := if on then x.pswEn ||| coreSwitches p else x.pswEn &&& ~~~(coreSwitches p) }

/-- Both switches of a core have acknowledged their enables. -/
def Site.switched (t : Site) (p : Nat) : Bool := decide ((t.pins.pswEn ^^^ t.pins.pswAck) &&& coreSwitches p = 0)

/-- A transition begins (R578): a core's switches are set, a port trains, a link's waiting packets find other routes or
the link trains. -/
def State.beginLeg (s : State) (i : Nat) (x : PowerCmd) : State :=
  let cur := (s.site i).unitState x.kind x.idx
  let s := s.setPower i x.kind x.idx (some x)
  match x.kind with
  | .core =>
    let s := s.setFld i (rPwrCore x.idx) Fld.pwrCoreMoving 1
    if x.leg = 3 then s.switchCore i x.idx false else if cur = 3 then s.switchCore i x.idx true else s
  | .memPort => if cur = 2 then s.setFld i (rMpPort x.idx) Fld.mpPortState 1 else s
  | .link =>
    if x.leg ≠ 0 then s.reroute i x.idx
    else if cur = 2 then s.setFld i (rFabLink x.idx) Fld.fabLinkState ((s.site i).linkStart x.idx)
    else s

/-- What a unit does next: a transition toward its target, through the active state where it lies between; in C0 a relock
to another step; or nothing, and the command replies (R574, R578, R581). -/
def State.powerNext (s : State) (i : Nat) (kind : PowerUnit) (n : Nat) : State :=
  match (s.site i).powerOf kind n with
  | none => s
  | some x =>
    let t := s.site i
    let cur := t.unitState kind n
    let step := t.fld (rPwrCore n) Fld.pwrCoreTargetStep
    if cur ≠ x.target then
      let leg := if cur = 0 then x.target else 0
      if cur = 0 ∧ s.keptOn i kind n x.target then s.endPower i x stBusy else s.beginLeg i { x with leg := leg }
    else if kind = .core ∧ cur = 0 ∧ t.fld (rPwrCore n) Fld.pwrCoreStep ≠ step then
      (s.setPower i kind n (some { x with leg := 0, step := step })).setFld i (rPwrCore n) Fld.pwrCorePaused 1
    else s.endPower i x stOk

/-- A command for a unit: it replaces one under way, which replies OK, or sets the unit going (R581). -/
def State.powerTo (s : State) (i : Nat) (kind : PowerUnit) (n target : Nat) (r : MReq) : MEnd :=
  match (s.site i).powerOf kind n with
  | some x =>
    let s := s.replyTag (unitOp kind) x.tag stOk
    .later (s.setPower i kind n (some { x with target := target, tag := some r.tag }))
  | none =>
    let s := (s.setPower i kind n (some { kind := kind, idx := n, leg := target, target := target })).powerNext i kind n
    match (s.site i).powerOf kind n with
    | some x => .later (s.setPower i kind n (some { x with tag := some r.tag }))
    | none => okWith s

/-- What makes the packet MALFORMED. -/
def coreStateBad (b : Bytes) : Bool :=
  byteOver b 8 8 || byteOver b 9 6 || byteOver b 10 4 || byteOver b 11 4 || dirtyFrom b 12

/-- CORE_STATE (R489, R576–R578, R581). A core whose domain is in reset, or whose unit is in a switch window as its step
would change, lets the command wait. -/
def coreStateEnd (s : State) (r : MReq) : MEnd :=
  let b := r.pkt
  let (p, target, step) := (fieldAt b 9 1, fieldAt b 10 1, fieldAt b 11 1)
  s.atCore (fieldAt b 8 1) p fun i =>
    let t := s.site i
    let moves := decide (t.fld (rPwrCore p) Fld.pwrCoreStep ≠ step) && (t.core p).units.any fun u => u.switching.isSome
    if r.started || t.inReset p || moves then .wait
    else if t.mask Fld.blkGradeSpareMask p && decide (target ≠ 3) then failWith stWrongState
    else if s.keptOn i .core p target then failWith stBusy
    else (s.setFld i (rPwrCore p) Fld.pwrCoreTargetStep step).powerTo i .core p target r

/-- The row checks `coreStateBad` and runs `coreStateEnd`. -/
def execCoreState (m : MgmtRun) (s : State) : Host.Outcome State Fault Refusal :=
  mgmtRow m 0x201 s coreStateBad (coreStateEnd s)

/-- What makes the packet MALFORMED. -/
def memportStateBad (b : Bytes) : Bool :=
  byteOver b 8 8 || byteOver b 9 6 || byteOver b 10 3 || dirtyFrom b 11

/-- MEMPORT_STATE (R251, R489, R577, R581). -/
def memportStateEnd (s : State) (r : MReq) : MEnd :=
  let b := r.pkt
  let (p, target) := (fieldAt b 9 1, fieldAt b 10 1)
  s.atInst (fieldAt b 8 1) fun i =>
    let t := s.site i
    if r.started || t.inReset (8 + p) then .wait
    else if [0, 5].contains (t.fld (rMpPort p) Fld.mpPortState) then failWith stAbsent
    else if s.keptOn i .memPort p target then failWith stBusy
    else s.powerTo i .memPort p target r

/-- The row checks `memportStateBad` and runs `memportStateEnd`. -/
def execMemportState (m : MgmtRun) (s : State) : Host.Outcome State Fault Refusal :=
  mgmtRow m 0x202 s memportStateBad (memportStateEnd s)

/-- What makes the packet MALFORMED. -/
def linkStateBad (b : Bytes) : Bool :=
  byteOver b 8 8 || byteOver b 9 8 || byteOver b 10 3 || dirtyFrom b 11

/-- LINK_STATE (R577, R581). -/
def linkStateEnd (s : State) (r : MReq) : MEnd :=
  let b := r.pkt
  s.atInst (fieldAt b 8 1) fun i =>
    if r.started || (s.site i).inReset 19 then .wait
    else s.powerTo i .link (fieldAt b 9 1) (fieldAt b 10 1) r

/-- The row checks `linkStateBad` and runs `linkStateEnd`. -/
def execLinkState (m : MgmtRun) (s : State) : Host.Outcome State Fault Refusal :=
  mgmtRow m 0x203 s linkStateBad (linkStateEnd s)

/-! Transitions complete (R578) -/

/-- The commands that slices run on the engines of a core: virtual device, stream, command. -/
def State.onCoreNow (s : State) (i p : Nat) : List (Nat × Nat × Cmd) :=
  (s.coreOwners i p).flatMap fun v => ([none, some 0, some 1, some 2, some 3] : List (Option Nat)).flatMap fun q =>
    (s.issuedOn v i p q).map fun x => (v, x)

/-- A core enters C1 or C2: its issued commands are saved (R578, R579). -/
def State.sleepCore (s : State) (i p state : Nat) : State :=
  let s := (s.onCoreNow i p).foldl (fun (s : State) ((v, n, k) : Nat × Nat × Cmd) =>
    if k.ran ∧ k.chainRows = [] then s else s.onCmd ⟨v, n, k.id⟩ fun k => { k with saved := true }) s
  (s.onCore i p fun c => { c with slept := (s.site i).time }).setFld i (rPwrCore p) Fld.pwrCoreState state

/-- A core is in C0 again at the step commanded; a mode change recorded meanwhile takes place (R31, R576). -/
def State.coreBack (s : State) (i p : Nat) : State :=
  let t := s.site i
  let s := (s.setFld i (rPwrCore p) Fld.pwrCoreState 0).setFld i (rPwrCore p) Fld.pwrCoreStep
    (t.fld (rPwrCore p) Fld.pwrCoreTargetStep)
  match (t.core p).pendQuad with
  | some m => if (s.unitsOn i p).isEmpty then s.setMode i p m else s
  | none => s

/-- A core leaves C1 or C2: its saved commands run on, the time they were saved taken out of their run time (R579). -/
def State.wakeCore (s : State) (i p : Nat) : State :=
  let slept := (s.site i).time - (s.core i p).slept
  let s := (s.onCoreNow i p).foldl (fun (s : State) ((v, n, k) : Nat × Nat × Cmd) =>
    if k.saved then s.onCmd ⟨v, n, k.id⟩ fun k => { k with saved := false, issueTime := k.issueTime + slept } else s) s
  s.coreBack i p

/-- A core's tier and memory are clear (R80, R125, R192). -/
def State.blankCore (s : State) (i p : Nat) : State :=
  s.onSite i fun t => (t.wipe p none).onCore p fun c => { c.zeroBanks none with clearing := 0 }

/-- A transition of a core completes. -/
def State.coreLeg (s : State) (i p leg : Nat) : State :=
  let t := s.site i
  let cur := t.fld (rPwrCore p) Fld.pwrCoreState
  let s' : Option State :=
    if leg = cur then none
    else if leg = 3 then if t.switched p then some ((s.blankCore i p).setFld i (rPwrCore p) Fld.pwrCoreState 3) else none
    else if cur = 3 then if t.switched p then some ((s.blankCore i p).coreBack i p) else none
    else if leg ≠ 0 then
      if (t.core p).units.any fun u => u.switching.isSome then none else some (s.sleepCore i p leg)
    else some (s.wakeCore i p)
  match s' with
  | none => s
  | some s => (s.setFld i (rPwrCore p) Fld.pwrCoreMoving 0).powerNext i .core p

/-- A transition of a memory port completes; one that did not train again leaves its command without its unit. -/
def State.portLeg (s : State) (i p : Nat) (x : PowerCmd) : State :=
  let t := s.site i
  let st := t.fld (rMpPort p) Fld.mpPortState
  let wipe (r : Tier) : Tier :=
    let on (ppn : Nat) : Bool := decide (portOf (r.chOf ppn) = p)
    { r with data := r.data.filter fun c => !on (c.1 / 65536), subs := r.subs.filter fun m => !on (m.sub / 16) }
  if st = 1 then s
  else if st = 0 ∨ st = 5 then s.endPower i x stAbsent
  else if x.leg = 0 then (if st = 3 then s.setFld i (rMpPort p) Fld.mpPortState 2 else s).powerNext i .memPort p
  else if st ≠ 2 then s
  else if x.leg = 1 then (s.setFld i (rMpPort p) Fld.mpPortState 3).powerNext i .memPort p
  else if t.portMapped p then s.endPower i x stBusy
  else
    ((s.onSite i (·.onTier (decide (2 ≤ p)) wipe)).setFld i (rMpPort p) Fld.mpPortState 4).powerNext i .memPort p

/-- The lanes of a link change state, as its record and its source tell (R272, R411). -/
def State.linkTo (s : State) (i l st : Nat) : State :=
  ((s.setFld i (rFabLink l) Fld.fabLinkState st).raiseSrc i (0x58 + l)).linkRecord i l

/-- A transition of a link completes: the replay buffer has emptied by acknowledgement, or the link is back (R578). -/
def State.linkLeg (s : State) (i l : Nat) (x : PowerCmd) : State :=
  let t := s.site i
  let k := t.link l
  let st := t.linkState l
  if x.leg = 0 then
    if st = 9 then
      let s := if t.linkStart l = 1 ∧ t.fld (rFabLink l) Fld.fabLinkWidth ≠ 0 then (s.linkTo i l 6).drain i l
        else s.setFld i (rFabLink l) Fld.fabLinkState (t.linkStart l)
      s.powerNext i .link l
    else if st = 6 ∨ st = 8 ∨ st = 0 then s.powerNext i .link l else s
  else if (st = 6 ∧ k.replay.isEmpty) ∨ st = 8 ∨ st = 0 then
    let s := if x.leg = 1 then s else
      (s.onLink i l fun k => { k with laneMap := [], credits := ⟨0, 0, 0, 0, 0⟩ }).setFld i (rFabLink l) Fld.fabLinkWidth 0
    let st' := 8 + x.leg
    (if st = 6 then s.linkTo i l st' else s.setFld i (rFabLink l) Fld.fabLinkState st').powerNext i .link l
  else s

/-- POWER_TRANSITION (R578–R581): the transition under way on a unit completes; one whose domain is in reset waits. -/
def execPowerTransition (i : Nat) (kind : PowerUnit) (idx : Nat) (s : State) : Host.Outcome State Fault Refusal :=
  .next (
    let t := s.site i
    match t.powerOf kind idx with
    | none => s
    | some x =>
      if !t.pins.coldRstN || t.inReset 20 || t.inReset (unitDom kind idx) then s
      else match kind with
        | .core => s.coreLeg i idx x.leg
        | .memPort => s.portLeg i idx x
        | .link => s.linkLeg i idx x)

/-- PSW_ACK (R560): an acknowledgement follows its enable. -/
def execPswAck (i k : Nat) (level : Bool) (s : State) : Host.Outcome State Fault Refusal :=
  .next (
    let p := (s.site i).pins
    if decide (14 ≤ k) || decide (p.pswEn.getLsbD k ≠ level) then s
    else s.onPins i fun p => { p with
      pswAck := if level then p.pswAck ||| BitVec.ofNat 16 (2 ^ k) else p.pswAck &&& ~~~(BitVec.ofNat 16 (2 ^ k)) })

/-- A block condition (R492): alarm type 0x0C. -/
def State.condition (s : State) (i n index : Nat) : State := s.report i 0x0C 0 (leBytes 1 n ++ leBytes 1 index)

/-- PSW_ACK_TIMEOUT (R560): the change is undone, its command ends BUSY, and the miss is reported. -/
def execPswAckTimeout (i k : Nat) (s : State) : Host.Outcome State Fault Refusal :=
  .next (
    let t := s.site i
    if decide (14 ≤ k) || decide (t.pins.pswEn.getLsbD k = t.pins.pswAck.getLsbD k) then s
    else
      let p := k % 6
      let s := match t.powerOf .core p with
        | some x =>
          if k < 12 ∧ x.leg ≠ t.unitState .core p then
            ((s.switchCore i p (decide (x.leg = 3))).setFld i (rPwrCore p) Fld.pwrCoreMoving 0).endPower i x stBusy
          else s
        | none => s
      (s.condition i 2 k).raiseSrc i 0x72)

/-! Loops (R567, R574) -/

/-- The CLK_LOCK bit of a loop: 0 AON, 1 BASE, 2–7 CORE, 8–9 CLUS. -/
def loopBit (loop : Nat) : Nat × Nat := (1 + loop, 1 + loop)

/-- The domain that a loop's failure resets. -/
def loopDom (loop : Nat) : Nat := if loop = 1 then 20 else loop - 2

/-- LOSS_OF_LOCK (R567, R587): the loop's bit clears and the loss is reported; the domain it feeds resets, or the always-on
loop asserts FAULT_N. R522 lists no cause for it; the crash record names a command. -/
def execLossOfLock (i loop : Nat) (s : State) : Host.Outcome State Fault Refusal :=
  .next (
    let t := s.site i
    if !t.pins.coldRstN || decide (10 ≤ loop) || decide (t.fld rClkLock (loopBit loop) = 0) then s
    else
      let s := ((s.setFld i rClkLock (loopBit loop) 0).bump i rClkLock Fld.clkLockLosses).condition i 1 loop
      if loop = 0 then s.assertFault i else s.resetDomain i (loopDom loop) 0)

/-- RELOCK (R574): a loop locks; for a core whose step changes, the clocks restart at the new one. -/
def execRelock (i loop : Nat) (s : State) : Host.Outcome State Fault Refusal :=
  .next (
    let t := s.site i
    let p := loop - 2
    if !t.pins.coldRstN || decide (10 ≤ loop) || decide (t.fld rPwrBoot Fld.pwrBootStep < 3) then s
    else
      let s := s.setFld i rClkLock (loopBit loop) 1
      if decide (loop < 2) || decide (8 ≤ loop) || decide (t.fld (rPwrCore p) Fld.pwrCorePaused = 0) || t.inReset 20 ||
        t.inReset p then s
      else match t.powerOf .core p with
        | some x =>
          ((s.setFld i (rPwrCore p) Fld.pwrCoreStep x.step).setFld i (rPwrCore p) Fld.pwrCorePaused 0).powerNext i .core p
        | none => s)

/-! Pins (R499, R561, R562) -/

/-- RESET_REQ (R499, R562): the edge pends its privileged source and the receiving instance resets. -/
def execResetReq (i : Nat) (s : State) : Host.Outcome State Fault Refusal :=
  .next (if (s.site i).managed then (s.raisePriv i 0 0).resetDomain i 20 8 else s)

/-- FAULT_IN (R499, R562). -/
def execFaultIn (i : Nat) (s : State) : Host.Outcome State Fault Refusal :=
  .next (if (s.site i).managed then (s.raisePriv i 0 1).condition i 3 0 else s)

/-- THERM_ALERT (R499, R561). -/
def execThermAlert (i : Nat) (s : State) : Host.Outcome State Fault Refusal :=
  .next (if (s.site i).managed then (s.raisePriv i 0 2).condition i 4 0 else s)

/-- HSP_CATTRIP (R236, R237, R561): ignored while the stack port is absent or out of service. -/
def execHspCattrip (i stack : Nat) (s : State) : Host.Outcome State Fault Refusal :=
  .next (
    let t := s.site i
    if !t.managed || decide (2 ≤ stack) || [0, 5].contains (t.fld (rMpPort stack) Fld.mpPortState) then s
    else (s.raisePriv i 0 2).condition i 5 stack)

/-- TEMPERATURE_SAMPLE (R561, R566): the reading is shown; one that crosses its threshold raises the source. -/
def execTemperatureSample (i sensor : Nat) (temp : BitVec 12) (s : State) : Host.Outcome State Fault Refusal :=
  .next (
    let t := s.site i
    if !t.managed || decide (8 ≤ sensor) then s
    else
      let r := rTelTs sensor
      let above := decide ((BitVec.ofNat 12 (t.fld r Fld.telTsThresh)).toInt ≤ temp.toInt)
      let was := t.pins.hot.getD sensor false
      let s := ((s.setFld i r Fld.telTsTemp temp.toNat).setFld i r Fld.telTsValid 1).onPins i fun p => { p with
        hot := p.hot.set sensor above }
      if above && !was then s.raiseSrc i 0x71 else s)

end Sys2Proof.Machine
end

