-- ==== Sys2Proof/Machine/Health.lean ====
section
/-! DEFINITION. Management of resets and health (R485, R525, R539), firmware (R488), attestation (R451, R453, R454), the
fabric (R272, R313), telemetry and test (R252, R491) and spares (R127, R190, R528, R531). -/

namespace Sys2Proof.Machine

/-! Resets and health -/

/-- The domain that a RESET request names, none out of its range (R485). -/
def resetDom (kind index : Nat) : Option Nat :=
  match kind with
  | 0 => if index < 6 then some index else none
  | 1 => if index < 2 then some (6 + index) else none
  | 2 => if index < 6 then some (8 + index) else none
  | 3 => if index < 4 then some (14 + index) else none
  | 4 => if index = 0 then some 18 else none
  | 5 => if index = 0 then some 20 else none
  | _ => none

/-- What makes the packet MALFORMED. -/
def resetBad (b : Bytes) : Bool :=
  byteOver b 8 8 || (resetDom (fieldAt b 9 1) (fieldAt b 10 1)).isNone || dirtyFrom b 11

/-- RESET (R485, R513, R515): the domain resets, and the reply comes at its step 7. -/
def resetEnd (s : State) (r : MReq) : MEnd :=
  let b := r.pkt
  let u := (resetDom (fieldAt b 9 1) (fieldAt b 10 1)).getD 20
  if r.started then .wait
  else s.atInst (fieldAt b 8 1) fun i =>
    if [4, 5].contains ((s.site i).domState u) then failWith stAbsent
    else
      let s := s.resetDomain i u 0
      if (s.site i).domState u = 0 then okWith s else .later s

/-- The row checks `resetBad` and runs `resetEnd`. -/
def execReset (m : MgmtRun) (s : State) : Host.Outcome State Fault Refusal :=
  mgmtRow m 0x301 s resetBad (resetEnd s)

/-- What makes the packet MALFORMED. -/
def escalateSetBad (b : Bytes) : Bool :=
  let us := fieldAt b 20 4
  (byteOver b 8 8 && decide (fieldAt b 8 1 ≠ 0xFF)) || dirtyAt b 9 3 || decide (fieldAt b 12 4 = 0) ||
  decide (86400 < fieldAt b 12 4) || decide (fieldAt b 16 1 < 2) || byteOver b 16 16 || dirtyAt b 17 3 ||
  (decide (us ≠ 0) && (decide (us < 100) || decide (100000 < us))) || dirtyFrom b 24

/-- ESCALATE_SET (R525, R538, R539). -/
def escalateSetEnd (s : State) (r : MReq) : MEnd :=
  let b := r.pkt
  let us := fieldAt b 20 4
  let set (s : State) (i : Nat) : State := s.onSite i fun t =>
    let t := (t.setFld rHltEsc Fld.hltEscWindowS (fieldAt b 12 4)).setFld rHltEsc Fld.hltEscLimit (fieldAt b 16 1)
    if us = 0 then t else t.setFld rHltWatch Fld.hltWatchEngineUs us
  if fieldAt b 8 1 = 0xFF then
    okWith (((List.range 8).filter fun i => (s.site i).present).foldl set s)
  else s.atInst (fieldAt b 8 1) fun i => okWith (set s i)

/-- The row checks `escalateSetBad` and runs `escalateSetEnd`. -/
def execEscalateSet (m : MgmtRun) (s : State) : Host.Outcome State Fault Refusal :=
  mgmtRow m 0x302 s escalateSetBad (escalateSetEnd s)

/-- BLK_TOPO of a site as it stands (R39). -/
def State.topo (s : State) (i : Nat) : Nat :=
  let t := s.site i
  let entry (j : Nat) : Nat := (t.d2dUp j).toNat * 8 + t.fld (rD2dPort j) Fld.d2dPortPeer
  ((List.range 4).map fun j => entry j * 2 ^ (16 + 4 * j)).foldl (· + ·) 0 +
  (match s.part.lead with
   | some l => s.presentMask * 256 + (s.site l).id * 32 + (decide (l = i)).toNat * 16
   | none => 0) + t.pins.leadStrap.toNat * 8 + t.id

/-- What makes the packet MALFORMED. -/
def healthGetBad (b : Bytes) : Bool :=
  byteOver b 8 8 || dirtyFrom b 9

/-- HEALTH_GET (R485). -/
def healthGetEnd (s : State) (r : MReq) : MEnd :=
  s.atInst (fieldAt r.pkt 8 1) fun i =>
    let t := s.site i
    okWith s (leBytes 4 (t.reg rBlkGrade).toNat ++ leBytes 4 (s.topo i) ++ leBytes 4 (t.reg (rTedReserve 0)).toNat ++
      leBytes 4 (t.reg (rTedReserve 1)).toNat)

/-- The row checks `healthGetBad` and runs `healthGetEnd`. -/
def execHealthGet (m : MgmtRun) (s : State) : Host.Outcome State Fault Refusal :=
  mgmtRow m 0x303 s healthGetBad (healthGetEnd s)

/-! Firmware (R488) -/

/-- The bank that does not run. -/
def Site.otherBank (t : Site) : Nat := 1 - t.fld rPwrBoot Fld.pwrBootBank

/-- The record of a firmware event: 0 staged, 1 activated, 2 committed, 3 fallen back (R492). -/
def State.fwRecord (s : State) (i event bank svn : Nat) : State :=
  s.report i 0x0B 3 (leBytes 1 event ++ leBytes 1 bank ++ leBytes 1 svn)

/-- What makes the packet MALFORMED. -/
def fwStageBad (b : Bytes) : Bool :=
  byteOver b 8 8 || dirtyAt b 9 7 || decide (2 ^ 25 < fieldAt b 24 4) || dirtyFrom b 28

/-- FW_STAGE (step 1 of R488): the signature, then the version; the image takes the other bank. -/
def fwStageEnd (s : State) (m : MgmtRun) (r : MReq) : MEnd :=
  s.atInst (fieldAt r.pkt 8 1) fun i =>
    let t := s.site i
    if m.pfFault then failWith stPfFault
    else if !m.sigOk then failWith stBadSignature
    else if m.svn < t.flash.minSvn then failWith stRollback
    else
      let k := t.otherBank
      let s := s.onSite i fun t => { t with flash := { t.flash with
        digest := t.flash.digest.set k (Config.sha384 m.buf), svn := t.flash.svn.set k m.svn
        bankOk := t.flash.bankOk.set k true, pending := true } }
      okWith (s.fwRecord i 0 k m.svn)

/-- The row checks `fwStageBad` and runs `fwStageEnd`. -/
def execFwStage (m : MgmtRun) (s : State) : Host.Outcome State Fault Refusal :=
  mgmtRow m 0x401 s fwStageBad (fwStageEnd s m)

/-- A unit of a slice is bound on an instance. -/
def State.unitsBound (s : State) (i : Nat) : Bool := (List.range 6).any fun p => !(s.unitsOn i p).isEmpty

/-- The processors restart on the staged bank, or, when the ROM rejects it, on the old one (step 2 of R488). -/
def State.restart (s : State) (i : Nat) (ok : Bool) : State :=
  let t := s.site i
  let k := t.otherBank
  let svn := t.flash.svn.getD k 0
  if ok then
    let s := s.onSite i fun t => { t with flash := { t.flash with pending := false, bankPtr := k } }
    ((s.setFld i rPwrBoot Fld.pwrBootBank k).setFld i rSecState Fld.secStateSvn svn).fwRecord i 1 k svn
  else
    (s.onSite i fun t => { t with flash := { t.flash with pending := false, fellBack := true } }).fwRecord i 3
      (1 - k) (t.fld rSecState Fld.secStateSvn)

/-- What makes the packet MALFORMED. -/
def fwActivateBad (b : Bytes) : Bool :=
  byteOver b 8 8 || byteOver b 9 2 || dirtyFrom b 10

/-- FW_ACTIVATE (steps 2 of R488, R479): the instance resets and restarts on the staged image. -/
def fwActivateEnd (s : State) (m : MgmtRun) (r : MReq) : MEnd :=
  let b := r.pkt
  if r.started then .wait
  else s.atInst (fieldAt b 8 1) fun i =>
    if !(s.site i).flash.pending then failWith stWrongState
    else if i = s.lead ∧ 1 < s.part.reqs.length then failWith stBusy
    else if fieldAt b 9 1 = 0 ∧ s.unitsBound i then failWith stBusy
    else .later ((s.resetDomain i 20 7).restart i m.bootOk)

/-- The row checks `fwActivateBad` and runs `fwActivateEnd`. -/
def execFwActivate (m : MgmtRun) (s : State) : Host.Outcome State Fault Refusal :=
  mgmtRow m 0x402 s fwActivateBad (fwActivateEnd s m)

/-- What makes the packet MALFORMED. -/
def fwCommitBad (b : Bytes) : Bool :=
  byteOver b 8 8 || dirtyFrom b 9

/-- FW_COMMIT (step 3 of R488). -/
def fwCommitEnd (s : State) (r : MReq) : MEnd :=
  s.atInst (fieldAt r.pkt 8 1) fun i =>
    let t := s.site i
    let svn := t.fld rSecState Fld.secStateSvn
    let s := s.onSite i fun t => { t with flash := { t.flash with minSvn := max t.flash.minSvn svn } }
    okWith (s.fwRecord i 2 (t.fld rPwrBoot Fld.pwrBootBank) svn)

/-- The row checks `fwCommitBad` and runs `fwCommitEnd`. -/
def execFwCommit (m : MgmtRun) (s : State) : Host.Outcome State Fault Refusal :=
  mgmtRow m 0x403 s fwCommitBad (fwCommitEnd s)

/-- What makes the packet MALFORMED. -/
def fwDiscardBad (b : Bytes) : Bool :=
  byteOver b 8 8 || dirtyFrom b 9

/-- FW_DISCARD (R488). -/
def fwDiscardEnd (s : State) (r : MReq) : MEnd :=
  s.atInst (fieldAt r.pkt 8 1) fun i =>
    if (s.site i).flash.pending then
      okWith (s.onSite i fun t => { t with flash := { t.flash with pending := false } })
    else failWith stWrongState

/-- The row checks `fwDiscardBad` and runs `fwDiscardEnd`. -/
def execFwDiscard (m : MgmtRun) (s : State) : Host.Outcome State Fault Refusal :=
  mgmtRow m 0x404 s fwDiscardBad (fwDiscardEnd s)

/-- What makes the packet MALFORMED. -/
def fwInfoBad (b : Bytes) : Bool :=
  byteOver b 8 8 || dirtyFrom b 9

/-- FW_INFO (R485). -/
def fwInfoEnd (s : State) (r : MReq) : MEnd :=
  s.atInst (fieldAt r.pkt 8 1) fun i =>
    let t := s.site i
    let pend := if t.flash.pending then t.flash.svn.getD t.otherBank 0 else 0
    okWith s (leBytes 1 (t.fld rPwrBoot Fld.pwrBootBank) ++ leBytes 1 (t.fld rSecState Fld.secStateSvn) ++ leBytes 1 pend ++
      leBytes 1 t.flash.minSvn ++ zeros 4 ++ digestBytes t.running)

/-- The row checks `fwInfoBad` and runs `fwInfoEnd`. -/
def execFwInfo (m : MgmtRun) (s : State) : Host.Outcome State Fault Refusal :=
  mgmtRow m 0x405 s fwInfoBad (fwInfoEnd s)

/-! Attestation -/

/-- What makes the packet MALFORMED. -/
def attStateBad (b : Bytes) : Bool :=
  dirtyFrom b 8

/-- ATT_STATE (R451, R485). -/
def attStateEnd (s : State) (_ : MReq) : MEnd :=
  okWith s (leBytes 1 s.stateByte ++ leBytes 1 (Bool.toNat s.part.debug) ++ leBytes 1 s.presentMask ++ leBytes 1 s.absentMask)

/-- The row checks `attStateBad` and runs `attStateEnd`. -/
def execAttState (m : MgmtRun) (s : State) : Host.Outcome State Fault Refusal :=
  mgmtRow m 0x501 s attStateBad (attStateEnd s)

/-- An index of R451 that ATT_MEASURE may name. -/
def measureIndex (n : Nat) : Bool := decide (n = 1) || decide (n = 2) || (decide (0x10 ≤ n) && decide (n < 0x28))

/-- What makes the packet MALFORMED. -/
def attMeasureBad (b : Bytes) : Bool :=
  !measureIndex (fieldAt b 8 1) || dirtyFrom b 9

/-- ATT_MEASURE (R451, R485): the block of an absent instance is ABSENT. -/
def attMeasureEnd (s : State) (r : MReq) : MEnd :=
  match s.measure (fieldAt r.pkt 8 1) with
  | some (_, v) => okWith s (zeros 8 ++ v)
  | none => failWith stAbsent

/-- The row checks `attMeasureBad` and runs `attMeasureEnd`. -/
def execAttMeasure (m : MgmtRun) (s : State) : Host.Outcome State Fault Refusal :=
  mgmtRow m 0x502 s attMeasureBad (attMeasureEnd s)

/-- What makes the packet MALFORMED. -/
def attReportBad (b : Bytes) : Bool :=
  dirtyAt b 9 7 || dirtyFrom b 56

/-- ATT_REPORT (R454): the slice report goes to the buffer. -/
def attReportEnd (s : State) (m : MgmtRun) (r : MReq) : MEnd :=
  let b := r.pkt
  let v := fieldAt b 8 1
  if !(s.vd v).live || !s.homed v then failWith stNoSuch
  else
    let rep := s.sliceReport v ((b.drop 24).take 32)
    if m.pfFault then failWith stPfFault
    else okWith (s.emit (.hostWrite (256 + s.lead) (fieldAt b 16 8) rep)) (leBytes 2 rep.length)

/-- The row checks `attReportBad` and runs `attReportEnd`. -/
def execAttReport (m : MgmtRun) (s : State) : Host.Outcome State Fault Refusal :=
  mgmtRow m 0x503 s attReportBad (attReportEnd s m)

/-! The fabric -/

/-- What makes the packet MALFORMED. -/
def linkEnableBad (b : Bytes) : Bool :=
  byteOver b 8 8 || byteOver b 9 8 || byteOver b 10 2 || dirtyFrom b 11

/-- LINK_ENABLE (R272). -/
def linkEnableEnd (s : State) (r : MReq) : MEnd :=
  let b := r.pkt
  let l := fieldAt b 9 1
  s.atInst (fieldAt b 8 1) fun i =>
    if fieldAt b 10 1 = 1 then okWith ((s.onLink i l fun k => { k with disabled := false }).linkOn i l)
    else okWith ((s.onLink i l fun k => { k with disabled := true }).linkOff i l)

/-- The row checks `linkEnableBad` and runs `linkEnableEnd`. -/
def execLinkEnable (m : MgmtRun) (s : State) : Host.Outcome State Fault Refusal :=
  mgmtRow m 0x701 s linkEnableBad (linkEnableEnd s)

/-- What makes the packet MALFORMED. -/
def portgroupResetBad (b : Bytes) : Bool :=
  byteOver b 8 8 || dirtyFrom b 9

/-- PORTGROUP_RESET (R313). -/
def portgroupResetEnd (s : State) (r : MReq) : MEnd :=
  if r.started then .wait
  else s.atInst (fieldAt r.pkt 8 1) fun i => .later (s.resetDomain i 19 0)

/-- The row checks `portgroupResetBad` and runs `portgroupResetEnd`. -/
def execPortgroupReset (m : MgmtRun) (s : State) : Host.Outcome State Fault Refusal :=
  mgmtRow m 0x702 s portgroupResetBad (portgroupResetEnd s)

/-! Telemetry and test -/

/-- A page in use lies on a channel: mapped, a loft frame, a save area or the destination of a move. -/
def Site.chUsed (t : Site) (ch : Nat) : Bool :=
  let r := t.tier (decide (64 ≤ ch))
  t.chMapped ch || r.used.any fun p => decide (r.chOf p = ch)

/-- What makes the packet MALFORMED. -/
def chTestBad (b : Bytes) : Bool :=
  byteOver b 8 8 || byteOver b 9 80 || dirtyFrom b 10

/-- CH_TEST (R252, R489). -/
def chTestEnd (s : State) (r : MReq) : MEnd :=
  let ch := fieldAt r.pkt 9 1
  s.atInst (fieldAt r.pkt 8 1) fun i =>
    let t := s.site i
    let st := t.chState ch
    if st = 0 ∨ st = 3 then failWith stAbsent
    else if st = 4 ∨ (st ≠ 5 ∧ t.chUsed ch) then failWith stBusy
    else okWith (s.setFld i (rMpCh ch) Fld.mpChState 5)

/-- The row checks `chTestBad` and runs `chTestEnd`. -/
def execChTest (m : MgmtRun) (s : State) : Host.Outcome State Fault Refusal :=
  mgmtRow m 0x801 s chTestBad (chTestEnd s)

/-- What makes the packet MALFORMED. -/
def logLevelBad (b : Bytes) : Bool :=
  decide (fieldAt b 8 1 = 0) || byteOver b 8 4 || dirtyFrom b 9

/-- LOG_LEVEL (R485, R491). -/
def logLevelEnd (s : State) (r : MReq) : MEnd :=
  okWith (s.onPart fun p => { p with logLevel := fieldAt r.pkt 8 1 })

/-- The row checks `logLevelBad` and runs `logLevelEnd`. -/
def execLogLevel (m : MgmtRun) (s : State) : Host.Outcome State Fault Refusal :=
  mgmtRow m 0x802 s logLevelBad (logLevelEnd s)

/-! Spares -/

/-- The spare map record of an instance is unused after a conflict, also once rewritten (R489, R531). -/
def Site.spareMapUnused (t : Site) : Bool := [2, 3, 4].contains (t.fld (rHltCfgrec 1) Fld.hltCfgrecState)

/-- Sets the physical engine of a logical vector engine. -/
def Site.setVeMap (t : Site) (p l e : Nat) : Site :=
  if l < 8 then t.setFld (rVeMapLo p) (4 * l + 3, 4 * l) e else t.setFld (rVeMapHi p) (4 * (l - 8) + 3, 4 * (l - 8)) e

/-- The spare engine of a core takes a logical number, cleared; the engine it replaces is out of service (R125, R127). -/
def State.bringVe (s : State) (i p l spare : Nat) : State :=
  let old := (s.site i).veMap p l
  let s := s.onSite i fun t => (t.setVeMap p l spare).setFld (rVeMapHi p) Fld.veMapHiSpare 0xF
  (s.onCore i p fun c => { c with ves := (c.ves.modify old fun v => { v with offline := true }).set spare {} }).rewrite i 2

/-- A core that a spare has replaced while good becomes a spare itself, switched off (R21, R24, R25). -/
def State.benched (s : State) (i p : Nat) : State :=
  let s := if (s.site i).mask Fld.blkGradeGoodMask p then s.onSite i fun t => t.setMask Fld.blkGradeSpareMask p true else s
  ((s.blankCore i p).setFld i (rPwrCore p) Fld.pwrCoreState 3).onPins i fun x => { x with
    pswEn := x.pswEn &&& ~~~(coreSwitches p), pswAck := x.pswAck &&& ~~~(coreSwitches p) }

/-- Spares in the order of R528: the ones that fail BIST leave GOOD_MASK, and the first good one takes the core's place. -/
def bringCore (i p : Nat) (failing : List Nat) : List Nat → State → Option Nat × State
  | [], s => (none, s)
  | k :: rest, s =>
    if failing.contains k then bringCore i p failing rest (s.onSite i (·.loseCore k))
    else (some k, (s.takePlace i p k).benched i p)

/-- What makes the packet MALFORMED. -/
def spareInBad (b : Bytes) : Bool :=
  byteOver b 8 8 || byteOver b 9 2 || byteOver b 10 6 || byteOver b 11 12 ||
    (decide (fieldAt b 9 1 = 0) && dirtyAt b 11 1) || dirtyFrom b 12

/-- SPARE_IN (R127, R489, R528); the run says which spares fail BIST. -/
def spareInEnd (s : State) (m : MgmtRun) (r : MReq) : MEnd :=
  let b := r.pkt
  let (p, l) := (fieldAt b 10 1, fieldAt b 11 1)
  s.atInst (fieldAt b 8 1) fun i =>
    let t := s.site i
    if !t.mask Fld.blkGradeEnabledMask p then failWith stAbsent
    else if !(s.unitsOn i p).isEmpty then failWith stBusy
    else if fieldAt b 9 1 = 0 then
      if (t.sparesFor p).isEmpty then failWith stNoResource
      else if t.spareMapUnused then failWith stConfigConflict
      else match bringCore i p m.found (t.sparesFor p) s with
        | (some k, s) => okWith s (leBytes 1 k)
        | (none, s) => .done (s.rewrite i 2) stNoResource []
    else
      let e := t.fld (rVeMapHi p) Fld.veMapHiSpare
      if e = 0xF then failWith stNoResource
      else if t.spareMapUnused then failWith stConfigConflict
      else okWith (s.bringVe i p l e) (leBytes 1 e)

/-- The row checks `spareInBad` and runs `spareInEnd`. -/
def execSpareIn (m : MgmtRun) (s : State) : Host.Outcome State Fault Refusal :=
  mgmtRow m 0xA01 s spareInBad (spareInEnd s m)

/-- Rows that HEALTH_CHECK steers on the cores with no bound unit (R190, R528): how many, and the state after. -/
def State.steerAll (s : State) (i : Nat) : Nat × State :=
  (List.range 6).foldl (fun (acc : Nat × State) p =>
    let c := acc.2.core i p
    if !(acc.2.unitsOn i p).isEmpty then acc
    else
      let c' := c.steer
      (acc.1 + (c'.steered.length - c.steered.length), acc.2.onCore i p fun _ => c')) (0, s)

/-- Spares that HEALTH_CHECK brings in, for enabled cores with no bound unit and a bank beyond repair (R191, R528). -/
def State.spareAll (s : State) (i : Nat) (failing : List Nat) : Nat × State :=
  (List.range 6).foldl (fun (acc : Nat × State) p =>
    let t := acc.2.site i
    if !t.mask Fld.blkGradeEnabledMask p || (t.core p).failing.isEmpty || !(acc.2.unitsOn i p).isEmpty || t.spareMapUnused then acc
    else match bringCore i p failing (t.sparesFor p) (acc.2.onSite i (·.loseCore p)) with
      | (some _, s) => (acc.1 + 1, s)
      | (none, _) => acc) (0, s)

/-- Record classes left unused by a conflict are written anew from their defaults (R531). -/
def State.rewriteUnused (s : State) (i : Nat) : State :=
  (List.range 3).foldl (fun s r =>
    if [2, 3].contains ((s.site i).fld (rHltCfgrec r) Fld.hltCfgrecState) then
      (s.rewrite i (r + 1)).setFld i (rHltCfgrec r) Fld.hltCfgrecState 4
    else s) s

/-- What makes the packet MALFORMED. -/
def healthCheckBad (b : Bytes) : Bool :=
  byteOver b 8 8 || dirtyFrom b 9

/-- HEALTH_CHECK (R190, R528, R531). -/
def healthCheckEnd (s : State) (m : MgmtRun) (r : MReq) : MEnd :=
  s.atInst (fieldAt r.pkt 8 1) fun i =>
    let (rows, s) := s.steerAll i
    let (spares, s) := s.spareAll i m.found
    let s := if rows = 0 then s else s.rewrite i 2
    okWith (s.rewriteUnused i) (leBytes 4 rows ++ leBytes 1 spares)

/-- The row checks `healthCheckBad` and runs `healthCheckEnd`. -/
def execHealthCheck (m : MgmtRun) (s : State) : Host.Outcome State Fault Refusal :=
  mgmtRow m 0xA02 s healthCheckBad (healthCheckEnd s m)

/-- What makes the packet MALFORMED. -/
def spareGetBad (b : Bytes) : Bool :=
  byteOver b 8 8 || dirtyFrom b 9

/-- SPARE_GET (R485): byte 9 is read as the number of such cores (log entry 37). -/
def spareGetEnd (s : State) (r : MReq) : MEnd :=
  s.atInst (fieldAt r.pkt 8 1) fun i =>
    let t := s.site i
    let ves := ((List.range 6).map fun p =>
      if t.mask Fld.blkGradeGoodMask p && decide (t.fld (rVeMapHi p) Fld.veMapHiSpare ≠ 0xF) then 1 else 0).foldl (· + ·) 0
    okWith s (leBytes 1 (t.fld rBlkGrade Fld.blkGradeSpareMask) ++ leBytes 1 ves ++
      leBytes 1 (t.fld rSecSlots Fld.secSlotsSpareCells) ++ zeros 1 ++ leBytes 4 (t.reg (rTedReserve 0)).toNat ++
      leBytes 4 (t.reg (rTedReserve 1)).toNat)

/-- The row checks `spareGetBad` and runs `spareGetEnd`. -/
def execSpareGet (m : MgmtRun) (s : State) : Host.Outcome State Fault Refusal :=
  mgmtRow m 0xA03 s spareGetBad (spareGetEnd s)

end Sys2Proof.Machine
end

