-- ==== Sys2Proof/Machine/Shape.lean ====
section
/-! DEFINITION. The slices family of management commands (R430–R433, R460, R485–R489): slices, units, allotments, scheduling,
core modes, labels, shares, guarantees, multicast ranges, loft budgets and lends. -/

namespace Sys2Proof.Machine

/-! Creation and removal -/

/-- An entry of a slice spec is out of its range (R486). -/
def badEntry (e : Bytes) : Bool :=
  let kind := fieldAt e 0 1
  byteOver e 0 5 || byteOver e 1 8 || badPart e 2 ||
  (if kind = 0 then byteOver e 4 6 || (byteOver e 5 4 && decide (fieldAt e 5 1 ≠ 0xFF)) || dirtyAt e 6 2
   else if kind < 3 then false
   else byteOver e 4 2 || byteOver e 5 65 || dirtyAt e 6 2)

/-- Binds entry `n` of a spec. -/
def State.bindEntry (s : State) (v n : Nat) (e : Bytes) (m : MgmtRun) : Except W16 State :=
  let kind := fieldAt e 0 1
  let inst := fieldAt e 1 1
  let part := s.partField e 2
  if badEntry e then .error stMalformed
  else if kind = 0 then
    (s.bindUnit v part inst (fieldAt e 4 1) (if fieldAt e 5 1 = 0xFF then none else some (fieldAt e 5 1)) n m).map (·.2)
  else
    let cl := if kind < 3 then 0 else fieldAt e 4 1
    let count := if kind < 3 then fieldAt e 4 4 else fieldAt e 5 1
    s.setAllot v kind part inst cl ((s.vd v).allotted kind part inst cl + count) n m

/-- Binds the entries of a spec in order; the first that fails answers its status and its index. -/
def bindEntries (v : Nat) (m : MgmtRun) : List (Bytes × Nat) → State → Except (W16 × Nat) State
  | [], s => .ok s
  | (e, n) :: r, s =>
    match s.bindEntry v n e m with
    | .ok s => bindEntries v m r s
    | .error st => .error (st, n)

/-- Entries of 8 bytes. -/
def specEntries (n : Nat) (b : Bytes) : List (Bytes × Nat) := (List.range n).map fun k => (padTo 8 ((b.drop (8 * k)).take 8), k)

/-- The host port of an instance is in service (step 4 of R483). -/
def State.atPort (s : State) (id : Nat) (k : Nat → MEnd) : MEnd :=
  let i := s.siteOf id
  if 8 ≤ i then failWith stAbsent
  else if [4, 5].contains ((s.site i).domState 18) then failWith stAbsent
  else k i

/-- The instances of this part that a spec names, its home among them. -/
def State.specSites (s : State) (home : Nat) (es : List (Bytes × Nat)) : List Nat :=
  (home :: es.filterMap fun (e, _) =>
    if s.partField e 2 = s.partId then (let i := s.siteOf (fieldAt e 1 1); if i < 8 then some i else none) else none).eraseDups

/-- A Reel quantum outside 1 to 100 ms (R400, R485), by the places of the mode and of the quantum; in Pavane the quantum
means nothing and is not checked (log entry 36). -/
def badQuantum (b : Bytes) (mode at' : Nat) : Bool :=
  decide (fieldAt b mode 1 = 1) && (decide (fieldAt b at' 1 = 0) || byteOver b at' 101)

/-- What makes the packet MALFORMED. -/
def sliceCreateBad (b : Bytes) : Bool :=
  byteOver b 8 8 || decide (fieldAt b 9 1 = 0) || byteOver b 10 16 || byteOver b 11 2 ||
    (!(fieldAt b 10 1).testBit 3 && decide (960 ≤ fieldAt b 12 2)) || badQuantum b 11 14 || dirtyFrom b 24

/-- SLICE_CREATE (R429, R430, R486): the lowest free number, a key in the named slot or the lowest one free on every
instance involved, and the entries of the spec in order, all or nothing. -/
def sliceCreateEnd (s : State) (m : MgmtRun) (r : MReq) : MEnd :=
  let b := r.pkt
  s.atPort (fieldAt b 8 1) fun home =>
    let es := specEntries (fieldAt b 15 1) m.buf
    let sites := s.specSites home es
    let free (n : Nat) : Bool := sites.all fun i => (s.site i).slotFree n
    let slot := if (fieldAt b 10 1).testBit 3 then (List.range 960).find? free else some (fieldAt b 12 2)
    let taken := (s.vdsOn home).any fun v => decide ((s.vd v).vf = fieldAt b 9 1)
    if m.pfFault ∧ es ≠ [] then failWith stPfFault
    else if s.unsettled then failWith stUnsettled
    else if s.part.debug then failWith stDenied
    else match slot, (List.range 256).find? fun v => !(s.vd v).live with
      | none, _ => failWith stNoResource
      | some n, some v =>
        if !free n then failWith stDenied
        else if taken then failWith stBusy
        else
          let (x, s) := s.drawSecret
          let s := s.onVd v fun _ => {
            live := true, home := s.partId * 8 + (s.site home).id, port := (s.site home).id, vf := fieldAt b 9 1
            noelaver := (fieldAt b 10 1).testBit 0, refcount := (fieldAt b 10 1).testBit 1
            conf := (fieldAt b 10 1).testBit 2, slot := n, reel := fieldAt b 11 1 = 1, quantum := fieldAt b 14 1 }
          let gen := (s.site home).slotGen n
          let s := (s.fillSlot home n v gen x).relist v
          match bindEntries v m es s with
          | .ok s => okWith s (leBytes 1 v ++ leBytes 1 v ++ leBytes 2 n ++ leBytes 1 gen)
          | .error (st, k) => .fail st (leBytes 1 k)
      | some _, none => failWith stNoResource

/-- The row checks `sliceCreateBad` and runs `sliceCreateEnd`. -/
def execSliceCreate (m : MgmtRun) (s : State) : Host.Outcome State Fault Refusal :=
  mgmtRow m 0x101 s sliceCreateBad (sliceCreateEnd s m)

/-- What makes the packet MALFORMED. -/
def sliceDestroyBad (b : Bytes) : Bool :=
  dirtyFrom b 9

/-- SLICE_DESTROY (R459, R460): the removal begins; the reply comes at its end. A migration out ends its session. -/
def sliceDestroyEnd (s : State) (r : MReq) : MEnd :=
  let v := fieldAt r.pkt 8 1
  s.ofSlice v fun d =>
    if r.started then .wait
    else if s.part.debug then failWith stDenied
    else
      let s := match d.mig with
        | some g => s.onPart fun p => { p with sessions := p.sessions.filter fun x => decide (x.1 ≠ g.session) }
        | none => s
      let step := (d.removal.map (·.step)).getD 0
      .later (s.onVd v fun d => { d with mig := none, removal := some ⟨step, 0, some r.tag⟩ })

/-- The row checks `sliceDestroyBad` and runs `sliceDestroyEnd`. -/
def execSliceDestroy (m : MgmtRun) (s : State) : Host.Outcome State Fault Refusal :=
  mgmtRow m 0x102 s sliceDestroyBad (sliceDestroyEnd s)

/-! Units -/

/-- The place that a unit command names: instance, part, core and quadrant. -/
def badPlace (b : Bytes) : Bool :=
  byteOver b 10 8 || dirtyAt b 11 1 || badPart b 12 || byteOver b 14 6 || (byteOver b 15 4 && decide (fieldAt b 15 1 ≠ 0xFF)) ||
  dirtyFrom b 16

/-- QUAD of a request. -/
def quadField (b : Bytes) : Option Nat := if fieldAt b 15 1 = 0xFF then none else some (fieldAt b 15 1)

/-- The named place is there: on this part its instance and core must be in service. -/
def State.atPlace (s : State) (b : Bytes) (k : MEnd) : MEnd :=
  if s.partField b 12 = s.partId then s.atCore (fieldAt b 10 1) (fieldAt b 14 1) fun _ => k else k

/-- What makes the packet MALFORMED. -/
def unitBindBad (b : Bytes) : Bool :=
  dirtyAt b 9 1 || badPlace b

/-- UNIT_BIND (R431, R433, R487). -/
def unitBindEnd (s : State) (m : MgmtRun) (r : MReq) : MEnd :=
  let b := r.pkt
  let v := fieldAt b 8 1
  s.atPlace b (s.shapes v fun _ =>
    match s.bindUnit v (s.partField b 12) (fieldAt b 10 1) (fieldAt b 14 1) (quadField b) 0 m with
    | .ok (n, s) => okWith s (leBytes 1 n)
    | .error st => failWith st)

/-- The row checks `unitBindBad` and runs `unitBindEnd`. -/
def execUnitBind (m : MgmtRun) (s : State) : Host.Outcome State Fault Refusal :=
  mgmtRow m 0x103 s unitBindBad (unitBindEnd s m)

/-- The streams of a slice that are bound to a unit. -/
def Vd.onUnitNo (d : Vd) (n : Nat) : List Nat :=
  (List.range 256).filter fun k => decide (k ≠ 0) && decide ((d.stream k).state ≠ .free) && decide ((d.stream k).unit = n)

/-- The binding under a unit number. -/
def Vd.unit? (d : Vd) (n : Nat) : Option UnitBind := d.hold.units.find? fun u => decide (u.num = n)

/-- The slice leaves the place of a unit; its slot drains where nothing is left. -/
def State.leaveUnit (s : State) (v : Nat) (u : UnitBind) : State :=
  match s.unitSite u with
  | some i => s.leaveSite v i
  | none => s.relist v

/-- What makes the packet MALFORMED. -/
def unitUnbindBad (b : Bytes) : Bool :=
  byteOver b 10 2 || dirtyFrom b 11

/-- UNIT_UNBIND (R431): with FORCE its contexts are killed and its streams freed first; the reply waits for that. -/
def unitUnbindEnd (s : State) (r : MReq) : MEnd :=
  let (v, n) := (fieldAt r.pkt 8 1, fieldAt r.pkt 9 1)
  if r.started then
    if ((s.vd v).onUnitNo n).isEmpty then okWith s else .wait
  else s.shapes v fun d =>
    match d.unit? n with
    | none => failWith stNoSuch
    | some u =>
      if (d.onUnitNo n).isEmpty then okWith ((s.dropUnit v u).leaveUnit v u)
      else if (fieldAt r.pkt 10 1).testBit 0 then .later ((s.forceUnbind v u).leaveUnit v u)
      else failWith stBusy

/-- The row checks `unitUnbindBad` and runs `unitUnbindEnd`. -/
def execUnitUnbind (m : MgmtRun) (s : State) : Host.Outcome State Fault Refusal :=
  mgmtRow m 0x104 s unitUnbindBad (unitUnbindEnd s)

/-- The engine state of a unit is saved off its hardware: its commands on per-core engines keep their state in an image
(steps 1 to 4 of R401), and the rest of its Reel group goes on without it. -/
def State.liftUnit (s : State) (v i : Nat) (u : UnitBind) : State :=
  let (p, q) := (u.core, u.quad)
  let x := (s.core i p).unit q
  if x.resident ≠ some v then s
  else
    let t0 := (s.site i).time
    let s := (s.issuedOn v i p q).foldl (fun (s : State) ((n, k) : Nat × Cmd) =>
      if k.ran ∧ k.chainRows = [] then s else s.onCmd ⟨v, n, k.id⟩ fun k => { k with saved := true }) s
    let g := (s.site i).grab p q v t0
    let next := match x.others.find? fun w => s.hasReady w i p q with
      | some w => some w
      | none => x.others.head?
    let s := s.onSite i fun t => t.wipe p q
    let s := if next.isSome then s.onCore i p (·.zeroBanks q) else s
    s.onUnit i p q fun x => { x with
      resident := none, preempt := none, switching := next, images := g :: x.images.filter fun y => decide (y.slice ≠ v) }

/-- A move is given up: the unit goes on where it was. -/
def State.unlift (s : State) (v i : Nat) (u : UnitBind) : State :=
  let x := (s.core i u.core).unit u.quad
  if x.resident.isNone && x.switching.isNone then s.restore i u.core u.quad v else s

/-- Step 3 of R432: DMA, cluster-engine and fabric commands of the unit's streams that are still issued. -/
def State.runningOut (s : State) (v : Nat) (n : Nat) : Bool :=
  ((s.vd v).onUnitNo n).any fun k => ((s.vd v).stream k).queue.any fun c =>
    decide (c.phase = .issued) && !onCoreEngine c

/-- Steps 4 and 5 of R432: the image goes to the target, the source is zeroed, and the unit resumes there. -/
def State.landUnit (s : State) (v i : Nat) (u : UnitBind) (i' p' : Nat) (q' : Option Nat) (save : List Nat) : State :=
  let s := (s.carryUnit i u.core u.quad i' p' q' v).freeSave u
  let u' : UnitBind := { u with inst := (s.site i').id, core := p', quad := q', save := save }
  let s := s.onHold v fun h => { h with units := h.units.map fun x => if x.num = u.num then u' else x }
  let s := s.joinUnit v u'
  let s := if ((s.core i' p').unit q').resident = some v then s.restore i' p' q' v else s
  (s.relist v).leaveUnit v u

/-- Step 1 of R432: what the target must give before the unit leaves its place, and its new save area. -/
def State.moveTarget (s : State) (v i : Nat) (u : UnitBind) (inst p' : Nat) (q' : Option Nat) : Except W16 (List Nat × State) :=
  let i' := s.siteOf inst
  match s.unitCheck v i' p' q' u.reel with
  | some st => .error st
  | none =>
    if i' ≠ i ∧ 8192 < s.queuesOf inst + ((s.vd v).onUnitNo u.num).length then .error stNoResource
    else match s.keyOn v i' with
      | .error st => .error st
      | .ok s => if u.reel then s.drawSave v i' q' else .ok ([], s)

/-- What makes the packet MALFORMED. -/
def unitMoveBad (b : Bytes) : Bool :=
  badPlace b

/-- UNIT_MOVE (R432, R487): the target is found free, the unit pre-empted, its other commands run out, and its image
moves. A move to another part leaves this part with its image. -/
def unitMoveEnd (s : State) (m : MgmtRun) (r : MReq) : MEnd :=
  let b := r.pkt
  let (v, n, part) := (fieldAt b 8 1, fieldAt b 9 1, s.partField b 12)
  let (inst, p', q') := (fieldAt b 10 1, fieldAt b 14 1, quadField b)
  s.atPlace b (s.shapes v fun d =>
    match d.unit? n with
    | none => failWith stNoSuch
    | some u =>
      match s.unitSite u with
      | none => failWith (if farAnswer m 0 = stOk then stDenied else farAnswer m 0)
      | some i =>
        let stop (st : W16) : MEnd := if r.started then .done (s.unlift v i u) st [] else failWith st
        if u.quad.isSome ≠ q'.isSome then stop stWrongState
        else if part ≠ s.partId then
          match s.farBind v part 0 m with
          | .error st => stop st
          | .ok s1 =>
            if s.runningOut v n then .later (s.liftUnit v i u)
            else
              let s1 := s1.liftUnit v i u
              let s1 := (s1.leaveGroup i u.core u.quad v).freeSave u
              let s1 := s1.onHold v fun h => { h with units := h.units.map fun x =>
                if x.num = n then { x with part := part, inst := inst, core := p', quad := q', save := [] } else x }
              okWith ((s1.relist v).leaveSite v i)
        else match s.moveTarget v i u inst p' q' with
          | .error st => stop st
          | .ok (save, s1) =>
            if s.runningOut v n then .later (s.liftUnit v i u)
            else
              let i' := s.siteOf inst
              let s1 := s1.liftUnit v i u
              let s1 := if (s1.clashes i' p' q').isEmpty then s1.zeroUnit i' p' q' else s1
              okWith (s1.landUnit v i u i' p' q' save))

/-- The row checks `unitMoveBad` and runs `unitMoveEnd`. -/
def execUnitMove (m : MgmtRun) (s : State) : Host.Outcome State Fault Refusal :=
  mgmtRow m 0x105 s unitMoveBad (unitMoveEnd s m)

/-! Allotments, scheduling and modes -/

/-- What makes the packet MALFORMED. -/
def allotSetBad (b : Bytes) : Bool :=
  decide (fieldAt b 9 1 = 0) || byteOver b 9 5 || byteOver b 10 8 || badPart b 12 || dirtyAt b 14 2 ||
    (decide (3 ≤ fieldAt b 9 1) && byteOver b 11 2) || dirtyFrom b 20

/-- ALLOT_SET (R431, R487). -/
def allotSetEnd (s : State) (m : MgmtRun) (r : MReq) : MEnd :=
  let b := r.pkt
  let (v, part, inst) := (fieldAt b 8 1, s.partField b 12, fieldAt b 10 1)
  let set : MEnd := s.shapes v fun _ =>
    orFail (s.setAllot v (fieldAt b 9 1) part inst (fieldAt b 11 1) (fieldAt b 16 4) 0 m) okWith
  if part = s.partId then s.atInst inst fun _ => set else set

/-- The row checks `allotSetBad` and runs `allotSetEnd`. -/
def execAllotSet (m : MgmtRun) (s : State) : Host.Outcome State Fault Refusal :=
  mgmtRow m 0x106 s allotSetBad (allotSetEnd s m)

/-- A command of a slice is issued (R399). -/
def Vd.anyIssued (d : Vd) : Bool := d.fe.streams.any fun t => t.queue.any fun k => decide (k.phase = .issued)

/-- Slots of the fast-tier wheel of a site taken by shares and switch budgets, those of one unit left out (R403, R411). -/
def State.switchSlots (s : State) (i : Nat) (but : Option (Nat × Nat)) : Nat :=
  let t := s.site i
  let of (p : Nat) : Nat := ((t.core p).units.zipIdx.map fun (u, q) => if but = some (p, q) then 0 else u.switchN).foldl (· + ·) 0
  ((List.range 6).map of).foldl (· + ·) 0

/-- Slots that shares hold on a path, one budget left out. -/
def Site.shares (t : Site) (path : Nat) (but : Budget → Bool) : Nat :=
  ((t.watch.budgets.filter fun b => decide (b.path = path) && !but b).map (·.n)).foldl (· + ·) 0

/-- SCHED_SET on one unit. -/
def State.schedUnit (s : State) (v : Nat) (u : UnitBind) (reel : Bool) (quantum n : Nat) : Except W16 State :=
  let set (save : List Nat) (s : State) : State := s.onHold v fun h => { h with units := h.units.map fun x =>
    if x.num = u.num then { x with reel := reel, quantum := quantum, save := save } else x }
  match s.unitSite u with
  | none => .ok (set [] s)
  | some i =>
    let x := (s.core i u.core).unit u.quad
    if 256 < n + s.switchSlots i (some (u.core, u.quad.getD 0)) + (s.site i).shares 0 (fun _ => false) then
      .error stNoResource
    else if !reel ∧ 1 < x.group.length then .error stBusy
    else
      let mode (s : State) : State := s.onUnit i u.core u.quad fun x => { x with reel := reel, switchN := n }
      if reel = u.reel then .ok (mode (set u.save s))
      else if reel then
        match s.drawSave v i u.quad with
        | .ok (l, s) => .ok (mode (set l s))
        | .error st => .error st
      else .ok (mode (set [] (s.freeSave u)))

/-- SCHED_SET over units in order. -/
def schedAll (v : Nat) (reel : Bool) (quantum n : Nat) : List UnitBind → State → Except W16 State
  | [], s => .ok s
  | u :: r, s =>
    match s.schedUnit v u reel quantum n with
    | .ok s => schedAll v reel quantum n r s
    | .error st => .error st

/-- What makes the packet MALFORMED. -/
def schedSetBad (b : Bytes) : Bool :=
  byteOver b 10 2 || badQuantum b 10 11 || decide (256 < fieldAt b 12 2) || dirtyFrom b 14

/-- SCHED_SET (R399, R403, R489): for one unit, or for all and as the slice's own mode. -/
def schedSetEnd (s : State) (r : MReq) : MEnd :=
  let b := r.pkt
  let (v, n, reel) := (fieldAt b 8 1, fieldAt b 9 1, decide (fieldAt b 10 1 = 1))
  s.shapes v fun d =>
    let us := d.hold.units.filter fun u => decide (n = 0xFF) || decide (u.num = n)
    if n ≠ 0xFF ∧ us.isEmpty then failWith stNoSuch
    else if d.anyIssued then failWith stBusy
    else orFail (schedAll v reel (fieldAt b 11 1) (fieldAt b 12 2) us s) fun s =>
      okWith (if n = 0xFF then s.onVd v fun d => { d with reel := reel, quantum := fieldAt b 11 1 } else s)

/-- The row checks `schedSetBad` and runs `schedSetEnd`. -/
def execSchedSet (m : MgmtRun) (s : State) : Host.Outcome State Fault Refusal :=
  mgmtRow m 0x107 s schedSetBad (schedSetEnd s)

/-- What makes the packet MALFORMED. -/
def coreModeBad (b : Bytes) : Bool :=
  byteOver b 8 8 || byteOver b 9 6 || byteOver b 10 2 || dirtyFrom b 11

/-- CORE_MODE (R31, R489, R597). -/
def coreModeEnd (s : State) (r : MReq) : MEnd :=
  let b := r.pkt
  let (p, quad) := (fieldAt b 9 1, decide (fieldAt b 10 1 = 1))
  s.atCore (fieldAt b 8 1) p fun i =>
    let t := s.site i
    let us := s.unitsOn i p
    let owner := (us.head?.map (·.1)).getD 256
    let pend (s : State) : State := s.onCore i p fun c => { c with pendQuad := some quad }
    if r.started then .wait
    else if s.part.debug then failWith stDenied
    else if t.mask Fld.blkGradeSpareMask p then failWith stWrongState
    else if (t.core p).quad = quad then okWith s
    else if us.isEmpty then
      if t.fld (rPwrCore p) Fld.pwrCoreState = 0 then okWith (s.setMode i p quad) else okWith (pend s)
    else if us.all (fun x => decide (x.1 = owner)) && (us.any (fun x => x.2.quad.isNone) || decide (us.length = 4)) then
      if quad ∧ (((List.range 255).filter fun n => ((s.vd owner).unit? n).isNone).length < 3) then failWith stNoResource
      else .later (pend s)
    else failWith stBusy

/-- The row checks `coreModeBad` and runs `coreModeEnd`. -/
def execCoreMode (m : MgmtRun) (s : State) : Host.Outcome State Fault Refusal :=
  mgmtRow m 0x108 s coreModeBad (coreModeEnd s)

/-! Labels, shares and guarantees -/

/-- What makes the packet MALFORMED. -/
def labelSetBad (b : Bytes) : Bool :=
  let n := fieldAt b 10 1
  decide (n = 0) || decide (12 < n) || decide (256 < fieldAt b 9 1 + n) || dirtyAt b 11 5 || dirtyFrom b (16 + 4 * n) ||
  (List.range n).any fun k => byteOver b (16 + 4 * k) 4 || byteOver b (17 + 4 * k) 4 || decide (4095 < fieldAt b (18 + 4 * k) 2)

/-- LABEL_SET (R407). -/
def labelSetEnd (s : State) (r : MReq) : MEnd :=
  let b := r.pkt
  let (v, first, n) := (fieldAt b 8 1, fieldAt b 9 1, fieldAt b 10 1)
  s.shapes v fun _ =>
    let new := (List.range n).map fun k => ({
      label := first + k, cls := fieldAt b (16 + 4 * k) 1, bset := fieldAt b (17 + 4 * k) 1
      deadline := fieldAt b (18 + 4 * k) 2 } : LabelEntry)
    okWith (s.onHold v fun h => { h with
      labels := (h.labels.filter fun e => !(decide (first ≤ e.label) && decide (e.label < first + n))) ++ new })

/-- The row checks `labelSetBad` and runs `labelSetEnd`. -/
def execLabelSet (m : MgmtRun) (s : State) : Host.Outcome State Fault Refusal :=
  mgmtRow m 0x109 s labelSetBad (labelSetEnd s)

/-- A slice on this part, homed here or not (R429). -/
def State.anySlice (s : State) (v : Nat) (k : Vd → MEnd) : MEnd :=
  if !(s.vd v).live then failWith stNoSuch
  else if s.part.debug then failWith stDenied
  else if (s.vd v).removal.isSome then failWith stBusy
  else k (s.vd v)

/-- The port of a regulated path is wired and in service. -/
def State.pathServes (s : State) (i path : Nat) : Bool :=
  let t := s.site i
  if path = 2 then !([4, 5] : List Nat).contains (t.domState 18)
  else if 4 ≤ path ∧ path < 8 then !([4, 5] : List Nat).contains (t.domState (domD2d (path - 4)))
  else true

/-- What makes the packet MALFORMED. -/
def shareSetBad (b : Bytes) : Bool :=
  byteOver b 9 4 || byteOver b 10 15 || byteOver b 11 8 || decide (256 < fieldAt b 12 2) || dirtyAt b 14 2 ||
    decide (fieldAt b 16 4 < 10) || decide (10000 < fieldAt b 16 4) || dirtyFrom b 20

/-- SHARE_SET (R411, R413, R489): the window starts as the share is set. -/
def shareSetEnd (s : State) (r : MReq) : MEnd :=
  let b := r.pkt
  let (v, bset, path, n) := (fieldAt b 8 1, fieldAt b 9 1, fieldAt b 10 1, fieldAt b 12 2)
  s.atInst (fieldAt b 11 1) fun i =>
    if !s.pathServes i path then failWith stAbsent
    else s.anySlice v fun _ =>
      let mine (x : Budget) : Bool := decide (x.slice = v) && decide (x.bset = bset) && decide (x.path = path)
      if 256 < n + (s.site i).shares path mine + (if path = 0 then s.switchSlots i none else 0) then failWith stNoResource
      else okWith (s.onWatch i fun w => { w with
        budgets := (w.budgets.filter fun x => !mine x) ++ [⟨v, bset, path, n, fieldAt b 16 4, 0⟩] })

/-- The row checks `shareSetBad` and runs `shareSetEnd`. -/
def execShareSet (m : MgmtRun) (s : State) : Host.Outcome State Fault Refusal :=
  mgmtRow m 0x10A s shareSetBad (shareSetEnd s)

/-- What makes the packet MALFORMED. -/
def guardSetBad (b : Bytes) : Bool :=
  byteOver b 9 4 || byteOver b 10 10 || byteOver b 11 8 || byteOver b 12 2 || decide (fieldAt b 13 1 = 0) ||
    byteOver b 14 64 || byteOver b 15 2 || dirtyFrom b 16

/-- GUARD_SET (R416). -/
def guardSetEnd (s : State) (r : MReq) : MEnd :=
  let b := r.pkt
  let (v, g) := (fieldAt b 8 1, fieldAt b 14 1)
  s.atInst (fieldAt b 11 1) fun i =>
    s.anySlice v fun _ =>
      okWith (s.onWatch i fun w => { w with
        guards := (w.guards.filter fun x => decide (x.g ≠ g)) ++
          if fieldAt b 15 1 = 1 then []
          else [⟨g, v, fieldAt b 9 1, fieldAt b 10 1, fieldAt b 12 1, fieldAt b 13 1, 0, 0⟩] })

/-- The row checks `guardSetBad` and runs `guardSetEnd`. -/
def execGuardSet (m : MgmtRun) (s : State) : Host.Outcome State Fault Refusal :=
  mgmtRow m 0x10B s guardSetBad (guardSetEnd s)

/-! Multicast ranges, loft budgets and lends -/

/-- What makes the packet MALFORMED. -/
def mcastRangeBad (b : Bytes) : Bool :=
  byteOver b 9 8 || decide (4095 < fieldAt b 10 2) || decide (4096 < fieldAt b 10 2 + fieldAt b 12 2) ||
    dirtyFrom b 14

/-- MCAST_RANGE (R302): the slice's range on an instance; groups that leave it are emptied. -/
def mcastRangeEnd (s : State) (r : MReq) : MEnd :=
  let b := r.pkt
  let (v, inst, first, n) := (fieldAt b 8 1, fieldAt b 9 1, fieldAt b 10 2, fieldAt b 12 2)
  s.atInst inst fun i =>
    s.anySlice v fun _ =>
      let meets (x : Nat × Nat × Nat) : Bool := decide (x.1 = inst) && decide (x.2.1 < first + n) &&
        decide (first < x.2.1 + x.2.2)
      let clash := s.vds.zipIdx.any fun (d, k) => decide (k ≠ v) && d.hold.mcRanges.any meets
      if clash then failWith stBusy
      else
        let s := s.onHold v fun h => { h with
          mcRanges := (h.mcRanges.filter fun x => decide (x.1 ≠ inst)) ++ if n = 0 then [] else [(inst, first, n)] }
        let stays (g : McGroup) : Bool := decide (g.slice ≠ v) || (decide (first ≤ g.num) && decide (g.num < first + n))
        okWith (s.onNet i fun t => { t with groups := t.groups.filter stays })

/-- The row checks `mcastRangeBad` and runs `mcastRangeEnd`. -/
def execMcastRange (m : MgmtRun) (s : State) : Host.Outcome State Fault Refusal :=
  mgmtRow m 0x10C s mcastRangeBad (mcastRangeEnd s)

/-- What makes the packet MALFORMED. -/
def loftBudgetBad (b : Bytes) : Bool :=
  byteOver b 9 8 || dirtyAt b 10 2 || dirtyFrom b 16

/-- LOFT_BUDGET (R298): at most 16,384 frames on an instance in all. -/
def loftBudgetEnd (s : State) (r : MReq) : MEnd :=
  let b := r.pkt
  let (v, inst, n) := (fieldAt b 8 1, fieldAt b 9 1, fieldAt b 12 4)
  s.atInst inst fun i =>
    s.anySlice v fun _ =>
      let others := (s.vds.zipIdx.map fun (d, k) => if k = v then 0 else
        (((d.hold.loft.find? fun l => decide (l.1 = inst)).map (·.2)).getD 0)).foldl (· + ·) 0
      if 16384 < others + n then failWith stNoResource
      else orFail (if n = 0 then .ok s else s.keyOn v i) fun s =>
        okWith ((s.onHold v fun h => { h with
          loft := (h.loft.filter fun l => decide (l.1 ≠ inst)) ++ if n = 0 then [] else [(inst, n)] }).leaveSite v i)

/-- The row checks `loftBudgetBad` and runs `loftBudgetEnd`. -/
def execLoftBudget (m : MgmtRun) (s : State) : Host.Outcome State Fault Refusal :=
  mgmtRow m 0x10D s loftBudgetBad (loftBudgetEnd s)

/-- A slice from the borrowing part holds what is lent. -/
def State.lendHeld (s : State) (l : Lend) : Bool :=
  s.vds.any fun d => d.live && decide (d.home / 8 = l.home) &&
    (if l.kind = 0 then d.hold.units.any fun u =>
        decide (u.part = s.partId) && decide (u.inst = l.inst) && decide (u.core = l.arg % 256) &&
        decide (u.quad.getD 255 = l.arg / 256 % 256)
     else d.hold.allots.any fun a => decide (a.kind = l.kind) && decide (a.part = s.partId) && decide (a.inst = l.inst))

/-- What makes the packet MALFORMED. -/
def lendSetBad (b : Bytes) : Bool :=
  let kind := fieldAt b 8 1
  byteOver b 8 5 || byteOver b 9 8 || decide (2 ^ 14 ≤ fieldAt b 10 2) || byteOver b 16 2 || dirtyFrom b 17 ||
  (if kind = 0 then byteOver b 12 6 || (byteOver b 13 4 && decide (fieldAt b 13 1 ≠ 0xFF)) || dirtyAt b 14 2
  else if kind < 3 then false else byteOver b 12 2 || byteOver b 13 65 || dirtyAt b 14 2)

/-- LEND_SET (R487). -/
def lendSetEnd (s : State) (r : MReq) : MEnd :=
  let b := r.pkt
  let l : Lend := ⟨fieldAt b 8 1, fieldAt b 9 1, fieldAt b 10 2, fieldAt b 12 4⟩
  s.atInst l.inst fun i =>
    if l.kind = 0 ∧ !(s.site i).coreServes (l.arg % 256) then failWith stAbsent
    else if s.part.debug then failWith stDenied
    else if fieldAt b 16 1 = 1 then
      if !s.part.lends.contains l then failWith stNoSuch
      else if s.lendHeld l then failWith stBusy
      else okWith (s.onPart fun p => { p with lends := p.lends.erase l })
    else if l.kind = 0 ∧ !(s.clashes i (l.arg % 256) (if l.arg / 256 % 256 = 255 then none else some (l.arg / 256 % 256))).isEmpty then
      failWith stBusy
    else okWith (s.onPart fun p => { p with lends := p.lends.filter (fun x => decide (x ≠ l)) ++ [l] })

/-- The row checks `lendSetBad` and runs `lendSetEnd`. -/
def execLendSet (m : MgmtRun) (s : State) : Host.Outcome State Fault Refusal :=
  mgmtRow m 0x10E s lendSetBad (lendSetEnd s)

end Sys2Proof.Machine
end

