-- ==== Sys2Proof/Machine/Stores.lean ====
section
/-! DEFINITION. The memory-and-tiers family: policies (R243), retirement (R250), evacuation and return of channels (R247)
and shared-plain weights (R444, R445). -/

namespace Sys2Proof.Machine

/-! Policies -/

/-- The tier-map entries of an object on its home site. -/
def Site.entriesOf (t : Site) (o : Obj) : List TierEntry :=
  (t.tier (decide (o.ns = 1))).map.filter fun e => decide (o.base ≤ e.page) && decide (e.page < o.base + ceilDiv o.size 65536)

/-- Sets the policy of an object's pages. -/
def Site.setPolicy (t : Site) (o : Obj) (policy : Nat) : Site :=
  t.onTier (decide (o.ns = 1)) fun r => { r with map := r.map.map fun e =>
    if o.base ≤ e.page ∧ e.page < o.base + ceilDiv o.size 65536 then { e with policy := policy } else e }

/-- The moves that make an object pin-fast: its slow pages come in, behind the demotions that make room; none when even
every demotion would not (R242, R243). -/
def Site.pinMoves (t : Site) (o : Obj) : Option (List TierMove) :=
  let slow := (t.entriesOf o).filter fun e => e.slow && !e.moving
  let own (x : Nat × TierEntry) : Bool := decide (x.1 = o.ns) && (t.entriesOf o).any fun e => decide (e.page = x.2.page)
  let ds := t.demotions.filter fun x => !own x
  let need := slow.length - t.freeOutside false
  if ds.length < need then none
  else some ((ds.take need).map (fun (ns, e) => TierMove.queue ns e true 0) ++ slow.map fun e => TierMove.queue o.ns e false 1)

/-- What makes the packet MALFORMED. -/
def policySetBad (b : Bytes) : Bool :=
  byteOver b 9 4 || dirtyAt b 10 2 || dirtyFrom b 16

/-- POLICY_SET (R243): of a slice, for new objects, or of one object and its pages. -/
def policySetEnd (s : State) (m : MgmtRun) (r : MReq) : MEnd :=
  let b := r.pkt
  let (v, policy, h) := (fieldAt b 8 1, fieldAt b 9 1, fieldAt b 12 4)
  s.ofSlice v fun d =>
    if h = 0 then okWith (s.onHold v fun x => { x with policy := policy })
    else match d.sp.liveHandle h with
      | none => failWith stNoSuch
      | some o =>
        let note (s : State) : State := s.onSp v fun p => { p with objs := p.objs.map fun x =>
          if x.index = o.index then { x with policy := policy } else x }
        if o.cls = .host ∨ o.cls = .remote then okWith (note s)
        else match s.here? o.home with
          | none => if farAnswer m 0 = stOk then okWith (note s) else failWith (farAnswer m 0)
          | some i =>
            if 8 ≤ i then failWith stAbsent
            else if policy = 1 then
              match (s.site i).pinMoves o with
              | none => failWith stNoResource
              | some l => okWith (note (s.onSite i fun t => { t.setPolicy o policy with moveQueue := t.moveQueue ++ l }))
            else okWith (note (s.onSite i fun t => t.setPolicy o policy))

/-- The row checks `policySetBad` and runs `policySetEnd`. -/
def execPolicySet (m : MgmtRun) (s : State) : Host.Outcome State Fault Refusal :=
  mgmtRow m 0x601 s policySetBad (policySetEnd s m)

/-! Pages that no tenant page holds -/

/-- The save-area pages and loft frames of the fast tier of a site that satisfy a condition (R298, R402). -/
def State.heldPages (s : State) (i : Nat) (on : Nat → Bool) : List Nat :=
  let here (u : UnitBind) : Bool := decide (s.unitSite u = some i)
  let saves := s.vds.flatMap fun d => (d.hold.units.filter here).flatMap fun (u : UnitBind) => u.save
  (((s.site i).net.frames.map (·.ppn)) ++ saves).filter on

/-- A save-area page or loft frame moves to another page of the fast tier. -/
def State.shiftPage (s : State) (i p q : Nat) : State :=
  let m : TierMove := ⟨0, 0, false, p, false, q, 0, 0, 0, 0, [], 0, 0, 0⟩
  let here (u : UnitBind) : Bool := decide (s.unitSite u = some i)
  let swap (u : UnitBind) : UnitBind := if here u then { u with save := u.save.map fun x => if x = p then q else x } else u
  let s := s.onSite i fun t =>
    let t := ((t.takePage false q).copySubs m 0xFFFF).freePage false p
    { t with net := { t.net with frames := t.net.frames.map fun f => if f.ppn = p then { f with ppn := q } else f } }
  { s with vds := s.vds.map fun d => { d with hold := { d.hold with units := d.hold.units.map swap } } }

/-- Moves such pages elsewhere, off a channel; none when the free pages outside the reserve run out. -/
def shiftAll (i : Nat) (avoid : List Nat) : List Nat → State → Option State
  | [], s => some s
  | p :: rest, s =>
    if (s.site i).freeOutside false = 0 then none
    else match (s.site i).drawPage false avoid with
      | some q => shiftAll i avoid rest (s.shiftPage i p q)
      | none => none

/-! Retirement and channels -/

/-- Each retirement lowers the reserve by one page (R250). -/
def Site.lessReserve (t : Site) (slow : Bool) : Site :=
  t.setFld (rTedReserve slow.toNat) Fld.tedReserveRemaining (t.fld (rTedReserve slow.toNat) Fld.tedReserveRemaining - 1)

/-- What makes the packet MALFORMED. -/
def pageRetireBad (b : Bytes) : Bool :=
  byteOver b 8 8 || byteOver b 9 2 || dirtyAt b 10 2 || dirtyFrom b 16

/-- PAGE_RETIRE (R245, R250): a move of the page is abandoned, and it goes to a replacement page; a page that no tenant
page holds retires at once. -/
def pageRetireEnd (s : State) (r : MReq) : MEnd :=
  let b := r.pkt
  let (slow, ppn) := (decide (fieldAt b 9 1 = 1), fieldAt b 12 4)
  s.atInst (fieldAt b 8 1) fun i =>
    let x := (s.site i).tier slow
    let mine (k : TierMove) : Bool := decide (k.kind = 2) && decide (k.srcSlow = slow) && decide (k.src = ppn)
    if r.started && ((s.site i).moveQueue ++ (s.site i).moves.filterMap id).any mine then .wait
    else if x.pages slow ≤ ppn then failWith stMalformed
    else if x.retired.contains ppn then okWith s
    else
      let s := s.abandonMoves i fun k => (decide (k.srcSlow = slow) && decide (k.src = ppn)) ||
        (decide (k.dstSlow = slow) && decide (k.dst = ppn) && decide (k.step ≠ 0))
      let t := s.site i
      let found := ((t.fast.map.map fun e => (0, e)) ++ (t.slow.map.map fun e => (1, e))).find? fun x =>
        decide (x.2.slow = slow) && decide (x.2.ppn = ppn)
      match found with
      | some (ns, e) =>
        if (t.drawPage slow).isNone then failWith stNoResource
        else .later (s.onSite i fun t => { t with moveQueue := TierMove.queue ns e slow 2 :: t.moveQueue })
      | none =>
        if !slow && (s.heldPages i (· == ppn)).isEmpty = false then
          match t.drawPage false with
          | some q => okWith ((s.shiftPage i ppn q).onSite i fun t => (t.retire false ppn).lessReserve false)
          | none => failWith stNoResource
        else okWith (s.onSite i fun t => (t.retire slow ppn).lessReserve slow)

/-- The row checks `pageRetireBad` and runs `pageRetireEnd`. -/
def execPageRetire (m : MgmtRun) (s : State) : Host.Outcome State Fault Refusal :=
  mgmtRow m 0x602 s pageRetireBad (pageRetireEnd s)

/-- The mapped pages of a channel that still wait to be moved off it. -/
def Site.toMove (t : Site) (ch : Nat) : List TierMove :=
  let slow := decide (64 ≤ ch)
  (t.movable.filter fun (_, e) => decide (e.slow = slow) && decide ((t.tier slow).chOf e.ppn = ch)).map fun (ns, e) =>
    TierMove.queue ns e slow 3

/-- What makes the packet MALFORMED. -/
def chEvacuateBad (b : Bytes) : Bool :=
  byteOver b 8 8 || byteOver b 9 80 || dirtyFrom b 10

/-- CH_EVACUATE (R247): moves under way at the channel are abandoned, its pages are queued for other channels of the tier;
the channel is in the test state once it is empty. -/
def chEvacuateEnd (s : State) (r : MReq) : MEnd :=
  let ch := fieldAt r.pkt 9 1
  s.atInst (fieldAt r.pkt 8 1) fun i =>
    let t := s.site i
    let st := t.chState ch
    let slow := decide (64 ≤ ch)
    let on (k : TierMove) : Bool := (decide (k.srcSlow = slow) && decide ((t.tier slow).chOf k.src = ch)) ||
      (decide (k.step ≠ 0) && decide (k.dstSlow = slow) && decide ((t.tier slow).chOf k.dst = ch))
    let requeue (s : State) : State := s.onSite i fun t => { t with moveQueue := t.moveQueue ++ t.toMove ch }
    let finish (s : State) : MEnd :=
      if (s.site i).chMapped ch then .later s else okWith (s.setFld i (rMpCh ch) Fld.mpChState 5)
    if r.started then (if st = 4 then finish (requeue s) else .wait)
    else if st = 0 ∨ st = 3 then failWith stAbsent
    else if st = 5 then failWith stWrongState
    else if st = 4 then failWith stBusy
    else
      let s := (s.abandonMoves i on).setFld i (rMpCh ch) Fld.mpChState 4
      let held := if slow then [] else s.heldPages i fun p => decide (t.fast.chOf p = ch)
      match shiftAll i [ch] held s with
      | none => .done (s.setFld i (rMpCh ch) Fld.mpChState st) stNoResource []
      | some s => finish (requeue s)

/-- The row checks `chEvacuateBad` and runs `chEvacuateEnd`. -/
def execChEvacuate (m : MgmtRun) (s : State) : Host.Outcome State Fault Refusal :=
  mgmtRow m 0x603 s chEvacuateBad (chEvacuateEnd s)

/-- What makes the packet MALFORMED. -/
def chReturnBad (b : Bytes) : Bool :=
  byteOver b 8 8 || byteOver b 9 80 || dirtyFrom b 10

/-- CH_RETURN (R247, R489): the channel is in service again, its pages free and at version 0. -/
def chReturnEnd (s : State) (r : MReq) : MEnd :=
  let ch := fieldAt r.pkt 9 1
  s.atInst (fieldAt r.pkt 8 1) fun i =>
    let t := s.site i
    let st := t.chState ch
    if st = 0 ∨ st = 3 then failWith stAbsent
    else if st ≠ 5 then failWith stWrongState
    else
      let fresh (r : Tier) : Tier :=
        let on (p : Nat) : Bool := decide (r.chOf p = ch)
        { r with data := r.data.filter fun c => !on (c.1 / 65536), subs := r.subs.filter fun x => !on (x.sub / 16) }
      let s := s.onSite i (·.onTier (decide (64 ≤ ch)) fresh)
      okWith ((s.setFld i (rMpTgCtrl ch) Fld.mpTgCtrlBusy 0).setFld i (rMpCh ch) Fld.mpChState
        (if t.fld (rMpCh ch) Fld.mpChLanesRepaired = 0 then 1 else 2))

/-- The row checks `chReturnBad` and runs `chReturnEnd`. -/
def execChReturn (m : MgmtRun) (s : State) : Host.Outcome State Fault Refusal :=
  mgmtRow m 0x604 s chReturnBad (chReturnEnd s)

/-! Weights (R444, R445) -/

/-- Pages of a weight. -/
def Weight.pages (w : Weight) : Nat := ceilDiv w.size 65536

/-- Weight pages in use on an instance and tier. -/
def State.weightPages (s : State) (inst : Nat) (slow : Bool) : Nat :=
  (s.part.weights.map fun w => ((w.copies.filter fun c => decide (c.1 = inst) && decide (c.2.1 = slow)).length) * w.pages).foldl
    (· + ·) 0

/-- The weight allotment of an instance and tier has room for `n` more pages. -/
def State.weightRoom (s : State) (i : Nat) (slow : Bool) (n : Nat) : Bool :=
  decide (s.weightPages (s.site i).id slow + n ≤ (s.site i).weightAllot.getD slow.toNat 0)

/-- What makes the packet MALFORMED. -/
def weightAllotBad (b : Bytes) : Bool :=
  byteOver b 8 8 || byteOver b 9 2 || dirtyAt b 10 2 || dirtyFrom b 16

/-- WEIGHT_ALLOT (R444): the allotment lies outside every slice's. -/
def weightAllotEnd (s : State) (r : MReq) : MEnd :=
  let b := r.pkt
  let (slow, n) := (decide (fieldAt b 9 1 = 1), fieldAt b 12 4)
  s.atInst (fieldAt b 8 1) fun i =>
    let t := s.site i
    let k := slow.toNat
    if n < s.weightPages t.id slow then failWith stBusy
    else if t.poolPages slow + t.weightAllot.getD k 0 < s.promised 256 i k + n then failWith stNoResource
    else okWith (s.onSite i fun t => { t with weightAllot := t.weightAllot.set k n })

/-- The row checks `weightAllotBad` and runs `weightAllotEnd`. -/
def execWeightAllot (m : MgmtRun) (s : State) : Host.Outcome State Fault Refusal :=
  mgmtRow m 0x605 s weightAllotBad (weightAllotEnd s)

/-- Bytes land on the pages of a run of tenant pages, sub-page by sub-page, without a key slot (R229). -/
def Site.land (t : Site) (ns base : Nat) (data : Bytes) : Site :=
  (List.range (ceilDiv data.length 4096)).foldl (fun t k =>
    match t.entry? ns (base + k / 16) with
    | some e => t.writeSub e.slow e.ppn (k % 16 * 4096) ((data.drop (k * 4096)).take 4096) 0 false
    | none => t) t

/-- A weight's pages are drawn and its bytes land on an instance and tier: the site, and the first tenant page. -/
def State.landWeight (s : State) (i : Nat) (slow : Bool) (data : Bytes) : Option (Nat × State) :=
  let ns := slow.toNat
  if !s.weightRoom i slow (ceilDiv data.length 65536) then none
  else match s.drawObject i weightSlice ns (ceilDiv data.length 65536) 0 with
    | none => none
    | some (base, s) => some (base, s.onSite i (·.land ns base data))

/-- What makes the packet MALFORMED. -/
def weightLoadBad (b : Bytes) : Bool :=
  byteOver b 8 8 || byteOver b 9 2 || dirtyAt b 10 6 || dirtyFrom b 32

/-- WEIGHT_LOAD (R444, R445): the digest is that of the SIZE bytes as they land. -/
def weightLoadEnd (s : State) (m : MgmtRun) (r : MReq) : MEnd :=
  let b := r.pkt
  let (slow, size) := (decide (fieldAt b 9 1 = 1), fieldAt b 24 8)
  s.atInst (fieldAt b 8 1) fun i =>
    match (List.range 4096).find? fun n => !s.part.weights.any fun w => decide (w.num = n) with
    | none => failWith stNoResource
    | some n =>
      if !s.weightRoom i slow (ceilDiv size 65536) then failWith stNoResource
      else if m.pfFault then failWith stPfFault
      else
        let data := padTo size m.buf
        match s.landWeight i slow data with
        | none => failWith stNoResource
        | some (base, s) =>
          let d := Config.sha384 data
          let w : Weight := { num := n, size := size, digest := d, copies := [((s.site i).id, slow, base)], grants := 0 }
          okWith (s.onPart fun p => { p with weights := p.weights ++ [w] }) (leBytes 2 n ++ zeros 6 ++ digestBytes d)

/-- The row checks `weightLoadBad` and runs `weightLoadEnd`. -/
def execWeightLoad (m : MgmtRun) (s : State) : Host.Outcome State Fault Refusal :=
  mgmtRow m 0x606 s weightLoadBad (weightLoadEnd s m)

/-- A weight of the table. -/
def State.weight? (s : State) (n : Nat) : Option Weight := s.part.weights.find? fun w => decide (w.num = n)

/-- Changes a weight. -/
def State.onWeight (s : State) (n : Nat) (f : Weight → Weight) : State :=
  s.onPart fun p => { p with weights := p.weights.map fun w => if w.num = n then f w else w }

/-- The bytes of a copy as its memory port reads them, none where a read fails (R233, R445). -/
def State.weightBytes (s : State) (w : Weight) : Option Bytes :=
  match w.copies with
  | [] => none
  | (inst, slow, base) :: _ =>
    let i := s.siteOf inst
    (List.range (ceilDiv w.size 4096)).foldl (fun (acc : Option Bytes) k =>
      match acc, (s.tierRead i (joinAddr slow.toNat base 0 + k * 4096) (min 4096 (w.size - k * 4096)) 0 false false).1 with
      | some l, .ok x => some (l ++ x)
      | _, _ => none) (some [])

/-- What makes the packet MALFORMED. -/
def weightCopyBad (b : Bytes) : Bool :=
  decide (4096 ≤ fieldAt b 8 2) || byteOver b 10 8 || byteOver b 11 2 || dirtyFrom b 12

/-- WEIGHT_COPY (R444): a copy whose digest differs is freed. -/
def weightCopyEnd (s : State) (r : MReq) : MEnd :=
  let b := r.pkt
  let (n, slow) := (fieldAt b 8 2, decide (fieldAt b 11 1 = 1))
  s.atInst (fieldAt b 10 1) fun i =>
    match s.weight? n with
    | none => failWith stNoSuch
    | some w =>
      if w.copies.any fun c => decide (c.1 = (s.site i).id) then failWith stWrongState
      else if !s.weightRoom i slow w.pages then failWith stNoResource
      else match s.weightBytes w with
        | none => failWith stIntegrityFail
        | some data =>
          match s.landWeight i slow data with
          | none => failWith stNoResource
          | some (base, s') =>
            if Config.sha384 data = w.digest then
              okWith (s'.onWeight n fun w => { w with copies := w.copies ++ [((s.site i).id, slow, base)] })
                (zeros 8 ++ digestBytes (Config.sha384 data))
            else failWith stIntegrityFail

/-- The row checks `weightCopyBad` and runs `weightCopyEnd`. -/
def execWeightCopy (m : MgmtRun) (s : State) : Host.Outcome State Fault Refusal :=
  mgmtRow m 0x607 s weightCopyBad (weightCopyEnd s)

/-- Objects of a slice that name a grant and are not yet released (R445). -/
def Vd.underGrant (d : Vd) (g : Nat) : List Obj :=
  d.sp.objs.filter fun o => decide (o.cls = .shared) && decide (o.grant = g) && decide (o.state ≠ .released)

/-- What makes the packet MALFORMED. -/
def weightGrantBad (b : Bytes) : Bool :=
  decide (4096 ≤ fieldAt b 10 2) || dirtyFrom b 12

/-- WEIGHT_GRANT (R444). -/
def weightGrantEnd (s : State) (r : MReq) : MEnd :=
  let b := r.pkt
  let (v, g, n) := (fieldAt b 8 1, fieldAt b 9 1, fieldAt b 10 2)
  s.ofSlice v fun d =>
    if (s.weight? n).isNone then failWith stNoSuch
    else if 256 ≤ d.hold.grants.length then failWith stNoResource
    else if d.removal.isSome || (d.hold.grants.any fun x => decide (x.1 = g)) || !(d.underGrant g).isEmpty then failWith stBusy
    else okWith ((s.onHold v fun h => { h with grants := h.grants ++ [(g, n)] }).onWeight n fun w => { w with grants := w.grants + 1 })

/-- The row checks `weightGrantBad` and runs `weightGrantEnd`. -/
def execWeightGrant (m : MgmtRun) (s : State) : Host.Outcome State Fault Refusal :=
  mgmtRow m 0x608 s weightGrantBad (weightGrantEnd s)

/-- What makes the packet MALFORMED. -/
def weightRevokeBad (b : Bytes) : Bool :=
  dirtyFrom b 10

/-- WEIGHT_REVOKE (R445): the grant goes, and the command ends once every object that names it is released. -/
def weightRevokeEnd (s : State) (r : MReq) : MEnd :=
  let (v, g) := (fieldAt r.pkt 8 1, fieldAt r.pkt 9 1)
  s.ofSlice v fun d =>
    if r.started then (if (d.underGrant g).isEmpty then okWith s else .wait)
    else match d.hold.grants.find? fun x => decide (x.1 = g) with
      | none => failWith stNoSuch
      | some (_, n) =>
        let s := (s.onHold v fun h => { h with grants := h.grants.filter fun x => decide (x.1 ≠ g) }).onWeight n fun w => { w with
          grants := w.grants - 1 }
        let free (o : Obj) : Obj :=
          if o.cls = .shared ∧ o.grant = g ∧ o.state = .live then { o with state := .freeing, freedId := d.fe.nextId } else o
        let s := s.onSp v fun p => { p with objs := p.objs.map free }
        if (d.underGrant g).isEmpty then okWith s else .later s

/-- The row checks `weightRevokeBad` and runs `weightRevokeEnd`. -/
def execWeightRevoke (m : MgmtRun) (s : State) : Host.Outcome State Fault Refusal :=
  mgmtRow m 0x609 s weightRevokeBad (weightRevokeEnd s)

/-- Objects that still reach a weight's pages. -/
def State.weightReached (s : State) (w : Weight) : Bool :=
  s.vds.any fun d => d.sp.objs.any fun o => decide (o.cls = .shared) && decide (o.state ≠ .released) &&
    w.copies.any fun c => decide (o.home = s.partId * 8 + c.1) && decide (o.ns = c.2.1.toNat) && decide (o.base = c.2.2)

/-- A copy's pages are free. -/
def State.freeCopy (s : State) (w : Weight) (c : Nat × Bool × Nat) : State :=
  let i := s.siteOf c.1
  let mine (e : TierEntry) : Bool := decide (c.2.2 ≤ e.page) && decide (e.page < c.2.2 + w.pages)
  let s := s.abandonMoves i fun m => decide (m.ns = c.2.1.toNat) && decide (c.2.2 ≤ m.page) && decide (m.page < c.2.2 + w.pages)
  s.onSite i fun t =>
    let gone := (t.tier c.2.1).map.filter mine
    let t := gone.foldl (fun t e => t.freePage e.slow e.ppn) t
    t.onTier c.2.1 fun r => { r with map := r.map.filter fun e => !mine e }

/-- What makes the packet MALFORMED. -/
def weightFreeBad (b : Bytes) : Bool :=
  decide (4096 ≤ fieldAt b 8 2) || dirtyFrom b 10

/-- WEIGHT_FREE (R444). -/
def weightFreeEnd (s : State) (r : MReq) : MEnd :=
  let n := fieldAt r.pkt 8 2
  match s.weight? n with
  | none => failWith stNoSuch
  | some w =>
    if 0 < w.grants ∨ s.weightReached w then failWith stBusy
    else
      let s := w.copies.foldl (fun s c => s.freeCopy w c) s
      okWith (s.onPart fun p => { p with weights := p.weights.filter fun w => decide (w.num ≠ n) })

/-- The row checks `weightFreeBad` and runs `weightFreeEnd`. -/
def execWeightFree (m : MgmtRun) (s : State) : Host.Outcome State Fault Refusal :=
  mgmtRow m 0x60A s weightFreeBad (weightFreeEnd s)

end Sys2Proof.Machine
end

