-- ==== Sys2Proof/Machine/Migrate.lean ====
section
/-! DEFINITION. The migration family of management commands (R455–R459, R335). -/

namespace Sys2Proof.Config

/-- The plaintext of a section of a migration image, by type and number among the sections of its type: R457 says what a
section holds and gives the bytes no layout. -/
opaque sectionBytes : Nat → Nat → Machine.SliceImage → List (BitVec 8)

/-- The slice that an image carries, once its chunks are opened under the content key (R458). -/
opaque openImage : List (BitVec 8) → Machine.SliceImage

end Sys2Proof.Config

namespace Sys2Proof.Machine

/-! Freeze (R335, R455, R456) -/

/-- The migrations out of and into the part. -/
def State.migrations (s : State) : Nat := (s.vds.filter fun d => d.mig.isSome).length

/-- Every unit of a slice is off its hardware (steps 1 to 4 of R401). -/
def State.liftAll (s : State) (v : Nat) : State :=
  (s.vd v).hold.units.foldl (fun s u => match s.unitSite u with | some i => s.liftUnit v i u | none => s) s

/-- A stream freezes: its state is kept for the thaw. -/
def Stream.freeze (t : Stream) : Stream :=
  if t.state = .free ∨ t.state = .frozen then t else { t with before := t.state, state := .frozen }

/-- A stream thaws. -/
def Stream.thaw (t : Stream) : Stream := if t.state = .frozen then { t with state := t.before, before := .free } else t

/-- Fetch stops, FROZEN is posted, and the units are pre-empted. -/
def State.freeze (s : State) (v : Nat) : State :=
  let s := s.onVd v fun d => { d with
    mig := some ⟨0, false, 0, 0, 0⟩
    fe := { d.fe with frozen := true, streams := d.fe.streams.map (·.freeze) } }
  (s.event v (s.homeSite v) 0x08 0 0).liftAll v

/-- A unit of a slice stands off its hardware. -/
def State.unitLifted (s : State) (v : Nat) (u : UnitBind) : Bool :=
  match s.unitSite u with
  | some i =>
    let x := (s.core i u.core).unit u.quad
    decide (x.resident ≠ some v) && decide (x.switching ≠ some v)
  | none => true

/-- The freeze is complete: units saved, DMA, cluster-engine and fabric commands run out, and no transaction open; an armed
landing window stays armed, and a retry-needed command waits for its restore. -/
def State.frozenQuiet (s : State) (v : Nat) : Bool :=
  let d := s.vd v
  (d.hold.units.all fun u => s.unitLifted v u) &&
  (d.fe.streams.all fun t => t.queue.all fun k =>
    decide (k.phase ≠ .issued) || onCoreEngine k || decide (k.op = 0x112) || !k.retry.isEmpty) &&
  s.sites.all fun t => t.net.txns.all fun x => match x.cmd with | some c => decide (c.vd ≠ v) | none => true

/-- What makes the packet MALFORMED. -/
def migrateFreezeBad (b : Bytes) : Bool :=
  dirtyFrom b 9

/-- MIGRATE_FREEZE (R455, R456): a slice that spans parts is DENIED, a fifth migration BUSY. -/
def migrateFreezeEnd (s : State) (r : MReq) : MEnd :=
  let v := fieldAt r.pkt 8 1
  s.shapes v fun d =>
    let ended (s : State) : MEnd :=
      if s.frozenQuiet v then
        okWith (s.onVd v fun d => { d with
          mig := d.mig.map fun g => { g with step := 1, report := Config.sha384 (s.sliceReport v (zeros 32)) } })
      else .later s
    if r.started then ended (s.liftAll v)
    else if d.mig.isSome then failWith stWrongState
    else if d.partList ≠ [s.partId] then failWith stDenied
    else if 4 ≤ s.migrations then failWith stBusy
    else ended (s.freeze v)

/-- The row checks `migrateFreezeBad` and runs `migrateFreezeEnd`. -/
def execMigrateFreeze (m : MgmtRun) (s : State) : Host.Outcome State Fault Refusal :=
  mgmtRow m 0x901 s migrateFreezeBad (migrateFreezeEnd s)

/-! Peer -/

/-- The migration out of a slice, at one of some steps. -/
def Vd.leaving (d : Vd) (steps : List Nat) : Option Migration := d.mig.filter fun g => !g.incoming && steps.contains g.step

/-- A session of the lead with another part: the lowest free of slots 965 to 972 (R434). -/
def Part.freeSession (p : Part) : Option Nat :=
  ((List.range 8).map (· + 965)).find? fun n => !p.sessions.any fun x => decide (x.1 = n)

/-- The session of a migration ends. -/
def State.endSession (s : State) (g : Migration) : State :=
  s.onPart fun p => { p with sessions := p.sessions.filter fun x => decide (x.1 ≠ g.session) }

/-- Changes the migration of a slice. -/
def State.onMig (s : State) (v : Nat) (f : Migration → Migration) : State := s.onVd v fun d => { d with mig := d.mig.map f }

/-- What makes the packet MALFORMED. -/
def migratePeerBad (b : Bytes) : Bool :=
  dirtyAt b 9 1 || badPart b 10 || dirtyFrom b 12

/-- MIGRATE_PEER (R439, R455): a session with the lead of an accepted peer. -/
def migratePeerEnd (s : State) (m : MgmtRun) (r : MReq) : MEnd :=
  let (v, dst) := (fieldAt r.pkt 8 1, s.partField r.pkt 10)
  s.shapes v fun d =>
    match d.leaving [1], s.part.freeSession with
    | none, _ => failWith stWrongState
    | some _, n =>
      if dst = s.partId ∨ m.peer.part ≠ dst ∨ !s.accepts m.peer then failWith stDenied
      else match n with
        | none => failWith stNoResource
        | some n => okWith ((s.onPart fun p => { p with sessions := (n, dst) :: p.sessions }).onMig v fun g =>
            { g with step := 2, peer := dst, session := n })

/-- The row checks `migratePeerBad` and runs `migratePeerEnd`. -/
def execMigratePeer (m : MgmtRun) (s : State) : Host.Outcome State Fault Refusal :=
  mgmtRow m 0x902 s migratePeerBad (migratePeerEnd s m)

/-! The image (R457) -/

/-- Contents of a tenant page in plaintext. -/
def Site.pageBytes (t : Site) (ns page : Nat) : Bytes :=
  match t.entry? ns page with
  | some e => (t.tier e.slow).data.read (e.ppn * 65536) 65536
  | none => zeros 65536

/-- The scratch units of a slice in a cluster. -/
def Cluster.scratchOf (c : Cluster) (v : Nat) : List Nat :=
  (List.range 64).filter fun k => decide (c.alloc.getD k .free = .scratch v)

/-- What a frozen slice holds. -/
def State.sliceImage (s : State) (v : Nat) : SliceImage :=
  let d := s.vd v
  let saved (u : UnitBind) : Option (Nat × Image) := match s.unitSite u with
    | some i => (((s.core i u.core).unit u.quad).images.find? fun m => decide (m.slice = v)).map fun m => (u.num, m)
    | none => none
  let pages (o : Obj) : List (Nat × Nat × Bytes) :=
    if o.cls = .priv ∧ o.state ≠ .released then
      (List.range (ceilDiv o.size 65536)).map fun k =>
        (o.index, k, (s.site (s.siteOf (o.home % 8))).pageBytes o.ns (o.base + k))
    else []
  let clusters : List (Nat × Nat × Cluster) := s.sites.flatMap fun t => t.clusters.zipIdx.map fun (c, n) => (t.id, n, c)
  { vd := d
    units := d.hold.units.filterMap saved
    pages := d.sp.objs.flatMap pages
    scratch := clusters.flatMap fun (t, n, c) =>
      if (c.scratchOf v).isEmpty then []
      else [(t, n, (c.scratchOf v).flatMap fun k => c.clm.read (k * 1048576) 1048576)]
    windows := clusters.flatMap fun (t, n, c) => (c.windows.filter fun w => decide (w.slice = v)).map fun w => (t, n, w)
    budgets := s.sites.flatMap fun t => (t.watch.budgets.filter fun b => decide (b.slice = v)).map fun b => (t.id, b)
    guards := s.sites.flatMap fun t => (t.watch.guards.filter fun g => decide (g.slice = v)).map fun g => (t.id, g)
    groups := s.sites.flatMap fun t => (t.net.groups.filter fun g => decide (g.slice = v)).map fun g => (t.id, g) }

/-- The sections before END, with their types. -/
def SliceImage.sections (x : SliceImage) : List (Nat × Bytes) :=
  [(1, Config.sectionBytes 1 0 x), (2, Config.sectionBytes 2 0 x), (3, Config.sectionBytes 3 0 x)] ++
  (x.units.zipIdx.map fun (_, n) => (4, Config.sectionBytes 4 n x)) ++
  [(5, x.pages.flatMap fun p => p.2.2), (6, x.scratch.flatMap fun p => p.2.2), (7, Config.sectionBytes 7 0 x)]

/-- Chunks of at most 64 KiB. -/
def imageChunks (b : Bytes) : List Bytes := (List.range (ceilDiv b.length 65536)).map fun k => (b.drop (65536 * k)).take 65536

/-- A section as the image carries it: each chunk encrypted, its tag behind it. -/
def sealSection (key : BitVec 256) (seq n : Nat) (aad b : Bytes) : List Bytes :=
  (imageChunks b).zipIdx.map fun (c, k) =>
    padTo (c.length + 16) (Config.gcmSeal key (seq % 2 ^ 48 * 2 ^ 48 + n * 2 ^ 32 + k) aad c)

/-- Bytes of the whole image of sections of these lengths. -/
def imageLength (lens : List Nat) : Nat :=
  256 + 16 * lens.length + (lens.map fun n => n + 16 * ceilDiv n 65536).foldl (· + ·) 0

/-- The section table. -/
def sectionTable (l : List (Nat × Nat)) : Bytes :=
  l.flatMap fun (type, n) => leBytes 2 type ++ zeros 2 ++ leBytes 4 (ceilDiv n 65536) ++ leBytes 8 n

/-- The image of a slice under a content key. -/
def State.imageBytes (s : State) (x : SliceImage) (g : Migration) (seq : Nat) (key : BitVec 256) : Bytes :=
  let secs := x.sections
  let lens := (secs.map fun p => (p.1, p.2.length)) ++ [(0xFF, 48)]
  let header := leBytes 2 1 ++ leBytes 2 lens.length ++ leBytes 4 g.session ++ leBytes 8 seq ++
    leBytes 8 (imageLength (lens.map (·.2))) ++ digestBytes (s.site s.lead).idHash ++ digestBytes (Config.peerId g.peer) ++
    padTo 40 (Config.aesWrap key) ++ digestBytes g.report ++ zeros 48
  let table := sectionTable lens
  let aad := digestBytes (Config.sha384 (header ++ table))
  let sealed := secs.zipIdx.flatMap fun (p, n) => sealSection key seq n aad p.2
  let tags := sealed.flatMap fun c => c.drop (c.length - 16)
  header ++ table ++ sealed.flatten ++
    (sealSection key seq secs.length aad (digestBytes (Config.sha384 tags))).flatten

/-- What makes the packet MALFORMED. -/
def migrateSaveBad (b : Bytes) : Bool :=
  dirtyAt b 9 7 || dirtyFrom b 32

/-- MIGRATE_SAVE (R457, R459): the image to a PF buffer, once a reset that meets the slice is over; TOTAL_LEN also where
the buffer is too short. -/
def migrateSaveEnd (s : State) (m : MgmtRun) (r : MReq) : MEnd :=
  let (v, buf, len) := (fieldAt r.pkt 8 1, fieldAt r.pkt 16 8, fieldAt r.pkt 24 8)
  s.shapes v fun d =>
    match d.leaving [2] with
    | none => failWith stWrongState
    | some g =>
      if s.resetting v then .wait
      else
        let x := s.sliceImage v
        let total := imageLength ((x.sections.map fun p => p.2.length) ++ [48])
        if len < total then .fail stNoResource (leBytes 8 total)
        else if m.pfFault then failWith stPfFault
        else
          let (key, s) := s.drawSecret
          let seq := s.part.imageSeq + 1
          let s := (s.onPart fun p => { p with imageSeq := seq }).onMig v fun g => { g with step := 3 }
          okWith (s.emit (.hostWrite (256 + s.lead) buf (s.imageBytes x g seq key))) (leBytes 8 total)

/-- The row checks `migrateSaveBad` and runs `migrateSaveEnd`. -/
def execMigrateSave (m : MgmtRun) (s : State) : Host.Outcome State Fault Refusal :=
  mgmtRow m 0x903 s migrateSaveBad (migrateSaveEnd s m)

/-! Restore (R456, R458) -/

/-- A command reference under another virtual device number. -/
def underVd (v : Nat) (c : CmdRef) : CmdRef := { c with vd := v }

/-- The bytes of an opened image as a memory in its one form. -/
def Mem.canon (m : Mem) : Mem := m.foldl (fun x c => x.write c.1 [c.2]) []

/-- A save image under another slice number. -/
def Image.under (m : Image) (v : Nat) : Image :=
  { m with
    slice := v
    cmem := m.cmem.canon
    acc := m.acc.canon
    ses := m.ses.map fun (e : Se) => { e with cmd := e.cmd.map (underVd v) }
    halves := m.halves.map fun (h : Half) => { h with
      cmd := h.cmd.map (underVd v), waiters := h.waiters.map fun x => (x.1, v, x.2.2) }
    tickets := m.tickets.map fun (t : Ticket) => { t with cmd := t.cmd.map (underVd v) }
    moves := m.moves.map fun (y : Move) => { y with cmd := y.cmd.map (underVd v) } }

/-- Where a unit of an image finds hardware on a site: the lowest core and quadrant that can take it. -/
def State.findPlace (s : State) (v i : Nat) (u : UnitBind) : Option (Nat × Option Nat) :=
  let qs : List (Option Nat) := if u.quad.isNone then [none] else [some 0, some 1, some 2, some 3]
  ((List.range 6).flatMap fun p => qs.map fun q => (p, q)).find? fun x => (s.unitCheck v i x.1 x.2 u.reel).isNone

/-- Binds the units of an image, each under its number and with its saved state. -/
def loadUnits (v : Nat) (place : Nat → Nat) (x : SliceImage) : List UnitBind → State → Except W16 State
  | [], s => .ok s
  | u :: rest, s =>
    let i := place u.inst
    match s.findPlace v i u with
    | none => .error stNoResource
    | some (p, q) =>
      match s.bindHere v i p q u.num u.reel u.quantum with
      | .error st => .error st
      | .ok s => loadUnits v place x rest (s.onUnit i p q fun k => { k with
          resident := if k.resident = some v then none else k.resident
          images := k.images ++ ((x.units.filter fun y => decide (y.1 = u.num)).map fun y => y.2.under v) })

/-- Allots what the image lists. -/
def loadAllots (v : Nat) (place : Nat → Nat) (m : MgmtRun) : List Allot → State → Except W16 State
  | [], s => .ok s
  | a :: rest, s =>
    match s.setAllot v a.kind s.partId (s.site (place a.inst)).id a.cluster a.count 0 m with
    | .error st => .error st
    | .ok s => loadAllots v place m rest s

/-- Writes a page of an object: sub-pages of zeros stay as a new page has them. -/
def State.loadPage (s : State) (v i ns page : Nat) (b : Bytes) : State :=
  match (s.site i).entry? ns page with
  | none => s
  | some e => s.onSite i fun t => (List.range 16).foldl (fun t j =>
      let c := (b.drop (4096 * j)).take 4096
      if anySet c then t.writeSub e.slow e.ppn (4096 * j) c (s.vd v).slot true else t) t

/-- Draws and fills the objects of an image: a private one takes new tenant pages. -/
def loadObjs (v : Nat) (place : Nat → Nat) (x : SliceImage) : List Obj → State → Except W16 State
  | [], s => .ok s
  | o :: rest, s =>
    let add (s : State) (o : Obj) : State := s.onSp v fun p => { p with objs := p.objs ++ [o] }
    if o.state = .released then loadObjs v place x rest (add s o)
    else if o.cls = .priv then
      let i := place (o.home % 8)
      match s.drawObject i v o.ns (ceilDiv o.size 65536) o.policy with
      | none => .error stNoResource
      | some (base, s) =>
        let mine := x.pages.filter fun p => decide (p.1 = o.index)
        let s := mine.foldl (fun s p => s.loadPage v i o.ns (base + p.2.1) p.2.2) s
        loadObjs v place x rest (add s { o with home := s.addrOf i, base := base })
    else loadObjs v place x rest (add s { o with home := (s.vd v).home })

/-- The fabric address of a byte of the slice after the restore. -/
def reAddr (old new : List Obj) (dst addr : Nat) : Nat × Nat :=
  let (ns, page, off) := splitAddr addr
  match old.find? fun o => decide (o.cls = .priv) && decide (o.home = dst) && decide (o.ns = ns) && decide (o.base ≤ page) &&
      decide (page < o.base + ceilDiv o.size 65536) with
  | none => (dst, addr)
  | some o => match new.find? fun n => decide (n.index = o.index) with
    | some n => (n.home, joinAddr ns (n.base + (page - o.base)) off)
    | none => (dst, addr)

/-- A key of `Cmd.got` after the restore. -/
def reKey (old new : List Obj) (k : Nat) : Nat :=
  if k < 2 ^ 64 then k
  else
    let a := reAddr old new ((k - 2 ^ 64) / 2 ^ 47) ((k - 2 ^ 64) % 2 ^ 47)
    fabKey a.1 a.2

/-- A request after the restore: to the new place, under the new slot. -/
def reReq (old new : List Obj) (slot : Nat) (r : Req) : Req :=
  let a := reAddr old new r.dst r.addr
  { r with dst := a.1, addr := a.2, slot := slot }

/-- A placed command after the restore. -/
def Cmd.moved (k : Cmd) (old new : List Obj) (v slot : Nat) : Cmd :=
  { k with
    asks := k.asks.map fun (a : Ask) => { a with key := reKey old new a.key }
    got := k.got.map fun g => (reKey old new g.1, g.2)
    unsent := k.unsent.map (reReq old new slot)
    retry := k.retry.map fun (x : Txn) =>
      let r := reReq old new slot x.req
      { x with cmd := x.cmd.map (underVd v), dst := r.dst, addr := r.addr, slot := slot, req := r } }

/-- Retry-needed reads and writes are issued again; any other retry-needed request ends its command FABRIC_TIMEOUT
(R456). -/
def State.retryAll (s : State) (v : Nat) : State :=
  let refs : List (CmdRef × Cmd) := (s.vd v).fe.streams.zipIdx.flatMap fun (t, n) =>
    (t.queue.filter fun k => !k.retry.isEmpty).map fun k => (⟨v, n, k.id⟩, k)
  refs.foldl (fun (s : State) ((c, k) : CmdRef × Cmd) =>
    let s := s.onCmd c fun k => { k with retry := [] }
    let s := k.retry.foldl (fun (s : State) (x : Txn) =>
      if x.kind = .read ∨ x.kind = .fill ∨ x.kind = .write then s.onCmd c fun k => { k with unsent := k.unsent ++ [x.req] }
      else s.requestFails c x stFabricTimeout) s
    (s.pump c).settle (((s.job? c).map (·.i)).getD 8) c) s

/-- Loads the scratch, windows, budgets, guarantees and groups of an image. -/
def State.loadRest (s : State) (v : Nat) (place : Nat → Nat) (x : SliceImage) : State :=
  let s := x.scratch.foldl (fun s (inst, n, b) => s.onSite (place inst) (·.onCluster n fun c => { c with
    clm := (c.scratchOf v).zipIdx.foldl (fun m (k, j) => m.write (k * 1048576) ((b.drop (1048576 * j)).take 1048576)) c.clm })) s
  let s := x.windows.foldl (fun (s : State) (inst, n, w) => s.onSite (place inst) (·.onCluster n fun c => { c with
    windows := c.windows ++ [{ w with slice := v, cmd := underVd v w.cmd }] })) s
  let s := x.budgets.foldl (fun (s : State) (inst, b) => s.onWatch (place inst) fun w => { w with
    budgets := w.budgets ++ [{ b with slice := v }] }) s
  let s := x.guards.foldl (fun (s : State) (inst, g) => s.onWatch (place inst) fun w => { w with
    guards := w.guards ++ [{ g with slice := v }] }) s
  x.groups.foldl (fun (s : State) (inst, g) => s.onNet (place inst) fun n => { n with
    groups := n.groups ++ [{ g with slice := v }] }) s

/-- The instances that an image names, its home first. -/
def SliceImage.insts (x : SliceImage) : List Nat :=
  ((x.vd.home % 8) :: (x.vd.hold.units.map (·.inst) ++ x.vd.hold.allots.map (·.inst))).eraseDups

/-- Loads an image as slice `v` under a new slot: its home on site `home`, its other instances on the other present ones in
order. -/
def State.loadSlice (s : State) (v home vf slot : Nat) (x : SliceImage) (m : MgmtRun) : Except W16 State :=
  let others := (List.range 8).filter fun i => decide (i ≠ home) && (s.site i).present
  let places := x.insts.zip (home :: others)
  let place (n : Nat) : Nat := lookupD places n 8
  let d := x.vd
  let hold : Holdings := { labels := d.hold.labels, mcRanges := d.hold.mcRanges, policy := d.hold.policy }
  if places.length < x.insts.length then .error stNoResource
  else
    let (key, s) := s.drawSecret
    let s := s.onVd v fun _ => { d with
      live := true, home := s.partId * 8 + (s.site home).id, port := (s.site home).id, vf := vf, slot := slot
      hold := hold, sp := { d.sp with objs := [] }, tdi := .unlocked, ideStream := 0, removal := none, restored := true
      mig := some ⟨5, true, m.peer.part, 0, 0⟩
      fe := { d.fe with frozen := true } }
    let s := (s.fillSlot home slot v ((s.site home).slotGen slot) key).relist v
    match loadAllots v place m d.hold.allots s with
    | .error st => .error st
    | .ok s =>
      match loadUnits v place x d.hold.units s with
      | .error st => .error st
      | .ok s =>
        match loadObjs v place x d.sp.objs s with
        | .error st => .error st
        | .ok s =>
          let new := (s.vd v).sp.objs
          let s := s.onFe v fun f => { f with streams := f.streams.map fun (t : Stream) => { t with
            queue := t.queue.map fun k => k.moved d.sp.objs new v slot } }
          .ok (((s.loadRest v place x).relist v).retryAll v)

/-- What makes the packet MALFORMED. -/
def migrateRestoreBad (b : Bytes) : Bool :=
  byteOver b 8 8 || decide (fieldAt b 9 1 = 0) || dirtyAt b 10 6 || dirtyFrom b 32

/-- MIGRATE_RESTORE (R439, R455, R458, R459): a checked image is loaded into new resources under a new secret; nothing of
it stays where that fails. -/
def migrateRestoreEnd (s : State) (m : MgmtRun) (r : MReq) : MEnd :=
  let b := r.pkt
  s.atPort (fieldAt b 8 1) fun home =>
    let seq := fieldAt m.buf 8 8
    let slot := (List.range 960).find? fun n => (List.range 8).all fun i => !(s.site i).present || (s.site i).slotFree n
    let taken := (s.vdsOn home).any fun v => decide ((s.vd v).vf = fieldAt b 9 1)
    if s.part.debug then failWith stDenied
    else if m.pfFault then failWith stPfFault
    else if s.unsettled || !m.peer.settled then failWith stUnsettled
    else if !s.accepts m.peer || s.part.restored.contains (m.peer.part, seq) then failWith stDenied
    else if 4 ≤ s.migrations || taken then failWith stBusy
    else if fieldAt m.buf 0 2 ≠ 1 ∨ m.buf.length < fieldAt m.buf 16 8 ∨ !m.sigOk then failWith stIntegrityFail
    else match slot, (List.range 256).find? fun v => !(s.vd v).live with
      | some n, some v =>
        match s.loadSlice v home (fieldAt b 9 1) n (Config.openImage m.buf) m with
        | .error st => failWith st
        | .ok s => okWith (s.onPart fun p => { p with restored := (m.peer.part, seq) :: p.restored })
            (leBytes 1 v ++ leBytes 1 v)
      | _, _ => failWith stNoResource

/-- The row checks `migrateRestoreBad` and runs `migrateRestoreEnd`. -/
def execMigrateRestore (m : MgmtRun) (s : State) : Host.Outcome State Fault Refusal :=
  mgmtRow m 0x904 s migrateRestoreBad (migrateRestoreEnd s m)

/-! The end of a migration -/

/-- What makes the packet MALFORMED. -/
def migrateCommitBad (b : Bytes) : Bool :=
  dirtyFrom b 9

/-- MIGRATE_COMMIT (R455): the target has reported success in the session; the session ends and the slice is torn down. -/
def migrateCommitEnd (s : State) (m : MgmtRun) (r : MReq) : MEnd :=
  let v := fieldAt r.pkt 8 1
  s.shapes v fun d =>
    match d.leaving [3] with
    | none => failWith stWrongState
    | some g =>
      if farAnswer m 0 ≠ stOk then failWith (farAnswer m 0)
      else okWith ((s.endSession g).onVd v fun d => { d with mig := none, removal := some ⟨0, 3, none⟩ })

/-- The row checks `migrateCommitBad` and runs `migrateCommitEnd`. -/
def execMigrateCommit (m : MgmtRun) (s : State) : Host.Outcome State Fault Refusal :=
  mgmtRow m 0x905 s migrateCommitBad (migrateCommitEnd s m)

/-- What makes the packet MALFORMED. -/
def migrateCancelBad (b : Bytes) : Bool :=
  dirtyFrom b 9

/-- MIGRATE_CANCEL (R455): the session ends; the source stays frozen until MIGRATE_THAW. -/
def migrateCancelEnd (s : State) (r : MReq) : MEnd :=
  let v := fieldAt r.pkt 8 1
  s.shapes v fun d =>
    match d.leaving [1, 2, 3] with
    | none => failWith stWrongState
    | some g => okWith ((s.endSession g).onMig v fun g => { g with step := 7 })

/-- The row checks `migrateCancelBad` and runs `migrateCancelEnd`. -/
def execMigrateCancel (m : MgmtRun) (s : State) : Host.Outcome State Fault Refusal :=
  mgmtRow m 0x906 s migrateCancelBad (migrateCancelEnd s)

/-- A thawed slice comes back to its units: a unit of its own at once, a shared one through a switch window. -/
def State.landAll (s : State) (v : Nat) : State :=
  (s.vd v).hold.units.foldl (fun s u =>
    match s.unitSite u with
    | none => s
    | some i =>
      let x := (s.core i u.core).unit u.quad
      if x.resident.isSome || x.switching.isSome then s
      else if x.reel then s.onUnit i u.core u.quad fun x => { x with switching := some v }
      else s.restore i u.core u.quad v) s

/-- The stream states from before the freeze hold again, and THAWED is posted (R335). -/
def State.thaw (s : State) (v : Nat) : State :=
  let s := s.onVd v fun d => { d with
    mig := none, fe := { d.fe with frozen := false, streams := d.fe.streams.map (·.thaw) } }
  ((s.event v (s.homeSite v) 0x09 0 0).landAll v).retryAll v

/-- What makes the packet MALFORMED. -/
def migrateThawBad (b : Bytes) : Bool :=
  dirtyFrom b 9

/-- MIGRATE_THAW (R455): of a restored slice once the commit is through, a TDI not before RUN, or of a cancelled one. -/
def migrateThawEnd (s : State) (m : MgmtRun) (r : MReq) : MEnd :=
  let v := fieldAt r.pkt 8 1
  s.shapes v fun d =>
    match d.mig with
    | none => failWith stWrongState
    | some g =>
      if g.step = 7 then okWith (s.thaw v)
      else if !g.incoming || decide (g.step ≠ 5) || decide (farAnswer m 0 ≠ stOk) then failWith stWrongState
      else if d.conf ∧ d.tdi ≠ .run then failWith stBusy
      else okWith (s.thaw v)

/-- The row checks `migrateThawBad` and runs `migrateThawEnd`. -/
def execMigrateThaw (m : MgmtRun) (s : State) : Host.Outcome State Fault Refusal :=
  mgmtRow m 0x907 s migrateThawBad (migrateThawEnd s m)

end Sys2Proof.Machine
end

