-- ==== Sys2Proof/Machine/Boot.lean ====
section
/-! DEFINITION. Start-up (R4, R21–R23, R530, R582–R584), the membership of the part (R3, R37, R38), cold reset (R440, R562),
debug unlock and the TAP (R465–R467, R558). -/

namespace Sys2Proof.Machine

/-! Grades and cores (R4, R21–R26) -/

/-- The grade that the grade-cap straps allow (R25). -/
def strapGrade (n : Nat) : Nat := if n = 1 then 4 else if n = 2 then 5 else 6

/-- The cores chosen by the procedure of R22, from the good ones. -/
def pickCores (good g : Nat) : Nat → Nat → Nat → Nat → Nat
  | 0, en, _, _ => en
  | fuel + 1, en, n, c =>
    if n < g ∧ (List.range 6).any fun p => good.testBit p && !en.testBit p then
      match (List.range 6).find? fun p => good.testBit p && !en.testBit p && decide (p / 3 = c) with
      | some p => pickCores good g fuel (en ||| 2 ^ p) (n + 1) (1 - c)
      | none => pickCores good g fuel en n (1 - c)
    else en

/-- Bits of a mask of cores. -/
def coresOf (m : Nat) : List Nat := (List.range 6).filter fun p => m.testBit p

/-- BLK_CORE_MAP of a set of enabled cores: logical numbers in ascending physical order (R23, R26). -/
def coreMap (enabled : Nat) : Nat := ((coresOf enabled).zipIdx.map fun (p, l) => (8 + p) <<< (4 * l)).foldl (· + ·) 0

/-- BLK_GRADE (R25). -/
def gradeWord (good enabled eff cap cert : Nat) : Nat :=
  (good &&& (63 ^^^ enabled)) <<< 24 + enabled <<< 18 + good <<< 12 + (coresOf enabled).length <<< 9 + eff <<< 6 +
    cap <<< 3 + cert

/-! Configuration records (R529, R530) -/

/-- HLT_CFGREC.STATE of a record as it was read. -/
def recState (r : RecordRead) : Nat := if r.conflict then 2 else if r.valid = 0 then 3 else 1

/-- The state of record class `k + 1`; one not given reads as with no valid copy. -/
def bootRecord (b : BootInput) (k : Nat) : RecordRead := b.records.getD k ⟨0, 0, 0, false⟩

/-- HLT_CFGREC of a class. -/
def recordWord (r : RecordRead) : Nat :=
  r.seqLow.toNat <<< 16 + r.valid.toNat <<< 5 + (r.winner % 4) <<< 3 + recState r

/-- Failing rows of a core that the spare map lists, or BIST found: bank and row. -/
def bootRows (b : BootInput) (p : Nat) : List (Nat × Nat) :=
  (b.spareRows.filter fun x => decide (x.1 = p)).map (·.2)

/-- A core is good (R21, R127, R191): BIST passed it, with at most one vector engine failing and two rows a bank, and the
spare map does not list it. -/
def bootGood (b : BootInput) (p : Nat) : Bool :=
  b.bistGood.getLsbD p && !(b.mapBad.getLsbD p && decide (recState (bootRecord b 1) ≠ 3)) &&
  decide ((b.veFailed.filter fun x => decide (x.1 = p)).eraseDups.length ≤ 1) &&
  (List.range 64).all fun n => decide ((((bootRows b p).eraseDups).filter fun r => decide (r.1 = n)).length ≤ 2)

/-! Step by step (R582, R584) -/

/-- Default target of a shared source (R498), as IRQ_SRC.TARGET holds it; none for a reserved number. -/
def defaultTarget (n : Nat) : Option Nat :=
  if n = 0x40 then some 0
  else if n = 0x41 then some 0x41
  else if n = 0x42 then some 0x40
  else if n = 0x43 then some 0x41
  else if n = 0x44 ∨ n = 0x45 then some 0x42
  else if n = 0x46 ∨ n = 0x47 then some 1
  else if 0x48 ≤ n ∧ n ≤ 0x56 then some 2
  else if n = 0x57 then some 1
  else if 0x58 ≤ n ∧ n ≤ 0x64 then some 3
  else if n = 0x65 ∨ n = 0x66 then some 1
  else if 0x67 ≤ n ∧ n ≤ 0x73 then some 0
  else if 0x74 ≤ n ∧ n ≤ 0x83 then some 0x43
  else if n = 0x84 then some 0
  else if 0x100 ≤ n ∧ n ≤ 0x1FF then some 1
  else none

/-- Firmware loads the defaults of R498. -/
def Site.irqDefaults (t : Site) : Site :=
  (List.range 448).foldl (fun t k => match defaultTarget (0x40 + k) with
    | some x => (t.setFld (rIrqSrc k) Fld.irqSrcTarget x).setFld (rIrqSrc k) Fld.irqSrcEn 1
    | none => t) t

/-- The vector-engine map of a core: logical engines on its good physical ones in order, the one left over as the spare
(R127–R130). -/
def Site.bootVes (t : Site) (p : Nat) (failed : List Nat) : Site :=
  let good := (List.range 13).filter fun e => !failed.contains e
  let t := (List.range 12).foldl (fun t l => t.setVeMap p l (good.getD l 0)) t
  let t := (t.setFld (rVeMapHi p) Fld.veMapHiSpare (good.getD 12 0xF)).setFld (rVeMapHi p) Fld.veMapHiValid 1
  t.onCore p fun c => { c with ves := c.ves.zipIdx.map fun (v, e) => { v with offline := failed.contains e } }

/-- Steps 1 to 3: straps, clocks and the identity key; `flash` is what the boot header holds. -/
def bootSite (t : Site) (i : Nat) (b : BootInput) : Site :=
  let x : Site := {
    id := b.id % 8
    pins := { coldRstN := true, leadStrap := b.lead, clamp := b.clamp, perstN := t.pins.perstN }
    flash := { t.flash with
      bankPtr := b.bankPtr % 2, minSvn := b.minSvn, svn := [b.svnA, b.svnB], bankOk := [b.bankAOk, b.bankBOk]
      pending := false, fellBack := false } }
  let x := if b.blkId.toNat = 0x4090402 then x else x.setReg rBlkId b.blkId
  let x := (x.setFld rClkLock Fld.clkLockAon 1).setFld rPwrBoot Fld.pwrBootStep 2
  if !b.pufOk then { x with out := true }
  else
    let x := { x with idKey := Config.idSeed i }.setFld rSecState Fld.secStateIdValid 1
    if !b.loopsOk then { x.setFld rPwrBoot Fld.pwrBootFail 1 with out := true }
    else
      let x := (x.setReg rClkLock 0x7FE).setFld rPwrBoot Fld.pwrBootStep 3
      { x with pins := { x.pins with pswEn := 0x3000, pswAck := 0x3000 } }

/-- Step 4: the named bank, or the other one; none where both fail. -/
def bootBank (b : BootInput) : Option Nat :=
  let ok (k : Nat) : Bool := (if k = 0 then b.bankAOk else b.bankBOk) && decide (b.minSvn ≤ if k = 0 then b.svnA else b.svnB)
  let n := b.bankPtr % 2
  if ok n then some n else if ok (1 - n) then some (1 - n) else none

/-- Step 5: the three records, a conflicting class reported (R530). -/
def State.bootRecords (s : State) (i : Nat) (b : BootInput) : State :=
  (List.range 3).foldl (fun s k =>
    let r := bootRecord b k
    let s := s.onSite i fun t => { t.setReg (rHltCfgrec k) (BitVec.ofNat 32 (recordWord r)) with
      flash := { t.flash with recSeq := t.flash.recSeq.set k r.seqLow.toNat } }
    if recState r = 1 then s else s.report i 0x07 0 (leBytes 1 (k + 1) ++ leBytes 1 (s.site i).id ++ leBytes 1 0)) s

/-- Step 6: BIST, grades, maps and the power of the cores (R4, R22–R24). -/
def State.bootCores (s : State) (i : Nat) (b : BootInput) : State :=
  let good := ((List.range 6).filter (bootGood b)).map (2 ^ ·) |>.foldl (· + ·) 0
  let cap := strapGrade b.gradeCap
  let cert := if recState (bootRecord b 0) = 1 then b.certGrade % 8 else 4
  let eff := min cap cert
  let enabled := pickCores good eff 12 0 0 0
  let n := (coresOf good).length
  let s := if n < eff then s.report i 0x02 1 (leBytes 1 3 ++ leBytes 1 (((List.range 6).find? fun p => !good.testBit p).getD 0)) else s
  let failed (p : Nat) : List Nat := (b.veFailed.filter fun x => decide (x.1 = p)).map (·.2)
  let s := s.onSite i fun t =>
    let t := t.setReg rBlkGrade (BitVec.ofNat 32 (gradeWord good enabled eff cap cert))
    let t := t.setReg rBlkCoreMap (BitVec.ofNat 32 (coreMap enabled))
    let t := t.setFld rSecSlots Fld.secSlotsSpareCells b.cellsLeft
    let t := (List.range 6).foldl (fun t p =>
      let rows := (bootRows b p).eraseDups
      let t := (t.onCore p fun c => { c with failing := rows }).onCore p (·.steer)
      if enabled.testBit p then (t.bootVes p (failed p)).setFld (rPwrCore p) Fld.pwrCoreState 0
      else
        let t := t.bootVes p (failed p)
        if good.testBit p then t else t.setFld (rHltDom p) Fld.hltDomState 4) t
    let bad := if recState (bootRecord b 2) = 3 then [] else b.retired
    let t := (t.onTier false fun r => { r with retired := (bad.filter fun x => decide (x.1 = 0)).map (·.2) }).onTier true fun r =>
      { r with retired := (bad.filter fun x => decide (x.1 ≠ 0)).map (·.2) }
    let on := BitVec.ofNat 16 (enabled + enabled * 64)
    { t with pins := { t.pins with pswEn := t.pins.pswEn ||| on, pswAck := t.pins.pswAck ||| on } }
  if n < 4 then s.onSite i fun t => { t.setFld rPwrBoot Fld.pwrBootFail 3 with out := true }
  else s.setFld i rPwrBoot Fld.pwrBootStep 6

/-- Step 7 begins: every memory port trains, die-to-die ports count as unwired until they report, the tree key is drawn and
the host port waits (R272, R440, R563). -/
def State.bootPorts (s : State) (i : Nat) : State :=
  let (key, s) := s.drawSecret
  let s := s.onSite i fun t =>
    let t := (List.range 6).foldl (fun t p => t.setFld (rMpPort p) Fld.mpPortState 1) t
    let t := (List.range 4).foldl (fun t j => t.setFld (rHltDom (domD2d j)) Fld.hltDomState 5) t
    { t.irqDefaults with blockKeys := [(962, key)] }
  s.hostLink i

/-- Start-up of a site up to the training of its ports (steps 1 to 6, R582, R584). -/
def State.startSite (s : State) (i : Nat) (b : BootInput) : State :=
  let s := s.onSite i fun t => bootSite t i b
  if (s.site i).out then s
  else match bootBank b with
    | none =>
      let s := s.onSite i fun t => { t.setFld rPwrBoot Fld.pwrBootFail 2 with out := true }
      if b.lead then s.assertFault i else s
    | some k =>
      let svn := if k = 0 then b.svnA else b.svnB
      let s := ((s.setFld i rPwrBoot Fld.pwrBootBank k).setFld i rSecState Fld.secStateSvn svn).setFld i rPwrBoot
        Fld.pwrBootStep 4
      let s := if k = b.bankPtr % 2 then s
        else (s.onSite i fun t => { t with flash := { t.flash with bankPtr := k } }).fwRecord i 3 k svn
      let s := (s.bootRecords i b).bootCores i b
      if (s.site i).out then s else s.bootPorts i

/-- COLD_RST_N_RELEASE (R582, R584): steps 1 to 6, and the start of step 7, whose training the ports report one by one. -/
def execColdRstNRelease (i : Nat) (b : BootInput) (s : State) : Host.Outcome State Fault Refusal :=
  .next (if 8 ≤ i ∨ (s.site i).pins.coldRstN then s else s.startSite i b)

/-- What stays of an instance in cold reset: straps and pins from outside, and its flash. -/
def Site.cold (t : Site) : Site :=
  { id := t.id
    pins := { leadStrap := t.pins.leadStrap, clamp := t.pins.clamp, perstN := t.pins.perstN }
    flash := t.flash }

/-- Virtual devices that a site takes with it: those homed there, and another part's whose units all lie there. -/
def State.goneWith (s : State) (i : Nat) : List Nat :=
  (List.range 256).filter fun v => (s.vd v).live &&
    (decide ((s.vd v).home = s.addrOf i) ||
      (!s.homed v && (s.vd v).hold.units.all fun u => decide (u.inst = (s.site i).id)))

/-- A site goes back to its state before start-up (R440, R562). -/
def State.coldSite (s : State) (i : Nat) : State :=
  let s := (s.workIn i 20).foldl (fun s (v, c) => s.killContext v c i) s
  let s := (s.goneWith i).foldl (fun s v => s.onVd v fun _ => {}) s
  let s := s.onSite i (·.cold)
  if s.part.lead = some i ∨ s.sites.all fun t => !t.pins.coldRstN then
    let seq := s.part.imageSeq
    let s := s.onPart fun _ => { imageSeq := seq }
    if s.sites.all fun t => !t.pins.coldRstN then { s with vds := List.replicate 256 {} } else s
  else s

/-- COLD_RST_N_ASSERT (R440, R562): nothing of the instance stays, keys included; with it go the slices homed there, and
with the lead, or the last instance, what the lead kept. -/
def execColdRstNAssert (i : Nat) (s : State) : Host.Outcome State Fault Refusal :=
  .next (if !(s.site i).pins.coldRstN then s else s.coldSite i)

/-! Membership (R3, R37, R38, R583) -/

/-- An instance has come through step 6 and takes part in step 7. -/
def Site.started (t : Site) : Bool := t.pins.coldRstN && !t.out && decide (6 ≤ t.fld rPwrBoot Fld.pwrBootStep)

/-- Step 7 is complete: no memory port trains any more. -/
def Site.trained (t : Site) : Bool :=
  t.started && (List.range 6).all fun p => decide (t.fld (rMpPort p) Fld.mpPortState ≠ 1)

/-- The lead of R37 among the sites of a list: the lowest id among lead straps that share their id with no other. -/
def State.electLead (s : State) (l : List Nat) : Option Nat :=
  let leads := l.filter fun i => (s.site i).pins.leadStrap
  let alone := leads.filter fun i => leads.all fun j => decide (j = i) || decide ((s.site j).id ≠ (s.site i).id)
  alone.foldl (fun best i => match best with
    | none => some i
    | some k => if (s.site i).id < (s.site k).id then some i else some k) none

/-- A mask of the ids of some sites, and the lowest of them. -/
def State.idMask (s : State) (l : List Nat) : Nat := (l.map fun i => (s.site i).id).foldl (fun m n => m ||| 2 ^ n) 0

/-- The strap conflicts of R37: kinds of record 0x07 and the ids involved. -/
def State.strapConflicts (s : State) (l : List Nat) : List (Nat × Nat) :=
  let leads := l.filter fun i => (s.site i).pins.leadStrap
  let twins := l.filter fun i => l.any fun j => decide (j ≠ i) && decide ((s.site j).id = (s.site i).id)
  (if 1 < leads.length then [(0x10, s.idMask leads)] else []) ++ (if twins.isEmpty then [] else [(0x11, s.idMask twins)]) ++
    if leads.isEmpty then [(0x12, s.idMask l)] else []

/-- The body of a CONFIG_CONFLICT record for a strap conflict (R492). -/
def conflictBody (k mask : Nat) : Bytes :=
  leBytes 1 k ++ leBytes 1 (((List.range 8).find? fun n => mask.testBit n).getD 0) ++ leBytes 1 mask

/-- Instances that are absent for the strap, identity and reachability rules. -/
def State.dropSites (s : State) (lead : Option Nat) (l : List Nat) : State :=
  let twin (i : Nat) : Bool := decide (lead ≠ some i) && l.any fun j => decide (j ≠ i) && decide ((s.site j).id = (s.site i).id)
  let drop (s : State) (bad : Nat → Bool) : State := l.foldl (fun s i => if bad i then s.onSite i fun t => { t with absent := true } else s) s
  let s := drop s twin
  match lead with
  | none => s
  | some k =>
    let s := drop s fun i => decide ((s.site i).reg rBlkId ≠ (s.site k).reg rBlkId)
    drop s fun i => !(s.site i).absent && !s.reach 8 k i

/-- Die-to-die routes that firmware computes: the up ports that lead to an instance in the fewest hops. -/
def State.d2dRoutes (s : State) (i : Nat) : State :=
  let hops (a b : Nat) : Nat := ((List.range 9).find? fun n => s.reach n a b).getD 9
  let t := s.site i
  (List.range 8).foldl (fun s n =>
    let b := s.siteOf n
    if b = i ∨ 8 ≤ b ∨ 9 ≤ hops i b then s
    else
      let ports := (List.range 4).filter fun j =>
        let c := s.siteOf (t.fld (rD2dPort j) Fld.d2dPortPeer)
        t.d2dUp j && decide (c < 8) && decide (hops c b + 1 = hops i b)
      s.setFld i (rFabD2dRt n) Fld.fabD2dRtPortMask ((ports.map (2 ^ ·)).foldl (· + ·) 0)) s

/-- Sites that take part in the settlement, and those of them that are late (R37, R583). -/
def State.starters (s : State) : List Nat := (List.range 8).filter fun i => (s.site i).started && !(s.site i).absent

/-- Starting sites that have not finished their training. -/
def State.lateSites (s : State) : List Nat := s.starters.filter fun i => !(s.site i).trained

/-- Whether settlement may end: every starting site has trained its ports, or the lead has waited 20 s for the others
(R37, R583). -/
def State.maySettle (s : State) : Bool :=
  let lead := s.electLead s.starters
  let overdue := match lead with | some k => decide (20000000000 ≤ (s.site k).time) | none => true
  !(s.part.settledOnce || s.starters.isEmpty || (!s.lateSites.isEmpty && !overdue) ||
    lead.any fun k => s.lateSites.contains k)

/-- No lead could be elected: the strap conflicts go to the board through mailbox 1, and ALERT_N goes low (R37). -/
def State.noLead (s : State) (l : List Nat) (conflicts : List (Nat × Nat)) : State :=
  l.foldl (fun s i =>
    let s := conflicts.foldl (fun s (k, mask) =>
      let r : Rec := ⟨7, 0, i, 0, 1, (s.site i).time, (s.site i).time, padTo 40 (conflictBody k mask), []⟩
      let b := r.bytes (s.site i).id true false r.body
      (s.onBox i 1 fun _ => { state := .delivered
                              data := (List.range 16).map fun w => BitVec.ofNat 32 (fieldAt b (4 * w) 4) }).tellBox i 1) s
    s.onPins i fun p => { p with alertN := false }) s

/-- The elected lead settles the part: late sites are absent, the members get the block keys and their routes, and
start-up ends (R37, R583). -/
def State.ledBy (s : State) (k : Nat) (on late : List Nat) (conflicts : List (Nat × Nat)) : State :=
  let s := conflicts.foldl (fun s (kind, mask) => s.report k 0x07 0 (conflictBody kind mask)) s
  let s := late.foldl (fun s i =>
    ((s.onSite i fun t => { t with absent := true }).setFld i rPwrBoot Fld.pwrBootFail 4).report k 0x09 2
      (leBytes 1 20 ++ leBytes 1 (s.site i).id ++ leBytes 1 3)) s
  let s := s.dropSites (some k) on
  let up := on.filter fun i => !(s.site i).absent
  let (x, s) := s.drawSecret
  let (y, s) := s.drawSecret
  let s := s.onPart fun p => { p with members := up.map fun i => (s.site i).id }
  up.foldl (fun s i =>
    let s := s.onSite i fun t => { t with blockKeys := t.blockKeys ++ [(963, x), (964, y)] }
    let s := if s.fld i (rHltCfgrec 1) Fld.hltCfgrecState = 1 then s.d2dRoutes i else s
    let s := s.setFld i rPwrBoot Fld.pwrBootStep 9
    if s.fld i rHifLink Fld.hifLinkState = 2 then s.setFld i rHifLink Fld.hifLinkState 3 else s) s

/-- The part settles. -/
def State.settleMembers (s : State) : State :=
  let l := s.starters
  let late := s.lateSites
  let lead := s.electLead l
  let on := l.filter fun i => !late.contains i
  let s := on.foldl (fun s i => s.setFld i rPwrBoot Fld.pwrBootStep 7) s
  let conflicts := s.strapConflicts l
  let s := s.onPart fun p => { p with lead := lead, settledOnce := true, strapConflicts := conflicts }
  match lead with
  | none => s.noLead l conflicts
  | some k => s.ledBy k on late conflicts

/-- MEMBERSHIP_SETTLE (R37, R583): steps 8 and 9, once every sibling reached is through step 7 or 20 s have passed. -/
def execMembershipSettle (s : State) : Host.Outcome State Fault Refusal :=
  .next (if s.maySettle then s.settleMembers else s)

/-! Debug unlock and the TAP (R465–R467, R558) -/

/-- Every stored byte and engine of an instance is zeroed (step 4 of R467). -/
def Site.scrub (t : Site) : Site :=
  let blank (r : Tier) : Tier := { r with data := [], subs := [] }
  let core (c : Core) : Core := { c with
    acc := [], cmem := [], poison := [], tickets := [], moves := [], halves := List.replicate 4 {}
    ves := c.ves.map fun v => { offline := v.offline }, ses := List.replicate 8 {}
    array := List.replicate 4 none, attOwn := 0, zoo := [], units := c.units.map fun u => { u with images := [] } }
  { t with
    fast := blank t.fast, slow := blank t.slow
    cores := t.cores.map core
    clusters := t.clusters.map fun c => { c with clm := [], poison := [], windows := [], lines := [] }
    blockKeys := t.blockKeys.filter fun k => decide (k.1 < 962) || decide (964 < k.1)
    dma := t.dma.map fun _ => none
    net := { t.net with txns := [], frames := [], mcRuns := [], groups := [] } }

/-- Every tenant slot of the part is destroyed, its slice killed and zeroed (R460, R467). -/
def State.unlock (s : State) : State :=
  let live := (List.range 256).filter fun v => (s.vd v).live
  let s := live.foldl (fun s v => s.killSlice v) s
  let s := live.foldl (fun s v => s.tdiError v) s
  let s := live.foldl (fun s v =>
    let hs := s.holders v
    let s := hs.foldl (fun s i => s.drainSlot i v) s
    let s := hs.foldl (fun s i => s.destroySlot i (s.vd v).slot) s
    ((s.zeroPages v).clearUnits v).onVd v fun d => { d with mig := none }) s
  let openUp (t : Site) : Site :=
    let x := if t.pins.coldRstN then t.scrub else t
    { x with pins := { x.pins with jtagOpen := x.pins.jtagOpen || x.pins.coldRstN } }
  { s with sites := s.sites.map openUp }.onPart fun p => { p with debug := true, sessions := [] }

/-- DEBUG_UNLOCK (R466, R467): an answer to the nonce that stands; each nonce serves one attempt. -/
def execDebugUnlock (i : Nat) (ok : Bool) (s : State) : Host.Outcome State Fault Refusal :=
  .next (
    if !(s.site i).managed then s
    else
      let (f, s) := s.draw
      let s := s.onPins i fun p => { p with debugNonce := f.toNat }
      if ok then s.unlock else s.bump i rSecDebug Fld.secDebugRefused)

/-- A TAP instruction that R465 accepts at all times. -/
def jtagAlways (c : JtagInstr) : Bool :=
  match c with
  | .bypass | .idcode | .samplePreload => true
  | .extest | .other1149 | .wrapper1500 => false

/-- JTAG_INSTRUCTION (R465): refused unless allowed. -/
def execJtagInstruction (i : Nat) (code : JtagInstr) (s : State) : Host.Outcome State Fault Refusal :=
  .next (
    if jtagAlways code || (s.site i).pins.jtagOpen then s.onPins i fun p => { p with tapInstr := code, tapReset := false }
    else s)

/-- TAP_RESET (R558): IDCODE is selected. -/
def execTapReset (i : Nat) (s : State) : Host.Outcome State Fault Refusal :=
  .next (s.onPins i fun p => { p with tapReset := true, tapInstr := .idcode })

end Sys2Proof.Machine
end

