-- ==== Sys2Proof/Machine/RegView.lean ====
section
/-! DEFINITION. What a read of each register shows: the word that a site keeps, and the fields that report a state kept
in another place (R25, R39, R89, R131–R134, R181–R185, R214–R220, R264, R267, R315, R318, R323, R358–R364, R395,
R421–R428, R469–R476, R505–R507, R540, R586, R592). -/

namespace Sys2Proof.Machine

/-- A word with these fields replaced. -/
def withFields (w : W32) (l : List ((Nat × Nat) × Nat)) : W32 := l.foldl (fun w x => setBits w x.1 x.2) w

/-- A number that saturates at the top of a field of `n` bits. -/
def capTo (n x : Nat) : Nat := min (2 ^ n - 1) x

/-- Bit `k` of the result is set where element `k` of the list satisfies the test. -/
def bitsWhere {α : Type} (l : List α) (f : α → Bool) : Nat := (l.zipIdx.map fun (x, k) => (f x).toNat * 2 ^ k).foldl (· + ·) 0

/-! Reset domains of the register windows (R35, R510, R511) -/

/-- The domain of the unit that an instance-window offset lies in; none for the management and always-on domain. -/
def regDom (off : Nat) : Option Nat :=
  if off < 0x200000 then none
  else if off < 0x500000 then some 20
  else if off < 0x500100 then some (domPort ((off - 0x500000) / 4))
  else if off < 0x500300 then some (domPort (portOf ((off - 0x500100) / 4)))
  else if off < 0x510000 then some (domPort (portOf ((off - 0x500300) / 4)))
  else if off < 0x600000 then some (domPort (portOf ((off - 0x510000) / 0x100)))
  else if off < 0x600004 then none
  else if off < 0x600100 then some 20
  else if off < 0x600300 then some 19
  else if off < 0x600400 then some 20
  else if off < 0x600500 then some 19
  else if off < 0x600600 then some 20
  else if off < 0x700000 then some 19
  else if off < 0x800000 then some (domD2d ((off - 0x700000) / 4))
  else if off < 0x900000 then some 18
  else if off < 0xC00000 then none
  else if off < 0xE00000 then some 20
  else if off < 0x1000000 then none
  else if off < 0x1800000 then
    let c := (off - 0x1000000) / 0x400000
    let o := (off - 0x1000000) % 0x400000
    some (if o < 0x100000 then domCluster c else domCore (3 * c + (o - 0x100000) / 0x100000))
  else none

/-- The unit of an offset is held in reset, with a domain of its own or one that contains it (R35). -/
def Site.heldAt (t : Site) (off : Nat) : Bool :=
  match regDom off with
  | some u => (u :: outerDoms u).any fun w => decide (t.domState w = 2)
  | none => false

/-! Instance units -/

/-- A tenant slot of any instance of the part is not FREE, or a weight object is loaded (R315). -/
def State.pidLocked (s : State) : Bool :=
  (s.sites.any fun t => t.slots.any fun k => decide (k.num < 960) && decide (k.state ≠ .free)) || !s.part.weights.isEmpty

/-- The current reservable capacity of a path in GB/s (R409, R426). -/
def Site.capacity (t : Site) (path : Nat) : Nat :=
  if path < 2 then if (t.tier (decide (path = 1))).channels.any t.chServes then (if path = 0 then 56 else 16) else 0
  else if path = 2 then if ([4, 5] : List Nat).contains (t.domState 18) then 0 else 100
  else if path = 3 then t.egress
  else if path < 8 then 240 * bitCount (t.fld (rD2dPort (path - 4)) Fld.d2dPortModules)
  else 0
where
  /-- Modules up. -/
  bitCount (m : Nat) : Nat := ((List.range 4).filter fun k => m.testBit k).length

/-- Service units that a path's wheel offers in a window of `us` µs, over every channel of a tier: 64 bytes each, 256 on a
die-to-die port (R409, R414). -/
def Site.offered (t : Site) (path us : Nat) : Nat :=
  let chs := if path < 2 then ((t.tier (decide (path = 1))).channels.filter t.chServes).length else 1
  t.capacity path * chs * us * 1000 / (if 4 ≤ path ∧ path < 8 then 256 else 64)

/-- A budget set is over budget in the current window (R414, R415). On paths 8 to 11 the spec gives the wheel no rate. -/
def State.overBudget (s : State) (i : Nat) (b : Budget) : Bool :=
  let t := s.site i
  if b.path < 8 then decide (b.n * t.offered b.path b.window < 256 * b.used)
  else if b.path < 12 then false
  else if b.path < 14 then decide (b.n * (4096 * (t.cluster (b.path - 12)).cacheUnits b.slice) < 256 * b.used)
  else decide (b.n * lookupD (s.vd b.slice).hold.loft (s.site i).id 0 < 256 * b.used)

/-- SCH_UNIT (R421). -/
def State.schUnit (s : State) (i p q : Nat) : W32 :=
  let c := s.core i p
  let uq := if c.quad then some q else none
  let u := c.unit uq
  if !c.quad ∧ q ≠ 0 then 0
  else withFields 0 [
    (Fld.schUnitResident, u.resident.getD 0),
    (Fld.schUnitGroup, if u.reel then u.group.length else 0),
    (Fld.schUnitResValid, u.resident.isSome.toNat),
    (Fld.schUnitQuantumMs, if u.reel then ((u.resident.bind fun v => s.unitAt v i p uq).map (·.quantum)).getD 0 else 0),
    (Fld.schUnitPreemptPend, u.preempt.isSome.toNat),
    (Fld.schUnitSwitching, u.switching.isSome.toNat),
    (Fld.schUnitMode, if c.pendQuad.isSome then 3 else if u.group.isEmpty then 0 else if u.reel then 2 else 1)]

/-- SEC_SLOT_INFO of a slot (R471). -/
def State.slotInfo (s : State) (i n : Nat) : W32 :=
  let t := s.site i
  let k := (t.slot? n).getD { num := n }
  withFields 0 [
    (Fld.secSlotInfoState, if 960 ≤ n then 3 else match k.state with | .free => 0 | .active => 1 | .draining => 2),
    (Fld.secSlotInfoGen, k.gen), (Fld.secSlotInfoSlice, k.slice),
    (Fld.secSlotInfoFabDone, (t.fabQuiet n).toNat), (Fld.secSlotInfoDmaDone, (s.dmaQuiet i n).toNat)]

/-- Tenant slots of a site in a state. -/
def Site.slotsIn (t : Site) (st : SlotState) : Nat :=
  (t.slots.filter fun k => decide (k.num < 960) && decide (k.state = st)).length

/-- The slice whose removal is under way on a site, if any (R460, R472). -/
def State.removing (s : State) (i : Nat) : Option Nat :=
  (List.range 256).find? fun v => (s.vd v).live && (s.vd v).removal.isSome && (s.touched v).contains i

/-- SEC_TDI_INFO of a virtual device (R474). -/
def State.tdiInfo (s : State) (v : Nat) : W32 :=
  let d := s.vd v
  withFields 0 [(Fld.secTdiInfoIdeStream, d.ideStream), (Fld.secTdiInfoIdeSecure, (s.ideSecure v).toNat),
    (Fld.secTdiInfoConf, d.conf.toNat), (Fld.secTdiInfoState, d.tdi.code)]

/-- MBX_MR of the lead (R506), by its offset in the MBX window. -/
def MgmtRings.word (g : MgmtRings) (o : Nat) : Nat :=
  if o = 0x1000 then g.reqBase % 2 ^ 32 else if o = 0x1004 then g.reqBase / 2 ^ 32
  else if o = 0x100C then g.reqHead
  else if o = 0x1010 then g.rplBase % 2 ^ 32 else if o = 0x1014 then g.rplBase / 2 ^ 32
  else if o = 0x1018 then g.rplHead
  else if o = 0x1020 then g.fltBase % 2 ^ 32 else if o = 0x1024 then g.fltBase / 2 ^ 32
  else if o = 0x1028 then g.fltHead
  else if o = 0x102C then
    g.on.toNat * 2 ^ 31 + g.err.toNat * 2 ^ 30 + g.fltLog2 * 2 ^ 16 + g.rplLog2 * 2 ^ 8 + g.reqLog2
  else 0

/-- The selected guarantee's first register (R428). -/
def Guard.word (g : Guard) : W32 := withFields 0 [
  (Fld.qosGuardArmed, 1), (Fld.qosGuardKind, g.kind), (Fld.qosGuardTarget, g.target), (Fld.qosGuardPath, g.path),
  (Fld.qosGuardBset, g.bset), (Fld.qosGuardSlice, g.slice), (Fld.qosGuardMisses, g.misses)]

/-- Guarantee `n` of a site. -/
def Site.guard? (t : Site) (n : Nat) : Option Guard := t.watch.guards.find? fun g => decide (g.g = n)

/-- The budget that QOS_BUDGET_SEL selects (R427). -/
def Site.selBudget (t : Site) : Option Budget :=
  t.budget? (t.fld rQosBudgetSel Fld.qosBudgetSelSlice) (t.fld rQosBudgetSel Fld.qosBudgetSelBset)
    (t.fld rQosBudgetSel Fld.qosBudgetSelPath)

/-- The units below the MP window: BLK, MMU, DMA and TED. -/
def State.viewLow (s : State) (i off : Nat) (w : W32) : W32 :=
  let t := s.site i
  let here := (List.range 256).filter fun v => (s.vd v).live && s.homed v && decide (s.homeSite v = i)
  if off = rBlkTopo then BitVec.ofNat 32 (s.topo i)
  else if off = rMmuStatus then withFields w [
    (Fld.mmuStatusOpenFaults, capTo 16 ((here.map fun v => (s.vd v).sp.faults.length).foldl (· + ·) 0)),
    (Fld.mmuStatusInvalWaits, capTo 8 ((here.map fun v => (s.vd v).sp.invals.length).foldl (· + ·) 0))]
  else if off = rDmaQuiesce then withFields w [(Fld.dmaQuiesceDone,
    (decide (t.fld off Fld.dmaQuiesceReq = 1) && s.dmaQuiet i (t.fld off Fld.dmaQuiesceKeyId)).toNat)]
  else if 0x300100 ≤ off ∧ off < 0x300140 then withFields w [(Fld.dmaEngStatusBusy,
    (t.dma.getD ((off - 0x300100) / 4) none).isSome.toNat)]
  else if off = rTedStatus then withFields w [
    (Fld.tedStatusQueued, t.moveQueue.length), (Fld.tedStatusChBusy, bitsWhere t.moves (·.isSome)),
    (Fld.tedStatusHold, (t.moves.any fun m => m.any fun x => decide (x.step = 4)).toNat)]
  else if off = rTedFree 0 ∨ off = rTedFree 1 then
    withFields w [(Fld.tedFreeFree, t.freeOutside (decide (off = rTedFree 1)))]
  else w

/-- FAB, HIF and MBX. -/
def State.viewMid (s : State) (i off : Nat) (w : W32) : W32 :=
  let t := s.site i
  if off = rFabCfg then withFields w [(Fld.fabCfgPidLock, s.pidLocked.toNat)]
  else if off = rFabTxn then withFields w [(Fld.fabTxnOpen, t.net.txns.length)]
  else if off = rFabLoft then withFields w [(Fld.fabLoftFrames, t.net.frames.length)]
  else if off = rHifLink then withFields w [(Fld.hifLinkPerst, (!t.pins.perstN).toNat)]
  else if off = rIrqPrivEnLo 0 then w ||| 0xF
  else if 0xA00000 ≤ off ∧ off < 0xA01000 ∧ off % 0x100 = 0x4C then
    let m := (off - 0xA00000) / 0x100
    withFields w [(Fld.mbxStatusHolder, (t.boxHolder m).toNat),
      (Fld.mbxStatusState, match (t.box m).state with | .free => 0 | .held _ => 1 | .delivered => 2)]
  else if 0xA01000 ≤ off ∧ off < 0xA01030 then
    if s.part.lead = some i then BitVec.ofNat 32 (s.part.rings.word (off - 0xA00000)) else 0
  else w

/-- SEC. -/
def State.viewSec (s : State) (i off : Nat) (w : W32) : W32 :=
  let t := s.site i
  if off = rSecState then withFields w [(Fld.secStateDebug, Bool.toNat s.part.debug),
    (Fld.secStateUnsettled, s.unsettled.toNat), (Fld.secStateSlices, t.slotsIn .active + t.slotsIn .draining)]
  else if off = rSecSlots then withFields w [
    (Fld.secSlotsActive, t.slotsIn .active), (Fld.secSlotsDraining, t.slotsIn .draining)]
  else if off = rSecSlotInfo then s.slotInfo i (t.fld rSecSlotSel Fld.secSlotSelSlot)
  else if off = rSecScrub then withFields w [
    (Fld.secScrubBusy, (s.removing i).isSome.toNat), (Fld.secScrubSlice, (s.removing i).getD 0)]
  else if off = rSecDebug then withFields w [(Fld.secDebugUnlocked, t.pins.jtagOpen.toNat)]
  else if off = rSecTdiInfo then s.tdiInfo (t.fld rSecTdiSel Fld.secTdiSelVd)
  else if off = rSecWeight then withFields w [
    (Fld.secWeightGrants, capTo 16 ((s.part.weights.map (·.grants)).foldl (· + ·) 0)),
    (Fld.secWeightLoaded, s.part.weights.length)]
  else if off = rSecMig then
    let n (inc : Bool) : Nat := (s.vds.filter fun d => d.mig.any fun g => g.incoming == inc).length
    withFields w [(Fld.secMigIn, n true), (Fld.secMigOut, n false)]
  else w

/-- SCH, QOS, HLT and CLK. -/
def State.viewHigh (s : State) (i off : Nat) (w : W32) : W32 :=
  let t := s.site i
  if 0xC00000 ≤ off ∧ off < 0xC00060 then s.schUnit i ((off - 0xC00000) / 16) ((off - 0xC00000) / 4 % 4)
  else if off = rQosLabelData then
    match (s.vd (t.fld rQosLabelSel Fld.qosLabelSelVd)).hold.labels.find? fun e =>
        decide (e.label = t.fld rQosLabelSel Fld.qosLabelSelLabel) with
    | some e => withFields 0 [(Fld.qosLabelDataClass, e.cls), (Fld.qosLabelDataBset, e.bset), (Fld.qosLabelDataDeadline, e.deadline)]
    | none => withFields 0 [(Fld.qosLabelDataClass, 2)]
  else if 0xD00100 ≤ off ∧ off < 0xD0013C then
    let x := (off - 0xD00100) / 4
    withFields 0 [(Fld.qosPathCap, capTo 16 (t.capacity x)),
      (Fld.qosPathOwned, t.shares x (fun _ => false) + (if x = 0 then s.switchSlots i none else 0))]
  else if off = rQosBudgetData then
    match t.selBudget with
    | some b => withFields 0 [(Fld.qosBudgetDataOver, (s.overBudget i b).toNat), (Fld.qosBudgetDataShare, b.n),
        (Fld.qosBudgetDataWindowUs, b.window)]
    | none => 0
  else if off = rQosBudgetUsed then BitVec.ofNat 32 (capTo 32 ((t.selBudget.map (·.used)).getD 0))
  else if 0xD00300 ≤ off ∧ off < 0xD00500 then
    match t.guard? ((off - 0xD00300) / 8) with
    | some g => if off % 8 = 0 then g.word else BitVec.ofNat 32 g.last
    | none => 0
  else if 0xE00100 ≤ off ∧ off < 0xE00154 then
    withFields w [(Fld.hltDomEscCount, capTo 4 (t.recentResets ((off - 0xE00100) / 4)).length)]
  else if off = rClkTimeLo then BitVec.ofNat 32 t.time
  else if off = rClkTimeLo + 4 then BitVec.ofNat 32 (t.time / 2 ^ 32)
  else w

/-! Clusters and cores -/

/-- Slices with ROUTE commands waiting or running on a cluster's router (R182). -/
def State.routing (s : State) (i c : Nat) : Nat :=
  ((List.range 256).filter fun v => (s.vd v).live && (s.vd v).fe.streams.zipIdx.any fun (t, n) => t.queue.any fun k =>
    decide (k.op = 0x110) && (decide (k.phase = .ready) || decide (k.phase = .issued)) && !k.forwarded &&
    ((s.job? ⟨v, n, k.id⟩).any fun j => decide (j.i = i) && decide (j.p / 3 = c))).length

/-- The cluster units: expert router, reduction engine, cluster memory. -/
def State.viewCluster (s : State) (i off : Nat) (w : W32) : W32 :=
  let c := (off - 0x1000000) / 0x400000
  let k := (s.site i).cluster c
  let uses (f : ClmUse → Bool) : Nat := (k.alloc.filter f).length
  if off = rRtrStatus c then withFields w [(Fld.rtrStatusSlices, capTo 8 (s.routing i c)),
    (Fld.rtrStatusBusy, (!k.router.isEmpty).toNat)]
  else if off = rRedStatus c then withFields w [(Fld.redStatusArmed, k.windows.length),
    (Fld.redStatusBusy, (!k.reducer.isEmpty).toNat)]
  else if off = rClmCtrl c then withFields w [
    (Fld.clmCtrlFree, uses fun u => decide (u = .free)),
    (Fld.clmCtrlCacheUnits, uses fun u => match u with | .cache _ => true | _ => false),
    (Fld.clmCtrlScratchUnits, uses fun u => match u with | .scratch _ => true | _ => false),
    (Fld.clmCtrlClearing, k.clearing.toNat)]
  else if off = rClmEcc c then withFields w [(Fld.clmEccPoisoned, capTo 8 k.poison.length)]
  else w

/-- A bit per quadrant: in whole mode all four follow the core's. -/
def Core.perQuad (c : Core) (f : Nat → Bool) : Nat :=
  if c.quad then bitsWhere (List.range 4) f else if f 0 then 15 else 0

/-- The status register of a per-core zoo engine (R181). -/
def Core.zooStatus (c : Core) (kind : EngineKind) : W32 :=
  let busy (q : Nat) : Bool := c.zoo.any fun x => decide (x.1 = kind) && decide (x.2.1 = q)
  withFields 0 [
    ((15, 12), c.perQuad busy), ((5, 5), ((List.range 4).any fun q => busy q && (c.units.getD q {}).preempt.isSome).toNat),
    ((4, 4), c.quad.toNat), ((0, 0), ((List.range 4).any busy).toNat)]

/-- TA_STATUS (R89). -/
def Core.taStatus (c : Core) : W32 :=
  let busy (q : Nat) : Bool := (c.array.getD q none).isSome
  withFields 0 [
    (Fld.taStatusAttOwn, c.attOwn.toNat), (Fld.taStatusQBusy, c.perQuad busy),
    (Fld.taStatusPreemptPend, ((List.range 4).any fun q => busy q && (c.units.getD q {}).preempt.isSome).toNat),
    (Fld.taStatusQuad, c.quad.toNat), (Fld.taStatusBusy, ((List.range 4).any busy).toNat)]

/-- STATE of a chaining port half (R131). -/
def HalfState.code : HalfState → Nat
  | .idle => 0
  | .active => 1
  | .ended => 2

/-- VE_CHAIN (R131). -/
def Core.veChain (c : Core) (port : Nat) : W32 :=
  let (a, b) := (c.halves.getD (2 * port) {}, c.halves.getD (2 * port + 1) {})
  withFields 0 [(Fld.veChainFillH1, b.fifo.length), (Fld.veChainFillH0, a.fifo.length), (Fld.veChainStateH1, b.state.code),
    (Fld.veChainStateH0, a.state.code)]

/-- STATE of a scalar engine (R134). -/
def SeMode.code : SeMode → Nat
  | .idle => 0
  | .running => 1
  | .waiting => 2
  | .ended => 3
  | .faulted => 4
  | .saved => 5

/-- The spare-row entry of a bank (R191, R217): rows steered, or 0b11 where a third would be needed. -/
def Core.spareEntry (c : Core) (bank : Nat) : Nat :=
  let n := (c.steered.filter fun r => decide (r.1 = bank)).length
  if 2 ≤ n ∧ c.failing.any fun r => decide (r.1 = bank) then 3 else n

/-- The per-core units. -/
def State.viewCore (s : State) (i off : Nat) (w : W32) : W32 :=
  let t := s.site i
  let o := (off - 0x1000000) % 0x400000 - 0x100000
  let p := 3 * ((off - 0x1000000) / 0x400000) + o / 0x100000
  let r := o % 0x100000
  let c := t.core p
  if r = 0 then c.taStatus
  else if r = 0x10010 ∨ r = 0x10014 then c.veChain ((r - 0x10010) / 4)
  else if 0x10100 ≤ r ∧ r < 0x10134 then
    let e := (r - 0x10100) / 4
    let v := c.ves.getD e {}
    let hi := rVeMapHi p
    withFields 0 [(Fld.veStatusFaultCode, v.faultCode), (Fld.veStatusOffline, v.offline.toNat),
      (Fld.veStatusSpare, (decide (t.fld hi Fld.veMapHiValid = 1) && decide (t.fld hi Fld.veMapHiSpare = e)).toNat),
      (Fld.veStatusWait, v.waiting.toNat), (Fld.veStatusBusy, v.busy.toNat)]
  else if 0x20100 ≤ r ∧ r < 0x20120 then
    let e := c.ses.getD ((r - 0x20100) / 4) {}
    withFields 0 [(Fld.seStatusCause, e.cause), (Fld.seStatusState, e.mode.code)]
  else if r = 0x30000 then c.zooStatus .attention
  else if r = 0x40000 then c.zooStatus .select
  else if r = 0x50000 then c.zooStatus .gatherScatter
  else if r = 0x60000 then c.zooStatus .layout
  else if r = 0x70000 then c.zooStatus .codec
  else if r = 0x80000 then
    let unit (q : Nat) : ReelUnit := c.units.getD q {}
    withFields 0 [(Fld.cmemCtrlSwitching, c.perQuad fun q => (unit q).switching.isSome),
      (Fld.cmemCtrlClearing, if c.quad then c.clearing.toNat else if c.clearing = 0 then 0 else 15),
      (Fld.cmemCtrlReel, c.perQuad fun q => (unit q).reel && !(unit q).group.isEmpty), (Fld.cmemCtrlQuad, c.quad.toNat)]
  else if r = 0x80004 then withFields w [(Fld.cmemEccPoisoned, capTo 8 c.poison.length)]
  else if r = 0x80008 then withFields 0 [(Fld.cmemRepairPending, capTo 8 c.failing.length)]
  else if 0x80010 ≤ r ∧ r < 0x80020 then
    let g := (r - 0x80010) / 4
    BitVec.ofNat 32 (((List.range 16).map fun k => c.spareEntry (16 * g + k) * 4 ^ k).foldl (· + ·) 0)
  else w

/-- The word a register shows, by its offset in the instance window. -/
def State.view (s : State) (i off : Nat) : W32 :=
  let w := (s.site i).reg off
  if off < 0x500000 then s.viewLow i off w
  else if off < 0xB00000 then s.viewMid i off w
  else if off < 0xC00000 then s.viewSec i off w
  else if off < 0x1000000 ∨ 0x1800000 ≤ off then s.viewHigh i off w
  else if (off - 0x1000000) % 0x400000 < 0x100000 then s.viewCluster i off w
  else s.viewCore i off w

/-! VF BAR0 and BAR2 (R326, R357–R364) -/

/-- FE_STREAM.STATE (R335). -/
def StreamState.code : StreamState → Nat
  | .free => 0
  | .active => 1
  | .sinkLost => 2
  | .faulted => 3
  | .killed => 4
  | .draining => 5
  | .frozen => 6

/-- FE_VD_STATUS (R358). -/
def State.vdStatus (s : State) (v : Nat) : W32 :=
  let e := (s.vd v).fe
  withFields 0 [((31, 31), e.frozen.toNat), ((30, 30), (s.resetting v).toNat), ((29, 29), e.eqLost.toNat),
    ((28, 28), e.fqLost.toNat), ((27, 27), e.fetchLost.toNat), ((26, 26), e.badDb.toNat),
    ((15, 8), ((e.streams.drop 1).filter fun t => decide (t.state ≠ .free)).length)]

/-- The FE_RING registers (R360), by offset. -/
def FrontEnd.ringWord (e : FrontEnd) (o : Nat) : Nat :=
  let r := e.rings.getD 0 {}
  if o = 0x100 then r.sqBase % 2 ^ 32 else if o = 0x104 then r.sqBase / 2 ^ 32
  else if o = 0x108 then r.sqHead
  else if o = 0x10C then e.cfgErr.toNat * 2 + r.on.toNat
  else if o = 0x110 then r.cqBase % 2 ^ 32 else if o = 0x114 then r.cqBase / 2 ^ 32
  else if o = 0x118 then r.cqLog2
  else if o = 0x11C then r.cqHead
  else if o = 0x128 then e.eq.base % 2 ^ 32 else if o = 0x12C then e.eq.base / 2 ^ 32
  else if o = 0x130 then e.eq.vec * 256 + e.eq.log2
  else if o = 0x134 then e.eq.head
  else if o = 0x138 then e.fq.base % 2 ^ 32 else if o = 0x13C then e.fq.base / 2 ^ 32
  else if o = 0x140 then e.fq.vec * 256 + e.fq.log2
  else if o = 0x144 then e.fq.head
  else 0

/-- An entry of the MSI-X table, by word: address, data and vector control. -/
def Vector'.word (x : Vector') (k : Nat) : W32 :=
  if k = 0 then x.addr.setWidth 32 else if k = 1 then (x.addr >>> 32).setWidth 32
  else if k = 2 then x.data else BitVec.ofNat 32 x.masked.toNat

/-- A word of VF BAR0. -/
def State.vfWord (s : State) (v o : Nat) : W32 :=
  let d := s.vd v
  let e := d.fe
  if o = 4 then s.vdStatus v
  else if o = 0x40 then withFields 0x0100FF00 [((1, 1), d.refcount.toNat), ((0, 0), d.noelaver.toNat)]
  else if o = 0x44 then 0x20401000
  else if 0x100 ≤ o ∧ o < 0x148 then BitVec.ofNat 32 (e.ringWord o)
  else if 0x400 ≤ o ∧ o < 0x800 then
    let t := d.stream ((o - 0x400) / 4)
    withFields 0 [((22, 16), t.queue.length), ((12, 8), (t.queue.filter (·.held)).length), ((3, 0), t.state.code)]
  else if 0xC00 ≤ o ∧ o < 0xC80 then
    let x := e.vectors.getD ((o - 0xC00) / 4) {}
    withFields 0 [((29, 16), x.timeUs), ((9, 0), x.countM1)]
  else if 0x8000 ≤ o ∧ o < 0x8200 then (e.vectors.getD ((o - 0x8000) / 16) {}).word ((o - 0x8000) / 4 % 4)
  else if o = 0x9000 then BitVec.ofNat 32 (bitsWhere e.vectors (·.pend))
  else 0

/-- A word of VF BAR2: nothing in native mode, nor while the ring is disabled (R364). -/
def Vd.noelWord (d : Vd) (o : Nat) : W32 :=
  let r := o / 0x1000
  if !d.procRing r then 0
  else if o % 0x1000 = 4 then BitVec.ofNat 32 (d.ring r).sqHead
  else if o % 0x1000 = 8 then BitVec.ofNat 32 (d.ring r).cqHead
  else 0

end Sys2Proof.Machine
end

