-- ==== Sys2Proof/Machine/RegAccess.lean ====
section
/-! DEFINITION. Register reads and writes (R9, R10, R13, R35): where an access arrives, what it returns into `State.rd`,
what it clears and what it sets. A register with a row of its own does there what that row does. -/

namespace Sys2Proof.Machine

/-- The next state of a command that always has one. -/
def nextOf (o : Host.Outcome State Fault Refusal) (s : State) : State :=
  match o with
  | .next t => t
  | _ => s

/-- A management processor of the instance or of a sibling (R493). -/
def isProc (a : Byte) : Bool := (decide (0x10 ≤ a.toNat) && decide (a.toNat < 0x14)) || decide (0x40 ≤ a.toNat)

/-- The site and instance-window offset that an access to PF BAR0 reaches (R15); none where the instance is absent or
held out, nothing is mapped, or the unit is in reset (R13, R35). -/
def State.pfPlace (s : State) (off : Nat) : Option (Nat × Nat × RegRow) :=
  let i := s.siteOf (off / 0x2000000)
  let o := off % 0x2000000
  if off % 4 ≠ 0 ∨ 0x10000000 ≤ off ∨ 8 ≤ i then none
  else if (s.site i).heldAt o then none
  else (regRow o).map fun r => (i, o, r)

/-- The registers of a virtual device answer: it exists, its home is here, and its host port is not in reset (R35, R326,
R511). -/
def State.vfAnswers (s : State) (v : Nat) : Bool :=
  (s.vd v).live && s.homed v && decide (s.siteOf (s.vd v).port < 8) &&
  decide ((s.site (s.siteOf (s.vd v).port)).domState 18 ≠ 2)

/-! Reads -/

/-- The low words of the 64-bit quantities of an instance window (R9, R260, R324, R424, R506, R507, R586). -/
def lowOf (o : Nat) : Bool :=
  decide (o = rClkTimeLo) || (decide (0x680000 ≤ o) && decide (o < 0x6A0000) && decide (o % 8 = 0)) ||
  (decide (0x900000 ≤ o) && decide (o < 0x900400) && (decide (o % 0x100 = 8) || decide (o % 0x100 = 16))) ||
  ([rMbxMrReqBaseLo, rMbxMrRplBaseLo, rMbxMrFltBaseLo, rSchAcctData 0, rSchAcctData 4, rSchAcctData 6] : List Nat).contains o ||
  (decide (0x510000 ≤ o) && decide (o < 0x515000) && decide (o % 0x100 = 0x18))

/-- The 64-bit quantities of FE_RING (R360). -/
def vfLow (o : Nat) : Bool := ([0x100, 0x110, 0x128, 0x138] : List Nat).contains o

/-- Puts a word where a read returns it. -/
def State.shows (s : State) (w : W32) : State := { s with rd := w.zeroExtend 64 }

/-- What a read clears: the RC fields of a register (R10), a guarantee's misses (R428), TEL_TS.VALID (R566). -/
def State.clearRead (s : State) (i o : Nat) (r : RegRow) : State :=
  if 0xD00300 ≤ o ∧ o < 0xD00500 ∧ o % 8 = 0 then
    s.onWatch i fun w => { w with guards := w.guards.map fun g => if g.g = (o - 0xD00300) / 8 then { g with misses := 0 } else g }
  else if 0x1900000 ≤ o ∧ o < 0x1900020 then s.setFld i o Fld.telTsValid 0
  else if r.rc = 0 then s
  else s.onSite i fun t => t.setReg o (t.reg o &&& ~~~(BitVec.ofNat 32 r.rc))

/-- A read of MBX_DATA: the word to its holder, 0 to others (R494). -/
def State.readBox (s : State) (i o : Nat) (agent : Byte) : State :=
  let m := (o - 0xA00000) / 0x100
  let b := (s.site i).box m
  s.shows (if b.state ≠ .free ∧ (s.site i).boxHolder m = agent then b.data.getD (o % 0x100 / 4) 0 else 0)

/-- A 32-bit read in an instance window (R9, R10). -/
def State.readPf (s : State) (agent : Byte) (i o : Nat) (r : RegRow) : State :=
  let boxes := 0xA00000 ≤ o ∧ o < 0xA01000
  if boxes ∧ o % 0x100 < 0x40 then s.readBox i o agent
  else if boxes ∧ o % 0x100 = 0x40 then nextOf (execMbxLock i agent ((o - 0xA00000) / 0x100) s) s
  else if 0x900000 ≤ o ∧ o < 0x900400 ∧ o % 0x100 = 4 then nextOf (execIrqClaim i ((o - 0x900000) / 0x100) s) s
  else if lowOf o then
    (s.shows (s.view i o)).onSite i fun t => { t with latch := keep t.latch o (s.view i (o + 4)) }
  else if lowOf (o - 4) then
    match (s.site i).latch.find? fun c => decide (c.1 = o - 4) with
    | some c => (s.shows c.2).onSite i fun t => { t with latch := t.latch.filter fun x => decide (x.1 ≠ o - 4) }
    | none => s.shows (s.view i o)
  else (s.shows (s.view i o)).clearRead i o r

/-- A 32-bit read of VF BAR0. -/
def State.readVf (s : State) (v o : Nat) : State :=
  if vfLow o then
    (s.shows (s.vfWord v o)).onFe v fun e => { e with latch := keep e.latch o (s.vfWord v (o + 4)) }
  else if vfLow (o - 4) then
    match (s.vd v).fe.latch.find? fun c => decide (c.1 = o - 4) with
    | some c => (s.shows c.2).onFe v fun e => { e with latch := e.latch.filter fun x => decide (x.1 ≠ o - 4) }
    | none => s.shows (s.vfWord v o)
  else s.shows (s.vfWord v o)

/-- A 32-bit read: 0 where nothing answers (R13, R35). -/
def State.readAt (s : State) (a : RegAddr) : State :=
  match a.space with
  | .pf => match s.pfPlace a.off with
    | some (i, o, r) => s.readPf a.agent i o r
    | none => s.shows 0
  | .vf0 v => if s.vfAnswers v ∧ a.off % 4 = 0 then s.readVf v a.off else s.shows 0
  | .vf2 v => if s.vfAnswers v ∧ a.off % 4 = 0 then s.shows ((s.vd v).noelWord a.off) else s.shows 0

/-- LOW_WORD_READ (R9): the low word is returned, and the high word goes into the latch in the same step. -/
def execLowWordRead (a : RegAddr) (s : State) : Host.Outcome State Fault Refusal := .next (s.readAt a)

/-- HIGH_WORD_READ (R9): the latched word while one is pending, and the current one otherwise. -/
def execHighWordRead (a : RegAddr) (s : State) : Host.Outcome State Fault Refusal := .next (s.readAt a)

/-- RC_READ (R10): the word is returned, and its RC fields are cleared. -/
def execRcRead (a : RegAddr) (s : State) : Host.Outcome State Fault Refusal := .next (s.readAt a)

/-! Writes -/

/-- The RW fields of a register take the bits of a word (R10). -/
def State.writeRw (s : State) (i o : Nat) (r : RegRow) (value : W32) : State :=
  s.onSite i fun t => t.setReg o ((t.reg o &&& ~~~(BitVec.ofNat 32 r.rw)) ||| (value &&& BitVec.ofNat 32 r.rw))

/-- FAB_CFG (R272, R315): PART_ID is kept while ENABLE or PID_LOCK is 1; a change of ENABLE starts or stops the links. -/
def State.writeFabCfg (s : State) (i : Nat) (r : RegRow) (value : W32) : State :=
  let was := s.fld i rFabCfg Fld.fabCfgEnable
  let id := s.fld i rFabCfg Fld.fabCfgPartId
  let s' := s.writeRw i rFabCfg r value
  let s' := if was = 1 ∨ s.pidLocked then s'.setFld i rFabCfg Fld.fabCfgPartId id else s'
  let is := s'.fld i rFabCfg Fld.fabCfgEnable
  if was = is then s'
  else (List.range 8).foldl (fun s l => if is = 1 then s.linkOn i l else s.linkOff i l) s'

/-- Drives processor `k`'s line while it has a delivered source and MASK is clear (R501). -/
def State.drive (s : State) (i k : Nat) : State :=
  let t := s.site i
  if t.fld (rIrqCtrl k) Fld.irqCtrlMask = 1 then s
  else match t.claimPriv k with
    | some n => s.emit (.procIrq i k n)
    | none => match t.claimShared k with
      | some n => s.emit (.procIrq i k n)
      | none => s

/-- Clears a shared source's pending bit: it is delivered no more (R502). -/
def State.dropSrc (s : State) (i n : Nat) : State :=
  (s.setFld i (rIrqSrc (n - 0x40)) Fld.irqSrcPend 0).onWatch i fun w => { w with
    delivered := w.delivered.filter (· ≠ n), srcEdges := w.srcEdges.filter fun c => decide (c.1 ≠ n) }

/-- IRQ_SRC written by a processor (R500, R509): TARGET, PRIO and COAL are kept while EN is 1; a source enabled while its
coalescing count is reached delivers, and one disabled is delivered no more. -/
def State.writeSrc (s : State) (i n : Nat) (r : RegRow) (value : W32) : State :=
  let off := rIrqSrc (n - 0x40)
  let was := s.fld i off Fld.irqSrcEn
  let s := if was = 1 then s.setFld i off Fld.irqSrcEn (bitsOf value 31 31) else s.writeRw i off r value
  let s := if bitOf value 30 then s.dropSrc i n else s
  let t := s.site i
  if was = 1 ∧ !bitOf value 31 then s.onWatch i fun w => { w with delivered := w.delivered.filter (· ≠ n) }
  else if was = 0 ∧ bitOf value 31 ∧ t.fld off Fld.irqSrcPend = 1 ∧
      t.fld (rIrqCoal (t.fld off Fld.irqSrcCoal)) Fld.irqCoalCountM1 + 1 ≤ lookupD t.watch.srcEdges n 0 then s.deliverSrc i n
  else s

/-- A write in the IRQ window (R499, R503, R507–R509): of the PF's writes, only those that clear PEND of a source whose
TARGET is a PF vector act. -/
def State.writeIrq (s : State) (agent : Byte) (i o : Nat) (r : RegRow) (value : W32) : State :=
  let k := (o - 0x900000) / 0x100
  if 0x910000 ≤ o then
    let n := (o - 0x910000) / 4
    if isProc agent then s.writeSrc i n r value
    else if agent = 0x01 ∧ 0x40 ≤ s.fld i o Fld.irqSrcTarget ∧ bitOf value 30 then s.dropSrc i n
    else s
  else if !isProc agent then s
  else if 0x900800 ≤ o then s.writeRw i o r value
  else if o % 0x100 = 0 ∨ o % 0x100 = 8 ∨ o % 0x100 = 12 then (s.writeRw i o r value).drive i k
  else if o % 0x100 = 0x10 ∨ o % 0x100 = 0x14 then s.onSite i fun t => t.setReg o (t.reg o &&& ~~~value)
  else if o % 0x100 = 0x18 then nextOf (execIrqIpi i k value s) s
  else s

/-- A write of MBX_MR on the lead (R478, R506): while ENABLE is 1, only ENABLE, REQ_TAIL and the heads act. -/
def State.writeMr (s : State) (o : Nat) (value : W32) : State :=
  let on := s.part.rings.on
  let n := value.toNat
  let lo (old m : Nat) : Nat := old / 2 ^ 32 * 2 ^ 32 + n / m * m
  let hi (old : Nat) : Nat := old % 2 ^ 32 + n * 2 ^ 32
  if o = 0x1008 then nextOf (execReqTail value s) s
  else if o = 0x1018 then nextOf (execRplHead value s) s
  else if o = 0x1028 then nextOf (execFltHead value s) s
  else if o = 0x102C then
    if bitOf value 31 then nextOf (execManagementRingEnable value s) s
    else if on then nextOf (execManagementRingDisable s) s
    else s.onRings fun g => { g with
      fltLog2 := bitsOf value 19 16, rplLog2 := bitsOf value 11 8, reqLog2 := bitsOf value 3 0 }
  else if on then s
  else if o = 0x1000 then s.onRings fun g => { g with reqBase := lo g.reqBase 1024 }
  else if o = 0x1004 then s.onRings fun g => { g with reqBase := hi g.reqBase }
  else if o = 0x1010 then s.onRings fun g => { g with rplBase := lo g.rplBase 1024 }
  else if o = 0x1014 then s.onRings fun g => { g with rplBase := hi g.rplBase }
  else if o = 0x1020 then s.onRings fun g => { g with fltBase := lo g.fltBase 4096 }
  else if o = 0x1024 then s.onRings fun g => { g with fltBase := hi g.fltBase }
  else s

/-- A write in the MBX window (R494, R505, R506). -/
def State.writeMbx (s : State) (agent : Byte) (i o : Nat) (value : W32) : State :=
  let m := (o - 0xA00000) / 0x100
  if 0xA01000 ≤ o then if s.part.lead = some i then s.writeMr (o - 0xA00000) value else s
  else if o % 0x100 < 0x40 then nextOf (execMbxData i agent m (o % 0x100 / 4) value s) s
  else if o % 0x100 = 0x44 then nextOf (execMbxDoorbell i agent m value s) s
  else if o % 0x100 = 0x48 then nextOf (execMbxFree i agent m value s) s
  else s

/-- FAB_QUIESCE and DMA_QUIESCE (R184, R317): setting REQ asks for KEY_ID, and clearing it clears DONE. -/
def State.writeQuiesce (s : State) (i : Nat) (fab : Bool) (value : W32) : State :=
  let n := bitsOf value 9 0
  if bitOf value 31 then nextOf (if fab then execFabQuiesceReq i n s else execDmaQuiesceReq i n s) s
  else
    let s := nextOf (execQuiesceClear i fab s) s
    if fab then s.setFld i rFabQuiesce Fld.fabQuiesceKeyId n else s.setFld i rDmaQuiesce Fld.dmaQuiesceKeyId n

/-- A 32-bit write in an instance window (R10, R293, R503): DMA_QUIESCE is read-only to the PF (R184). -/
def State.writePf (s : State) (agent : Byte) (i o : Nat) (r : RegRow) (value : W32) : State :=
  if o = rDmaQuiesce then if agent = 0x01 then s else s.writeQuiesce i false value
  else if o = rFabQuiesce then s.writeQuiesce i true value
  else if o = rFabCfg then s.writeFabCfg i r value
  else if 0x680000 ≤ o ∧ o < 0x6A0000 then
    if o % 8 = 0 then s.onSite i fun t => { t with latch := keep t.latch (2 ^ 25 + o) value }
    else nextOf (execFabRt i ((o - 0x680000) / 8) value s) s
  else if 0x900000 ≤ o ∧ o < 0xA00000 then s.writeIrq agent i o r value
  else if 0xA00000 ≤ o ∧ o < 0xB00000 then s.writeMbx agent i o value
  else if o = rSchAcctSel ∧ bitOf value 31 then
    if bitOf value 30 then nextOf (execSnapClear i value s) s else nextOf (execSnap i value s) s
  else if 0x510000 ≤ o ∧ o < 0x515000 ∧ o % 0x100 = 0 then
    let ch := (o - 0x510000) / 0x100
    let s := if bitOf value 31 then nextOf (execGo i ch value s) s else s.writeRw i o r value
    if bitOf value 30 then nextOf (execStop i ch s) s else s
  else if r.rw = 0 then s
  else s.writeRw i o r value

/-- A write of FE_RING (R329, R360): while ENABLE is 1, only FE_SQ_CTRL and the three heads act. -/
def State.writeRing (s : State) (v o : Nat) (value : W32) : State :=
  let n := value.toNat
  let on := (s.vd v).ringsOn
  let lo (old m : Nat) : Nat := old / 2 ^ 32 * 2 ^ 32 + n / m * m
  let hi (old : Nat) : Nat := old % 2 ^ 32 + n * 2 ^ 32
  let ring (f : Ring → Ring) : State := s.onRing v 0 f
  let eq (f : OutRing → OutRing) : State := s.onFe v fun e => { e with eq := f e.eq }
  let fq (f : OutRing → OutRing) : State := s.onFe v fun e => { e with fq := f e.fq }
  if o = 0x10C then nextOf (if bitOf value 0 then execRingEnable v s else execRingDisable v s) s
  else if o = 0x11C then nextOf (execFeCqHead v value s) s
  else if o = 0x134 then nextOf (execFeEqHead v value s) s
  else if o = 0x144 then nextOf (execFeFqHead v value s) s
  else if on then s
  else if o = 0x100 then ring fun r => { r with sqBase := lo r.sqBase (2 ^ 18) }
  else if o = 0x104 then ring fun r => { r with sqBase := hi r.sqBase }
  else if o = 0x110 then ring fun r => { r with cqBase := lo r.cqBase 8192 }
  else if o = 0x114 then ring fun r => { r with cqBase := hi r.cqBase }
  else if o = 0x118 then ring fun r => { r with cqLog2 := bitsOf value 4 0 }
  else if o = 0x128 then eq fun r => { r with base := lo r.base 8192 }
  else if o = 0x12C then eq fun r => { r with base := hi r.base }
  else if o = 0x130 then eq fun r => { r with vec := bitsOf value 12 8, log2 := bitsOf value 3 0 }
  else if o = 0x138 then fq fun r => { r with base := lo r.base 4096 }
  else if o = 0x13C then fq fun r => { r with base := hi r.base }
  else if o = 0x140 then fq fun r => { r with vec := bitsOf value 12 8, log2 := bitsOf value 3 0 }
  else s

/-- A write of a word of an MSI-X table entry: address, data, or vector control, whose bit 0 masks (R326, R355). -/
def State.writeMsix (s : State) (v n k : Nat) (value : W32) : State :=
  let put (f : Vector' → Vector') : State := s.onFe v fun e => { e with vectors := e.vectors.modify n f }
  if k = 0 then put fun x => { x with addr := x.addr &&& 0xFFFFFFFF00000000 ||| (value &&& 0xFFFFFFFC).zeroExtend 64 }
  else if k = 1 then put fun x => { x with addr := x.addr &&& 0xFFFFFFFF ||| value.zeroExtend 64 <<< 32 }
  else if k = 2 then put fun x => { x with data := value }
  else if bitOf value 0 then put fun x => { x with masked := true }
  else nextOf (execMsixUnmask v n s) s

/-- A 32-bit write of VF BAR0 (R326, R357–R363). -/
def State.writeVf (s : State) (v o : Nat) (value : W32) : State :=
  if o = 0 then nextOf (execFeDoorbell v (value.setWidth 12) s) s
  else if o = 4 then s.onFe v fun e => { e with
    eqLost := e.eqLost && !bitOf value 29, fqLost := e.fqLost && !bitOf value 28, badDb := e.badDb && !bitOf value 26 }
  else if 0x100 ≤ o ∧ o < 0x148 then s.writeRing v o value
  else if o = 0x800 then nextOf (execFeStreamResume v value s) s
  else if 0xC00 ≤ o ∧ o < 0xC80 then s.onFe v fun e => { e with vectors := e.vectors.modify ((o - 0xC00) / 4) fun x =>
    { x with timeUs := bitsOf value 29 16, countM1 := bitsOf value 9 0 } }
  else if 0x8000 ≤ o ∧ o < 0x8200 then s.writeMsix v ((o - 0x8000) / 16) ((o - 0x8000) / 4 % 4) value
  else s

/-- A 32-bit write of VF BAR2 (R364). -/
def State.writeNoel (s : State) (v o : Nat) (value : W32) : State :=
  if o % 0x1000 = 0 then nextOf (execFeNoelDb v (o / 0x1000) (value.setWidth 12) s) s
  else if o % 0x1000 = 8 then nextOf (execFeNoelCqHead v (o / 0x1000) value s) s
  else s

/-- REGISTER_WRITE (R10): each field acts as its access code says; a write that nothing answers is ignored (R13, R35). -/
def execRegisterWrite (a : RegAddr) (value : W32) (s : State) : Host.Outcome State Fault Refusal :=
  .next (match a.space with
    | .pf => match s.pfPlace a.off with
      | some (i, o, r) => s.writePf a.agent i o r value
      | none => s
    | .vf0 v => if s.vfAnswers v ∧ a.off % 4 = 0 then s.writeVf v a.off value else s
    | .vf2 v => if s.vfAnswers v ∧ a.off % 4 = 0 then s.writeNoel v a.off value else s)

end Sys2Proof.Machine
end

