-- ==== Sys2Proof/Machine/Dispatch.lean ====
section
/-! DEFINITION. The meaning of each command: one arm per constructor of `Instr`. -/

namespace Sys2Proof.Machine

/-- What a command does to everything but the queue. -/
def exec (ins : Instr) (s : State) : Host.Outcome State Fault Refusal :=
  match ins with
  | .nop c => Sys2Proof.Machine.execNop c s
  | .streamCreate c => Sys2Proof.Machine.execStreamCreate c s
  | .streamDestroy c => Sys2Proof.Machine.execStreamDestroy c s
  | .streamAbort c => Sys2Proof.Machine.execStreamAbort c s
  | .sliceInfo c => Sys2Proof.Machine.execSliceInfo c s
  | .noelRingSet c => Sys2Proof.Machine.execNoelRingSet c s
  | .aspaceCreate c => Sys2Proof.Machine.execAspaceCreate c s
  | .aspaceDestroy c => Sys2Proof.Machine.execAspaceDestroy c s
  | .objCreate c => Sys2Proof.Machine.execObjCreate c s
  | .objFree c => Sys2Proof.Machine.execObjFree c s
  | .map c => Sys2Proof.Machine.execMap c s
  | .unmap c => Sys2Proof.Machine.execUnmap c s
  | .faultResolve c => Sys2Proof.Machine.execFaultResolve c s
  | .tensorTile c => Sys2Proof.Machine.execTensorTile c s
  | .attention c => Sys2Proof.Machine.execAttention c s
  | .scalarRun c => Sys2Proof.Machine.execScalarRun c s
  | .select c => Sys2Proof.Machine.execSelect c s
  | .gatherScatter c => Sys2Proof.Machine.execGatherScatter c s
  | .layout c => Sys2Proof.Machine.execLayout c s
  | .codec c => Sys2Proof.Machine.execCodec c s
  | .route c => Sys2Proof.Machine.execRoute c s
  | .reduce c => Sys2Proof.Machine.execReduce c s
  | .reduceArm c => Sys2Proof.Machine.execReduceArm c s
  | .dmaCopy c => Sys2Proof.Machine.execDmaCopy c s
  | .dmaFill c => Sys2Proof.Machine.execDmaFill c s
  | .fabAtomic c => Sys2Proof.Machine.execFabAtomic c s
  | .loftAcquire c => Sys2Proof.Machine.execLoftAcquire c s
  | .loftRelease c => Sys2Proof.Machine.execLoftRelease c s
  | .mcastGroupSet c => Sys2Proof.Machine.execMcastGroupSet c s
  | .mcastWrite c => Sys2Proof.Machine.execMcastWrite c s
  | .collective c => Sys2Proof.Machine.execCollective c s
  | .feDoorbell vd tail => Sys2Proof.Machine.execFeDoorbell vd tail s
  | .submissionRead vd ring slots => Sys2Proof.Machine.execSubmissionRead vd ring slots s
  | .fetchLost vd ring status => Sys2Proof.Machine.execFetchLost vd ring status s
  | .descriptorPlace vd ring => Sys2Proof.Machine.execDescriptorPlace vd ring s
  | .feNoelDb vd ring tail => Sys2Proof.Machine.execFeNoelDb vd ring tail s
  | .commandReady c => Sys2Proof.Machine.execCommandReady c s
  | .commandIssue c => Sys2Proof.Machine.execCommandIssue c s
  | .commandEnd c => Sys2Proof.Machine.execCommandEnd c s
  | .commandTimeout c => Sys2Proof.Machine.execCommandTimeout c s
  | .fenceSignal c => Sys2Proof.Machine.execFenceSignal c s
  | .fenceReevaluate c => Sys2Proof.Machine.execFenceReevaluate c s
  | .completionRecordWrite c => Sys2Proof.Machine.execCompletionRecordWrite c s
  | .msixCoalesceExpiry vd vec => Sys2Proof.Machine.execMsixCoalesceExpiry vd vec s
  | .msixUnmask vd vec => Sys2Proof.Machine.execMsixUnmask vd vec s
  | .streamFreed vd st => Sys2Proof.Machine.execStreamFreed vd st s
  | .feCqHead vd head => Sys2Proof.Machine.execFeCqHead vd head s
  | .feEqHead vd head => Sys2Proof.Machine.execFeEqHead vd head s
  | .feFqHead vd head => Sys2Proof.Machine.execFeFqHead vd head s
  | .feNoelCqHead vd ring head => Sys2Proof.Machine.execFeNoelCqHead vd ring head s
  | .ringEnable vd => Sys2Proof.Machine.execRingEnable vd s
  | .ringDisable vd => Sys2Proof.Machine.execRingDisable vd s
  | .feStreamResume vd value => Sys2Proof.Machine.execFeStreamResume vd value s
  | .dvaFault c dva access engine => Sys2Proof.Machine.execDvaFault c dva access engine s
  | .faultBatchWrite vd => Sys2Proof.Machine.execFaultBatchWrite vd s
  | .faultRingFullExpiry vd => Sys2Proof.Machine.execFaultRingFullExpiry vd s
  | .faultEntryExpiry vd fid => Sys2Proof.Machine.execFaultEntryExpiry vd fid s
  | .invalidationAck vd k => Sys2Proof.Machine.execInvalidationAck vd k s
  | .invalidationDrain vd k => Sys2Proof.Machine.execInvalidationDrain vd k s
  | .atsInvalidation vd bus len => Sys2Proof.Machine.execAtsInvalidation vd bus len s
  | .pageRequestResponse c ok => Sys2Proof.Machine.execPageRequestResponse c ok s
  | .hostCompletion c st bus data => Sys2Proof.Machine.execHostCompletion c st bus data s
  | .release vd obj => Sys2Proof.Machine.execRelease vd obj s
  | .tileBoundary i core q => Sys2Proof.Machine.execTileBoundary i core q s
  | .quantumExpiry i core q => Sys2Proof.Machine.execQuantumExpiry i core q s
  | .reelIdleYield i core q => Sys2Proof.Machine.execReelIdleYield i core q s
  | .switchWindow i core q => Sys2Proof.Machine.execSwitchWindow i core q s
  | .zeroingDone i core q => Sys2Proof.Machine.execZeroingDone i core q s
  | .budgetWindowEnd i slice bset path m => Sys2Proof.Machine.execBudgetWindowEnd i slice bset path m s
  | .memoryRead i r f => Sys2Proof.Machine.execMemoryRead i r f s
  | .memoryWrite i r data => Sys2Proof.Machine.execMemoryWrite i r data s
  | .refresh i ch => Sys2Proof.Machine.execRefresh i ch s
  | .phyMasterRequest i ch => Sys2Proof.Machine.execPhyMasterRequest i ch s
  | .memoryPortTraining i port t => Sys2Proof.Machine.execMemoryPortTraining i port t s
  | .phyReadyTimeout i port => Sys2Proof.Machine.execPhyReadyTimeout i port s
  | .sweep i => Sys2Proof.Machine.execSweep i s
  | .claim i ch => Sys2Proof.Machine.execClaim i ch s
  | .copy i ch ok => Sys2Proof.Machine.execCopy i ch ok s
  | .reCopy i ch ok => Sys2Proof.Machine.execReCopy i ch ok s
  | .switch i ch => Sys2Proof.Machine.execSwitch i ch s
  | .tgPatternDone i ch r => Sys2Proof.Machine.execTgPatternDone i ch r s
  | .readReq i p => Sys2Proof.Machine.execReadReq i p s
  | .readRsp i p => Sys2Proof.Machine.execReadRsp i p s
  | .write i p => Sys2Proof.Machine.execWrite i p s
  | .writeAck i p => Sys2Proof.Machine.execWriteAck i p s
  | .atomic i p => Sys2Proof.Machine.execAtomic i p s
  | .atomicRsp i p => Sys2Proof.Machine.execAtomicRsp i p s
  | .fenceSig i p => Sys2Proof.Machine.execFenceSig i p s
  | .fenceAck i p => Sys2Proof.Machine.execFenceAck i p s
  | .contrib i p => Sys2Proof.Machine.execContrib i p s
  | .contribAck i p => Sys2Proof.Machine.execContribAck i p s
  | .control i p => Sys2Proof.Machine.execControl i p s
  | .controlAck i p => Sys2Proof.Machine.execControlAck i p s
  | .linkFrame i l seq crcOk units => Sys2Proof.Machine.execLinkFrame i l seq crcOk units s
  | .acknowledgement i l seq => Sys2Proof.Machine.execAcknowledgement i l seq s
  | .negativeAcknowledgement i l seq => Sys2Proof.Machine.execNegativeAcknowledgement i l seq s
  | .creditReturn i l cr => Sys2Proof.Machine.execCreditReturn i l cr s
  | .detect i l signal => Sys2Proof.Machine.execDetect i l signal s
  | .linkMap i l lanes => Sys2Proof.Machine.execLinkMap i l lanes s
  | .equalise i l signal => Sys2Proof.Machine.execEqualise i l signal s
  | .align i l ok => Sys2Proof.Machine.execAlign i l ok s
  | .credit i l cr rtt => Sys2Proof.Machine.execCredit i l cr rtt s
  | .laneLoss i l lane => Sys2Proof.Machine.execLaneLoss i l lane s
  | .linkRetry i l => Sys2Proof.Machine.execLinkRetry i l s
  | .transportTimeout i txn => Sys2Proof.Machine.execTransportTimeout i txn s
  | .forwardTimeout i tag => Sys2Proof.Machine.execForwardTimeout i tag s
  | .holdTimeExpiry c branch => Sys2Proof.Machine.execHoldTimeExpiry c branch s
  | .fabRt i d hi => Sys2Proof.Machine.execFabRt i d hi s
  | .fabQuiesceReq i slot => Sys2Proof.Machine.execFabQuiesceReq i slot s
  | .fabQuiesceDone i => Sys2Proof.Machine.execFabQuiesceDone i s
  | .dmaQuiesceReq i slot => Sys2Proof.Machine.execDmaQuiesceReq i slot s
  | .quiesceClear i fab => Sys2Proof.Machine.execQuiesceClear i fab s
  | .d2dTraining i j r => Sys2Proof.Machine.execD2dTraining i j r s
  | .d2dPortDown i j => Sys2Proof.Machine.execD2dPortDown i j s
  | .keyCreate i slot slice => Sys2Proof.Machine.execKeyCreate i slot slice s
  | .keyInstall i slot slice gen secret => Sys2Proof.Machine.execKeyInstall i slot slice gen secret s
  | .keyWrap i slot peer => Sys2Proof.Machine.execKeyWrap i slot peer s
  | .keyDrain i slot => Sys2Proof.Machine.execKeyDrain i slot s
  | .keyDestroy i slot => Sys2Proof.Machine.execKeyDestroy i slot s
  | .removalStep slice => Sys2Proof.Machine.execRemovalStep slice s
  | .getMeasurements index => Sys2Proof.Machine.execGetMeasurements index s
  | .sliceReport vd nonce => Sys2Proof.Machine.execSliceReport vd nonce s
  | .spdmRequest code => Sys2Proof.Machine.execSpdmRequest code s
  | .ideKm i stream keyset rx => Sys2Proof.Machine.execIdeKm i stream keyset rx s
  | .ideStreamLoss i stream => Sys2Proof.Machine.execIdeStreamLoss i stream s
  | .getTdispVersion vd => Sys2Proof.Machine.execGetTdispVersion vd s
  | .getTdispCapabilities vd => Sys2Proof.Machine.execGetTdispCapabilities vd s
  | .lockInterfaceRequest vd stream => Sys2Proof.Machine.execLockInterfaceRequest vd stream s
  | .getDeviceInterfaceReport vd => Sys2Proof.Machine.execGetDeviceInterfaceReport vd s
  | .getDeviceInterfaceState vd => Sys2Proof.Machine.execGetDeviceInterfaceState vd s
  | .startInterfaceRequest vd => Sys2Proof.Machine.execStartInterfaceRequest vd s
  | .stopInterfaceRequest vd => Sys2Proof.Machine.execStopInterfaceRequest vd s
  | .configurationRequest i fn r => Sys2Proof.Machine.execConfigurationRequest i fn r s
  | .functionLevelReset i fn => Sys2Proof.Machine.execFunctionLevelReset i fn s
  | .hipPerstN i level => Sys2Proof.Machine.execHipPerstN i level s
  | .reqTail value => Sys2Proof.Machine.execReqTail value s
  | .requestTake agent pkt => Sys2Proof.Machine.execRequestTake agent pkt s
  | .managementRingEnable value => Sys2Proof.Machine.execManagementRingEnable value s
  | .managementRingDisable => Sys2Proof.Machine.execManagementRingDisable s
  | .rplHead value => Sys2Proof.Machine.execRplHead value s
  | .fltHead value => Sys2Proof.Machine.execFltHead value s
  | .faultRecordWrite i => Sys2Proof.Machine.execFaultRecordWrite i s
  | .lossSummary i us => Sys2Proof.Machine.execLossSummary i us s
  | .sliceCreate m => Sys2Proof.Machine.execSliceCreate m s
  | .sliceDestroy m => Sys2Proof.Machine.execSliceDestroy m s
  | .unitBind m => Sys2Proof.Machine.execUnitBind m s
  | .unitUnbind m => Sys2Proof.Machine.execUnitUnbind m s
  | .unitMove m => Sys2Proof.Machine.execUnitMove m s
  | .allotSet m => Sys2Proof.Machine.execAllotSet m s
  | .schedSet m => Sys2Proof.Machine.execSchedSet m s
  | .coreMode m => Sys2Proof.Machine.execCoreMode m s
  | .labelSet m => Sys2Proof.Machine.execLabelSet m s
  | .shareSet m => Sys2Proof.Machine.execShareSet m s
  | .guardSet m => Sys2Proof.Machine.execGuardSet m s
  | .mcastRange m => Sys2Proof.Machine.execMcastRange m s
  | .loftBudget m => Sys2Proof.Machine.execLoftBudget m s
  | .lendSet m => Sys2Proof.Machine.execLendSet m s
  | .coreState m => Sys2Proof.Machine.execCoreState m s
  | .memportState m => Sys2Proof.Machine.execMemportState m s
  | .linkState m => Sys2Proof.Machine.execLinkState m s
  | .reset m => Sys2Proof.Machine.execReset m s
  | .escalateSet m => Sys2Proof.Machine.execEscalateSet m s
  | .healthGet m => Sys2Proof.Machine.execHealthGet m s
  | .fwStage m => Sys2Proof.Machine.execFwStage m s
  | .fwActivate m => Sys2Proof.Machine.execFwActivate m s
  | .fwCommit m => Sys2Proof.Machine.execFwCommit m s
  | .fwDiscard m => Sys2Proof.Machine.execFwDiscard m s
  | .fwInfo m => Sys2Proof.Machine.execFwInfo m s
  | .attState m => Sys2Proof.Machine.execAttState m s
  | .attMeasure m => Sys2Proof.Machine.execAttMeasure m s
  | .attReport m => Sys2Proof.Machine.execAttReport m s
  | .policySet m => Sys2Proof.Machine.execPolicySet m s
  | .pageRetire m => Sys2Proof.Machine.execPageRetire m s
  | .chEvacuate m => Sys2Proof.Machine.execChEvacuate m s
  | .chReturn m => Sys2Proof.Machine.execChReturn m s
  | .weightAllot m => Sys2Proof.Machine.execWeightAllot m s
  | .weightLoad m => Sys2Proof.Machine.execWeightLoad m s
  | .weightCopy m => Sys2Proof.Machine.execWeightCopy m s
  | .weightGrant m => Sys2Proof.Machine.execWeightGrant m s
  | .weightRevoke m => Sys2Proof.Machine.execWeightRevoke m s
  | .weightFree m => Sys2Proof.Machine.execWeightFree m s
  | .linkEnable m => Sys2Proof.Machine.execLinkEnable m s
  | .portgroupReset m => Sys2Proof.Machine.execPortgroupReset m s
  | .chTest m => Sys2Proof.Machine.execChTest m s
  | .logLevel m => Sys2Proof.Machine.execLogLevel m s
  | .migrateFreeze m => Sys2Proof.Machine.execMigrateFreeze m s
  | .migratePeer m => Sys2Proof.Machine.execMigratePeer m s
  | .migrateSave m => Sys2Proof.Machine.execMigrateSave m s
  | .migrateRestore m => Sys2Proof.Machine.execMigrateRestore m s
  | .migrateCommit m => Sys2Proof.Machine.execMigrateCommit m s
  | .migrateCancel m => Sys2Proof.Machine.execMigrateCancel m s
  | .migrateThaw m => Sys2Proof.Machine.execMigrateThaw m s
  | .spareIn m => Sys2Proof.Machine.execSpareIn m s
  | .healthCheck m => Sys2Proof.Machine.execHealthCheck m s
  | .spareGet m => Sys2Proof.Machine.execSpareGet m s
  | .mbxLock i agent box => Sys2Proof.Machine.execMbxLock i agent box s
  | .mbxData i agent box w value => Sys2Proof.Machine.execMbxData i agent box w value s
  | .mbxDoorbell i agent box value => Sys2Proof.Machine.execMbxDoorbell i agent box value s
  | .mbxFree i agent box value => Sys2Proof.Machine.execMbxFree i agent box value s
  | .sourceEdge i proc n => Sys2Proof.Machine.execSourceEdge i proc n s
  | .irqCoalesceExpiry i n => Sys2Proof.Machine.execIrqCoalesceExpiry i n s
  | .irqClaim i proc => Sys2Proof.Machine.execIrqClaim i proc s
  | .irqIpi i proc value => Sys2Proof.Machine.execIrqIpi i proc value s
  | .domainReset i u cause => Sys2Proof.Machine.execDomainReset i u cause s
  | .resetRelease i u => Sys2Proof.Machine.execResetRelease i u s
  | .domainUp i u => Sys2Proof.Machine.execDomainUp i u s
  | .spareBringIn i core bistOk => Sys2Proof.Machine.execSpareBringIn i core bistOk s
  | .hang i core dma engine => Sys2Proof.Machine.execHang i core dma engine s
  | .sequencerReportMiss i cl => Sys2Proof.Machine.execSequencerReportMiss i cl s
  | .heartbeatMiss i => Sys2Proof.Machine.execHeartbeatMiss i s
  | .watchdogExpiry i proc => Sys2Proof.Machine.execWatchdogExpiry i proc s
  | .siblingHeartbeatMiss i => Sys2Proof.Machine.execSiblingHeartbeatMiss i s
  | .drainFailure i core => Sys2Proof.Machine.execDrainFailure i core s
  | .coldRstNRelease i b => Sys2Proof.Machine.execColdRstNRelease i b s
  | .coldRstNAssert i => Sys2Proof.Machine.execColdRstNAssert i s
  | .membershipSettle => Sys2Proof.Machine.execMembershipSettle s
  | .resetReq i => Sys2Proof.Machine.execResetReq i s
  | .faultIn i => Sys2Proof.Machine.execFaultIn i s
  | .thermAlert i => Sys2Proof.Machine.execThermAlert i s
  | .hspCattrip i stack => Sys2Proof.Machine.execHspCattrip i stack s
  | .temperatureSample i sensor temp => Sys2Proof.Machine.execTemperatureSample i sensor temp s
  | .lossOfLock i loop => Sys2Proof.Machine.execLossOfLock i loop s
  | .relock i loop => Sys2Proof.Machine.execRelock i loop s
  | .powerTransition i kind idx => Sys2Proof.Machine.execPowerTransition i kind idx s
  | .pswAck i k level => Sys2Proof.Machine.execPswAck i k level s
  | .pswAckTimeout i k => Sys2Proof.Machine.execPswAckTimeout i k s
  | .debugUnlock i ok => Sys2Proof.Machine.execDebugUnlock i ok s
  | .jtagInstruction i code => Sys2Proof.Machine.execJtagInstruction i code s
  | .tapReset i => Sys2Proof.Machine.execTapReset i s
  | .entdaa i addr => Sys2Proof.Machine.execEntdaa i addr s
  | .setdasa i addr => Sys2Proof.Machine.execSetdasa i addr s
  | .targetReset i => Sys2Proof.Machine.execTargetReset i s
  | .go i ch value => Sys2Proof.Machine.execGo i ch value s
  | .stop i ch => Sys2Proof.Machine.execStop i ch s
  | .snap i value => Sys2Proof.Machine.execSnap i value s
  | .snapClear i value => Sys2Proof.Machine.execSnapClear i value s
  | .lowWordRead a => Sys2Proof.Machine.execLowWordRead a s
  | .highWordRead a => Sys2Proof.Machine.execHighWordRead a s
  | .rcRead a => Sys2Proof.Machine.execRcRead a s
  | .registerWrite a value => Sys2Proof.Machine.execRegisterWrite a value s
  | .chainRow i core half => Sys2Proof.Machine.execChainRow i core half s
  | .ticketEnd i core ticket => Sys2Proof.Machine.execTicketEnd i core ticket s
  | .moveEnd i core ticket ok => Sys2Proof.Machine.execMoveEnd i core ticket ok s
  | .evwaitExpiry e => Sys2Proof.Machine.execEvwaitExpiry e s
  | .scalarInstruction e w => Sys2Proof.Machine.execScalarInstruction e w s
  | .wfi e w => Sys2Proof.Machine.execWfi e w s
  | .vlaunch e w => Sys2Proof.Machine.execVlaunch e w s
  | .vwait e w => Sys2Proof.Machine.execVwait e w s
  | .vpoll e w => Sys2Proof.Machine.execVpoll e w s
  | .cmcopy e w => Sys2Proof.Machine.execCmcopy e w s
  | .mwait e w => Sys2Proof.Machine.execMwait e w s
  | .evwait e w => Sys2Proof.Machine.execEvwait e w s
  | .evset e w => Sys2Proof.Machine.execEvset e w s
  | .sehalt e w => Sys2Proof.Machine.execSehalt e w s
  | .charm e w => Sys2Proof.Machine.execCharm e w s
  | .vabort e w => Sys2Proof.Machine.execVabort e w s
  | .vadd e w => Sys2Proof.Machine.execVadd e w s
  | .vsub e w => Sys2Proof.Machine.execVsub e w s
  | .vmul e w => Sys2Proof.Machine.execVmul e w s
  | .vfma e w => Sys2Proof.Machine.execVfma e w s
  | .vfms e w => Sys2Proof.Machine.execVfms e w s
  | .vmax e w => Sys2Proof.Machine.execVmax e w s
  | .vmin e w => Sys2Proof.Machine.execVmin e w s
  | .vabs e w => Sys2Proof.Machine.execVabs e w s
  | .vneg e w => Sys2Proof.Machine.execVneg e w s
  | .vand e w => Sys2Proof.Machine.execVand e w s
  | .vor e w => Sys2Proof.Machine.execVor e w s
  | .vxor e w => Sys2Proof.Machine.execVxor e w s
  | .vshl e w => Sys2Proof.Machine.execVshl e w s
  | .vsra e w => Sys2Proof.Machine.execVsra e w s
  | .vsrl e w => Sys2Proof.Machine.execVsrl e w s
  | .vsel e w => Sys2Proof.Machine.execVsel e w s
  | .vmov e w => Sys2Proof.Machine.execVmov e w s
  | .vperm e w => Sys2Proof.Machine.execVperm e w s
  | .vcmpeq e w => Sys2Proof.Machine.execVcmpeq e w s
  | .vcmpne e w => Sys2Proof.Machine.execVcmpne e w s
  | .vcmplt e w => Sys2Proof.Machine.execVcmplt e w s
  | .vcmple e w => Sys2Proof.Machine.execVcmple e w s
  | .vcmpuo e w => Sys2Proof.Machine.execVcmpuo e w s
  | .vrsum e w => Sys2Proof.Machine.execVrsum e w s
  | .vrmax e w => Sys2Proof.Machine.execVrmax e w s
  | .vrmin e w => Sys2Proof.Machine.execVrmin e w s
  | .vadds e w => Sys2Proof.Machine.execVadds e w s
  | .vsubs e w => Sys2Proof.Machine.execVsubs e w s
  | .vrsubs e w => Sys2Proof.Machine.execVrsubs e w s
  | .vmuls e w => Sys2Proof.Machine.execVmuls e w s
  | .vfmas e w => Sys2Proof.Machine.execVfmas e w s
  | .vmaxs e w => Sys2Proof.Machine.execVmaxs e w s
  | .vmins e w => Sys2Proof.Machine.execVmins e w s
  | .vands e w => Sys2Proof.Machine.execVands e w s
  | .vors e w => Sys2Proof.Machine.execVors e w s
  | .vxors e w => Sys2Proof.Machine.execVxors e w s
  | .vshls e w => Sys2Proof.Machine.execVshls e w s
  | .vsras e w => Sys2Proof.Machine.execVsras e w s
  | .vsrls e w => Sys2Proof.Machine.execVsrls e w s
  | .vsplat e w => Sys2Proof.Machine.execVsplat e w s
  | .viota e w => Sys2Proof.Machine.execViota e w s
  | .vexta e w => Sys2Proof.Machine.execVexta e w s
  | .vcmpeqs e w => Sys2Proof.Machine.execVcmpeqs e w s
  | .vcmpnes e w => Sys2Proof.Machine.execVcmpnes e w s
  | .vcmplts e w => Sys2Proof.Machine.execVcmplts e w s
  | .vcmples e w => Sys2Proof.Machine.execVcmples e w s
  | .vcmpgts e w => Sys2Proof.Machine.execVcmpgts e w s
  | .vcmpges e w => Sys2Proof.Machine.execVcmpges e w s
  | .vld e w => Sys2Proof.Machine.execVld e w s
  | .vst e w => Sys2Proof.Machine.execVst e w s
  | .pld e w => Sys2Proof.Machine.execPld e w s
  | .pst e w => Sys2Proof.Machine.execPst e w s
  | .chpop e w => Sys2Proof.Machine.execChpop e w s
  | .vcvt e w => Sys2Proof.Machine.execVcvt e w s
  | .vexp e w => Sys2Proof.Machine.execVexp e w s
  | .vlog e w => Sys2Proof.Machine.execVlog e w s
  | .vrsqrt e w => Sys2Proof.Machine.execVrsqrt e w s
  | .vrcp e w => Sys2Proof.Machine.execVrcp e w s
  | .vtanh e w => Sys2Proof.Machine.execVtanh e w s
  | .verf e w => Sys2Proof.Machine.execVerf e w s
  | .vcNop e w => Sys2Proof.Machine.execVcNop e w s
  | .halt e w => Sys2Proof.Machine.execHalt e w s
  | .br e w => Sys2Proof.Machine.execBr e w s
  | .bz e w => Sys2Proof.Machine.execBz e w s
  | .bnz e w => Sys2Proof.Machine.execBnz e w s
  | .loop e w => Sys2Proof.Machine.execLoop e w s
  | .pany e w => Sys2Proof.Machine.execPany e w s
  | .pnone e w => Sys2Proof.Machine.execPnone e w s
  | .ali e w => Sys2Proof.Machine.execAli e w s
  | .alui e w => Sys2Proof.Machine.execAlui e w s
  | .aaddi e w => Sys2Proof.Machine.execAaddi e w s
  | .aadd e w => Sys2Proof.Machine.execAadd e w s
  | .asub e w => Sys2Proof.Machine.execAsub e w s
  | .amul e w => Sys2Proof.Machine.execAmul e w s
  | .ashli e w => Sys2Proof.Machine.execAshli e w s
  | .ashri e w => Sys2Proof.Machine.execAshri e w s
  | .pand e w => Sys2Proof.Machine.execPand e w s
  | .por e w => Sys2Proof.Machine.execPor e w s
  | .pxor e w => Sys2Proof.Machine.execPxor e w s
  | .pnot e w => Sys2Proof.Machine.execPnot e w s
  | .setvl e w => Sys2Proof.Machine.execSetvl e w s
  | .flgrd e w => Sys2Proof.Machine.execFlgrd e w s
  | .srseed e w => Sys2Proof.Machine.execSrseed e w s
  | .fence e w => Sys2Proof.Machine.execFence e w s
  | .evsig e w => Sys2Proof.Machine.execEvsig e w s
  | .hotReset i => Sys2Proof.Machine.execHotReset i s
  | .hostCompletionTimeout c => Sys2Proof.Machine.execHostCompletionTimeout c s
  | .workUnitBoundary i core q kind => Sys2Proof.Machine.execWorkUnitBoundary i core q kind s
  | .moduleLeavesPort i j k => Sys2Proof.Machine.execModuleLeavesPort i j k s
  | .releaseWaitExpiry vd obj => Sys2Proof.Machine.execReleaseWaitExpiry vd obj s

end Sys2Proof.Machine
end

