-- ==== Sys2Proof/Machine/Idle.lean ====
section
/-! DEFINITION. What the block does while no command waits: its clocks run (R570). -/

namespace Sys2Proof.Machine

/-- One nanosecond of instance-local time passes on every site out of cold reset (R570; log entry 2). -/
def idle (s : State) : State :=
  { s with sites := s.sites.map fun t => if t.pins.coldRstN then { t with time := t.time + 1 } else t }

end Sys2Proof.Machine
end

