-- ==== Sys2Proof/Laws/PerInstr.lean ====
section
/-! SUPPORT. The family `OperandLimits` of statements made for each command: a well-formed command names only sites of a
part (0 to 7, R36) and virtual devices (0 to 255, R41). One lemma per constructor. -/

namespace Sys2Proof.Laws.OperandLimits

/-- A well-formed command names only sites 0-7 and virtual devices 0-255 (R36, R41). -/
def Statement (ins : Instr) : Prop :=
  ins.wf = true → (∀ i ∈ ins.sites, i < 8) ∧ (∀ v ∈ ins.vds, v < 256)

theorem and_left {a b : Bool} (h : (a && b) = true) : a = true := (Bool.and_eq_true_iff.1 h).1
theorem and_right {a b : Bool} (h : (a && b) = true) : b = true := (Bool.and_eq_true_iff.1 h).2
theorem site_lt {i : Nat} (h : siteOk i = true) : i < 8 := of_decide_eq_true h
theorem vd_lt {v : Nat} (h : vdOk v = true) : v < 256 := of_decide_eq_true h
theorem cmd_vd_lt {c : CmdRef} (h : c.wf = true) : c.vd < 256 := vd_lt (and_left h)
theorem vector_site_lt {e : VeRef} (h : e.wf = true) : e.site < 8 := site_lt (and_left (and_left h))
theorem scalar_site_lt {e : SeRef} (h : e.wf = true) : e.site < 8 := site_lt (and_left (and_left h))
theorem none_below {n : Nat} : ∀ k ∈ ([] : List Nat), k < n := nofun
theorem one_below {k n : Nat} (h : k < n) : ∀ m ∈ [k], m < n := fun _ hm => (List.mem_singleton.1 hm) ▸ h

theorem nop (c : CmdRef) : Statement (.nop c) := fun h => ⟨none_below, one_below (cmd_vd_lt h)⟩
theorem streamCreate (c : CmdRef) : Statement (.streamCreate c) := fun h => ⟨none_below, one_below (cmd_vd_lt h)⟩
theorem streamDestroy (c : CmdRef) : Statement (.streamDestroy c) := fun h => ⟨none_below, one_below (cmd_vd_lt h)⟩
theorem streamAbort (c : CmdRef) : Statement (.streamAbort c) := fun h => ⟨none_below, one_below (cmd_vd_lt h)⟩
theorem sliceInfo (c : CmdRef) : Statement (.sliceInfo c) := fun h => ⟨none_below, one_below (cmd_vd_lt h)⟩
theorem noelRingSet (c : CmdRef) : Statement (.noelRingSet c) := fun h => ⟨none_below, one_below (cmd_vd_lt h)⟩
theorem aspaceCreate (c : CmdRef) : Statement (.aspaceCreate c) := fun h => ⟨none_below, one_below (cmd_vd_lt h)⟩
theorem aspaceDestroy (c : CmdRef) : Statement (.aspaceDestroy c) := fun h => ⟨none_below, one_below (cmd_vd_lt h)⟩
theorem objCreate (c : CmdRef) : Statement (.objCreate c) := fun h => ⟨none_below, one_below (cmd_vd_lt h)⟩
theorem objFree (c : CmdRef) : Statement (.objFree c) := fun h => ⟨none_below, one_below (cmd_vd_lt h)⟩
theorem map (c : CmdRef) : Statement (.map c) := fun h => ⟨none_below, one_below (cmd_vd_lt h)⟩
theorem unmap (c : CmdRef) : Statement (.unmap c) := fun h => ⟨none_below, one_below (cmd_vd_lt h)⟩
theorem faultResolve (c : CmdRef) : Statement (.faultResolve c) := fun h => ⟨none_below, one_below (cmd_vd_lt h)⟩
theorem tensorTile (c : CmdRef) : Statement (.tensorTile c) := fun h => ⟨none_below, one_below (cmd_vd_lt h)⟩
theorem attention (c : CmdRef) : Statement (.attention c) := fun h => ⟨none_below, one_below (cmd_vd_lt h)⟩
theorem scalarRun (c : CmdRef) : Statement (.scalarRun c) := fun h => ⟨none_below, one_below (cmd_vd_lt h)⟩
theorem select (c : CmdRef) : Statement (.select c) := fun h => ⟨none_below, one_below (cmd_vd_lt h)⟩
theorem gatherScatter (c : CmdRef) : Statement (.gatherScatter c) := fun h => ⟨none_below, one_below (cmd_vd_lt h)⟩
theorem layout (c : CmdRef) : Statement (.layout c) := fun h => ⟨none_below, one_below (cmd_vd_lt h)⟩
theorem codec (c : CmdRef) : Statement (.codec c) := fun h => ⟨none_below, one_below (cmd_vd_lt h)⟩
theorem route (c : CmdRef) : Statement (.route c) := fun h => ⟨none_below, one_below (cmd_vd_lt h)⟩
theorem reduce (c : CmdRef) : Statement (.reduce c) := fun h => ⟨none_below, one_below (cmd_vd_lt h)⟩
theorem reduceArm (c : CmdRef) : Statement (.reduceArm c) := fun h => ⟨none_below, one_below (cmd_vd_lt h)⟩
theorem dmaCopy (c : CmdRef) : Statement (.dmaCopy c) := fun h => ⟨none_below, one_below (cmd_vd_lt h)⟩
theorem dmaFill (c : CmdRef) : Statement (.dmaFill c) := fun h => ⟨none_below, one_below (cmd_vd_lt h)⟩
theorem fabAtomic (c : CmdRef) : Statement (.fabAtomic c) := fun h => ⟨none_below, one_below (cmd_vd_lt h)⟩
theorem loftAcquire (c : CmdRef) : Statement (.loftAcquire c) := fun h => ⟨none_below, one_below (cmd_vd_lt h)⟩
theorem loftRelease (c : CmdRef) : Statement (.loftRelease c) := fun h => ⟨none_below, one_below (cmd_vd_lt h)⟩
theorem mcastGroupSet (c : CmdRef) : Statement (.mcastGroupSet c) := fun h => ⟨none_below, one_below (cmd_vd_lt h)⟩
theorem mcastWrite (c : CmdRef) : Statement (.mcastWrite c) := fun h => ⟨none_below, one_below (cmd_vd_lt h)⟩
theorem collective (c : CmdRef) : Statement (.collective c) := fun h => ⟨none_below, one_below (cmd_vd_lt h)⟩
theorem feDoorbell (vd : Nat) (tail : BitVec 12) : Statement (.feDoorbell vd tail) :=
  fun h => ⟨none_below, one_below (vd_lt h)⟩
theorem submissionRead (vd : Nat) (ring : Nat) (slots : List Bytes) : Statement (.submissionRead vd ring slots) :=
  fun h => ⟨none_below, one_below (vd_lt (and_left h))⟩
theorem fetchLost (vd : Nat) (ring : Nat) (status : BitVec 16) : Statement (.fetchLost vd ring status) :=
  fun h => ⟨none_below, one_below (vd_lt (and_left h))⟩
theorem descriptorPlace (vd : Nat) (ring : Nat) : Statement (.descriptorPlace vd ring) :=
  fun h => ⟨none_below, one_below (vd_lt (and_left h))⟩
theorem feNoelDb (vd : Nat) (ring : Nat) (tail : BitVec 12) : Statement (.feNoelDb vd ring tail) :=
  fun h => ⟨none_below, one_below (vd_lt (and_left h))⟩
theorem commandReady (c : CmdRef) : Statement (.commandReady c) := fun h => ⟨none_below, one_below (cmd_vd_lt h)⟩
theorem commandIssue (c : CmdRef) : Statement (.commandIssue c) := fun h => ⟨none_below, one_below (cmd_vd_lt h)⟩
theorem commandEnd (c : CmdRef) : Statement (.commandEnd c) := fun h => ⟨none_below, one_below (cmd_vd_lt h)⟩
theorem commandTimeout (c : CmdRef) : Statement (.commandTimeout c) := fun h => ⟨none_below, one_below (cmd_vd_lt h)⟩
theorem fenceSignal (c : CmdRef) : Statement (.fenceSignal c) := fun h => ⟨none_below, one_below (cmd_vd_lt h)⟩
theorem fenceReevaluate (c : CmdRef) : Statement (.fenceReevaluate c) := fun h => ⟨none_below, one_below (cmd_vd_lt h)⟩
theorem completionRecordWrite (c : CmdRef) : Statement (.completionRecordWrite c) :=
  fun h => ⟨none_below, one_below (cmd_vd_lt h)⟩
theorem msixCoalesceExpiry (vd : Nat) (vec : Nat) : Statement (.msixCoalesceExpiry vd vec) :=
  fun h => ⟨none_below, one_below (vd_lt (and_left h))⟩
theorem msixUnmask (vd : Nat) (vec : Nat) : Statement (.msixUnmask vd vec) :=
  fun h => ⟨none_below, one_below (vd_lt (and_left h))⟩
theorem streamFreed (vd : Nat) (st : Nat) : Statement (.streamFreed vd st) :=
  fun h => ⟨none_below, one_below (vd_lt (and_left h))⟩
theorem feCqHead (vd : Nat) (head : W32) : Statement (.feCqHead vd head) := fun h => ⟨none_below, one_below (vd_lt h)⟩
theorem feEqHead (vd : Nat) (head : W32) : Statement (.feEqHead vd head) := fun h => ⟨none_below, one_below (vd_lt h)⟩
theorem feFqHead (vd : Nat) (head : W32) : Statement (.feFqHead vd head) := fun h => ⟨none_below, one_below (vd_lt h)⟩
theorem feNoelCqHead (vd : Nat) (ring : Nat) (head : W32) : Statement (.feNoelCqHead vd ring head) :=
  fun h => ⟨none_below, one_below (vd_lt (and_left h))⟩
theorem ringEnable (vd : Nat) : Statement (.ringEnable vd) := fun h => ⟨none_below, one_below (vd_lt h)⟩
theorem ringDisable (vd : Nat) : Statement (.ringDisable vd) := fun h => ⟨none_below, one_below (vd_lt h)⟩
theorem feStreamResume (vd : Nat) (value : W32) : Statement (.feStreamResume vd value) :=
  fun h => ⟨none_below, one_below (vd_lt h)⟩
theorem dvaFault (c : CmdRef) (dva : Nat) (access : BitVec 3) (engine : Nat) : Statement (.dvaFault c dva access engine) :=
  fun h => ⟨none_below, one_below (cmd_vd_lt (and_left h))⟩
theorem faultBatchWrite (vd : Nat) : Statement (.faultBatchWrite vd) := fun h => ⟨none_below, one_below (vd_lt h)⟩
theorem faultRingFullExpiry (vd : Nat) : Statement (.faultRingFullExpiry vd) :=
  fun h => ⟨none_below, one_below (vd_lt h)⟩
theorem faultEntryExpiry (vd : Nat) (fid : Nat) : Statement (.faultEntryExpiry vd fid) :=
  fun h => ⟨none_below, one_below (vd_lt h)⟩
theorem invalidationAck (vd : Nat) (k : Nat) : Statement (.invalidationAck vd k) :=
  fun h => ⟨none_below, one_below (vd_lt h)⟩
theorem invalidationDrain (vd : Nat) (k : Nat) : Statement (.invalidationDrain vd k) :=
  fun h => ⟨none_below, one_below (vd_lt h)⟩
theorem atsInvalidation (vd : Nat) (bus : Nat) (len : Nat) : Statement (.atsInvalidation vd bus len) :=
  fun h => ⟨none_below, one_below (vd_lt h)⟩
theorem pageRequestResponse (c : CmdRef) (ok : Bool) : Statement (.pageRequestResponse c ok) :=
  fun h => ⟨none_below, one_below (cmd_vd_lt h)⟩
theorem hostCompletion (c : CmdRef) (st : HostStatus) (bus : Nat) (data : Bytes) : Statement (.hostCompletion c st bus data) :=
  fun h => ⟨none_below, one_below (cmd_vd_lt h)⟩
theorem release (vd : Nat) (obj : Nat) : Statement (.release vd obj) := fun h => ⟨none_below, one_below (vd_lt h)⟩
theorem tileBoundary (i : Nat) (core : Nat) (q : Nat) : Statement (.tileBoundary i core q) :=
  fun h => ⟨one_below (site_lt (and_left (and_left h))), none_below⟩
theorem quantumExpiry (i : Nat) (core : Nat) (q : Nat) : Statement (.quantumExpiry i core q) :=
  fun h => ⟨one_below (site_lt (and_left (and_left h))), none_below⟩
theorem reelIdleYield (i : Nat) (core : Nat) (q : Nat) : Statement (.reelIdleYield i core q) :=
  fun h => ⟨one_below (site_lt (and_left (and_left h))), none_below⟩
theorem switchWindow (i : Nat) (core : Nat) (q : Nat) : Statement (.switchWindow i core q) :=
  fun h => ⟨one_below (site_lt (and_left (and_left h))), none_below⟩
theorem zeroingDone (i : Nat) (core : Nat) (q : Nat) : Statement (.zeroingDone i core q) :=
  fun h => ⟨one_below (site_lt (and_left (and_left h))), none_below⟩
theorem budgetWindowEnd (i : Nat) (slice : Nat) (bset : Nat) (path : Nat) (m : WindowMeasure) : Statement (.budgetWindowEnd i slice bset path m) :=
  fun h => ⟨one_below (site_lt (and_left (and_left h))), one_below (vd_lt (and_right (and_left h)))⟩
theorem memoryRead (i : Nat) (r : MemReq) (f : ReadFinding) : Statement (.memoryRead i r f) :=
  fun h => ⟨one_below (site_lt h), none_below⟩
theorem memoryWrite (i : Nat) (r : MemReq) (data : Bytes) : Statement (.memoryWrite i r data) :=
  fun h => ⟨one_below (site_lt h), none_below⟩
theorem refresh (i : Nat) (ch : Nat) : Statement (.refresh i ch) :=
  fun h => ⟨one_below (site_lt (and_left h)), none_below⟩
theorem phyMasterRequest (i : Nat) (ch : Nat) : Statement (.phyMasterRequest i ch) :=
  fun h => ⟨one_below (site_lt (and_left h)), none_below⟩
theorem memoryPortTraining (i : Nat) (port : Nat) (t : TrainReport) : Statement (.memoryPortTraining i port t) :=
  fun h => ⟨one_below (site_lt (and_left h)), none_below⟩
theorem phyReadyTimeout (i : Nat) (port : Nat) : Statement (.phyReadyTimeout i port) :=
  fun h => ⟨one_below (site_lt (and_left h)), none_below⟩
theorem sweep (i : Nat) : Statement (.sweep i) := fun h => ⟨one_below (site_lt h), none_below⟩
theorem claim (i : Nat) (ch : Nat) : Statement (.claim i ch) := fun h => ⟨one_below (site_lt (and_left h)), none_below⟩
theorem copy (i : Nat) (ch : Nat) (ok : Bool) : Statement (.copy i ch ok) :=
  fun h => ⟨one_below (site_lt (and_left h)), none_below⟩
theorem reCopy (i : Nat) (ch : Nat) (ok : Bool) : Statement (.reCopy i ch ok) :=
  fun h => ⟨one_below (site_lt (and_left h)), none_below⟩
theorem switch (i : Nat) (ch : Nat) : Statement (.switch i ch) :=
  fun h => ⟨one_below (site_lt (and_left h)), none_below⟩
theorem tgPatternDone (i : Nat) (ch : Nat) (r : TgReport) : Statement (.tgPatternDone i ch r) :=
  fun h => ⟨one_below (site_lt (and_left h)), none_below⟩
theorem readReq (i : Nat) (p : Pkt) : Statement (.readReq i p) :=
  fun h => ⟨one_below (site_lt (and_left h)), none_below⟩
theorem readRsp (i : Nat) (p : Pkt) : Statement (.readRsp i p) :=
  fun h => ⟨one_below (site_lt (and_left h)), none_below⟩
theorem write (i : Nat) (p : Pkt) : Statement (.write i p) := fun h => ⟨one_below (site_lt (and_left h)), none_below⟩
theorem writeAck (i : Nat) (p : Pkt) : Statement (.writeAck i p) :=
  fun h => ⟨one_below (site_lt (and_left h)), none_below⟩
theorem atomic (i : Nat) (p : Pkt) : Statement (.atomic i p) := fun h => ⟨one_below (site_lt (and_left h)), none_below⟩
theorem atomicRsp (i : Nat) (p : Pkt) : Statement (.atomicRsp i p) :=
  fun h => ⟨one_below (site_lt (and_left h)), none_below⟩
theorem fenceSig (i : Nat) (p : Pkt) : Statement (.fenceSig i p) :=
  fun h => ⟨one_below (site_lt (and_left h)), none_below⟩
theorem fenceAck (i : Nat) (p : Pkt) : Statement (.fenceAck i p) :=
  fun h => ⟨one_below (site_lt (and_left h)), none_below⟩
theorem contrib (i : Nat) (p : Pkt) : Statement (.contrib i p) :=
  fun h => ⟨one_below (site_lt (and_left h)), none_below⟩
theorem contribAck (i : Nat) (p : Pkt) : Statement (.contribAck i p) :=
  fun h => ⟨one_below (site_lt (and_left h)), none_below⟩
theorem control (i : Nat) (p : Pkt) : Statement (.control i p) :=
  fun h => ⟨one_below (site_lt (and_left h)), none_below⟩
theorem controlAck (i : Nat) (p : Pkt) : Statement (.controlAck i p) :=
  fun h => ⟨one_below (site_lt (and_left h)), none_below⟩
theorem linkFrame (i : Nat) (l : Nat) (seq : Nat) (crcOk : Bool) (units : Nat) : Statement (.linkFrame i l seq crcOk units) :=
  fun h => ⟨one_below (site_lt (and_left h)), none_below⟩
theorem acknowledgement (i : Nat) (l : Nat) (seq : Nat) : Statement (.acknowledgement i l seq) :=
  fun h => ⟨one_below (site_lt (and_left h)), none_below⟩
theorem negativeAcknowledgement (i : Nat) (l : Nat) (seq : Nat) : Statement (.negativeAcknowledgement i l seq) :=
  fun h => ⟨one_below (site_lt (and_left h)), none_below⟩
theorem creditReturn (i : Nat) (l : Nat) (cr : CreditGrant) : Statement (.creditReturn i l cr) :=
  fun h => ⟨one_below (site_lt (and_left h)), none_below⟩
theorem detect (i : Nat) (l : Nat) (signal : BitVec 5) : Statement (.detect i l signal) :=
  fun h => ⟨one_below (site_lt (and_left h)), none_below⟩
theorem linkMap (i : Nat) (l : Nat) (lanes : List LaneObs) : Statement (.linkMap i l lanes) :=
  fun h => ⟨one_below (site_lt (and_left h)), none_below⟩
theorem equalise (i : Nat) (l : Nat) (signal : BitVec 5) : Statement (.equalise i l signal) :=
  fun h => ⟨one_below (site_lt (and_left h)), none_below⟩
theorem align (i : Nat) (l : Nat) (ok : Bool) : Statement (.align i l ok) :=
  fun h => ⟨one_below (site_lt (and_left h)), none_below⟩
theorem credit (i : Nat) (l : Nat) (cr : CreditGrant) (rtt : Nat) : Statement (.credit i l cr rtt) :=
  fun h => ⟨one_below (site_lt (and_left h)), none_below⟩
theorem laneLoss (i : Nat) (l : Nat) (lane : Nat) : Statement (.laneLoss i l lane) :=
  fun h => ⟨one_below (site_lt (and_left (and_left h))), none_below⟩
theorem linkRetry (i : Nat) (l : Nat) : Statement (.linkRetry i l) :=
  fun h => ⟨one_below (site_lt (and_left h)), none_below⟩
theorem transportTimeout (i : Nat) (txn : Nat) : Statement (.transportTimeout i txn) :=
  fun h => ⟨one_below (site_lt h), none_below⟩
theorem forwardTimeout (i : Nat) (tag : Nat) : Statement (.forwardTimeout i tag) :=
  fun h => ⟨one_below (site_lt h), none_below⟩
theorem holdTimeExpiry (c : CmdRef) (branch : Nat) : Statement (.holdTimeExpiry c branch) :=
  fun h => ⟨none_below, one_below (cmd_vd_lt h)⟩
theorem fabRt (i : Nat) (d : Nat) (hi : W32) : Statement (.fabRt i d hi) :=
  fun h => ⟨one_below (site_lt (and_left h)), none_below⟩
theorem fabQuiesceReq (i : Nat) (slot : Nat) : Statement (.fabQuiesceReq i slot) :=
  fun h => ⟨one_below (site_lt (and_left h)), none_below⟩
theorem fabQuiesceDone (i : Nat) : Statement (.fabQuiesceDone i) := fun h => ⟨one_below (site_lt h), none_below⟩
theorem dmaQuiesceReq (i : Nat) (slot : Nat) : Statement (.dmaQuiesceReq i slot) :=
  fun h => ⟨one_below (site_lt (and_left h)), none_below⟩
theorem quiesceClear (i : Nat) (fab : Bool) : Statement (.quiesceClear i fab) :=
  fun h => ⟨one_below (site_lt h), none_below⟩
theorem d2dTraining (i : Nat) (j : Nat) (r : D2dReport) : Statement (.d2dTraining i j r) :=
  fun h => ⟨one_below (site_lt (and_left h)), none_below⟩
theorem d2dPortDown (i : Nat) (j : Nat) : Statement (.d2dPortDown i j) :=
  fun h => ⟨one_below (site_lt (and_left h)), none_below⟩
theorem keyCreate (i : Nat) (slot : Nat) (slice : Nat) : Statement (.keyCreate i slot slice) :=
  fun h => ⟨one_below (site_lt (and_left (and_left h))), one_below (vd_lt (and_right h))⟩
theorem keyInstall (i : Nat) (slot : Nat) (slice : Nat) (gen : BitVec 6) (secret : BitVec 256) : Statement (.keyInstall i slot slice gen secret) :=
  fun h => ⟨one_below (site_lt (and_left (and_left h))), one_below (vd_lt (and_right h))⟩
theorem keyWrap (i : Nat) (slot : Nat) (peer : PeerReport) : Statement (.keyWrap i slot peer) :=
  fun h => ⟨one_below (site_lt (and_left h)), none_below⟩
theorem keyDrain (i : Nat) (slot : Nat) : Statement (.keyDrain i slot) :=
  fun h => ⟨one_below (site_lt (and_left h)), none_below⟩
theorem keyDestroy (i : Nat) (slot : Nat) : Statement (.keyDestroy i slot) :=
  fun h => ⟨one_below (site_lt (and_left h)), none_below⟩
theorem removalStep (slice : Nat) : Statement (.removalStep slice) := fun h => ⟨none_below, one_below (vd_lt h)⟩
theorem getMeasurements (index : Nat) : Statement (.getMeasurements index) := fun _ => ⟨none_below, none_below⟩
theorem sliceReport (vd : Nat) (nonce : Bytes) : Statement (.sliceReport vd nonce) :=
  fun h => ⟨none_below, one_below (vd_lt h)⟩
theorem spdmRequest (code : Byte) : Statement (.spdmRequest code) := fun _ => ⟨none_below, none_below⟩
theorem ideKm (i : Nat) (stream : Nat) (keyset : Nat) (rx : Bool) : Statement (.ideKm i stream keyset rx) :=
  fun h => ⟨one_below (site_lt (and_left (and_left h))), none_below⟩
theorem ideStreamLoss (i : Nat) (stream : Nat) : Statement (.ideStreamLoss i stream) :=
  fun h => ⟨one_below (site_lt (and_left h)), none_below⟩
theorem getTdispVersion (vd : Nat) : Statement (.getTdispVersion vd) := fun h => ⟨none_below, one_below (vd_lt h)⟩
theorem getTdispCapabilities (vd : Nat) : Statement (.getTdispCapabilities vd) :=
  fun h => ⟨none_below, one_below (vd_lt h)⟩
theorem lockInterfaceRequest (vd : Nat) (stream : Nat) : Statement (.lockInterfaceRequest vd stream) :=
  fun h => ⟨none_below, one_below (vd_lt (and_left h))⟩
theorem getDeviceInterfaceReport (vd : Nat) : Statement (.getDeviceInterfaceReport vd) :=
  fun h => ⟨none_below, one_below (vd_lt h)⟩
theorem getDeviceInterfaceState (vd : Nat) : Statement (.getDeviceInterfaceState vd) :=
  fun h => ⟨none_below, one_below (vd_lt h)⟩
theorem startInterfaceRequest (vd : Nat) : Statement (.startInterfaceRequest vd) :=
  fun h => ⟨none_below, one_below (vd_lt h)⟩
theorem stopInterfaceRequest (vd : Nat) : Statement (.stopInterfaceRequest vd) :=
  fun h => ⟨none_below, one_below (vd_lt h)⟩
theorem configurationRequest (i : Nat) (fn : Nat) (r : CfgReq) : Statement (.configurationRequest i fn r) :=
  fun h => ⟨one_below (site_lt (and_left h)), none_below⟩
theorem functionLevelReset (i : Nat) (fn : Nat) : Statement (.functionLevelReset i fn) :=
  fun h => ⟨one_below (site_lt (and_left h)), none_below⟩
theorem hipPerstN (i : Nat) (level : Bool) : Statement (.hipPerstN i level) :=
  fun h => ⟨one_below (site_lt h), none_below⟩
theorem reqTail (value : W32) : Statement (.reqTail value) := fun _ => ⟨none_below, none_below⟩
theorem requestTake (agent : Byte) (pkt : Bytes) : Statement (.requestTake agent pkt) :=
  fun _ => ⟨none_below, none_below⟩
theorem managementRingEnable (value : W32) : Statement (.managementRingEnable value) :=
  fun _ => ⟨none_below, none_below⟩
theorem managementRingDisable : Statement (.managementRingDisable) := fun _ => ⟨none_below, none_below⟩
theorem rplHead (value : W32) : Statement (.rplHead value) := fun _ => ⟨none_below, none_below⟩
theorem fltHead (value : W32) : Statement (.fltHead value) := fun _ => ⟨none_below, none_below⟩
theorem faultRecordWrite (i : Nat) : Statement (.faultRecordWrite i) := fun h => ⟨one_below (site_lt h), none_below⟩
theorem lossSummary (i : Nat) (us : Nat) : Statement (.lossSummary i us) :=
  fun h => ⟨one_below (site_lt h), none_below⟩
theorem sliceCreate (m : MgmtRun) : Statement (.sliceCreate m) := fun _ => ⟨none_below, none_below⟩
theorem sliceDestroy (m : MgmtRun) : Statement (.sliceDestroy m) := fun _ => ⟨none_below, none_below⟩
theorem unitBind (m : MgmtRun) : Statement (.unitBind m) := fun _ => ⟨none_below, none_below⟩
theorem unitUnbind (m : MgmtRun) : Statement (.unitUnbind m) := fun _ => ⟨none_below, none_below⟩
theorem unitMove (m : MgmtRun) : Statement (.unitMove m) := fun _ => ⟨none_below, none_below⟩
theorem allotSet (m : MgmtRun) : Statement (.allotSet m) := fun _ => ⟨none_below, none_below⟩
theorem schedSet (m : MgmtRun) : Statement (.schedSet m) := fun _ => ⟨none_below, none_below⟩
theorem coreMode (m : MgmtRun) : Statement (.coreMode m) := fun _ => ⟨none_below, none_below⟩
theorem labelSet (m : MgmtRun) : Statement (.labelSet m) := fun _ => ⟨none_below, none_below⟩
theorem shareSet (m : MgmtRun) : Statement (.shareSet m) := fun _ => ⟨none_below, none_below⟩
theorem guardSet (m : MgmtRun) : Statement (.guardSet m) := fun _ => ⟨none_below, none_below⟩
theorem mcastRange (m : MgmtRun) : Statement (.mcastRange m) := fun _ => ⟨none_below, none_below⟩
theorem loftBudget (m : MgmtRun) : Statement (.loftBudget m) := fun _ => ⟨none_below, none_below⟩
theorem lendSet (m : MgmtRun) : Statement (.lendSet m) := fun _ => ⟨none_below, none_below⟩
theorem coreState (m : MgmtRun) : Statement (.coreState m) := fun _ => ⟨none_below, none_below⟩
theorem memportState (m : MgmtRun) : Statement (.memportState m) := fun _ => ⟨none_below, none_below⟩
theorem linkState (m : MgmtRun) : Statement (.linkState m) := fun _ => ⟨none_below, none_below⟩
theorem reset (m : MgmtRun) : Statement (.reset m) := fun _ => ⟨none_below, none_below⟩
theorem escalateSet (m : MgmtRun) : Statement (.escalateSet m) := fun _ => ⟨none_below, none_below⟩
theorem healthGet (m : MgmtRun) : Statement (.healthGet m) := fun _ => ⟨none_below, none_below⟩
theorem fwStage (m : MgmtRun) : Statement (.fwStage m) := fun _ => ⟨none_below, none_below⟩
theorem fwActivate (m : MgmtRun) : Statement (.fwActivate m) := fun _ => ⟨none_below, none_below⟩
theorem fwCommit (m : MgmtRun) : Statement (.fwCommit m) := fun _ => ⟨none_below, none_below⟩
theorem fwDiscard (m : MgmtRun) : Statement (.fwDiscard m) := fun _ => ⟨none_below, none_below⟩
theorem fwInfo (m : MgmtRun) : Statement (.fwInfo m) := fun _ => ⟨none_below, none_below⟩
theorem attState (m : MgmtRun) : Statement (.attState m) := fun _ => ⟨none_below, none_below⟩
theorem attMeasure (m : MgmtRun) : Statement (.attMeasure m) := fun _ => ⟨none_below, none_below⟩
theorem attReport (m : MgmtRun) : Statement (.attReport m) := fun _ => ⟨none_below, none_below⟩
theorem policySet (m : MgmtRun) : Statement (.policySet m) := fun _ => ⟨none_below, none_below⟩
theorem pageRetire (m : MgmtRun) : Statement (.pageRetire m) := fun _ => ⟨none_below, none_below⟩
theorem chEvacuate (m : MgmtRun) : Statement (.chEvacuate m) := fun _ => ⟨none_below, none_below⟩
theorem chReturn (m : MgmtRun) : Statement (.chReturn m) := fun _ => ⟨none_below, none_below⟩
theorem weightAllot (m : MgmtRun) : Statement (.weightAllot m) := fun _ => ⟨none_below, none_below⟩
theorem weightLoad (m : MgmtRun) : Statement (.weightLoad m) := fun _ => ⟨none_below, none_below⟩
theorem weightCopy (m : MgmtRun) : Statement (.weightCopy m) := fun _ => ⟨none_below, none_below⟩
theorem weightGrant (m : MgmtRun) : Statement (.weightGrant m) := fun _ => ⟨none_below, none_below⟩
theorem weightRevoke (m : MgmtRun) : Statement (.weightRevoke m) := fun _ => ⟨none_below, none_below⟩
theorem weightFree (m : MgmtRun) : Statement (.weightFree m) := fun _ => ⟨none_below, none_below⟩
theorem linkEnable (m : MgmtRun) : Statement (.linkEnable m) := fun _ => ⟨none_below, none_below⟩
theorem portgroupReset (m : MgmtRun) : Statement (.portgroupReset m) := fun _ => ⟨none_below, none_below⟩
theorem chTest (m : MgmtRun) : Statement (.chTest m) := fun _ => ⟨none_below, none_below⟩
theorem logLevel (m : MgmtRun) : Statement (.logLevel m) := fun _ => ⟨none_below, none_below⟩
theorem migrateFreeze (m : MgmtRun) : Statement (.migrateFreeze m) := fun _ => ⟨none_below, none_below⟩
theorem migratePeer (m : MgmtRun) : Statement (.migratePeer m) := fun _ => ⟨none_below, none_below⟩
theorem migrateSave (m : MgmtRun) : Statement (.migrateSave m) := fun _ => ⟨none_below, none_below⟩
theorem migrateRestore (m : MgmtRun) : Statement (.migrateRestore m) := fun _ => ⟨none_below, none_below⟩
theorem migrateCommit (m : MgmtRun) : Statement (.migrateCommit m) := fun _ => ⟨none_below, none_below⟩
theorem migrateCancel (m : MgmtRun) : Statement (.migrateCancel m) := fun _ => ⟨none_below, none_below⟩
theorem migrateThaw (m : MgmtRun) : Statement (.migrateThaw m) := fun _ => ⟨none_below, none_below⟩
theorem spareIn (m : MgmtRun) : Statement (.spareIn m) := fun _ => ⟨none_below, none_below⟩
theorem healthCheck (m : MgmtRun) : Statement (.healthCheck m) := fun _ => ⟨none_below, none_below⟩
theorem spareGet (m : MgmtRun) : Statement (.spareGet m) := fun _ => ⟨none_below, none_below⟩
theorem mbxLock (i : Nat) (agent : Byte) (box : Nat) : Statement (.mbxLock i agent box) :=
  fun h => ⟨one_below (site_lt (and_left h)), none_below⟩
theorem mbxData (i : Nat) (agent : Byte) (box : Nat) (w : Nat) (value : W32) : Statement (.mbxData i agent box w value) :=
  fun h => ⟨one_below (site_lt (and_left (and_left h))), none_below⟩
theorem mbxDoorbell (i : Nat) (agent : Byte) (box : Nat) (value : W32) : Statement (.mbxDoorbell i agent box value) :=
  fun h => ⟨one_below (site_lt (and_left h)), none_below⟩
theorem mbxFree (i : Nat) (agent : Byte) (box : Nat) (value : W32) : Statement (.mbxFree i agent box value) :=
  fun h => ⟨one_below (site_lt (and_left h)), none_below⟩
theorem sourceEdge (i : Nat) (proc : Nat) (n : Nat) : Statement (.sourceEdge i proc n) :=
  fun h => ⟨one_below (site_lt (and_left (and_left h))), none_below⟩
theorem irqCoalesceExpiry (i : Nat) (n : Nat) : Statement (.irqCoalesceExpiry i n) :=
  fun h => ⟨one_below (site_lt (and_left h)), none_below⟩
theorem irqClaim (i : Nat) (proc : Nat) : Statement (.irqClaim i proc) :=
  fun h => ⟨one_below (site_lt (and_left h)), none_below⟩
theorem irqIpi (i : Nat) (proc : Nat) (value : W32) : Statement (.irqIpi i proc value) :=
  fun h => ⟨one_below (site_lt (and_left h)), none_below⟩
theorem domainReset (i : Nat) (u : Nat) (cause : Nat) : Statement (.domainReset i u cause) :=
  fun h => ⟨one_below (site_lt (and_left (and_left h))), none_below⟩
theorem resetRelease (i : Nat) (u : Nat) : Statement (.resetRelease i u) :=
  fun h => ⟨one_below (site_lt (and_left h)), none_below⟩
theorem domainUp (i : Nat) (u : Nat) : Statement (.domainUp i u) :=
  fun h => ⟨one_below (site_lt (and_left h)), none_below⟩
theorem spareBringIn (i : Nat) (core : Nat) (bistOk : Bool) : Statement (.spareBringIn i core bistOk) :=
  fun h => ⟨one_below (site_lt (and_left h)), none_below⟩
theorem hang (i : Nat) (core : Nat) (dma : Bool) (engine : Nat) : Statement (.hang i core dma engine) :=
  fun h => ⟨one_below (site_lt (and_left h)), none_below⟩
theorem sequencerReportMiss (i : Nat) (cl : Nat) : Statement (.sequencerReportMiss i cl) :=
  fun h => ⟨one_below (site_lt (and_left h)), none_below⟩
theorem heartbeatMiss (i : Nat) : Statement (.heartbeatMiss i) := fun h => ⟨one_below (site_lt h), none_below⟩
theorem watchdogExpiry (i : Nat) (proc : Nat) : Statement (.watchdogExpiry i proc) :=
  fun h => ⟨one_below (site_lt (and_left h)), none_below⟩
theorem siblingHeartbeatMiss (i : Nat) : Statement (.siblingHeartbeatMiss i) :=
  fun h => ⟨one_below (site_lt h), none_below⟩
theorem drainFailure (i : Nat) (core : Nat) : Statement (.drainFailure i core) :=
  fun h => ⟨one_below (site_lt (and_left h)), none_below⟩
theorem coldRstNRelease (i : Nat) (b : BootInput) : Statement (.coldRstNRelease i b) :=
  fun h => ⟨one_below (site_lt h), none_below⟩
theorem coldRstNAssert (i : Nat) : Statement (.coldRstNAssert i) := fun h => ⟨one_below (site_lt h), none_below⟩
theorem membershipSettle : Statement (.membershipSettle) := fun _ => ⟨none_below, none_below⟩
theorem resetReq (i : Nat) : Statement (.resetReq i) := fun h => ⟨one_below (site_lt h), none_below⟩
theorem faultIn (i : Nat) : Statement (.faultIn i) := fun h => ⟨one_below (site_lt h), none_below⟩
theorem thermAlert (i : Nat) : Statement (.thermAlert i) := fun h => ⟨one_below (site_lt h), none_below⟩
theorem hspCattrip (i : Nat) (stack : Nat) : Statement (.hspCattrip i stack) :=
  fun h => ⟨one_below (site_lt (and_left h)), none_below⟩
theorem temperatureSample (i : Nat) (sensor : Nat) (temp : BitVec 12) : Statement (.temperatureSample i sensor temp) :=
  fun h => ⟨one_below (site_lt (and_left h)), none_below⟩
theorem lossOfLock (i : Nat) (loop : Nat) : Statement (.lossOfLock i loop) :=
  fun h => ⟨one_below (site_lt (and_left h)), none_below⟩
theorem relock (i : Nat) (loop : Nat) : Statement (.relock i loop) :=
  fun h => ⟨one_below (site_lt (and_left h)), none_below⟩
theorem powerTransition (i : Nat) (kind : PowerUnit) (idx : Nat) : Statement (.powerTransition i kind idx) :=
  fun h => ⟨one_below (site_lt h), none_below⟩
theorem pswAck (i : Nat) (k : Nat) (level : Bool) : Statement (.pswAck i k level) :=
  fun h => ⟨one_below (site_lt (and_left h)), none_below⟩
theorem pswAckTimeout (i : Nat) (k : Nat) : Statement (.pswAckTimeout i k) :=
  fun h => ⟨one_below (site_lt (and_left h)), none_below⟩
theorem debugUnlock (i : Nat) (ok : Bool) : Statement (.debugUnlock i ok) :=
  fun h => ⟨one_below (site_lt h), none_below⟩
theorem jtagInstruction (i : Nat) (code : JtagInstr) : Statement (.jtagInstruction i code) :=
  fun h => ⟨one_below (site_lt h), none_below⟩
theorem tapReset (i : Nat) : Statement (.tapReset i) := fun h => ⟨one_below (site_lt h), none_below⟩
theorem entdaa (i : Nat) (addr : BitVec 7) : Statement (.entdaa i addr) := fun h => ⟨one_below (site_lt h), none_below⟩
theorem setdasa (i : Nat) (addr : BitVec 7) : Statement (.setdasa i addr) :=
  fun h => ⟨one_below (site_lt h), none_below⟩
theorem targetReset (i : Nat) : Statement (.targetReset i) := fun h => ⟨one_below (site_lt h), none_below⟩
theorem go (i : Nat) (ch : Nat) (value : W32) : Statement (.go i ch value) :=
  fun h => ⟨one_below (site_lt (and_left h)), none_below⟩
theorem stop (i : Nat) (ch : Nat) : Statement (.stop i ch) := fun h => ⟨one_below (site_lt (and_left h)), none_below⟩
theorem snap (i : Nat) (value : W32) : Statement (.snap i value) := fun h => ⟨one_below (site_lt h), none_below⟩
theorem snapClear (i : Nat) (value : W32) : Statement (.snapClear i value) :=
  fun h => ⟨one_below (site_lt h), none_below⟩
theorem lowWordRead (a : RegAddr) : Statement (.lowWordRead a) := fun _ => ⟨none_below, none_below⟩
theorem highWordRead (a : RegAddr) : Statement (.highWordRead a) := fun _ => ⟨none_below, none_below⟩
theorem rcRead (a : RegAddr) : Statement (.rcRead a) := fun _ => ⟨none_below, none_below⟩
theorem registerWrite (a : RegAddr) (value : W32) : Statement (.registerWrite a value) :=
  fun _ => ⟨none_below, none_below⟩
theorem chainRow (i : Nat) (core : Nat) (half : Nat) : Statement (.chainRow i core half) :=
  fun h => ⟨one_below (site_lt (and_left (and_left h))), none_below⟩
theorem ticketEnd (i : Nat) (core : Nat) (ticket : Nat) : Statement (.ticketEnd i core ticket) :=
  fun h => ⟨one_below (site_lt (and_left h)), none_below⟩
theorem moveEnd (i : Nat) (core : Nat) (ticket : Nat) (ok : Bool) : Statement (.moveEnd i core ticket ok) :=
  fun h => ⟨one_below (site_lt (and_left h)), none_below⟩
theorem evwaitExpiry (e : SeRef) : Statement (.evwaitExpiry e) := fun h => ⟨one_below (scalar_site_lt h), none_below⟩
theorem scalarInstruction (e : SeRef) (w : W32) : Statement (.scalarInstruction e w) :=
  fun h => ⟨one_below (scalar_site_lt (and_left h)), none_below⟩
theorem wfi (e : SeRef) (w : W32) : Statement (.wfi e w) :=
  fun h => ⟨one_below (scalar_site_lt (and_left h)), none_below⟩
theorem vlaunch (e : SeRef) (w : W32) : Statement (.vlaunch e w) :=
  fun h => ⟨one_below (scalar_site_lt (and_left h)), none_below⟩
theorem vwait (e : SeRef) (w : W32) : Statement (.vwait e w) :=
  fun h => ⟨one_below (scalar_site_lt (and_left h)), none_below⟩
theorem vpoll (e : SeRef) (w : W32) : Statement (.vpoll e w) :=
  fun h => ⟨one_below (scalar_site_lt (and_left h)), none_below⟩
theorem cmcopy (e : SeRef) (w : W32) : Statement (.cmcopy e w) :=
  fun h => ⟨one_below (scalar_site_lt (and_left h)), none_below⟩
theorem mwait (e : SeRef) (w : W32) : Statement (.mwait e w) :=
  fun h => ⟨one_below (scalar_site_lt (and_left h)), none_below⟩
theorem evwait (e : SeRef) (w : W32) : Statement (.evwait e w) :=
  fun h => ⟨one_below (scalar_site_lt (and_left h)), none_below⟩
theorem evset (e : SeRef) (w : W32) : Statement (.evset e w) :=
  fun h => ⟨one_below (scalar_site_lt (and_left h)), none_below⟩
theorem sehalt (e : SeRef) (w : W32) : Statement (.sehalt e w) :=
  fun h => ⟨one_below (scalar_site_lt (and_left h)), none_below⟩
theorem charm (e : SeRef) (w : W32) : Statement (.charm e w) :=
  fun h => ⟨one_below (scalar_site_lt (and_left h)), none_below⟩
theorem vabort (e : SeRef) (w : W32) : Statement (.vabort e w) :=
  fun h => ⟨one_below (scalar_site_lt (and_left h)), none_below⟩
theorem vadd (e : VeRef) (w : W64) : Statement (.vadd e w) :=
  fun h => ⟨one_below (vector_site_lt (and_left h)), none_below⟩
theorem vsub (e : VeRef) (w : W64) : Statement (.vsub e w) :=
  fun h => ⟨one_below (vector_site_lt (and_left h)), none_below⟩
theorem vmul (e : VeRef) (w : W64) : Statement (.vmul e w) :=
  fun h => ⟨one_below (vector_site_lt (and_left h)), none_below⟩
theorem vfma (e : VeRef) (w : W64) : Statement (.vfma e w) :=
  fun h => ⟨one_below (vector_site_lt (and_left h)), none_below⟩
theorem vfms (e : VeRef) (w : W64) : Statement (.vfms e w) :=
  fun h => ⟨one_below (vector_site_lt (and_left h)), none_below⟩
theorem vmax (e : VeRef) (w : W64) : Statement (.vmax e w) :=
  fun h => ⟨one_below (vector_site_lt (and_left h)), none_below⟩
theorem vmin (e : VeRef) (w : W64) : Statement (.vmin e w) :=
  fun h => ⟨one_below (vector_site_lt (and_left h)), none_below⟩
theorem vabs (e : VeRef) (w : W64) : Statement (.vabs e w) :=
  fun h => ⟨one_below (vector_site_lt (and_left h)), none_below⟩
theorem vneg (e : VeRef) (w : W64) : Statement (.vneg e w) :=
  fun h => ⟨one_below (vector_site_lt (and_left h)), none_below⟩
theorem vand (e : VeRef) (w : W64) : Statement (.vand e w) :=
  fun h => ⟨one_below (vector_site_lt (and_left h)), none_below⟩
theorem vor (e : VeRef) (w : W64) : Statement (.vor e w) :=
  fun h => ⟨one_below (vector_site_lt (and_left h)), none_below⟩
theorem vxor (e : VeRef) (w : W64) : Statement (.vxor e w) :=
  fun h => ⟨one_below (vector_site_lt (and_left h)), none_below⟩
theorem vshl (e : VeRef) (w : W64) : Statement (.vshl e w) :=
  fun h => ⟨one_below (vector_site_lt (and_left h)), none_below⟩
theorem vsra (e : VeRef) (w : W64) : Statement (.vsra e w) :=
  fun h => ⟨one_below (vector_site_lt (and_left h)), none_below⟩
theorem vsrl (e : VeRef) (w : W64) : Statement (.vsrl e w) :=
  fun h => ⟨one_below (vector_site_lt (and_left h)), none_below⟩
theorem vsel (e : VeRef) (w : W64) : Statement (.vsel e w) :=
  fun h => ⟨one_below (vector_site_lt (and_left h)), none_below⟩
theorem vmov (e : VeRef) (w : W64) : Statement (.vmov e w) :=
  fun h => ⟨one_below (vector_site_lt (and_left h)), none_below⟩
theorem vperm (e : VeRef) (w : W64) : Statement (.vperm e w) :=
  fun h => ⟨one_below (vector_site_lt (and_left h)), none_below⟩
theorem vcmpeq (e : VeRef) (w : W64) : Statement (.vcmpeq e w) :=
  fun h => ⟨one_below (vector_site_lt (and_left h)), none_below⟩
theorem vcmpne (e : VeRef) (w : W64) : Statement (.vcmpne e w) :=
  fun h => ⟨one_below (vector_site_lt (and_left h)), none_below⟩
theorem vcmplt (e : VeRef) (w : W64) : Statement (.vcmplt e w) :=
  fun h => ⟨one_below (vector_site_lt (and_left h)), none_below⟩
theorem vcmple (e : VeRef) (w : W64) : Statement (.vcmple e w) :=
  fun h => ⟨one_below (vector_site_lt (and_left h)), none_below⟩
theorem vcmpuo (e : VeRef) (w : W64) : Statement (.vcmpuo e w) :=
  fun h => ⟨one_below (vector_site_lt (and_left h)), none_below⟩
theorem vrsum (e : VeRef) (w : W64) : Statement (.vrsum e w) :=
  fun h => ⟨one_below (vector_site_lt (and_left h)), none_below⟩
theorem vrmax (e : VeRef) (w : W64) : Statement (.vrmax e w) :=
  fun h => ⟨one_below (vector_site_lt (and_left h)), none_below⟩
theorem vrmin (e : VeRef) (w : W64) : Statement (.vrmin e w) :=
  fun h => ⟨one_below (vector_site_lt (and_left h)), none_below⟩
theorem vadds (e : VeRef) (w : W64) : Statement (.vadds e w) :=
  fun h => ⟨one_below (vector_site_lt (and_left h)), none_below⟩
theorem vsubs (e : VeRef) (w : W64) : Statement (.vsubs e w) :=
  fun h => ⟨one_below (vector_site_lt (and_left h)), none_below⟩
theorem vrsubs (e : VeRef) (w : W64) : Statement (.vrsubs e w) :=
  fun h => ⟨one_below (vector_site_lt (and_left h)), none_below⟩
theorem vmuls (e : VeRef) (w : W64) : Statement (.vmuls e w) :=
  fun h => ⟨one_below (vector_site_lt (and_left h)), none_below⟩
theorem vfmas (e : VeRef) (w : W64) : Statement (.vfmas e w) :=
  fun h => ⟨one_below (vector_site_lt (and_left h)), none_below⟩
theorem vmaxs (e : VeRef) (w : W64) : Statement (.vmaxs e w) :=
  fun h => ⟨one_below (vector_site_lt (and_left h)), none_below⟩
theorem vmins (e : VeRef) (w : W64) : Statement (.vmins e w) :=
  fun h => ⟨one_below (vector_site_lt (and_left h)), none_below⟩
theorem vands (e : VeRef) (w : W64) : Statement (.vands e w) :=
  fun h => ⟨one_below (vector_site_lt (and_left h)), none_below⟩
theorem vors (e : VeRef) (w : W64) : Statement (.vors e w) :=
  fun h => ⟨one_below (vector_site_lt (and_left h)), none_below⟩
theorem vxors (e : VeRef) (w : W64) : Statement (.vxors e w) :=
  fun h => ⟨one_below (vector_site_lt (and_left h)), none_below⟩
theorem vshls (e : VeRef) (w : W64) : Statement (.vshls e w) :=
  fun h => ⟨one_below (vector_site_lt (and_left h)), none_below⟩
theorem vsras (e : VeRef) (w : W64) : Statement (.vsras e w) :=
  fun h => ⟨one_below (vector_site_lt (and_left h)), none_below⟩
theorem vsrls (e : VeRef) (w : W64) : Statement (.vsrls e w) :=
  fun h => ⟨one_below (vector_site_lt (and_left h)), none_below⟩
theorem vsplat (e : VeRef) (w : W64) : Statement (.vsplat e w) :=
  fun h => ⟨one_below (vector_site_lt (and_left h)), none_below⟩
theorem viota (e : VeRef) (w : W64) : Statement (.viota e w) :=
  fun h => ⟨one_below (vector_site_lt (and_left h)), none_below⟩
theorem vexta (e : VeRef) (w : W64) : Statement (.vexta e w) :=
  fun h => ⟨one_below (vector_site_lt (and_left h)), none_below⟩
theorem vcmpeqs (e : VeRef) (w : W64) : Statement (.vcmpeqs e w) :=
  fun h => ⟨one_below (vector_site_lt (and_left h)), none_below⟩
theorem vcmpnes (e : VeRef) (w : W64) : Statement (.vcmpnes e w) :=
  fun h => ⟨one_below (vector_site_lt (and_left h)), none_below⟩
theorem vcmplts (e : VeRef) (w : W64) : Statement (.vcmplts e w) :=
  fun h => ⟨one_below (vector_site_lt (and_left h)), none_below⟩
theorem vcmples (e : VeRef) (w : W64) : Statement (.vcmples e w) :=
  fun h => ⟨one_below (vector_site_lt (and_left h)), none_below⟩
theorem vcmpgts (e : VeRef) (w : W64) : Statement (.vcmpgts e w) :=
  fun h => ⟨one_below (vector_site_lt (and_left h)), none_below⟩
theorem vcmpges (e : VeRef) (w : W64) : Statement (.vcmpges e w) :=
  fun h => ⟨one_below (vector_site_lt (and_left h)), none_below⟩
theorem vld (e : VeRef) (w : W64) : Statement (.vld e w) :=
  fun h => ⟨one_below (vector_site_lt (and_left h)), none_below⟩
theorem vst (e : VeRef) (w : W64) : Statement (.vst e w) :=
  fun h => ⟨one_below (vector_site_lt (and_left h)), none_below⟩
theorem pld (e : VeRef) (w : W64) : Statement (.pld e w) :=
  fun h => ⟨one_below (vector_site_lt (and_left h)), none_below⟩
theorem pst (e : VeRef) (w : W64) : Statement (.pst e w) :=
  fun h => ⟨one_below (vector_site_lt (and_left h)), none_below⟩
theorem chpop (e : VeRef) (w : W64) : Statement (.chpop e w) :=
  fun h => ⟨one_below (vector_site_lt (and_left h)), none_below⟩
theorem vcvt (e : VeRef) (w : W64) : Statement (.vcvt e w) :=
  fun h => ⟨one_below (vector_site_lt (and_left h)), none_below⟩
theorem vexp (e : VeRef) (w : W64) : Statement (.vexp e w) :=
  fun h => ⟨one_below (vector_site_lt (and_left h)), none_below⟩
theorem vlog (e : VeRef) (w : W64) : Statement (.vlog e w) :=
  fun h => ⟨one_below (vector_site_lt (and_left h)), none_below⟩
theorem vrsqrt (e : VeRef) (w : W64) : Statement (.vrsqrt e w) :=
  fun h => ⟨one_below (vector_site_lt (and_left h)), none_below⟩
theorem vrcp (e : VeRef) (w : W64) : Statement (.vrcp e w) :=
  fun h => ⟨one_below (vector_site_lt (and_left h)), none_below⟩
theorem vtanh (e : VeRef) (w : W64) : Statement (.vtanh e w) :=
  fun h => ⟨one_below (vector_site_lt (and_left h)), none_below⟩
theorem verf (e : VeRef) (w : W64) : Statement (.verf e w) :=
  fun h => ⟨one_below (vector_site_lt (and_left h)), none_below⟩
theorem vcNop (e : VeRef) (w : W64) : Statement (.vcNop e w) :=
  fun h => ⟨one_below (vector_site_lt (and_left h)), none_below⟩
theorem halt (e : VeRef) (w : W64) : Statement (.halt e w) :=
  fun h => ⟨one_below (vector_site_lt (and_left h)), none_below⟩
theorem br (e : VeRef) (w : W64) : Statement (.br e w) :=
  fun h => ⟨one_below (vector_site_lt (and_left h)), none_below⟩
theorem bz (e : VeRef) (w : W64) : Statement (.bz e w) :=
  fun h => ⟨one_below (vector_site_lt (and_left h)), none_below⟩
theorem bnz (e : VeRef) (w : W64) : Statement (.bnz e w) :=
  fun h => ⟨one_below (vector_site_lt (and_left h)), none_below⟩
theorem loop (e : VeRef) (w : W64) : Statement (.loop e w) :=
  fun h => ⟨one_below (vector_site_lt (and_left h)), none_below⟩
theorem pany (e : VeRef) (w : W64) : Statement (.pany e w) :=
  fun h => ⟨one_below (vector_site_lt (and_left h)), none_below⟩
theorem pnone (e : VeRef) (w : W64) : Statement (.pnone e w) :=
  fun h => ⟨one_below (vector_site_lt (and_left h)), none_below⟩
theorem ali (e : VeRef) (w : W64) : Statement (.ali e w) :=
  fun h => ⟨one_below (vector_site_lt (and_left h)), none_below⟩
theorem alui (e : VeRef) (w : W64) : Statement (.alui e w) :=
  fun h => ⟨one_below (vector_site_lt (and_left h)), none_below⟩
theorem aaddi (e : VeRef) (w : W64) : Statement (.aaddi e w) :=
  fun h => ⟨one_below (vector_site_lt (and_left h)), none_below⟩
theorem aadd (e : VeRef) (w : W64) : Statement (.aadd e w) :=
  fun h => ⟨one_below (vector_site_lt (and_left h)), none_below⟩
theorem asub (e : VeRef) (w : W64) : Statement (.asub e w) :=
  fun h => ⟨one_below (vector_site_lt (and_left h)), none_below⟩
theorem amul (e : VeRef) (w : W64) : Statement (.amul e w) :=
  fun h => ⟨one_below (vector_site_lt (and_left h)), none_below⟩
theorem ashli (e : VeRef) (w : W64) : Statement (.ashli e w) :=
  fun h => ⟨one_below (vector_site_lt (and_left h)), none_below⟩
theorem ashri (e : VeRef) (w : W64) : Statement (.ashri e w) :=
  fun h => ⟨one_below (vector_site_lt (and_left h)), none_below⟩
theorem pand (e : VeRef) (w : W64) : Statement (.pand e w) :=
  fun h => ⟨one_below (vector_site_lt (and_left h)), none_below⟩
theorem por (e : VeRef) (w : W64) : Statement (.por e w) :=
  fun h => ⟨one_below (vector_site_lt (and_left h)), none_below⟩
theorem pxor (e : VeRef) (w : W64) : Statement (.pxor e w) :=
  fun h => ⟨one_below (vector_site_lt (and_left h)), none_below⟩
theorem pnot (e : VeRef) (w : W64) : Statement (.pnot e w) :=
  fun h => ⟨one_below (vector_site_lt (and_left h)), none_below⟩
theorem setvl (e : VeRef) (w : W64) : Statement (.setvl e w) :=
  fun h => ⟨one_below (vector_site_lt (and_left h)), none_below⟩
theorem flgrd (e : VeRef) (w : W64) : Statement (.flgrd e w) :=
  fun h => ⟨one_below (vector_site_lt (and_left h)), none_below⟩
theorem srseed (e : VeRef) (w : W64) : Statement (.srseed e w) :=
  fun h => ⟨one_below (vector_site_lt (and_left h)), none_below⟩
theorem fence (e : VeRef) (w : W64) : Statement (.fence e w) :=
  fun h => ⟨one_below (vector_site_lt (and_left h)), none_below⟩
theorem evsig (e : VeRef) (w : W64) : Statement (.evsig e w) :=
  fun h => ⟨one_below (vector_site_lt (and_left h)), none_below⟩
theorem hotReset (i : Nat) : Statement (.hotReset i) := fun h => ⟨one_below (site_lt h), none_below⟩
theorem hostCompletionTimeout (c : CmdRef) : Statement (.hostCompletionTimeout c) :=
  fun h => ⟨none_below, one_below (cmd_vd_lt h)⟩
theorem workUnitBoundary (i : Nat) (core : Nat) (q : Nat) (kind : EngineKind) : Statement (.workUnitBoundary i core q kind) :=
  fun h => ⟨one_below (site_lt (and_left (and_left h))), none_below⟩
theorem moduleLeavesPort (i : Nat) (j : Nat) (k : Nat) : Statement (.moduleLeavesPort i j k) :=
  fun h => ⟨one_below (site_lt (and_left (and_left h))), none_below⟩
theorem releaseWaitExpiry (vd : Nat) (obj : Nat) : Statement (.releaseWaitExpiry vd obj) :=
  fun h => ⟨none_below, one_below (vd_lt h)⟩

end Sys2Proof.Laws.OperandLimits
end

