-- ==== Sys2Proof/Safety.lean ====
section
/-! DEFINITION. What every state of a run keeps: the block has its eight instances and 256 virtual devices (R36, R41),
each instance its six cores and two clusters (R20), and every addressed memory of the block lists its bytes in canonical
form. And what a command leaves alone: the queue of waiting commands and whatever has left the block already. -/

namespace Sys2Proof.Machine

/-- A saved image lists its core memory and accumulator rows canonically. -/
def Image.canonical (x : Image) : Prop := x.cmem.wf = true ∧ x.acc.wf = true

/-- The images that a unit holds are canonical. -/
def ReelUnit.canonical (u : ReelUnit) : Prop := ∀ x ∈ u.images, x.canonical

/-- A core's memory, its accumulator and its saved images are canonical. -/
def Core.canonical (c : Core) : Prop :=
  c.cmem.wf = true ∧ c.acc.wf = true ∧ ∀ u ∈ c.units, u.canonical

/-- An instance has its six cores and two clusters, and all its memories are canonical. -/
def Site.canonical (t : Site) : Prop :=
  t.cores.length = 6 ∧ t.clusters.length = 2 ∧ (∀ c ∈ t.cores, c.canonical) ∧ (∀ c ∈ t.clusters, c.clm.wf = true) ∧
    t.fast.data.wf = true ∧ t.slow.data.wf = true

/-- The invariant of a run. -/
def State.Inv (s : State) : Prop :=
  s.sites.length = 8 ∧ s.vds.length = 256 ∧ ∀ t ∈ s.sites, t.canonical

/-- What one command may do to a state: the queue stays, messages are only added, free values are only drawn, and the
invariant is kept. -/
def Kept (s t : State) : Prop :=
  t.pending = s.pending ∧ s.out <+: t.out ∧ s.free ≤ t.free ∧ (s.Inv → t.Inv)

/-! When a command of the table takes effect: what its rules ask of the state and of its operands. A row whose conditions
fail leaves the block as it was (log entry 3). -/

/-- A vector engine stands at word `w`, which has this CLASS and OP, and may run it: the program counter lies in the
binding, the word is the one fetched and is legal, and no register it reads holds an uncorrectable error (R91, R95,
R107, R108). -/
def VecReady (key : Nat × Nat) (e : VeRef) (w : W64) (s : State) (c : VCtx) : Prop :=
  vecAt e s = some c ∧ c.ve.pc < bindingSize c.q ∧ c.core.poisonedAt c.q c.ve.pc 8 = false ∧
    fetchable c.core c.ve.code c.q c.ve.pc 8 w.toNat = true ∧ vecLegal w = true ∧ vecKey w = key ∧
    (vecReads w).any c.ve.badRegs.contains = false

/-- A scalar engine stands at the instruction `w` of `n` bytes and may run it (R113, R114). -/
def SeReady (n w : Nat) (e : SeRef) (s : State) (c : SCtx) : Prop :=
  seAt e s = some c ∧ c.region c.se.pc.toNat n ≠ .none ∧ c.fetches n w = true ∧
    (c.region c.se.pc.toNat n = .core → c.core.poisonedAt c.q c.se.pc.toNat n = false)

/-- A scalar engine stands at the Xhsk instruction with this funct7 and funct3 (R116). -/
def XReady (f7 f3 : Nat) (e : SeRef) (w : W32) (s : State) (c : SCtx) : Prop :=
  SeReady 4 w.toNat e s c ∧ xhskWord w f7 f3 = true

/-- Ring `ring` of a virtual device is being read (R329, R331, R460): its front end is up and not frozen, no removal has
begun, the ring is enabled and no read of it was lost. -/
def RingOpen (s : State) (vd ring : Nat) : Prop :=
  s.frontUp vd = true ∧ (s.vd vd).removal = none ∧ ((s.vd vd).ring ring).on = true ∧ (s.vd vd).fe.fetchLost = false ∧
    (s.vd vd).fe.frozen = false

/-- A placed command waits for nothing: no outstanding read, no held access and no open fault entry (R383). -/
def Cmd.Free (k : Cmd) : Prop := k.asks = [] ∧ k.hold = none ∧ k.fault = none

/-- Control command `op` is ready at the front end of a running slice (R337). -/
def CtlReady (c : CmdRef) (op : Nat) (s : State) (j : Job) : Prop :=
  s.job? c = some j ∧ j.k.op = op ∧ j.k.phase = .ready ∧ j.k.Free ∧ (s.vd c.vd).fe.frozen = false ∧
    (s.site j.i).up = true

/-- A command has nothing left to send and no answer to wait for. -/
def NothingOpen (j : Job) (c : CmdRef) (t : State) : Prop := (j.now t).unsent = [] ∧ (t.site j.i).openTxns c = 0

/-- Command `op` has been issued to its engine, whose domain is up, and has still to run there (R141, R398). -/
def RunReady (c : CmdRef) (op : Nat) (s : State) (j : Job) : Prop :=
  s.job? c = some j ∧ j.k.live op = true ∧ j.runs s = true

/-- A management request of this opcode is next to run on a block whose lead answers, and its packet is well formed
(R479, R483). -/
def MgmtReady (m : MgmtRun) (op : Nat) (bad : Bytes → Bool) (s : State) (r : MReq) : Prop :=
  s.mreq? m op = some r ∧ s.answers = true ∧ s.behind r = false ∧ (r.started = true ∨ bad r.pkt = false)

/-- A fabric packet of this type has arrived at its instance and passed every check of the transport (R279, R284–R288);
`net` is the instance's transport with the replay window moved. -/
def Accepted (s : State) (i type : Nat) (p : Pkt) (h : Hdr) (net : Transport) : Prop :=
  h = Hdr.of p.hdr ∧ (s.site i).present = true ∧ badHeader p = false ∧ h.type = type ∧ (s.site i).domState 20 = 0 ∧
    h.dst = s.addrOf i ∧ (∃ k, (s.site i).slot? h.keyId = some k ∧ k.state ≠ .free ∧ k.gen = h.keyGen) ∧
    (if isResponse type then some (s.site i).net else (s.site i).net.accept h.keyId h.src p.nonce.toNat) = some net ∧
    p.icvOk = true

/-- A response matches an open transaction of the current generation (R281, R286). -/
def Matched (s : State) (i : Nat) (h : Hdr) (kinds : List TxnKind) (x : Txn) : Prop :=
  (s.site i).net.txns.find? (fun x => decide (x.num = h.txn) && decide (x.dst = h.src) && decide (x.slot = h.keyId) &&
      kinds.contains x.kind) = some x ∧ h.gen = (s.site i).gen x.dom

end Sys2Proof.Machine
end

