-- ==== Sys2Proof/Certificates/Slice0/Obligations.lean ====
section
/-! DEFINITION. The statements for the provers. -/

open Sys2Proof Sys2Proof.Machine

/-- For every command and every state, a step of the state with that command in front of its queue is exec of the
command on the state with the queue as it was. The queue is the model's own form of the commands that reach the block
(spec/INDEX.md). -/
def Obligations.FrontCommandRuns : Prop :=
  ∀ (c : Instr) (s : State), step { s with pending := c :: s.pending } = exec c s

/-- With no command waiting, a step answers a next state and takes no command: local time passes on every instance
whose always-on domain is powered, and what the local clocks drive follows it. That one idle step is one nanosecond is
the model's choice (log entry 2) (R9, R418, spec/02 registers topology.md). -/
def Obligations.EmptyQueueIdles : Prop :=
  ∀ s : State, s.pending = [] → step s = .next (idle s) ∧ (idle s).pending = []

/-- The state after reset has eight sites with six cores and two clusters each and 256 virtual devices, and all its
memories are in canonical form (R15, R20, R41). -/
def Obligations.ResetInvariant : Prop :=
  State.reset.Inv

/-- From every state with eight sites of six cores and two clusters each, 256 virtual devices, and core memories,
accumulators, cluster memories, tier pages and saved images in canonical form (addresses strictly rising, no byte
listed that reads as an unlisted one), every step that answers a next state leads to such a state again, whatever the
command. The canonical form is the model's own; the counts are the spec's (R15, R20, R41, R192, R201, R231). -/
def Obligations.StepKeepsInvariant : Prop :=
  ∀ s t : State, s.Inv → step s = .next t → t.Inv

/-- Whatever command answers a next state leaves the queue of waiting commands as it was, only adds to the messages
that have left the block, and draws free values only onwards (R8, spec/INDEX.md). -/
def Obligations.CommandsOnlyAdd : Prop :=
  ∀ (c : Instr) (s t : State), exec c s = .next t → t.pending = s.pending ∧ s.out <+: t.out ∧ s.free ≤ t.free

/-- Every command answers a next state in every state, MEMORY_PORT_TRAINING alone excepted: a report whose read
latency lies outside the 8 to 64 port clocks of a fast-tier PHY stops, because the surroundings do not meet what the
block expects of them. A row presented while its conditions fail leaves the block as it was (log entry 3) (R2, R237,
spec/INDEX.md). -/
def Obligations.EveryCommandAnswers : Prop :=
  ∀ (c : Instr) (s : State),
    (∃ t, exec c s = .next t) ∨
      (exec c s = .fault .surroundings ∧ ∃ (i port : Nat) (r : TrainReport),
        c = .memoryPortTraining i port r ∧ port < 2 ∧ (r.readLatency < 8 ∨ 64 < r.readLatency))

/-- At reset nothing waits and nothing has been sent; the eight instances of the part have the numbers 0 to 7; no
virtual device is live; every core is in joined mode with cleared core memory and accumulators; on every core the
vector engines are not busy and the scalar engines are idle; every mailbox is FREE; no key slot holds a key and there
is no lead (R3, R15, R41, R92, R335, R436, R494, R562). -/
def Obligations.ResetValues : Prop :=
  State.reset.pending = [] ∧ State.reset.out = [] ∧ State.reset.part.lead = none ∧
    (∀ v, v < 256 → (State.reset.vd v).live = false ∧ ((State.reset.vd v).stream 0).state = .free) ∧
    ∀ i, i < 8 → (State.reset.site i).id = i ∧ (State.reset.site i).slots = [] ∧ (State.reset.site i).blockKeys = [] ∧
      (∀ b, b < 16 → ((State.reset.site i).box b).state = .free) ∧
      ∀ p, p < 6 → (State.reset.core i p).quad = false ∧ (State.reset.core i p).cmem = [] ∧
        (State.reset.core i p).acc = [] ∧ (∀ k, k < 13 → ((State.reset.core i p).ves.getD k {}).busy = false) ∧
        ∀ k, k < 8 → ((State.reset.core i p).ses.getD k {}).mode = .idle

/-- On an engine that stands at the instruction's word and may run it, every instruction of class VV (arithmetic,
bitwise, shifts, move, select, permute, compares, reductions), of class VS (the same with the scalar operand in the
place of vb, VSPLAT, VIOTA, VEXTA and the compares) and of class VX (VCVT, when no register of its source group holds
an uncorrectable error, and the transcendentals) answers a next state: its destination takes the operation the row
gives, element by element, and the program counter moves to the next word. That VSHL saturates under SAT is the
model's reading (log entry 12); beyond its special inputs the value of a transcendental is the model's free value (log
entry 8) (R91, R92, R94, R95, R97, R98, R99, R100, R101, R104, R105, spec/03 vector scalar.md). -/
def Obligations.VectorElementwise : Prop :=
  ∀ (e : VeRef) (w : W64) (s : State) (c : VCtx),
    (VecReady (0, 0x00) e w s c → exec (.vadd e w) s = .next (vvArith c s w (fpAddSub false) (· + ·))) ∧
    (VecReady (0, 0x01) e w s c → exec (.vsub e w) s = .next (vvArith c s w (fpAddSub true) (· - ·))) ∧
    (VecReady (0, 0x02) e w s c → exec (.vmul e w) s = .next (vvArith c s w fpMul (· * ·) (satOk := false))) ∧
    (VecReady (0, 0x03) e w s c → exec (.vfma e w) s = .next (vvArith c s w (fun a b d => a.fma false b d) (fun a _ => a))) ∧
    (VecReady (0, 0x04) e w s c → exec (.vfms e w) s = .next (vvArith c s w (fun a b d => a.fma false b d.neg) (fun a _ => a))) ∧
    (VecReady (0, 0x05) e w s c → exec (.vmax e w) s = .next (vvArith c s w (fpPick Fp.max) max (rounds := false))) ∧
    (VecReady (0, 0x06) e w s c → exec (.vmin e w) s = .next (vvArith c s w (fpPick Fp.min) min (rounds := false))) ∧
    (VecReady (0, 0x07) e w s c → exec (.vabs e w) s = .next (vvArith c s w (fun a _ _ => (match a with | .nan _ => .nan false | x => x.abs, false)) (fun a _ => (a.natAbs : Int)) (rounds := false))) ∧
    (VecReady (0, 0x08) e w s c → exec (.vneg e w) s = .next (vvArith c s w (fun a _ _ => (match a with | .nan _ => .nan false | x => x.neg, false)) (fun a _ => -a) (rounds := false))) ∧
    (VecReady (0, 0x09) e w s c → exec (.vand e w) s = .next (vvBits c s w (· &&& ·))) ∧
    (VecReady (0, 0x0A) e w s c → exec (.vor e w) s = .next (vvBits c s w (· ||| ·))) ∧
    (VecReady (0, 0x0B) e w s c → exec (.vxor e w) s = .next (vvBits c s w (· ^^^ ·))) ∧
    (VecReady (0, 0x0C) e w s c → exec (.vshl e w) s = .next (vvArith c s w fpMul (shlInt (dtBits (vDt w))))) ∧
    (VecReady (0, 0x0D) e w s c → exec (.vsra e w) s = .next (vvBits c s w (shiftRight (dtBits (vDt w)) true))) ∧
    (VecReady (0, 0x0E) e w s c → exec (.vsrl e w) s = .next (vvBits c s w (shiftRight (dtBits (vDt w)) false))) ∧
    (VecReady (0, 0x10) e w s c → exec (.vmov e w) s = .next (vvBits c s w fun a _ => a)) ∧
    (VecReady (0, 0x0F) e w s c → exec (.vsel e w) s = .next (c.next s (c.ve.select w))) ∧
    (VecReady (0, 0x11) e w s c → exec (.vperm e w) s = .next (c.next s (c.ve.permute w))) ∧
    (VecReady (0, 0x18) e w s c → exec (.vcmpeq e w) s = .next (vvCmp .eq c s w)) ∧
    (VecReady (0, 0x19) e w s c → exec (.vcmpne e w) s = .next (vvCmp .ne c s w)) ∧
    (VecReady (0, 0x1A) e w s c → exec (.vcmplt e w) s = .next (vvCmp .lt c s w)) ∧
    (VecReady (0, 0x1B) e w s c → exec (.vcmple e w) s = .next (vvCmp .le c s w)) ∧
    (VecReady (0, 0x1C) e w s c → exec (.vcmpuo e w) s = .next (vvCmp .uo c s w)) ∧
    (VecReady (0, 0x20) e w s c → exec (.vrsum e w) s = .next (vrSum c s w)) ∧
    (VecReady (0, 0x21) e w s c → exec (.vrmax e w) s = .next (vrPick true c s w)) ∧
    (VecReady (0, 0x22) e w s c → exec (.vrmin e w) s = .next (vrPick false c s w)) ∧
    (VecReady (1, 0x00) e w s c → exec (.vadds e w) s = .next (vsArith c s w (fpAddSub false) (· + ·))) ∧
    (VecReady (1, 0x01) e w s c → exec (.vsubs e w) s = .next (vsArith c s w (fpAddSub true) (· - ·))) ∧
    (VecReady (1, 0x02) e w s c → exec (.vrsubs e w) s = .next (vsArith c s w (fun a b d => fpAddSub true b a d) fun a b => b - a)) ∧
    (VecReady (1, 0x03) e w s c → exec (.vmuls e w) s = .next (vsArith c s w fpMul (· * ·))) ∧
    (VecReady (1, 0x04) e w s c → exec (.vfmas e w) s = .next (vsArith c s w (fun a b d => a.fma false b d) (fun a _ => a))) ∧
    (VecReady (1, 0x05) e w s c → exec (.vmaxs e w) s = .next (vsArith c s w (fpPick Fp.max) max)) ∧
    (VecReady (1, 0x06) e w s c → exec (.vmins e w) s = .next (vsArith c s w (fpPick Fp.min) min)) ∧
    (VecReady (1, 0x07) e w s c → exec (.vands e w) s = .next (vsBits c s w (· &&& ·))) ∧
    (VecReady (1, 0x08) e w s c → exec (.vors e w) s = .next (vsBits c s w (· ||| ·))) ∧
    (VecReady (1, 0x09) e w s c → exec (.vxors e w) s = .next (vsBits c s w (· ^^^ ·))) ∧
    (VecReady (1, 0x0A) e w s c → exec (.vshls e w) s = .next (vsBits c s w fun a k => a <<< (k % dtBits (vDt w)))) ∧
    (VecReady (1, 0x0B) e w s c → exec (.vsras e w) s = .next (vsBits c s w (shiftRight (dtBits (vDt w)) true))) ∧
    (VecReady (1, 0x0C) e w s c → exec (.vsrls e w) s = .next (vsBits c s w (shiftRight (dtBits (vDt w)) false))) ∧
    (VecReady (1, 0x10) e w s c → exec (.vsplat e w) s = .next (vsBits c s w fun _ k => k)) ∧
    (VecReady (1, 0x11) e w s c → exec (.viota e w) s = .next (c.next s (c.ve.writeVd w fun i => (c.ve.scalar w + i, {})))) ∧
    (VecReady (1, 0x12) e w s c → exec (.vexta e w) s = .next (c.next s (c.ve.setAreg (vsAs w) (c.ve.extract w)))) ∧
    (VecReady (1, 0x18) e w s c → exec (.vcmpeqs e w) s = .next (vsCmp .eq c s w)) ∧
    (VecReady (1, 0x19) e w s c → exec (.vcmpnes e w) s = .next (vsCmp .ne c s w)) ∧
    (VecReady (1, 0x1A) e w s c → exec (.vcmplts e w) s = .next (vsCmp .lt c s w)) ∧
    (VecReady (1, 0x1B) e w s c → exec (.vcmples e w) s = .next (vsCmp .le c s w)) ∧
    (VecReady (1, 0x1C) e w s c → exec (.vcmpgts e w) s = .next (vsCmp .gt c s w)) ∧
    (VecReady (1, 0x1D) e w s c → exec (.vcmpges e w) s = .next (vsCmp .ge c s w)) ∧
    (VecReady (3, 0x00) e w s c → (c.ve.cvtSources w).any c.ve.badRegs.contains = false →
      exec (.vcvt e w) s = .next (c.next s (c.ve.convert w))) ∧
    (VecReady (3, 0x08) e w s c → exec (.vexp e w) s = .next (vxTransc 0 c s w)) ∧
    (VecReady (3, 0x09) e w s c → exec (.vlog e w) s = .next (vxTransc 1 c s w)) ∧
    (VecReady (3, 0x0A) e w s c → exec (.vrsqrt e w) s = .next (vxTransc 2 c s w)) ∧
    (VecReady (3, 0x0B) e w s c → exec (.vrcp e w) s = .next (vxTransc 3 c s w)) ∧
    (VecReady (3, 0x0C) e w s c → exec (.vtanh e w) s = .next (vxTransc 4 c s w)) ∧
    (VecReady (3, 0x0D) e w s c → exec (.verf e w) s = .next (vxTransc 5 c s w))

/-- VLD and VST complete when no active element's address is misaligned or beyond the binding's memory and, for VLD,
no byte read holds an uncorrectable error; PLD and PST complete when their address is a multiple of 64 and 256 bytes
fit (and, for PLD, hold no such error); CHPOP completes with the oldest row of the chain port's half, or with
0xFFFFFFFF in a[AB] when the half has ended and is empty. A gather or scatter index beyond the 512 INT32 elements of a
register is the model's free value (log entry 13) (R102, R103, R110, R111, spec/03 vector scalar.md). -/
def Obligations.VectorMemory : Prop :=
  ∀ (e : VeRef) (w : W64) (s : State) (c : VCtx),
    (VecReady (2, 0x00) e w s c → vmCheck c w s.free = none → c.loadWhole w s.free = true →
      exec (.vld e w) s = .next (c.next (c.drawn w s) (c.ve.writeVd w fun i =>
        (leNat (c.core.readCm c.q (vmAddr c.ve w s.free i) (dtW (vDt w))), {})))) ∧
    (VecReady (2, 0x01) e w s c → vmCheck c w s.free = none →
      exec (.vst e w) s = .next (c.next ((c.drawn w s).onCore c.i c.p (c.storeAll w s.free)) c.ve)) ∧
    (∀ a, VecReady (2, 0x02) e w s c → predAddr c w = (a, none) → c.core.poisonedAt c.q a 256 = false →
      exec (.pld e w) s = .next (c.next s (c.ve.setPreg (vVd w % 8) (leNat (c.core.readCm c.q a 256))))) ∧
    (∀ a, VecReady (2, 0x03) e w s c → predAddr c w = (a, none) →
      exec (.pst e w) s = .next (c.next (s.onCore c.i c.p fun k => k.writeCm c.q a (leBytes 256 (c.ve.preg (vVd w % 8)))) c.ve)) ∧
    (∀ h row rest, VecReady (2, 0x04) e w s c → chainHalf c.q (vmMode w % 2) = some h →
      (c.core.halves.getD h {}).fifo = row :: rest →
      exec (.chpop e w) s = .next ((s.onCore c.i c.p fun k => { k with
        halves := k.halves.modify h fun x => { x with fifo := rest } }).onVe c.i c.p c.e (·.popRow (vVd w) (vmAb w) row))) ∧
    (∀ h, VecReady (2, 0x04) e w s c → chainHalf c.q (vmMode w % 2) = some h →
      (c.core.halves.getD h {}).fifo = [] → (c.core.halves.getD h {}).state = .ended →
      exec (.chpop e w) s = .next (s.onVe c.i c.p c.e (·.popEnded (vmAb w))))

/-- On an engine that stands at the word and may run it, BR always branches, BZ and BNZ branch on a[AS] zero or not,
LOOP takes 1 from a[AS] and branches while it is not zero, PANY and PNONE branch on the predicate's bits below E, the
target being the program counter plus 8 times IMM24; HALT ends the program; NOP, ALI, ALUI, AADDI, AADD, ASUB, AMUL,
ASHLI, ASHRI, PAND, POR, PXOR, PNOT, SETVL, FLGRD, SRSEED, FENCE and EVSIG go on to the next word with their result in
the address register, predicate, element count, counter or event they name. FENCE has nothing left to wait for, since
the model makes stores visible at once (log entry 14) (R106, R109, R112, R118, R120, spec/03 vector scalar.md). -/
def Obligations.VectorControl : Prop :=
  ∀ (e : VeRef) (w : W64) (s : State) (c : VCtx),
    (VecReady (4, 0x01) e w s c → exec (.halt e w) s = .next (s.onCore c.i c.p fun k => k.endVe c.e .halted)) ∧
    (VecReady (4, 0x02) e w s c → exec (.br e w) s = .next (c.branch s w c.ve true)) ∧
    (VecReady (4, 0x03) e w s c → exec (.bz e w) s = .next (c.branch s w c.ve (decide (c.ve.areg (vcAs w) = 0)))) ∧
    (VecReady (4, 0x04) e w s c → exec (.bnz e w) s = .next (c.branch s w c.ve (decide (c.ve.areg (vcAs w) ≠ 0)))) ∧
    (VecReady (4, 0x05) e w s c → exec (.loop e w) s = .next (c.branch s w
      (c.ve.setAreg (vcAs w) (wrapNat 32 ((c.ve.areg (vcAs w) : Int) - 1)))
      (decide (wrapNat 32 ((c.ve.areg (vcAs w) : Int) - 1) ≠ 0)))) ∧
    (VecReady (4, 0x06) e w s c → exec (.pany e w) s = .next (c.branch s w c.ve (decide (c.ve.preg (vcPs w) % 2 ^ c.ve.count (vDt w) ≠ 0)))) ∧
    (VecReady (4, 0x07) e w s c → exec (.pnone e w) s = .next (c.branch s w c.ve (decide (c.ve.preg (vcPs w) % 2 ^ c.ve.count (vDt w) = 0)))) ∧
    (VecReady (4, 0x00) e w s c → exec (.vcNop e w) s = .next (c.next s c.ve)) ∧
    (VecReady (4, 0x08) e w s c → exec (.ali e w) s = .next (vcAddr c s w (vcImmS w))) ∧
    (VecReady (4, 0x09) e w s c → exec (.alui e w) s = .next (vcAddr c s w ((vcImm w * 256 : Nat) : Int))) ∧
    (VecReady (4, 0x0A) e w s c → exec (.aaddi e w) s = .next (vcAddr c s w ((c.ve.areg (vcAs w) : Int) + vcImmS w))) ∧
    (VecReady (4, 0x0B) e w s c → exec (.aadd e w) s = .next (vcAddr c s w ((c.ve.areg (vcAs w) : Int) + c.ve.areg (vcAt w)))) ∧
    (VecReady (4, 0x0C) e w s c → exec (.asub e w) s = .next (vcAddr c s w ((c.ve.areg (vcAs w) : Int) - c.ve.areg (vcAt w)))) ∧
    (VecReady (4, 0x0D) e w s c → exec (.amul e w) s = .next (vcAddr c s w ((c.ve.areg (vcAs w) : Int) * c.ve.areg (vcAt w)))) ∧
    (VecReady (4, 0x0E) e w s c → exec (.ashli e w) s = .next (vcAddr c s w ((c.ve.areg (vcAs w) <<< (vcImm w % 32) : Nat) : Int))) ∧
    (VecReady (4, 0x0F) e w s c → exec (.ashri e w) s = .next (vcAddr c s w ((c.ve.areg (vcAs w) >>> (vcImm w % 32) : Nat) : Int))) ∧
    (VecReady (4, 0x10) e w s c → exec (.pand e w) s = .next (vcPred c s w (c.ve.preg (vcPs w) &&& c.ve.preg (vcPt w)))) ∧
    (VecReady (4, 0x11) e w s c → exec (.por e w) s = .next (vcPred c s w (c.ve.preg (vcPs w) ||| c.ve.preg (vcPt w)))) ∧
    (VecReady (4, 0x12) e w s c → exec (.pxor e w) s = .next (vcPred c s w (c.ve.preg (vcPs w) ^^^ c.ve.preg (vcPt w)))) ∧
    (VecReady (4, 0x13) e w s c → exec (.pnot e w) s = .next (vcPred c s w (2 ^ 2048 - 1 - c.ve.preg (vcPs w)))) ∧
    (VecReady (4, 0x18) e w s c → exec (.setvl e w) s = .next (c.next s
      { c.ve.setAreg (vcAd w) (min (c.ve.areg (vcAs w)) (lanes (vDt w)) : Nat) with
        vl := min (c.ve.areg (vcAs w)) (lanes (vDt w)) })) ∧
    (VecReady (4, 0x1A) e w s c → exec (.flgrd e w) s = .next (c.next s { c.ve.setAreg (vcAd w) c.ve.flags.toNat with flags := 0 })) ∧
    (VecReady (4, 0x1B) e w s c → exec (.srseed e w) s = .next (c.next s { c.ve with rc := BitVec.ofNat 64 (c.ve.areg (vcAt w) * 2 ^ 32 + c.ve.areg (vcAs w)) })) ∧
    (VecReady (4, 0x1C) e w s c → exec (.fence e w) s = .next (c.next s c.ve)) ∧
    (VecReady (4, 0x1D) e w s c → exec (.evsig e w) s = .next (c.next (s.onSe c.i c.p c.ve.launcher (·.post (BitVec.ofNat 16 (2 ^ (vcImm w % 16))))) c.ve))

/-- After an elementwise write, an active element of vd holds the low bytes of the element's result, an inactive one
is zero under PZ and otherwise unchanged, and no other vector register changes (R94, spec/03 vector scalar.md). -/
def Obligations.VectorElementRule : Prop :=
  ∀ (v : Ve) (w : W64) (f : Nat → Nat × FpFlags),
    (∀ i, i < lanes (vDt w) → lane (dtW (vDt w)) ((v.writeVd w f).vreg (vVd w)) i =
      if i < v.count (vDt w) ∧ v.active w i = true then (f i).1 % 2 ^ dtBits (vDt w)
      else if vPz w then 0 else lane (dtW (vDt w)) (v.vreg (vVd w)) i) ∧
    ∀ r, r ≠ vVd w → (v.writeVd w f).vreg r = v.vreg r

/-- Whatever is stored to predicate 0, the engine is as before, and predicate 0 reads as all ones; a store to another
predicate reads back and leaves the others (R92, spec/03 vector scalar.md). -/
def Obligations.VectorPredicateZero : Prop :=
  ∀ (v : Ve) (x : Nat), v.setPreg 0 x = v ∧ v.preg 0 = 2 ^ 2048 - 1 ∧
    ∀ k, 0 < k → k < 8 → (v.setPreg k x).preg k = x % 2 ^ 2048 ∧ ∀ j, j ≠ k → (v.setPreg k x).preg j = v.preg j

/-- Two elementwise writes whose results and flags agree on the active elements leave the same engine: an inactive
element's result is not written and raises no flag (R94, spec/03 vector scalar.md). -/
def Obligations.VectorInactiveElements : Prop :=
  ∀ (v : Ve) (w : W64) (f g : Nat → Nat × FpFlags),
    (∀ i, i < v.count (vDt w) → v.active w i = true → f i = g i) → v.writeVd w f = v.writeVd w g

/-- The scalar operand is IMM32 when SRC is 0 and a[AS] when SRC is 1; for a floating-point DT it is that FP32 value
converted to DT with round to nearest even, for an integer DT that INT32 value converted to DT with saturation (R97).
-/
def Obligations.VectorScalarOperandRule : Prop :=
  ∀ (v : Ve) (w : W64) (x : Nat), x = (if bitOf w 36 then v.areg (bitsOf w 35 32) else bitsOf w 31 0) →
    (vDt w = 0 → v.scalar w = x) ∧
    (vDt w ≠ 0 → dtFloat (vDt w) = true → v.scalar w = ((dtFmt (vDt w)).convert .rne false (fp32.decode x)).1) ∧
    (dtFloat (vDt w) = false →
      v.scalar w = wrapNat (dtBits (vDt w)) (max (-2 ^ (dtBits (vDt w) - 1)) (min (toSigned 32 x) (2 ^ (dtBits (vDt w) - 1) - 1))))

/-- For each vector instruction: with the program counter at or beyond the binding size it ends the program with code
0x02, and a word that is fetched and is not legal ends it with code 0x01. Ending a program so changes neither core
memory, nor the accumulators, nor any engine's vector, predicate or address registers (R108, R118, spec/03 vector
scalar.md). -/
def Obligations.VectorProgramFaults : Prop :=
  (∀ (e : VeRef) (w : W64) (s : State) (c : VCtx), vecAt e s = some c →
    ∀ x ∈ [Instr.vadd e w, .vsub e w, .vmul e w, .vfma e w, .vfms e w, .vmax e w, .vmin e w, .vabs e w, .vneg e w, .vand e w, .vor e w, .vxor e w, .vshl e w, .vsra e w, .vsrl e w, .vsel e w, .vmov e w, .vperm e w, .vcmpeq e w, .vcmpne e w, .vcmplt e w, .vcmple e w, .vcmpuo e w, .vrsum e w, .vrmax e w, .vrmin e w, .vadds e w, .vsubs e w, .vrsubs e w, .vmuls e w, .vfmas e w, .vmaxs e w, .vmins e w, .vands e w, .vors e w, .vxors e w, .vshls e w, .vsras e w, .vsrls e w, .vsplat e w, .viota e w, .vexta e w, .vcmpeqs e w, .vcmpnes e w, .vcmplts e w, .vcmples e w, .vcmpgts e w, .vcmpges e w, .vld e w, .vst e w, .pld e w, .pst e w, .chpop e w, .vcvt e w, .vexp e w, .vlog e w, .vrsqrt e w, .vrcp e w, .vtanh e w, .verf e w, .vcNop e w, .halt e w, .br e w, .bz e w, .bnz e w, .loop e w, .pany e w, .pnone e w, .ali e w, .alui e w, .aaddi e w, .aadd e w, .asub e w, .amul e w, .ashli e w, .ashri e w, .pand e w, .por e w, .pxor e w, .pnot e w, .setvl e w, .flgrd e w, .srseed e w, .fence e w, .evsig e w],
      (bindingSize c.q ≤ c.ve.pc → exec x s = .next (c.fault s 0x02)) ∧
      (c.ve.pc < bindingSize c.q → c.core.poisonedAt c.q c.ve.pc 8 = false →
        fetchable c.core c.ve.code c.q c.ve.pc 8 w.toNat = true → vecLegal w = false →
        exec x s = .next (c.fault s 0x01))) ∧
  ∀ (k : Core) (n : Nat) (how : VeEnd), (k.endVe n how).cmem = k.cmem ∧ (k.endVe n how).acc = k.acc ∧
    ∀ j, ((k.endVe n how).ves.getD j {}).v = (k.ves.getD j {}).v ∧
      ((k.endVe n how).ves.getD j {}).p = (k.ves.getD j {}).p ∧ ((k.endVe n how).ves.getD j {}).a = (k.ves.getD j {}).a

/-- When a vector instruction other than VST and PST answers a next state, every byte of core memory, accumulator,
cluster memory and tier memory of every instance is as before, every virtual device and the part's management state
are as before, and on every core the vector, predicate and address registers of every engine but the one that ran, and
the general registers of the scalar engines but for those an EVSIG wakes, are as before. An engine that EVSIG wakes
writes the register its wait names, so EVSIG is named apart (R102, R107, R109, spec/03 vector scalar.md). -/
def Obligations.VectorFrame : Prop :=
  ∀ (e : VeRef) (w : W64) (s t : State),
    (∀ x ∈ [Instr.vadd e w, .vsub e w, .vmul e w, .vfma e w, .vfms e w, .vmax e w, .vmin e w, .vabs e w, .vneg e w, .vand e w, .vor e w, .vxor e w, .vshl e w, .vsra e w, .vsrl e w, .vsel e w, .vmov e w, .vperm e w, .vcmpeq e w, .vcmpne e w, .vcmplt e w, .vcmple e w, .vcmpuo e w, .vrsum e w, .vrmax e w, .vrmin e w, .vadds e w, .vsubs e w, .vrsubs e w, .vmuls e w, .vfmas e w, .vmaxs e w, .vmins e w, .vands e w, .vors e w, .vxors e w, .vshls e w, .vsras e w, .vsrls e w, .vsplat e w, .viota e w, .vexta e w, .vcmpeqs e w, .vcmpnes e w, .vcmplts e w, .vcmples e w, .vcmpgts e w, .vcmpges e w, .vld e w, .vst e w, .pld e w, .pst e w, .chpop e w, .vcvt e w, .vexp e w, .vlog e w, .vrsqrt e w, .vrcp e w, .vtanh e w, .verf e w, .vcNop e w, .halt e w, .br e w, .bz e w, .bnz e w, .loop e w, .pany e w, .pnone e w, .ali e w, .alui e w, .aaddi e w, .aadd e w, .asub e w, .amul e w, .ashli e w, .ashri e w, .pand e w, .por e w, .pxor e w, .pnot e w, .setvl e w, .flgrd e w, .srseed e w, .fence e w, .evsig e w], x ≠ .vst e w → x ≠ .pst e w → exec x s = .next t →
      t.vds = s.vds ∧ t.part = s.part ∧ ∀ i, (t.site i).clusters = (s.site i).clusters ∧
        (t.site i).fast = (s.site i).fast ∧ (t.site i).slow = (s.site i).slow ∧
        ∀ p, (t.core i p).cmem = (s.core i p).cmem ∧ (t.core i p).acc = (s.core i p).acc ∧
          (∀ k, (i, p, k) ≠ (e.site, e.core, e.eng) →
            ((t.core i p).ves.getD k {}).v = ((s.core i p).ves.getD k {}).v ∧
            ((t.core i p).ves.getD k {}).p = ((s.core i p).ves.getD k {}).p ∧
            ((t.core i p).ves.getD k {}).a = ((s.core i p).ves.getD k {}).a) ∧
          (x ≠ .evsig e w → (t.core i p).ses = (s.core i p).ses))

/-- When VST answers a next state, every byte of the binding's core memory that lies in no active element's bytes
reads as before; when PST does, every byte outside the 256 bytes at its address; every other core and instance, the
vector, predicate and address registers of every engine of the core, its accumulators and all other memory are as
before. The addresses are those the instructions' address rules give (R94, R102, R103, R187, spec/03 vector
scalar.md). -/
def Obligations.VectorStoreFrame : Prop :=
  ∀ (e : VeRef) (w : W64) (s t : State) (c : VCtx), s.Inv → vecAt e s = some c →
    (exec (.vst e w) s = .next t → ∀ x, x < bindingSize c.q →
      (∀ i, i < c.ve.count (vDt w) → c.ve.active w i = true →
        ¬(vmAddr c.ve w s.free i ≤ x ∧ x < vmAddr c.ve w s.free i + dtW (vDt w))) →
      (t.core c.i c.p).readCm c.q x 1 = (s.core c.i c.p).readCm c.q x 1) ∧
    (exec (.pst e w) s = .next t → ∀ x, x < bindingSize c.q →
      ¬((predAddr c w).1 ≤ x ∧ x < (predAddr c w).1 + 256) →
      (t.core c.i c.p).readCm c.q x 1 = (s.core c.i c.p).readCm c.q x 1) ∧
    ∀ y ∈ [Instr.vst e w, Instr.pst e w], exec y s = .next t →
      t.vds = s.vds ∧ t.part = s.part ∧
      (∀ i, (t.site i).clusters = (s.site i).clusters ∧ (t.site i).fast = (s.site i).fast ∧
        (t.site i).slow = (s.site i).slow ∧ ∀ p, (i, p) ≠ (c.i, c.p) → t.core i p = s.core i p) ∧
      (t.core c.i c.p).acc = (s.core c.i c.p).acc ∧
      ∀ k, ((t.core c.i c.p).ves.getD k {}).v = ((s.core c.i c.p).ves.getD k {}).v ∧
        ((t.core c.i c.p).ves.getD k {}).p = ((s.core c.i c.p).ves.getD k {}).p ∧
        ((t.core c.i c.p).ves.getD k {}).a = ((s.core c.i c.p).ves.getD k {}).a

/-- After a write inside a binding's core memory, a byte of the range reads as written and every other byte of the
binding reads as before; and in quad mode the binding of another quarter-core reads as before everywhere (R186, R187,
spec/05 core memory timing.md). -/
def Obligations.CoreMemoryReadAfterWrite : Prop :=
  ∀ (c : Core) (q : Option Nat) (a : Nat) (bs : Bytes), c.canonical → (∀ k, q = some k → k < 4) →
    a + bs.length ≤ bindingSize q →
    (∀ x, x < bindingSize q → (c.writeCm q a bs).readCm q x 1 =
      if a ≤ x ∧ x < a + bs.length then [bs.getD (x - a) 0] else c.readCm q x 1) ∧
    ∀ k r, q = some k → r < 4 → r ≠ k → ∀ x, x < bindingSize q →
      (c.writeCm q a bs).readCm (some r) x 1 = c.readCm (some r) x 1

/-- On a scalar engine that stands at the instruction and may run it: VLAUNCH with a mask inside the command's VE_MASK
whose engines are not busy, and a launch block it can read, starts the named engines and gives rd a ticket; with a
mask of zero or a busy engine it gives 0. VWAIT gives 2 for a ticket it does not know and otherwise, once its programs
have ended, collects it and gives its status; before that it waits. VPOLL gives 2, the status, or 0xFFFFFFFF without
waiting. VABORT stops the ticket's programs that still run and retires. Which ticket number VLAUNCH gives is the
model's free value (log entry 17). CMCOPY queues the move its block describes and gives its ticket, or 0 while four of
the engine's moves are open; MWAIT collects a move that has ended and gives its result, waits for one that has not,
and gives 2 for a ticket it does not know; EVWAIT with an event of its mask pending clears the mask's events and gives
those that were pending, and waits with none; EVSET pends events on an engine of the binding; SEHALT ends the engine
with its exit code; CHARM makes a half that is neither ACTIVE nor holds rows IDLE and gives 1, and gives 0 for an
ACTIVE half; WFI retires at once with an event pending and waits with none. Which number CMCOPY gives is the model's
free value (log entry 17) (R110, R115, R116, R117, R118, R119, R120, spec/03 vector scalar.md). -/
def Obligations.XhskInstructions : Prop :=
  ∀ (e : SeRef) (w : W32) (s : State) (c : SCtx),
    (∀ blk, XReady 0 0 e w s c → c.maskOk w = true → c.launchHeld s w = false →
      c.block (c.rs1 w).toNat 64 64 = .ok blk → exec (.vlaunch e w) s = .next (c.launch s w blk)) ∧
    (XReady 0 0 e w s c → c.maskOk w = true → c.launchHeld s w = true →
      exec (.vlaunch e w) s = .next (c.give s w 0)) ∧
    (XReady 0 1 e w s c → c.ticket? (c.rs1 w).toNat = none → exec (.vwait e w) s = .next (c.give s w 2)) ∧
    (∀ k, XReady 0 1 e w s c → c.ticket? (c.rs1 w).toNat = some k → k.running = [] →
      exec (.vwait e w) s =
        .next (c.give (s.onCore c.i c.p (·.collect (c.rs1 w).toNat)) w (k.status (s.site c.i) c.p))) ∧
    (∀ k, XReady 0 1 e w s c → c.ticket? (c.rs1 w).toNat = some k → k.running ≠ [] →
      exec (.vwait e w) s = .next (c.await s (.ticket (rvRd w.toNat) (c.rs1 w).toNat))) ∧
    (XReady 0 2 e w s c → c.ticket? (c.rs1 w).toNat = none → exec (.vpoll e w) s = .next (c.give s w 2)) ∧
    (∀ k, XReady 0 2 e w s c → c.ticket? (c.rs1 w).toNat = some k →
      exec (.vpoll e w) s =
        .next (c.give s w (if k.running = [] then k.status (s.site c.i) c.p else 0xFFFFFFFF))) ∧
    (∀ k, XReady 2 7 e w s c → c.ticket? (c.rs1 w).toNat = some k →
      exec (.vabort e w) s = .next (c.retire
        (s.onCore c.i c.p fun u => k.running.foldl (fun u v => u.endVe v .stopped) u) 4
        (((s.onCore c.i c.p fun u => k.running.foldl (fun u v => u.endVe v .stopped) u).core c.i c.p).ses.getD c.k {}))) ∧
    (∀ b, XReady 0 3 e w s c → c.block (c.rs1 w).toNat 32 8 = .ok b → c.movesOpen < 4 →
      exec (.cmcopy e w) s =
        .next (c.give (State.onCore { s with free := s.free + 1 } c.i c.p fun (k : Core) => { k with moves := k.moves ++
          [c.moveOf s b (freshId (c.core.moves.map fun m => m.id) (Config.freeWord s.free).toNat)] }) w
          (freshId (c.core.moves.map fun m => m.id) (Config.freeWord s.free).toNat))) ∧
    (∀ b, XReady 0 3 e w s c → c.block (c.rs1 w).toNat 32 8 = .ok b → 4 ≤ c.movesOpen →
      exec (.cmcopy e w) s = .next (c.give s w 0)) ∧
    (∀ m r, XReady 0 4 e w s c →
      c.core.moves.find? (fun m => decide (m.id = (c.rs1 w).toNat) && decide (m.quarter = c.q.getD 0)) = some m →
      m.result = some r →
      exec (.mwait e w) s = .next (c.give (s.onCore c.i c.p (·.dropMove (c.rs1 w).toNat)) w r)) ∧
    (∀ m, XReady 0 4 e w s c →
      c.core.moves.find? (fun m => decide (m.id = (c.rs1 w).toNat) && decide (m.quarter = c.q.getD 0)) = some m →
      m.result = none →
      exec (.mwait e w) s = .next (c.await s (.move (rvRd w.toNat) (c.rs1 w).toNat))) ∧
    (XReady 0 4 e w s c →
      c.core.moves.find? (fun m => decide (m.id = (c.rs1 w).toNat) && decide (m.quarter = c.q.getD 0)) = none →
      exec (.mwait e w) s = .next (c.give s w 2)) ∧
    (XReady 0 5 e w s c → c.se.events &&& (c.rs1 w).setWidth 16 ≠ 0 →
      exec (.evwait e w) s = .next (c.retire s 4
        { c.se.setReg (rvRd w.toNat) ((c.se.events &&& (c.rs1 w).setWidth 16).setWidth 64) with
          events := c.se.events &&& ~~~((c.rs1 w).setWidth 16) })) ∧
    (XReady 0 5 e w s c → c.se.events &&& (c.rs1 w).setWidth 16 = 0 →
      exec (.evwait e w) s = .next (c.await s (.event (rvRd w.toNat) ((c.rs1 w).setWidth 16) (c.rs2 w)))) ∧
    (XReady 0 6 e w s c → (c.rs1 w).toNat < (seSpan c.q).2 →
      exec (.evset e w) s = .next (c.retire
        (s.onSe c.i c.p ((seSpan c.q).1 + (c.rs1 w).toNat) (·.post ((c.rs2 w).setWidth 16))) 4
        (((s.onSe c.i c.p ((seSpan c.q).1 + (c.rs1 w).toNat) (·.post ((c.rs2 w).setWidth 16))).core c.i c.p).ses.getD
          c.k {}))) ∧
    (XReady 0 7 e w s c → exec (.sehalt e w) s = .next (c.put s { c.se with
      mode := .ended, exit := (c.rs1 w).setWidth 8
      csrs := { c.se.csrs with minstret := c.se.csrs.minstret + 1 } })) ∧
    (∀ h, XReady 1 7 e w s c → c.half? (c.rs1 w).toNat = some h → (c.core.halves.getD h {}).state ≠ .active →
      (c.core.halves.getD h {}).fifo = [] →
      exec (.charm e w) s = .next (c.give (s.onCore c.i c.p fun k => { k with
        halves := k.halves.modify h fun x => { x with state := .idle } }) w 1)) ∧
    (∀ h, XReady 1 7 e w s c → c.half? (c.rs1 w).toNat = some h → (c.core.halves.getD h {}).state = .active →
      exec (.charm e w) s = .next (c.give s w 0)) ∧
    (SeReady 4 0x10500073 e s c → c.se.events ≠ 0 → exec (.wfi e 0x10500073) s = .next (c.retire s 4 c.se)) ∧
    (SeReady 4 0x10500073 e s c → c.se.events = 0 → exec (.wfi e 0x10500073) s = .next (c.await s .wfi))

/-- TICKET_END, once every program of a ticket has ended, lets the engines waiting for it run on; MOVE_END copies the
bytes of an open move and ends it with 0, or ends it with 1 when it met an uncorrectable error; EVWAIT_EXPIRY ends an
EVWAIT that has a limit with 0; CHAIN_ROW puts the next epilogue row of a command into its half while that holds fewer
than 16 rows and has not ended (R72, R110, R116, R118, R119, spec/03 vector scalar.md). -/
def Obligations.ScalarWaitsEnd : Prop :=
  ∀ (s : State) (i p : Nat),
    (∀ t k, (s.core i p).tickets.find? (fun k => decide (k.id = t)) = some k → k.running = [] →
      (s.core i p).ses.any (·.waitsTicket t) = true →
      exec (.ticketEnd i p t) s = .next (s.onCore i p (·.endTicket t (k.status (s.site i) p)))) ∧
    (∀ t m, (s.core i p).moves.find? (fun m => decide (m.id = t) && m.result.isNone) = some m →
      (s.site i).coreRuns p = true → (s.core i p).unitRuns (if (s.core i p).quad then some m.quarter else none) = true →
      (s.moveBad i p m = false →
        exec (.moveEnd i p t true) s = .next ((s.moveBytes i p m).onCore i p (·.endMove t 0))) ∧
      exec (.moveEnd i p t false) s = .next (s.onCore i p (·.endMove t 1))) ∧
    (∀ (e : SeRef) rd mask limit, ((s.core e.site e.core).ses.getD e.eng {}).wait = .event rd mask limit →
      ((s.core e.site e.core).ses.getD e.eng {}).mode = .waiting → limit ≠ 0 →
      exec (.evwaitExpiry e) s = .next (s.onSe e.site e.core e.eng (·.resume rd 0))) ∧
    (∀ h r k row rest, ((s.core i p).halves.getD h {}).cmd = some r → s.cmd? r = some k → k.chainRows = row :: rest →
      (s.site i).coreRuns p = true → ((s.core i p).halves.getD h {}).state ≠ .ended →
      ((s.core i p).halves.getD h {}).fifo.length < 16 →
      exec (.chainRow i p h) s = .next ((s.onCore i p (·.chainIn h row)).onCmd r fun k => { k with
        chainRows := rest, finalWr := rest.isEmpty, endTime := (s.site i).time }))

/-- On a scalar engine that stands at a 32-bit instruction without a row of its own, SCALAR_INSTRUCTION answers a next
state: LUI and AUIPC write rd, OP and, but for its shifts, OP-IMM write the operation of rs1 and rs2 or the immediate,
JAL and JALR jump and link, BEQ branches or goes on, a load that finds its bytes writes rd, a store that may go there
writes memory. A 16-bit instruction that expands to a 32-bit one answers the next state of its expansion with the
engine moved on by two bytes, and one that expands to none takes the illegal-instruction trap. What the instructions
compute is the RISC-V standard's, which R113 names (log entry 15) (R113, R114, R115, spec/03 vector scalar.md). -/
def Obligations.ScalarInstructions : Prop :=
  (∀ (e : SeRef) (w : W32) (s : State) (c : SCtx), SeReady 4 w.toNat e s c → w.toNat % 4 = 3 → ownRow w = false →
    (w.toNat % 128 = 0x37 → exec (.scalarInstruction e w) s =
      .next (c.retire s 4 (c.se.setReg (rvRd w.toNat) (BitVec.ofInt 64 (immU w.toNat))))) ∧
    (w.toNat % 128 = 0x17 → exec (.scalarInstruction e w) s =
      .next (c.retire s 4 (c.se.setReg (rvRd w.toNat) (c.se.pc + BitVec.ofInt 64 (immU w.toNat))))) ∧
    (w.toNat % 128 = 0x33 → rvF7 w.toNat = 0 → exec (.scalarInstruction e w) s =
      .next (c.retire s 4 (c.se.setReg (rvRd w.toNat) (alu (rvF3 w.toNat) false (c.rs1 w) (c.rs2 w))))) ∧
    (w.toNat % 128 = 0x33 → rvF7 w.toNat = 0x20 → (rvF3 w.toNat = 0 ∨ rvF3 w.toNat = 5) →
      exec (.scalarInstruction e w) s =
        .next (c.retire s 4 (c.se.setReg (rvRd w.toNat) (alu (rvF3 w.toNat) true (c.rs1 w) (c.rs2 w))))) ∧
    (w.toNat % 128 = 0x33 → rvF7 w.toNat = 1 → exec (.scalarInstruction e w) s =
      .next (c.retire s 4 (c.se.setReg (rvRd w.toNat)
        (BitVec.ofNat 64 (mulDiv 64 (rvF3 w.toNat) (c.rs1 w).toNat (c.rs2 w).toNat))))) ∧
    (w.toNat % 128 = 0x13 → rvF3 w.toNat ≠ 1 → rvF3 w.toNat ≠ 5 → exec (.scalarInstruction e w) s =
      .next (c.retire s 4 (c.se.setReg (rvRd w.toNat)
        (alu (rvF3 w.toNat) false (c.rs1 w) (BitVec.ofInt 64 (immI w.toNat)))))) ∧
    (w.toNat % 128 = 0x6F → exec (.scalarInstruction e w) s =
      .next (c.jump s (c.se.pc + BitVec.ofInt 64 (immJ w.toNat)) (c.se.setReg (rvRd w.toNat) (c.se.pc + 4)))) ∧
    (w.toNat % 128 = 0x67 → rvF3 w.toNat = 0 → exec (.scalarInstruction e w) s =
      .next (c.jump s ((c.rs1 w + BitVec.ofInt 64 (immI w.toNat)) &&& ~~~1)
        (c.se.setReg (rvRd w.toNat) (c.se.pc + 4)))) ∧
    (w.toNat % 128 = 0x63 → rvF3 w.toNat = 0 → c.rs1 w = c.rs2 w → exec (.scalarInstruction e w) s =
      .next (c.jump s (c.se.pc + BitVec.ofInt 64 (immB w.toNat)) c.se)) ∧
    (w.toNat % 128 = 0x63 → rvF3 w.toNat = 0 → c.rs1 w ≠ c.rs2 w → exec (.scalarInstruction e w) s =
      .next (c.retire s 4 c.se)) ∧
    (∀ bs, w.toNat % 128 = 0x03 → rvF3 w.toNat < 4 →
      c.load (c.rs1 w + BitVec.ofInt 64 (immI w.toNat)).toNat (2 ^ rvF3 w.toNat) = .ok bs →
      exec (.scalarInstruction e w) s =
        .next (c.retire s 4 (c.se.setReg (rvRd w.toNat) (sx (8 * 2 ^ rvF3 w.toNat) (leNat bs))))) ∧
    (w.toNat % 128 = 0x23 → rvF3 w.toNat < 4 →
      c.storeFault (c.rs1 w + BitVec.ofInt 64 (immS w.toNat)).toNat (2 ^ rvF3 w.toNat) = none →
      ∃ t, exec (.scalarInstruction e w) s = .next (c.retire t 4 ((t.core c.i c.p).ses.getD c.k {})) ∧
        t = c.store s (c.rs1 w + BitVec.ofInt 64 (immS w.toNat)).toNat
          (leBytes (2 ^ rvF3 w.toNat) (c.rs2 w).toNat)) ∧
    (w.toNat % 128 = 0x0F → rvF3 w.toNat = 0 → exec (.scalarInstruction e w) s = .next (c.retire s 4 c.se)) ∧
    (w.toNat % 128 = 0x0F → rvF3 w.toNat = 1 → exec (.scalarInstruction e w) s =
      .next (c.retire s 4 { c.se with code := c.core.cmem }))) ∧
  ∀ (e : SeRef) (w : W32) (s : State) (c : SCtx), w.toNat % 4 ≠ 3 → SeReady 2 (w.toNat % 2 ^ 16) e s c →
    (∀ x, expand (w.toNat % 2 ^ 16) = some x → exec (.scalarInstruction e w) s = .next (c.run s x 2)) ∧
    (expand (w.toNat % 2 ^ 16) = none → exec (.scalarInstruction e w) s = .next (c.trap s 2 (BitVec.ofNat 64 (w.toNat % 2 ^ 16))))

/-- When mtvec is 0, a trap ends the engine as faulted and records mcause[7:0]. Otherwise the engine goes to mtvec,
with the trapping program counter in mepc, the cause in mcause and the trap value in mtval (R115, spec/03 vector
scalar.md). -/
def Obligations.ScalarTrap : Prop :=
  ∀ (c : SCtx) (s : State) (cause : Nat) (tval : W64),
    (c.se.csrs.mtvec = 0 → c.trap s cause tval = c.put s { c.se with mode := .faulted, cause := cause % 256 }) ∧
    (c.se.csrs.mtvec ≠ 0 → ∃ st, c.trap s cause tval = c.put s { c.se with
      pc := c.se.csrs.mtvec &&& ~~~3
      csrs := { c.se.csrs with
        mepc := c.se.pc, mcause := BitVec.ofNat 64 cause, mtval := tval, mstatus := st } })

/-- A write to x0 leaves the engine as it was and x0 reads zero; a write to another register reads back there and
leaves every other register. That x0 is hard-wired is the RISC-V standard's (log entry 15) (R113, spec/03 vector
scalar.md). -/
def Obligations.ScalarRegisterZero : Prop :=
  ∀ (e : Se) (v : W64), e.setReg 0 v = e ∧ e.reg 0 = 0 ∧
    ∀ r, 0 < r → r < 32 → (e.setReg r v).reg r = v ∧ ∀ j, j ≠ r → (e.setReg r v).reg j = e.reg j

/-- A store of n bytes inside the binding's core memory makes exactly those bytes read as stored, every other byte of
the binding's core memory reads as before, and so does every other core of the instance and every other instance;
general registers and program counters of the core's scalar engines stay (R113, R114, R187, spec/03 vector scalar.md).
-/
def Obligations.ScalarStoreFrame : Prop :=
  ∀ (c : SCtx) (s : State) (a : Nat) (bs : Bytes), s.Inv → c.i < 8 → c.p < 6 →
    (∀ k, c.q = some k → k < 4) → a + bs.length ≤ bindingSize c.q →
    (∀ x, x < bindingSize c.q → ((c.store s a bs).core c.i c.p).readCm c.q x 1 =
      if a ≤ x ∧ x < a + bs.length then [bs.getD (x - a) 0] else (s.core c.i c.p).readCm c.q x 1) ∧
    (∀ i p, (i ≠ c.i ∨ p ≠ c.p) → (c.store s a bs).core i p = s.core i p) ∧
    ∀ k, (((c.store s a bs).core c.i c.p).ses.getD k {}).x = ((s.core c.i c.p).ses.getD k {}).x ∧
      (((c.store s a bs).core c.i c.p).ses.getD k {}).pc = ((s.core c.i c.p).ses.getD k {}).pc

/-- On a live virtual device: a doorbell moves the tail of its ring; a write of a head register takes the new head
over (and lets events that waited for room go out); RING_ENABLE starts the rings when they pass their checks and the
device may use the host, and otherwise sets CFG_ERR; RING_DISABLE stops the native ring when the device may be
disabled; FE_STREAM_RESUME clears the lost submission read, resumes the stream and writes what waits. A vector of a
live device that has accumulated interrupts is sent when its coalescing time passes; a masked vector is unmasked; a
draining stream with an empty queue becomes free and the STREAM_DESTROY that waits for it, if any, ends (R329, R331,
R335, R351, R353, R355, R356, R357, R363, R447, spec/08 craene queues.md). -/
def Obligations.RingCommands : Prop :=
  (∀ (s : State) (vd : Nat), (s.vd vd).live = true →
    (∀ tail, exec (.feDoorbell vd tail) s = .next (s.doorbell vd 0 tail.toNat)) ∧
    (∀ ring tail, (s.vd vd).procRing ring = true → exec (.feNoelDb vd ring tail) s = .next (s.doorbell vd ring tail.toNat)) ∧
    (∀ head, exec (.feCqHead vd head) s = .next (s.onRing vd 0 fun r => { r with cqHead := bitsOf head 15 0 })) ∧
    (∀ head, exec (.feEqHead vd head) s =
      .next ((s.onFe vd fun e => { e with eq := { e.eq with head := bitsOf head 11 0 } }).flushEvents vd)) ∧
    (∀ head, exec (.feFqHead vd head) s =
      .next (s.onFe vd fun e => { e with fq := { e.fq with head := bitsOf head 11 0 }, fqFull := none })) ∧
    (∀ ring head, (s.vd vd).procRing ring = true →
      exec (.feNoelCqHead vd ring head) s = .next (s.onRing vd ring fun r => { r with cqHead := bitsOf head 11 0 })) ∧
    ((s.vd vd).ringsOn = false → (s.vd vd).fe.ringsOk = true → (s.vd vd).hostOpen = true →
      exec (.ringEnable vd) s = .next (s.enableRings vd)) ∧
    ((s.vd vd).ringsOn = false → ((s.vd vd).fe.ringsOk = false ∨ (s.vd vd).hostOpen = false) →
      exec (.ringEnable vd) s = .next (s.onFe vd fun e => { e with cfgErr := true })) ∧
    ((s.vd vd).ringsOn = true → (s.vd vd).mayDisable = true → exec (.ringDisable vd) s =
      .next ((s.onRing vd 0 fun r => { r with on := false, fetched := [] }).onStream vd 0 fun t => { t with
        state := .free })) ∧
    (∀ value, s.frontUp vd = true → (s.vd vd).ringsOn = true → (s.vd vd).fe.frozen = false →
      exec (.feStreamResume vd value) s =
        .next (((s.onFe vd fun e => { e with fetchLost := false }).resumeStream vd (bitsOf value 7 0)).flushEvents vd))) ∧
  ∀ (s : State) (vd n : Nat),
    ((s.vd vd).live = true → 0 < ((s.vd vd).fe.vectors.getD n {}).acc →
      exec (.msixCoalesceExpiry vd n) s = .next (s.sendVector vd n)) ∧
    ((s.vd vd).live = true → ((s.vd vd).fe.vectors.getD n {}).masked = true →
      exec (.msixUnmask vd n) s = .next (s.unmask vd n)) ∧
    (s.frontUp vd = true → ((s.vd vd).stream n).state = .draining → ((s.vd vd).stream n).queue = [] →
      (s.vd vd).fe.frozen = false → ∃ t, exec (.streamFreed vd n) s = .next t ∧
        (t = (s.freeStream vd n).endDestroys vd ∨
          ∃ k ∈ ((((s.freeStream vd n).endDestroys vd).vd vd).stream 0).queue, k.op = 2 ∧ k.phase = .issued ∧
            fieldAt k.desc 16 1 = n ∧ t = ((s.freeStream vd n).endDestroys vd).endCtl ⟨vd, 0, k.id⟩
              (((s.freeStream vd n).endDestroys vd).homeSite vd) stOk 0))

/-- On an open ring: a read of posted slots whose ring page is mapped joins the slots to those fetched; a failed read
whose status fits the ring's mapping sets the lost-fetch state, writes event 0x06 and raises an exception; a fetched
descriptor whose header passes its checks is placed when its stream has fewer than 64 commands, and one that fails
them is refused with its record (R331, R332, R333, R339, R353, spec/08 craene queues.md). -/
def Obligations.SubmissionAndPlacement : Prop :=
  ∀ (s : State) (vd ring : Nat), RingOpen s vd ring →
    (∀ slots b, slots ≠ [] → slots.length ≤ 64 → slots.length ≤ ((s.vd vd).ring ring).unreadSlots →
      s.ringAddr vd ring (((s.vd vd).ring ring).sqBase +
        64 * ((((s.vd vd).ring ring).sqHead + ((s.vd vd).ring ring).fetched.length) % 4096)) 1 = .ok b →
      exec (.submissionRead vd ring slots) s = .next (s.onRing vd ring fun r => { r with
        fetched := r.fetched ++ slots.zipIdx.map fun (b, k) =>
          ((r.sqHead + r.fetched.length + k) % 4096, padTo 64 b) })) ∧
    (∀ st, 0 < ((s.vd vd).ring ring).unreadSlots →
      s.ringAddr vd ring (((s.vd vd).ring ring).sqBase +
        64 * ((((s.vd vd).ring ring).sqHead + ((s.vd vd).ring ring).fetched.length) % 4096)) 1 = .error st →
      exec (.fetchLost vd ring st) s =
        .next (((s.onFe vd fun e => { e with fetchLost := true }).event vd (s.homeSite vd) 0x06 0 st.toNat).vdException vd
          0 st)) ∧
    (∀ slot desc rest st, ((s.vd vd).ring ring).fetched = (slot, desc) :: rest →
      ((s.vd vd).ring ring).canReserve = true → bitsAt desc 4 0 0 = 0 →
      (s.vd vd).header ring desc (((rest.head?).map (·.2)).getD []) false = .refuse st →
      exec (.descriptorPlace vd ring) s = .next ((s.passSlots vd ring 1).refuseDesc vd ring slot desc st)) ∧
    (∀ slot desc rest h, ((s.vd vd).ring ring).fetched = (slot, desc) :: rest →
      ((s.vd vd).ring ring).canReserve = true → bitsAt desc 4 0 0 = 0 →
      (s.vd vd).header ring desc (((rest.head?).map (·.2)).getD []) false = h → (∀ st, h ≠ .refuse st) →
      ((s.vd vd).stream (fieldAt desc 2 1)).queue.length < 64 →
      exec (.descriptorPlace vd ring) s =
        .next ((s.passSlots vd ring 1).place vd ring slot desc (((rest.head?).map (·.2)).getD []) false h))

/-- A placed command that is next on a starting stream becomes ready once its waits are met, with its label's class,
budget set and deadline; a ready one that may be issued, and that no earlier command competes with, is issued; an
issued one whose work is over ends; one past its limit ends with TIMEOUT; the completion record of an ended command is
written when it is due; FENCE_REEVALUATE lets a placed command with waits read its fence words anew; SCALAR_RUN starts
the idle scalar engines that its command holds (R141, R297, R342, R345, R353, R397, R398, spec/08 craene queues.md).
-/
def Obligations.CommandLife : Prop :=
  ∀ (c : CmdRef) (s : State) (j : Job), s.job? c = some j →
    (∀ t, j.k.phase = .placed → ((s.vd c.vd).stream c.stream).starts = true →
      ((s.vd c.vd).stream c.stream).next c.stream j.k = true → j.k.Free → (s.vd c.vd).fe.frozen = false →
      (s.site j.i).up = true → ((({ j with kind := .frontEnd } : Job).waitsMet j.k.waits).run s) = (.ok true, t) →
      exec (.commandReady c) s = .next (t.onCmd c fun k => { k with
        phase := .ready, readyTime := (s.site j.i).time, got := [], lab := (s.vd c.vd).label k.label })) ∧
    (c.stream ≠ 0 → j.k.phase = .ready → j.issuable s = true → s.outranked j c = false →
      exec (.commandIssue c) s = .next (s.issue j c)) ∧
    (j.k.phase = .issued → j.k.forwarded = false → s.workOver j c = true → (s.site j.i).up = true → j.k.saved = false →
      exec (.commandEnd c) s = .next (s.endRun j c)) ∧
    (j.k.phase = .issued → j.k.finalWr = false → c.stream ≠ 0 → j.k.forwarded = false → j.k.saved = false →
      s.pausedAt j = false → exec (.commandTimeout c) s = .next (s.endWith c stTimeout (s.site j.i).time)) ∧
    (∀ k, s.cmd? c = some k → k.phase = .placed → k.asks = [] → k.waits ≠ [] →
      exec (.fenceReevaluate c) s = .next (s.onCmd c fun k => { k with got := [] })) ∧
    (∀ k, s.cmd? c = some k → s.recordDue c k = true → (s.site (s.homeSite c.vd)).up = true → k.home = none →
      exec (.completionRecordWrite c) s = .next (s.recordOf c k)) ∧
    (j.k.live 0x102 = true → j.runs s = true → exec (.scalarRun c) s = .next (s.onCore j.i j.p fun k => { k with
      ses := k.ses.map fun e => if e.cmd = some c ∧ e.mode = .idle then e.start j.k.desc k.cmem else e }))

/-- An ended command whose signal waits raises its fence word: a word in a tier of this part takes the maximum of its
value and the signal's, and the command's signal is over; a word in host memory that already holds at least the value
is left alone; a word that lies on another part is raised by a FENCE_SIG packet (R342, R345, R387, R388, R389, spec/08
craene queues.md). -/
def Obligations.FenceSignalRaises : Prop :=
  ∀ (c : CmdRef) (s t : State) (j : Job) (p : Spot), s.job? c = some j → j.k.phase = .ended → j.k.sig = .waiting → j.k.Free →
    (s.vd c.vd).fe.frozen = false → (s.site j.i).up = true →
    ((({ j with kind := .frontEnd } : Job).find (fieldAt j.k.ext 32 8) 4).run s) = (.ok p, t) →
    (∀ b old u, p.cls ≠ .host → t.here? p.dst = some b → b < 8 → t.joined j.i b = true →
      t.raiseWord b p.addr j.slot (fieldAt j.k.ext 40 8) = some (.ok old, u) →
      exec (.fenceSignal c) s =
        .next (u.signalled { j with kind := .frontEnd } old (fieldAt j.k.ext 40 8) (fieldAt j.k.ext 32 8))) ∧
    (∀ w, p.cls = .host → (t.site (t.homeSite c.vd)).atomicOps = true → gotRun j.k.got p.addr 8 = some w →
      fieldAt j.k.ext 40 8 ≤ leNat w → exec (.fenceSignal c) s =
        .next (t.signalled { j with kind := .frontEnd } (leNat w) (fieldAt j.k.ext 40 8) (fieldAt j.k.ext 32 8))) ∧
    (p.cls ≠ .host → t.here? p.dst = none → exec (.fenceSignal c) s =
      .next ((t.onCmd c fun k => { k with
        sig := .sent
        unsent := [{ kind := .fence, dst := p.dst, addr := p.addr, len := 8, slot := j.slot, priv := true
                     payload := leBytes 8 (fieldAt j.k.ext 40 8), epoch := t.epochOf c.vd }] }).pump c))

/-- A ready control command of a running slice (NOP, STREAM_CREATE, STREAM_DESTROY, STREAM_ABORT, SLICE_INFO,
NOEL_RING_SET, ASPACE_CREATE, ASPACE_DESTROY, OBJ_CREATE, OBJ_FREE, MAP, UNMAP, FAULT_RESOLVE) whose body runs to an
end, with nothing left to send, ends with the body's status and detail, its control effects taken; STREAM_DESTROY,
ASPACE_DESTROY, OBJ_FREE, MAP and UNMAP may instead be issued and wait for the drain or the acknowledgement that ends
them (R337, R345, R353, R370, R380, R383, spec/08 craene queues.md). -/
def Obligations.ControlCommands : Prop :=
  ∀ (c : CmdRef) (s t : State) (j : Job) (st : W16) (d : Nat),
    (NothingOpen j c t →
    (CtlReady c 0 s j → (nopRun j).run s = (.ok (.done st d), t) →
      exec (.nop c) s = .next (t.endCtl c j.i st d)) ∧
    (CtlReady c 1 s j → (streamCreateRun j).run s = (.ok (.done st d), t) →
      exec (.streamCreate c) s = .next (t.endCtl c j.i st d)) ∧
    (CtlReady c 2 s j → (streamDestroyRun j).run s = (.ok (.done st d), t) →
      exec (.streamDestroy c) s = .next (t.endCtl c j.i st d)) ∧
    (CtlReady c 3 s j → (streamAbortRun j).run s = (.ok (.done st d), t) →
      exec (.streamAbort c) s = .next (t.endCtl c j.i st d)) ∧
    (CtlReady c 4 s j → (sliceInfoRun j).run s = (.ok (.done st d), t) →
      exec (.sliceInfo c) s = .next (t.endCtl c j.i st d)) ∧
    (CtlReady c 5 s j → (noelRingSetRun j).run s = (.ok (.done st d), t) →
      exec (.noelRingSet c) s = .next (t.endCtl c j.i st d)) ∧
    (CtlReady c 0x10 s j → (aspaceCreateRun j).run s = (.ok (.done st d), t) →
      exec (.aspaceCreate c) s = .next (t.endCtl c j.i st d)) ∧
    (CtlReady c 0x11 s j → (aspaceDestroyRun j).run s = (.ok (.done st d), t) →
      exec (.aspaceDestroy c) s = .next (t.endCtl c j.i st d)) ∧
    (CtlReady c 0x12 s j → (objCreateRun j).run s = (.ok (.done st d), t) →
      exec (.objCreate c) s = .next (t.endCtl c j.i st d)) ∧
    (CtlReady c 0x13 s j → (objFreeRun j).run s = (.ok (.done st d), t) →
      exec (.objFree c) s = .next (t.endCtl c j.i st d)) ∧
    (CtlReady c 0x14 s j → (mapRun j).run s = (.ok (.done st d), t) →
      exec (.map c) s = .next (t.endCtl c j.i st d)) ∧
    (CtlReady c 0x15 s j → (unmapRun j).run s = (.ok (.done st d), t) →
      exec (.unmap c) s = .next (t.endCtl c j.i st d)) ∧
    (CtlReady c 0x16 s j → (faultResolveRun j).run s = (.ok (.done st d), t) →
      exec (.faultResolve c) s = .next (t.endCtl c j.i st d))) ∧
    (CtlReady c 2 s j → (streamDestroyRun j).run s = (.ok .waits, t) → exec (.streamDestroy c) s =
      .next (t.onCmd c fun k => { k with phase := .issued, wasIssued := true })) ∧
    (CtlReady c 0x11 s j → (aspaceDestroyRun j).run s = (.ok .waits, t) → exec (.aspaceDestroy c) s =
      .next (t.onCmd c fun k => { k with phase := .issued, wasIssued := true })) ∧
    (CtlReady c 0x13 s j → (objFreeRun j).run s = (.ok .waits, t) → exec (.objFree c) s =
      .next (t.onCmd c fun k => { k with phase := .issued, wasIssued := true })) ∧
    (CtlReady c 0x14 s j → (mapRun j).run s = (.ok .waits, t) → exec (.map c) s =
      .next (t.onCmd c fun k => { k with phase := .issued, wasIssued := true })) ∧
    (CtlReady c 0x15 s j → (unmapRun j).run s = (.ok .waits, t) → exec (.unmap c) s =
      .next (t.onCmd c fun k => { k with phase := .issued, wasIssued := true }))

/-- A ready NOP with every reserved byte of its body zero ends OK with DETAIL 0, its end time the local time; with a
reserved byte set it ends BAD_DESCRIPTOR with DETAIL the lowest such byte (R337, R339, R345, spec/08 craene
queues.md). -/
def Obligations.NopResult : Prop :=
  ∀ (c : CmdRef) (s : State) (j : Job), CtlReady c 0 s j → NothingOpen j c s →
    (anySet (j.k.desc.drop 16 |>.take 48) = false → exec (.nop c) s = .next (s.endCtl c j.i stOk 0)) ∧
    ∀ n, firstBad (reservedSet j.k.desc [(16, 48)]) = some n → 16 ≤ n ∧ n < 64 ∧ fieldAt j.k.desc n 1 ≠ 0 ∧
      (∀ m, 16 ≤ m → m < n → fieldAt j.k.desc m 1 = 0) ∧ exec (.nop c) s = .next (s.endCtl c j.i stBadDescriptor n)

/-- On a live device, a write of FE_DOORBELL while the native ring is enabled moves the tail when it does not lower
the number of posted slots, counted modulo 4,096 from the head, and changes nothing else; a write that would lower it,
and any write while the ring is disabled, sets BAD_DB and changes nothing else (R331, R357, spec/08 craene queues.md).
-/
def Obligations.DoorbellAccepted : Prop :=
  ∀ (s : State) (vd : Nat) (tail : BitVec 12), (s.vd vd).live = true →
    (((s.vd vd).ring 0).on = true →
      (((s.vd vd).ring 0).tail + 4096 - ((s.vd vd).ring 0).sqHead) % 4096 ≤
        (tail.toNat + 4096 - ((s.vd vd).ring 0).sqHead) % 4096 →
      exec (.feDoorbell vd tail) s = .next (s.onRing vd 0 fun r => { r with tail := tail.toNat })) ∧
    ((((s.vd vd).ring 0).on = false ∨ (tail.toNat + 4096 - ((s.vd vd).ring 0).sqHead) % 4096 <
        (((s.vd vd).ring 0).tail + 4096 - ((s.vd vd).ring 0).sqHead) % 4096) →
      exec (.feDoorbell vd tail) s = .next (s.onFe vd fun e => { e with badDb := true }))

/-- A held access whose translation still fails opens or joins a fault entry, and one that now succeeds is let go; a
batch of unwritten fault entries is written to the fault ring, or lost when the rings are off or the ring stayed full;
a written entry past its limit fails its commands; an invalidation is acknowledged when no older transfer is open, and
one held up past its limit kills the older contexts; an ATS invalidation starts one; an object that may be released is
withdrawn or released (R354, R370, R383, R384, R385, R386, spec/09 objects translation ordering.md). -/
def Obligations.TranslationEvents : Prop :=
  ∀ (s : State) (vd : Nat),
    (∀ (c : CmdRef) j dva access rights, s.job? c = some j → j.k.hold = some (dva, access.toNat) → j.k.fault = none →
      (s.vd c.vd).sp.translate j.asid dva access.toNat c.id = .fault rights →
      exec (.dvaFault c dva access (j.bit s)) s = .next (s.faulted j dva access.toNat rights)) ∧
    (∀ (c : CmdRef) j dva access, s.job? c = some j → j.k.hold = some (dva, access.toNat) → j.k.fault = none →
      (∀ rights, (s.vd c.vd).sp.translate j.asid dva access.toNat c.id ≠ .fault rights) →
      ((s.vd c.vd).ats && (s.hostAt j dva access.toNat).isSome) = false →
      exec (.dvaFault c dva access (j.bit s)) s = .next (s.onCmd c fun k => { k with hold := none })) ∧
    (s.frontUp vd = true → (s.vd vd).fe.frozen = false → ((s.vd vd).sp.faults.filter fun f => !f.written) ≠ [] →
      (s.vd vd).ringsOn = false →
      exec (.faultBatchWrite vd) s = .next (s.loseBatch vd (((s.vd vd).sp.faults.filter fun f => !f.written).take 64))) ∧
    (∀ t, s.frontUp vd = true → (s.vd vd).fe.frozen = false → ((s.vd vd).sp.faults.filter fun f => !f.written) ≠ [] →
      (s.vd vd).ringsOn = true →
      writeBatch vd (((s.vd vd).sp.faults.filter fun f => !f.written).take 64) s = .ok t →
      exec (.faultBatchWrite vd) s = .next t) ∧
    (s.frontUp vd = true → (s.vd vd).fe.fqFull.isSome = true → ((s.vd vd).sp.faults.filter fun f => !f.written) ≠ [] →
      exec (.faultRingFullExpiry vd) s =
        .next (s.loseBatch vd (((s.vd vd).sp.faults.filter fun f => !f.written).take 64))) ∧
    (∀ fid f, (s.vd vd).sp.faults.find? (fun f => decide (f.fid = fid)) = some f → f.written = true →
      s.frontUp vd = true → exec (.faultEntryExpiry vd fid) s = .next (s.failEntry vd f)) ∧
    (∀ k x, (s.vd vd).sp.invals.find? (fun x => decide (x.k = k)) = some x → s.oldTransfers vd x.epoch = false →
      x.cmd = none → exec (.invalidationAck vd k) s = .next (s.acknowledged vd x)) ∧
    (∀ k x, (s.vd vd).sp.invals.find? (fun x => decide (x.k = k)) = some x → s.oldTransfers vd x.epoch = true →
      exec (.invalidationDrain vd k) s = .next (s.killOlder vd x)) ∧
    (∀ bus len, (s.vd vd).live = true → (s.vd vd).ats = true → (s.vd vd).sp.invals.length < 4 →
      exec (.atsInvalidation vd bus len) s = .next (s.invalidate vd none none (some (bus, len)))) ∧
    (∀ n o, (s.vd vd).sp.obj? n = some o → s.frontUp vd = true → o.withdrawn = false →
      (s.vd vd).mayRelease o = true → (s.vd vd).fe.frozen = false →
      exec (.release vd n) s = .next (s.startRelease vd n o)) ∧
    (∀ n o, (s.vd vd).sp.obj? n = some o → s.frontUp vd = true → o.withdrawn = true → o.waitTe = true →
      ((s.vd vd).sp.invals.any fun x => decide (x.obj = some n)) = false →
      exec (.releaseWaitExpiry vd n) s = .next (s.released vd o))

/-- The completion of a read that a command has outstanding hands it the bytes, or fails its access with the status of
R594; a command that waits for the host past its limit fails with HOST_ERROR; a page request answered with success
lets the held access go, and one that fails opens a fault entry (R382, R384, R389, R594, R595, spec/14 ports
surroundings.md). -/
def Obligations.HostAnswers : Prop :=
  ∀ (c : CmdRef) (s : State) (k : Cmd), s.cmd? c = some k →
    (∀ bus a data, k.asks.find? (fun a => decide (a.key = bus) && decide (bus < 2 ^ 64)) = some a →
      data.length = a.len → exec (.hostCompletion c .success bus data) s =
        .next (s.onCmd c fun k => { k with asks := k.asks.erase a, got := (bus, data) :: k.got })) ∧
    (∀ bus a data st x, k.asks.find? (fun a => decide (a.key = bus) && decide (bus < 2 ^ 64)) = some a →
      hostStatus st = some x → exec (.hostCompletion c st bus data) s = .next (s.failAccess c x 0)) ∧
    ((k.asks.any fun a => decide (a.key < 2 ^ 64)) = true →
      exec (.hostCompletionTimeout c) s = .next (s.failAccess c stHostError 0)) ∧
    ∀ j dva need, s.job? c = some j → j.k.hold = some (dva, need) → (s.vd c.vd).pri = true → j.k.fault = none →
      (s.hostAt j dva need).isSome = true →
      exec (.pageRequestResponse c true) s = .next (s.onCmd c fun k => { k with hold := none }) ∧
      exec (.pageRequestResponse c false) s = .next (s.faulted j dva need false)

/-- A request that the port takes completes: a read of a page whose sub-page was written leads to what the checks
found, a read of a sub-page never written leaves the block as the read left it, and a write lands or, on a page whose
move holds it, waits with the move (R228, R229, R230, R231, R233, R244, R248, spec/06 memory tiers.md). -/
def Obligations.TierAccesses : Prop :=
  ∀ (s u : State) (i p ns page off : Nat) (r : MemReq), (s.site i).portOfAddr r.addr = some p →
    (s.site i).takesReq r p = true → splitAddr r.addr = (ns, page, off) →
    (∀ e b f, (s.site i).entry? ns page = some e →
      (s.countStale i r).tierRead i r.addr r.len r.slot r.priv r.engine = (.ok b, u) →
      (((s.site i).tier e.slow).sub (e.ppn * 16 + off / 4096)).version = 0 →
      exec (.memoryRead i r f) s = .next u) ∧
    (∀ e b f, (s.site i).entry? ns page = some e →
      (s.countStale i r).tierRead i r.addr r.len r.slot r.priv r.engine = (.ok b, u) →
      (((s.site i).tier e.slow).sub (e.ppn * 16 + off / 4096)).version ≠ 0 →
      exec (.memoryRead i r f) s =
        .next (u.readFound i r e (if (s.site i).staleReq r then none else r.cmd) f)) ∧
    (∀ x data, data.length = r.len →
      (s.countStale i r).tierWrite i r.addr data r.slot r.priv r.engine none = some (.ok x, u) →
      exec (.memoryWrite i r data) s = .next u) ∧
    (∀ k m data, data.length = r.len →
      (s.countStale i r).tierWrite i r.addr data r.slot r.priv r.engine none = none →
      (s.site i).moveOf ns page = some (k, m) →
      exec (.memoryWrite i r data) s = .next ((s.countStale i r).onSite i fun t => { t with
        moves := t.moves.set k (some { m with held := m.held ++ [(off, data)], slot := r.slot }) }))

/-- A sweep halves every access counter and queues the moves it asks for; CLAIM starts the next valid move on a free
channel when a destination page is free, and gives it up when none is; COPY copies every sub-page of a claimed move
whose source reads cleanly; RE_COPY copies the sub-pages written since, and holds writes once few are left; SWITCH
makes the entry name the destination, runs the held writes and ends the move (R224, R242, R243, R244, R247, R250,
spec/06 memory tiers.md). -/
def Obligations.TierMoves : Prop :=
  ∀ (s : State) (i ch : Nat),
    ((s.site i).up = true → exec (.sweep i) s = .next (s.onSite i (·.sweep))) ∧
    (∀ m rest d, (s.site i).moveQueue = m :: rest → (s.site i).up = true → ch < 4 →
      (s.site i).moves.getD ch none = none → (s.site i).moveValid m = true → (s.site i).destination m = some d →
      exec (.claim i ch) s = .next (s.onSite i (·.startMove ch m d))) ∧
    (∀ m rest, (s.site i).moveQueue = m :: rest → (s.site i).up = true → ch < 4 →
      (s.site i).moves.getD ch none = none → (s.site i).moveValid m = true → (s.site i).destination m = none →
      exec (.claim i ch) s = .next (s.noRoom i m)) ∧
    (∀ m, (s.site i).moveAt ch 1 = some m → (((s.site i).entry? m.ns m.page).map (·.poison)).getD 0 = 0 →
      exec (.copy i ch true) s = .next ((s.onSite i (·.copySubs m (~~~m.bad))).onMove i ch fun m => { m with
        step := 2, todo := m.dirty, dirty := 0 })) ∧
    (∀ m, (s.site i).moveAt ch 2 = some m → dirtyCount m.dirty ≤ 4 →
      exec (.reCopy i ch true) s = .next ((s.onSite i (·.copySubs m (m.todo &&& ~~~m.bad))).onMove i ch fun m => { m with
        step := 4, todo := m.dirty, dirty := 0 })) ∧
    (∀ m, (s.site i).moveAt ch 2 = some m → 4 < dirtyCount m.dirty → m.rounds + 1 < 8 →
      exec (.reCopy i ch true) s = .next ((s.onSite i (·.copySubs m (m.todo &&& ~~~m.bad))).onMove i ch fun m => { m with
        rounds := m.rounds + 1, todo := m.dirty, dirty := 0 })) ∧
    (∀ m, (s.site i).moveAt ch 4 = some m →
      exec (.switch i ch) s =
        .next ((((s.onSite i (·.switchMove ch m)).runHeld i m).bump i rTedMoves Fld.tedMovesDone).moveDone i m))

/-- A training port whose report covers its channels comes up with what it found, is absent when nothing was wired at
start-up, and is held out of service when a device has another organisation; a port not ready in time loses its
channels; refresh and a PHY's master request leave the block's state alone, since their effect is timing; GO starts a
traffic generator on a channel under test, and is refused elsewhere; STOP ends it, and a pattern that finishes without
errors clears BUSY (R222, R235, R236, R237, R240, R257, R258, R259, spec/06 memory tiers.md). -/
def Obligations.MemoryPorts : Prop :=
  ∀ (s : State) (i ch port : Nat),
    exec (.refresh i ch) s = .next s ∧ exec (.phyMasterRequest i ch) s = .next s ∧
    (∀ t, port < 6 → (s.site i).pins.coldRstN = true → (s.site i).fld (rMpPort port) Fld.mpPortState = 1 →
      t.channels.length = (portChannels port).2 → (s.site i).domState (domPort port) ≠ 2 →
      (((t.channels.all fun o => decide (o = .unwired)) = true ∧ (s.site i).fld rPwrBoot Fld.pwrBootStep < 8 →
        exec (.memoryPortTraining i port t) s =
          .next ((s.setFld i (rMpPort port) Fld.mpPortState 0).setFld i (rHltDom (domPort port)) Fld.hltDomState 5)) ∧
      (¬((t.channels.all fun o => decide (o = .unwired)) = true ∧ (s.site i).fld rPwrBoot Fld.pwrBootStep < 8) →
        (t.organisationOk = false → exec (.memoryPortTraining i port t) s = .next (s.onSite i (·.setPort port 5 4))) ∧
        (t.organisationOk = true → (2 ≤ port ∨ (8 ≤ t.readLatency ∧ t.readLatency ≤ 64)) →
          exec (.memoryPortTraining i port t) s = .next (s.trainPort i port t))))) ∧
    (port < 6 → (s.site i).fld (rMpPort port) Fld.mpPortState = 1 → exec (.phyReadyTimeout i port) s =
      .next (((((List.range (portChannels port).2).map ((portChannels port).1 + ·)).filter (s.site i).chServes).foldl
        (fun s c => (s.setFld i (rMpCh c) Fld.mpChState 3).channelLost i c 5) s).onSite i (·.setPort port 5 4))) ∧
    (∀ value, ch < 80 → (s.site i).pins.coldRstN = true → bitOf value 31 = true →
      (((s.site i).chState ch ≠ 5 ∨ 6 ≤ bitsOf value 2 0) → exec (.go i ch value) s =
        .next ((s.onSite i fun t => t.setReg (rMpTgCtrl ch)
          ((t.reg (rMpTgCtrl ch) &&& ~~~(0xFFFF07 : W32)) ||| (value &&& 0xFFFF07))).setFld i (rMpTgCtrl ch)
            Fld.mpTgCtrlRefused 1)) ∧
      ((s.site i).chState ch = 5 → bitsOf value 2 0 < 6 → ∃ t, exec (.go i ch value) s = .next t ∧
        (i < 8 → s.Inv → t.fld i (rMpTgCtrl ch) Fld.mpTgCtrlBusy = 1 ∧ t.fld i (rMpTgCtrl ch) Fld.mpTgCtrlRefused = 0 ∧
          (t.site i).reg (rMpTgFailAddr ch) = 0))) ∧
    (ch < 80 → exec (.stop i ch) s = .next (s.setFld i (rMpTgCtrl ch) Fld.mpTgCtrlBusy 0)) ∧
    (∀ r : TgReport, ch < 80 → (s.site i).fld (rMpTgCtrl ch) Fld.mpTgCtrlBusy ≠ 0 → r.errors = 0 →
      exec (.tgPatternDone i ch r) s = .next (s.setFld i (rMpTgCtrl ch) Fld.mpTgCtrlBusy 0))

/-- The page taken is free; among the tier channels, counted cyclically from the one that follows the channel of the
page last taken, it lies on the first channel that has a free page, and it is the lowest free page there. No page is
taken only when no page of the tier is free (R224). -/
def Obligations.PageChoice : Prop :=
  ∀ (t : Site) (slow : Bool), 0 < (t.tier slow).channels.length → (t.tier slow).lastCh < (t.tier slow).channels.length →
    (∀ p, t.drawPage slow = some p → t.pageFree slow p = true ∧ ∀ q, t.pageFree slow q = true →
      (p + 2 * (t.tier slow).channels.length - 1 - (t.tier slow).lastCh) % (t.tier slow).channels.length <
          (q + 2 * (t.tier slow).channels.length - 1 - (t.tier slow).lastCh) % (t.tier slow).channels.length ∨
        (p % (t.tier slow).channels.length = q % (t.tier slow).channels.length ∧ p ≤ q)) ∧
    (t.drawPage slow = none → ∀ q, t.pageFree slow q = false)

/-- A write into a tier's stored bytes makes every byte of its range read as written and leaves every other byte as it
was, and keeps the tier's bytes in the canonical form. The canonical form is the model's own (R226, R228, R231,
spec/06 memory tiers.md). -/
def Obligations.TierReadAfterWrite : Prop :=
  ∀ (m : Mem) (a : Nat) (bs : Bytes), m.wf = true → (m.write a bs).wf = true ∧
    (m.write a bs).read a bs.length = bs ∧
    ∀ x, (x < a ∨ a + bs.length ≤ x) → (m.write a bs).read x 1 = m.read x 1

/-- An issued command of the tensor array, the engine zoo, the reduction engine, the DMA engines or the fabric
(TENSOR_TILE, ATTENTION, SELECT, GATHER_SCATTER, LAYOUT, CODEC, ROUTE, REDUCE, REDUCE_ARM, DMA_COPY, DMA_FILL,
FAB_ATOMIC, LOFT_ACQUIRE, LOFT_RELEASE, MCAST_GROUP_SET, MCAST_WRITE, COLLECTIVE) whose body runs through with status
OK on an engine that runs concludes with that status, its engine field and detail, in the state its body left (R139,
R141, R181, R397, spec/04 engine zoo.md, spec/02 tensor array.md). -/
def Obligations.EngineCommands : Prop :=
  ∀ (c : CmdRef) (s t : State) (j : Job) (eng : W16) (d : Nat),
    (RunReady c 0x100 s j → (tensorTileRun j).run s = (.ok (stOk, eng, d), t) →
      exec (.tensorTile c) s = .next (j.conclude t stOk eng d)) ∧
    (RunReady c 0x101 s j → (attentionRun j).run s = (.ok (stOk, eng, d), t) →
      exec (.attention c) s = .next (j.conclude t stOk eng d)) ∧
    (RunReady c 0x103 s j → (selectRun j).run s = (.ok (stOk, eng, d), t) →
      exec (.select c) s = .next (j.conclude t stOk eng d)) ∧
    (RunReady c 0x104 s j → (gatherScatterRun j).run s = (.ok (stOk, eng, d), t) →
      exec (.gatherScatter c) s = .next (j.conclude t stOk eng d)) ∧
    (RunReady c 0x105 s j → (layoutRun j).run s = (.ok (stOk, eng, d), t) →
      exec (.layout c) s = .next (j.conclude t stOk eng d)) ∧
    (RunReady c 0x106 s j → (codecRun j).run s = (.ok (stOk, eng, d), t) →
      exec (.codec c) s = .next (j.conclude t stOk eng d)) ∧
    (RunReady c 0x110 s j → (routeRun j).run s = (.ok (stOk, eng, d), t) →
      exec (.route c) s = .next (j.conclude t stOk eng d)) ∧
    (RunReady c 0x111 s j → (reduceRun j).run s = (.ok (stOk, eng, d), t) →
      exec (.reduce c) s = .next (j.conclude t stOk eng d)) ∧
    (RunReady c 0x112 s j → (Job.armBody j).run s = (.ok (stOk, eng, d), t) →
      exec (.reduceArm c) s = .next (j.conclude t stOk eng d)) ∧
    (RunReady c 0x200 s j → (dmaCopyRun j).run s = (.ok (stOk, eng, d), t) →
      exec (.dmaCopy c) s = .next (j.conclude t stOk eng d)) ∧
    (RunReady c 0x201 s j → (dmaFillRun j).run s = (.ok (stOk, eng, d), t) →
      exec (.dmaFill c) s = .next (j.conclude t stOk eng d)) ∧
    (RunReady c 0x300 s j → (fabAtomicRun j).run s = (.ok (stOk, eng, d), t) →
      exec (.fabAtomic c) s = .next (j.conclude t stOk eng d)) ∧
    (RunReady c 0x301 s j → (loftAcquireRun j).run s = (.ok (stOk, eng, d), t) →
      exec (.loftAcquire c) s = .next (j.conclude t stOk eng d)) ∧
    (RunReady c 0x302 s j → (loftReleaseRun j).run s = (.ok (stOk, eng, d), t) →
      exec (.loftRelease c) s = .next (j.conclude t stOk eng d)) ∧
    (RunReady c 0x303 s j → (mcastGroupSetRun j).run s = (.ok (stOk, eng, d), t) →
      exec (.mcastGroupSet c) s = .next (j.conclude t stOk eng d)) ∧
    (RunReady c 0x304 s j → (mcastWriteRun j).run s = (.ok (stOk, eng, d), t) →
      exec (.mcastWrite c) s = .next (j.conclude t stOk eng d)) ∧
    (RunReady c 0x305 s j → (collectiveRun j).run s = (.ok (stOk, eng, d), t) →
      exec (.collective c) s = .next (j.conclude t stOk eng d))

/-- At a tile or work-unit boundary a unit under pre-emption is saved, and otherwise a pending mode change is made; a
quantum that ends pre-empts in favour of another slice of the group with ready work, or starts anew; an idle slice
yields to one with ready work; a switch window brings its slice in; zeroing that is done clears the banks' clearing
bits. On a running instance the end of a budget's window judges the guarantees on it and starts it afresh; a write of
SCH_SNAP with GO set copies the accounting it names, and clears it as well when CLEAR is set (R31, R400, R401, R403,
R404, R413, R416, R419, spec/10 scheduling regulation.md). -/
def Obligations.UnitBoundaries : Prop :=
  (∀ (s : State) (i p q : Nat), s.unitRow i p q = true →
    (∀ start v, ((s.core i p).unit (s.unitQ i p q)).preempt = some (start, v) →
      exec (.tileBoundary i p q) s = .next (s.saveUnit i p (s.unitQ i p q) start v)) ∧
    (∀ m, ((s.core i p).unit (s.unitQ i p q)).preempt = none → (s.core i p).pendQuad = some m →
      (s.site i).fld (rPwrCore p) Fld.pwrCoreState = 0 → exec (.tileBoundary i p q) s = .next (s.setMode i p m)) ∧
    (∀ kind start v, kind ≠ .dma → kind ≠ .router → kind ≠ .reduction → kind ≠ .fabric → kind ≠ .frontEnd →
      (s.core i p).array.getD ((s.unitQ i p q).getD 0) none = none →
      ((s.core i p).unit (s.unitQ i p q)).preempt = some (start, v) →
      exec (.workUnitBoundary i p q kind) s = .next (s.saveUnit i p (s.unitQ i p q) start v)) ∧
    (∀ u : ReelUnit, (s.core i p).unit (s.unitQ i p q) = u → u.reel = true → u.resident.isSome = true → u.preempt = none →
      u.switching = none →
      (∀ v, u.others.find? (fun v => s.hasReady v i p (s.unitQ i p q)) = some v →
        exec (.quantumExpiry i p q) s = .next (s.preempt i p (s.unitQ i p q) v)) ∧
      (u.others.find? (fun v => s.hasReady v i p (s.unitQ i p q)) = none → exec (.quantumExpiry i p q) s =
        .next (s.onUnit i p (s.unitQ i p q) fun u => { u with quantumStart := (s.site i).time })) ∧
      (∀ r v, u.resident = some r → s.hasReady r i p (s.unitQ i p q) = false → s.issuedOn r i p (s.unitQ i p q) = [] →
        u.others.find? (fun v => s.hasReady v i p (s.unitQ i p q)) = some v →
        exec (.reelIdleYield i p q) s = .next (s.preempt i p (s.unitQ i p q) v))) ∧
    (∀ v, ((s.core i p).unit (s.unitQ i p q)).switching = some v →
      exec (.switchWindow i p q) s = .next (s.resume i p (s.unitQ i p q) v)) ∧
    exec (.zeroingDone i p q) s = .next (s.onCore i p fun c => { c with
      clearing := if c.quad then c.clearing &&& ~~~(BitVec.ofNat 4 (2 ^ q)) else 0 })) ∧
  ∀ (s : State) (i : Nat), (s.site i).up = true →
    (∀ slice bset path m b, (s.site i).budget? slice bset path = some b →
      exec (.budgetWindowEnd i slice bset path m) s = .next (s.endWindow i slice bset path b m)) ∧
    (∀ value, bitOf value 31 = true → exec (.snap i value) s = .next (s.snapshot i value (bitOf value 30))) ∧
    (∀ value, bitOf value 31 = true → bitOf value 30 = true →
      exec (.snapClear i value) s = .next (s.snapshot i value true))

/-- A request packet that passed the transport's checks is served: READ_REQ answers with the bytes read, WRITE stores
its payload and is acknowledged, ATOMIC carries out its operations and answers with the old values when it asks for
them, FENCE_SIG raises the fence word and says whether its value was lower, CONTRIB adds to its landing window, and
CONTROL is handed to its slice (R279, R280, R281, R287, R288, R295, R296, R308, R387, spec/07 drioskot fabric.md). -/
def Obligations.RequestPackets : Prop :=
  ∀ (s : State) (i : Nat) (p : Pkt) (h : Hdr) (net : Transport),
    (∀ priv b u, Accepted s i 1 p h net → (s.onNet i fun _ => net).targetOf i h false = .ok priv →
      (((s.onNet i fun _ => net).site i).portHeld h.addr) = false →
      (s.onNet i fun _ => net).tierRead i h.addr h.len h.keyId priv true = (.ok b, u) →
      exec (.readReq i p) s = .next (u.respond i p stOk b)) ∧
    (∀ priv x u, Accepted s i 3 p h net → (s.onNet i fun _ => net).targetOf i h true = .ok priv →
      (s.onNet i fun _ => net).tierWrite i h.addr p.payload h.keyId priv true none = some (.ok x, u) →
      exec (.write i p) s = .next (u.respond i p stOk [])) ∧
    (∀ priv old u, Accepted s i 5 p h net → (s.onNet i fun _ => net).targetOf i h true = .ok priv →
      atomicPacket i h p.payload (if h.op % 8 = 2 then 1 else p.payload.length / atomicWidth (h.op % 8)) 0
        (s.onNet i fun _ => net) = some (.ok old, u) →
      exec (.atomic i p) s = .next (u.respond i p stOk (if 8 ≤ h.op then leBytes (atomicWidth (h.op % 8)) old else []))) ∧
    (∀ priv old u, Accepted s i 7 p h net → (s.onNet i fun _ => net).targetOf i h true = .ok priv →
      (s.onNet i fun _ => net).raiseWord i h.addr h.keyId (fieldAt p.payload 0 8) = some (.ok old, u) →
      exec (.fenceSig i p) s = .next (u.respond i p (if fieldAt p.payload 0 8 < old then stRegression else stOk) [])) ∧
    (∀ v u, Accepted s i 9 p h net → (s.onNet i fun _ => net).sliceOf h.keyId = some v →
      (s.onNet i fun _ => net).contribute i ((h.addr >>> 22) % 2) h.window v (h.addr % 2 ^ 22) ((h.addr >>> 23) % 8)
        p.payload = (u, true) →
      exec (.contrib i p) s = .next (u.respond i p stOk [])) ∧
    (∀ v, Accepted s i 0xB p h net → (s.onNet i fun _ => net).sliceOf h.keyId = some v →
      exec (.control i p) s = .next ((s.onNet i fun _ => net).tookControl i v p))

/-- A response packet that passed the transport's checks and matches an open transaction of the current generation
closes that transaction, and its content goes to the command that waits for it: the bytes of READ_RSP, the old values
of ATOMIC_RSP, the acknowledgement of WRITE_ACK, FENCE_ACK, CONTRIB_ACK and CONTROL_ACK; then the command goes on
(R279, R281, R286, R288, R296, R308, R387, spec/07 drioskot fabric.md). -/
def Obligations.ResponsePackets : Prop :=
  ∀ (s u : State) (i : Nat) (p : Pkt) (h : Hdr) (net : Transport) (x : Txn) (c : CmdRef), u = (s.onNet i fun _ => net) →
    x.cmd = some c →
    (Accepted s i 2 p h net → Matched u i h [.read, .fill] x → exec (.readRsp i p) s =
      .next ((((u.closeTxn i x.num).tookRead i h x p.payload).settle i c).pumpSlice c.vd)) ∧
    (Accepted s i 4 p h net → Matched u i h [.write] x → exec (.writeAck i p) s =
      .next ((((u.closeTxn i x.num).acked h x).settle i c).pumpSlice c.vd)) ∧
    (Accepted s i 6 p h net → Matched u i h [.atomic] x → exec (.atomicRsp i p) s =
      .next ((((u.closeTxn i x.num).tookAtomic h x p.payload).settle i c).pumpSlice c.vd)) ∧
    (Accepted s i 8 p h net → Matched u i h [.fence] x → exec (.fenceAck i p) s =
      .next ((((u.closeTxn i x.num).tookFence i h x).settle i c).pumpSlice c.vd)) ∧
    (Accepted s i 0xA p h net → Matched u i h [.contrib] x → exec (.contribAck i p) s =
      .next ((((u.closeTxn i x.num).acked h x).settle i c).pumpSlice c.vd)) ∧
    (Accepted s i 0xC p h net → Matched u i h [.control] x → exec (.controlAck i p) s =
      .next ((((u.closeTxn i x.num).tookControlAck i h x p.payload).settle i c).pumpSlice c.vd))

/-- A response packet that passed the transport's checks and whose GEN differs from the current tag of the requesting
engine's domain closes its transaction entry and adds 1 to STALE_GEN, and nothing of it reaches the command; one that
matches no entry is counted there too (R281, R286, spec/07 drioskot fabric.md). -/
def Obligations.StaleResponses : Prop :=
  ∀ (s u : State) (i : Nat) (p : Pkt) (h : Hdr) (net : Transport), u = (s.onNet i fun _ => net) →
    ∀ n kinds (ins : Instr), (n, kinds, ins) ∈ [(2, [TxnKind.read, .fill], Instr.readRsp i p), (4, [.write], .writeAck i p),
        (6, [.atomic], .atomicRsp i p), (8, [.fence], .fenceAck i p), (0xA, [.contrib], .contribAck i p),
        (0xC, [.control], .controlAck i p)] →
      Accepted s i n p h net →
      (∀ x, (u.site i).net.txns.find? (fun x => decide (x.num = h.txn) && decide (x.dst = h.src) &&
          decide (x.slot = h.keyId) && kinds.contains x.kind) = some x → h.gen ≠ (u.site i).gen x.dom →
        exec ins s = .next ((u.closeTxn i x.num).dropped i rFabDrop300 Fld.fabDrop300StaleGen)) ∧
      ((∀ x ∈ (u.site i).net.txns, ¬(x.num = h.txn ∧ x.dst = h.src ∧ x.slot = h.keyId ∧ x.kind ∈ kinds)) →
        exec ins s = .next (u.dropped i rFabDrop300 Fld.fabDrop300StaleGen))

/-- On an active link, the frame that is due is taken over and acknowledged, with credits returned; an older one is
acknowledged again; a damaged one or one beyond the due number is refused; an acknowledgement frees the frames up to
its number; a negative acknowledgement sends the frames from its number again; a credit return adds its credits; and
the loss of a mapped lane marks it bad and trains the link anew. The amount by which FEC_UNCORR rises on a damaged
frame is the model's free value (log entry 33) (R272, R275, R276, R277, spec/07 drioskot fabric.md). -/
def Obligations.LinkFrames : Prop :=
  ∀ (s : State) (i l : Nat), (s.site i).linkUp l = true →
    (∀ seq units, seq % 2 ^ 24 = ((s.site i).link l).rxSeq → exec (.linkFrame i l seq true units) s =
      .next (((s.onLink i l fun k => { k with rxSeq := (k.rxSeq + 1) % 2 ^ 24, refusals := 0 }).emit
        (.control i l 0 (seq % 2 ^ 24))).emit (.control i l 2 units))) ∧
    (∀ seq units, seq % 2 ^ 24 ≠ ((s.site i).link l).rxSeq → seqLe seq ((s.site i).link l).rxSeq = true →
      exec (.linkFrame i l seq true units) s =
        .next (s.emit (.control i l 0 ((((s.site i).link l).rxSeq + 2 ^ 24 - 1) % 2 ^ 24)))) ∧
    (∀ seq units, seq % 2 ^ 24 ≠ ((s.site i).link l).rxSeq → seqLe seq ((s.site i).link l).rxSeq = false →
      exec (.linkFrame i l seq true units) s =
        .next (((s.bump i (rFabLinkErr l) Fld.fabLinkErrFecUncorr 0).emit
          (.control i l 1 ((s.site i).link l).rxSeq)).refused i l)) ∧
    (∀ seq units, exec (.linkFrame i l seq false units) s =
      .next (((s.draw.2.bump i (rFabLinkErr l) Fld.fabLinkErrFecUncorr (s.draw.1.toNat % 65536)).emit
        (.control i l 1 ((s.site i).link l).rxSeq)).refused i l)) ∧
    (∀ seq, exec (.acknowledgement i l seq) s = .next ((s.onLink i l fun k => { k with
      replay := k.replay.filter fun f => !seqLe f.seq seq, refusals := 0, nak := none }).drain i l)) ∧
    (∀ seq, exec (.negativeAcknowledgement i l seq) s =
      .next (((s.onLink i l fun k => { k with
        nak := some (seq % 2 ^ 24), refusals := if k.nak = some (seq % 2 ^ 24) then k.refusals else 0 }).resendFrom i l
          (((s.site i).link l).replay.filter fun f => seqLe seq f.seq)).refused i l)) ∧
    (∀ cr, exec (.creditReturn i l cr) s =
      .next ((s.onLink i l fun k => { k with credits := creditAdd k.credits cr }).drain i l)) ∧
    ∀ lane, ((s.site i).link l).laneMap.contains lane = true → exec (.laneLoss i l lane) s =
      .next ((s.setFld i (rFabLink l) Fld.fabLinkLaneBad
        ((s.site i).fld (rFabLink l) Fld.fabLinkLaneBad ||| 2 ^ lane)).retrain i l)

/-- A link that may train goes through DETECT (with signal on two lanes or more; otherwise it fails), MAP, EQUALISE,
ALIGN and CREDIT to ACTIVE, each step from the state before it, and a failed link retries from DETECT; a die-to-die
port of a powered instance that is not up leaves training with what it found, and one that is up goes down, or loses
one of its modules (R37, R38, R272, R273, R306, R553, R565, spec/07 drioskot fabric.md). -/
def Obligations.LinkBringUp : Prop :=
  ∀ (s : State) (i l : Nat), (s.site i).mayTrain l = true →
    (∀ signal, (s.site i).bringUp l = 1 → 2 ≤ ((List.range 5).filter (signal : BitVec 5).getLsbD).length →
      exec (.detect i l signal) s = .next (s.bringTo i l 2)) ∧
    (∀ signal, (s.site i).bringUp l = 1 → ((List.range 5).filter (signal : BitVec 5).getLsbD).length < 2 →
      exec (.detect i l signal) s = .next (s.linkFails i l)) ∧
    (∀ lanes, (s.site i).bringUp l = 2 → exec (.linkMap i l lanes) s = .next (s.mapLanes i l (lanes.take 5))) ∧
    (∀ signal : BitVec 5, (s.site i).bringUp l = 3 → ((s.site i).link l).laneMap.all signal.getLsbD = true →
      exec (.equalise i l signal) s = .next (s.bringTo i l 4)) ∧
    ((s.site i).bringUp l = 4 → exec (.align i l true) s = .next (s.bringTo i l 5) ∧
      exec (.align i l false) s = .next (s.linkFails i l)) ∧
    (∀ cr rtt, (s.site i).bringUp l = 5 → exec (.credit i l cr rtt) s = .next (s.linkStarts i l cr rtt)) ∧
    ((s.site i).linkState l = 8 → exec (.linkRetry i l) s = .next (s.setFld i (rFabLink l) Fld.fabLinkState 1)) ∧
    (∀ j r, (s.site i).pins.coldRstN = true → j < 4 → (s.site i).d2dUp j = false → (s.site i).domState (domD2d j) ≠ 2 →
      exec (.d2dTraining i j r) s = .next (s.trainD2d i j r)) ∧
    ∀ j, j < 4 → (s.site i).d2dUp j = true →
      exec (.d2dPortDown i j) s =
        .next ((s.setD2d i j 4 0 (s.fld i (rD2dPort j) Fld.d2dPortPeer)).d2dRecord i j) ∧
      ∀ k, k < 4 → (BitVec.ofNat 4 ((s.site i).fld (rD2dPort j) Fld.d2dPortModules)).getLsbD k = true →
        ∃ m, m = BitVec.ofNat 4 ((s.site i).fld (rD2dPort j) Fld.d2dPortModules) &&& ~~~(BitVec.ofNat 4 (2 ^ k)) ∧
          exec (.moduleLeavesPort i j k) s =
            .next ((s.setD2d i j (d2dState m) m ((s.site i).fld (rD2dPort j) Fld.d2dPortPeer)).d2dRecord i j)

/-- A transaction that has gone unanswered for T_e is given up as lost, a forwarded command whose part has not
answered is ended FABRIC_TIMEOUT, and a multicast branch held past its hold time fails. On a powered instance whose
fabric port group is up, the write of a route's high word installs the route, a quiesce request records its key slot
and clears DONE, and a quiet slot sets DONE; on a running instance a DMA quiesce request is recorded; clearing either
clears its request (R283, R293, R303, R309, R312, R317, R373, spec/07 drioskot fabric.md). -/
def Obligations.FabricTimeoutsAndSettings : Prop :=
  (∀ (s : State) (i : Nat),
    (∀ n x, (s.site i).net.txns.find? (fun x => decide (x.num = n)) = some x →
      ¬(x.kind = .control ∧ x.branch = Ctl.work.code ∧ (s.site i).net.fwd.any (fun f => decide (f.txn = n)) = true) →
      exec (.transportTimeout i n) s = .next (s.txnLost i x)) ∧
    (∀ n f, (s.site i).net.fwd.find? (fun f => decide (f.tag = n)) = some f →
      exec (.forwardTimeout i n) s = .next (s.fwdLost i f)) ∧
    (∀ c k b, s.cmd? c = some k → k.op = 0x304 → k.phase = .issued → k.ran = false →
      (k.unsent.any fun r => decide (r.branch = b)) = true →
      exec (.holdTimeExpiry c b) s = .next (s.branchFails c b stFabricTimeout))) ∧
  ∀ (s : State) (i : Nat), (s.site i).pins.coldRstN = true → (s.site i).domUp 19 = true →
    (∀ d hi, d < 2 ^ 14 → exec (.fabRt i d hi) s = .next (s.onSite i (·.setRoute d hi))) ∧
    (∀ slot, slot < 1024 → exec (.fabQuiesceReq i slot) s = .next (((s.setFld i rFabQuiesce Fld.fabQuiesceKeyId slot).setFld
      i rFabQuiesce Fld.fabQuiesceReq 1).setFld i rFabQuiesce Fld.fabQuiesceDone 0)) ∧
    ((s.site i).fld rFabQuiesce Fld.fabQuiesceReq = 1 →
      (s.site i).fabQuiet ((s.site i).fld rFabQuiesce Fld.fabQuiesceKeyId) = true →
      exec (.fabQuiesceDone i) s = .next (s.setFld i rFabQuiesce Fld.fabQuiesceDone 1)) ∧
    exec (.quiesceClear i true) s =
      .next ((s.setFld i rFabQuiesce Fld.fabQuiesceReq 0).setFld i rFabQuiesce Fld.fabQuiesceDone 0) ∧
    ((s.site i).up = true →
      exec (.quiesceClear i false) s = .next (s.setFld i rDmaQuiesce Fld.dmaQuiesceReq 0) ∧
      ∀ slot, slot < 1024 → exec (.dmaQuiesceReq i slot) s =
        .next ((s.setFld i rDmaQuiesce Fld.dmaQuiesceKeyId slot).setFld i rDmaQuiesce Fld.dmaQuiesceReq 1))

/-- On a running instance a FREE slot gets a drawn secret for the slice that owns its number, or a secret unwrapped
for a slice known there or for one of a part that lent units; an ACTIVE slot's secret is wrapped for an accepted peer;
an ACTIVE slot starts to drain, its confidential device going to ERROR; a DRAINING slot that is quiet is destroyed. A
removal goes through its steps one by one: the slice is killed, its slots drain, once they are quiet they are
destroyed, its pages are zeroed, its units are cleared and it is released. The secrets drawn are the model's free
values (log entry 7) (R433, R436, R437, R438, R440, R460, spec/11 tenants security.md). -/
def Obligations.KeysAndRemoval : Prop :=
  ∀ (s : State) (i slot : Nat), (s.site i).up = true →
    (∀ v, (s.site i).slotFree slot = true → s.keysFlow = true → (s.vd v).live = true → (s.vd v).slot = slot →
      exec (.keyCreate i slot v) s =
        .next ((s.drawSecret.2.fillSlot i slot v ((s.site i).slotGen slot) s.drawSecret.1).relist v)) ∧
    (∀ v gen x, (s.site i).slotFree slot = true → s.unsettled = false → s.part.debug = false → v < 256 →
      ((s.vd v).live = true → (s.vd v).slot = slot → exec (.keyInstall i slot v gen x) s =
        .next ((s.fillSlot i slot v (gen : BitVec 6).toNat x).relist v)) ∧
      (∀ l, (s.vd v).live = false → s.lender i = some l → exec (.keyInstall i slot v gen x) s =
        .next (((((s.lentSlice i slot l.home).hold.units.foldl (fun s u => s.joinUnit v u)
          (s.onVd v fun _ => s.lentSlice i slot l.home))).fillSlot i slot v gen.toNat x).relist v))) ∧
    (∀ k, (s.site i).slot? slot = some k →
      (k.state = .active → s.unsettled = false → s.part.debug = false →
        (∀ peer : PeerReport, (peer.part = s.partId ∨ s.accepts peer = true) → exec (.keyWrap i slot peer) s =
          .next (s.emit (.spdm 0x11 (leBytes 2 slot ++ leBytes 1 k.gen ++ Config.aesWrap k.secret))))) ∧
      (k.state = .active → exec (.keyDrain i slot) s = .next ((s.tdiError k.slice).drainSlot i k.slice)) ∧
      (k.state = .draining → s.slotQuiet i slot = true → s.homed k.slice = true →
        exec (.keyDestroy i slot) s = .next (s.destroySlot i slot))) ∧
    ∀ v r, (s.vd v).removal = some r →
      (r.step = 0 → exec (.removalStep v) s =
        .next ((s.killSlice v).onVd v fun d => { d with removal := some { r with step := 1 } })) ∧
      (r.step = 1 → exec (.removalStep v) s = .next (((s.holders v).foldl (fun s i => s.drainSlot i v) s).onVd v fun d =>
        { d with removal := some { r with step := 2 } })) ∧
      (r.step = 2 → ((s.holders v).all fun i => s.slotQuiet i (s.vd v).slot) = true → exec (.removalStep v) s =
        .next (s.onVd v fun d => { d with removal := some { r with step := 3 } })) ∧
      (r.step = 3 → exec (.removalStep v) s =
        .next (((s.holders v).foldl (fun t i => t.destroySlot i (s.vd v).slot) s).onVd v fun d =>
          { d with removal := some { r with step := 4 } })) ∧
      (r.step = 4 → exec (.removalStep v) s =
        .next ((s.zeroPages v).onVd v fun d => { d with removal := some { r with step := 5 } })) ∧
      (r.step = 5 → exec (.removalStep v) s =
        .next ((s.clearUnits v).onVd v fun d => { d with removal := some { r with step := 6 } })) ∧
      (6 ≤ r.step → exec (.removalStep v) s = .next (s.release v r (s.touched v)))

/-- On a part that answers: GET_MEASUREMENTS answers with the signed blocks its index names; SLICE_REPORT answers for
a live slice homed here; a supported SPDM request is answered, and another gets an error; IDE_KM programs a key. A TDI
goes from UNLOCKED to LOCKED on a secure stream, from LOCKED to RUN, gives its report in LOCKED and RUN and its state
always, its version and its capabilities, and a stop begins its removal. The content of the other SPDM answers is the
model's free value, and the codes are presumed (log entries 5 and 6) (R446, R447, R449, R451, R452, R453, spec/11
tenants security.md). -/
def Obligations.TdispAndAttestation : Prop :=
  ∀ (s : State) (v : Nat),
    (∀ n b l, s.answers = true → s.blocks n = b :: l → exec (.getMeasurements n) s =
      .next (s.emit (.spdm 0x60 ((leBytes 1 (b :: l).length ++ leBytes 3 (b :: l).flatten.length ++ (b :: l).flatten) ++
        s.sign (leBytes 1 (b :: l).length ++ leBytes 3 (b :: l).flatten.length ++ (b :: l).flatten))))) ∧
    (∀ nonce, s.answers = true → (s.vd v).live = true → s.homed v = true → nonce.length = 32 →
      exec (.sliceReport v nonce) s = .next (s.emit (.spdm 0x7E (s.sliceReport v nonce)))) ∧
    (∀ code : Byte, s.answers = true → spdmSupported.contains code.toNat = true → exec (.spdmRequest code) s =
      .next (s.draw.2.emit (.spdm (code.toNat - 0x80) (leBytes 8 s.draw.1.toNat)))) ∧
    (∀ i stream keyset rx, s.answers = true → (s.site i).managed = true → (s.site i).domUp 18 = true →
      2 ≤ (s.site i).fld rHifLink Fld.hifLinkState → stream < 16 → keyset < 2 → exec (.ideKm i stream keyset rx) s =
        .next ((s.onSite i (·.setIdeKey stream keyset rx)).emit
          (.spdm 0x7E (leBytes 1 stream ++ leBytes 1 keyset ++ leBytes 1 rx.toNat)))) ∧
    (∀ i stream x, (s.site i).ide? stream = some x → exec (.ideStreamLoss i stream) s =
      .next (((s.onSite i fun t => { t with
        ide := { x with rxKeys := 0, txKeys := 0, secure := false } :: t.ide.filter fun y => decide (y.stream ≠ stream) }).vdsOn
          i).foldl (fun s v => if (s.vd v).ideStream = stream then s.tdiError v else s) (s.onSite i fun t => { t with
            ide := { x with rxKeys := 0, txKeys := 0, secure := false } ::
              t.ide.filter fun y => decide (y.stream ≠ stream) }))) ∧
    (∀ t, (∀ run, s.tdisp v run = run t) →
      exec (.getTdispVersion v) s = .next (t.tdispReply 0x01 v [0x10]) ∧
      exec (.getTdispCapabilities v) s = .next (t.tdispReply 0x02 v (leBytes 1 0x7F)) ∧
      exec (.getDeviceInterfaceState v) s = .next (t.tdispReply 0x05 v (leBytes 1 (t.vd v).tdi.code)) ∧
      (((t.vd v).tdi = .locked ∨ (t.vd v).tdi = .run) →
        exec (.getDeviceInterfaceReport v) s = .next (t.tdispReply 0x04 v interfaceReport)) ∧
      ((t.vd v).tdi = .locked → exec (.startInterfaceRequest v) s =
        .next ((t.onVd v fun d => { d with tdi := .run }).tdispReply 0x06 v [])) ∧
      ((t.vd v).removal = none → exec (.stopInterfaceRequest v) s =
        .next ((t.onVd v fun d => { d with removal := some ⟨0, 1, none⟩ }).tdispReply 0x07 v [])) ∧
      ∀ stream x, (t.vd v).tdi = .unlocked → (t.site (t.siteOf (t.vd v).port)).ide? stream = some x → x.secure = true →
        (t.vd v).removal = none → exec (.lockInterfaceRequest v stream) s =
          .next ((t.onVd v fun d => { d with tdi := .locked, ideStream := stream }).tdispReply 0x03 v (leBytes 1 stream)))

/-- On a linked host port, a configuration read is answered, and a write of an enable sets it for the function it
names; before the end of start-up or with no lead a request is answered with a retry status. A function-level reset of
the PF resets every virtual device of the port, disables AtomicOps and the management rings and frees the PF's
mailboxes; one of a VF resets its device. PERST_N and a hot reset take the link down. The content of a configuration
read is the model's free value (log entry 6) (R382, R447, R548, R550, R595, spec/14 ports surroundings.md). -/
def Obligations.HostPort : Prop :=
  ∀ (s : State) (i : Nat), (s.site i).managed = true → (s.site i).domUp 18 = true →
    (∀ fn r, (s.site i).pins.perstN = true → 2 ≤ (s.site i).fld rHifLink Fld.hifLinkState →
      ((s.site i).fld rHifLink Fld.hifLinkState = 2 ∨ s.part.lead = none) →
      exec (.configurationRequest i fn r) s = .next (s.emit (.cfgReply i fn true 0))) ∧
    (∀ fn, (s.site i).pins.perstN = true → 2 < (s.site i).fld rHifLink Fld.hifLinkState → s.part.lead.isSome = true →
      (∀ n, exec (.configurationRequest i fn (.read n)) s =
        .next (s.draw.2.emit (.cfgReply i fn false (s.draw.1.truncate 32)))) ∧
      (∀ v on, s.vdOf i fn = some v → exec (.configurationRequest i fn (.atsEnable on)) s =
        .next ((s.configured v ((s.vd v).ats != on) fun d => { d with ats := on }).emit (.cfgReply i fn false 0)))) ∧
    (∀ on, (s.site i).pins.perstN = true → 2 < (s.site i).fld rHifLink Fld.hifLinkState → s.part.lead.isSome = true →
      exec (.configurationRequest i 0 (.atomicOpEnable on)) s =
        .next ((s.onSite i fun t => { t with atomicOps := on }).emit (.cfgReply i 0 false 0))) ∧
    (∀ t, 2 ≤ (s.site i).fld rHifLink Fld.hifLinkState →
      t = ((s.vdsOn i).foldl (fun s v => s.flr v) s).onSite i (fun t => { t with atomicOps := false }) →
      exec (.functionLevelReset i 0) s =
        .next ((if t.part.lead = some i then t.onRings fun g => { g with on := false } else t).freeBoxes i 0x01)) ∧
    (∀ fn v, fn ≠ 0 → 2 ≤ (s.site i).fld rHifLink Fld.hifLinkState → s.vdOf i fn = some v →
      exec (.functionLevelReset i fn) s = .next (s.flr v)) ∧
    ((s.site i).pins.perstN = true → exec (.hipPerstN i false) s =
      .next (((s.onPins i fun p => { p with perstN := false }).resetLink i).setFld i rHifLink Fld.hifLinkPerst 1)) ∧
    ((s.site i).pins.perstN = false → exec (.hipPerstN i true) s =
      .next ((s.onPins i fun p => { p with perstN := true }).hostLink i)) ∧
    ((s.site i).fld rHifLink Fld.hifLinkState ≠ 0 → exec (.hotReset i) s = .next ((s.resetLink i).freeBoxes i 0x01))

/-- Enabling the rings with sizes and bases that pass the checks starts them, and otherwise sets their error; a new
request tail is taken over and tells firmware; a head takes the reader's position; firmware takes the next request of
a well-formed packet into progress, and answers at once one whose opcode it does not know; fault records leave the
instance for the fault ring, alarms before logs, while the ring has room; the summary of lost records goes out (R477,
R478, R479, R483, R491, R506, R532, R533, spec/12 management interrupts.md). -/
def Obligations.ManagementIntake : Prop :=
  ∀ (s : State), s.part.lead.isSome = true →
    (∀ value : W32, s.part.rings.on = false → bitOf value 31 = true →
      s.part.rings.mayStart (bitsOf value 19 16) (bitsOf value 11 8) (bitsOf value 3 0) = true →
      exec (.managementRingEnable value) s = .next ((s.onRings fun g => { g with
        on := true, err := false, reqLog2 := bitsOf value 3 0, rplLog2 := bitsOf value 11 8, fltLog2 := bitsOf value 19 16
        reqTail := 0, reqHead := 0, rplHead := 0, rplPos := 0, rplPhase := true, fltHead := 0, fltPos := 0
        fltPhase := true }).flushReplies)) ∧
    (∀ value : W32, s.part.rings.on = false → bitOf value 31 = true →
      s.part.rings.mayStart (bitsOf value 19 16) (bitsOf value 11 8) (bitsOf value 3 0) = false →
      exec (.managementRingEnable value) s = .next (s.onRings fun g => { g with
        err := true, reqLog2 := bitsOf value 3 0, rplLog2 := bitsOf value 11 8, fltLog2 := bitsOf value 19 16 })) ∧
    exec .managementRingDisable s = .next (s.onRings fun g => { g with on := false }) ∧
    (∀ value : W32, exec (.rplHead value) s =
      .next ((s.onRings fun g => { g with rplHead := bitsOf value 11 0 }).flushReplies)) ∧
    (∀ value : W32, exec (.fltHead value) s = .next (s.onRings fun g => { g with fltHead := bitsOf value 13 0 })) ∧
    (∀ value : W32, s.part.rings.on = true →
      s.part.rings.posted s.part.rings.reqTail ≤ s.part.rings.posted (bitsOf value 11 0 % 2 ^ s.part.rings.reqLog2) →
      exec (.reqTail value) s = .next ((s.onRings fun g => { g with
        reqTail := bitsOf value 11 0 % 2 ^ s.part.rings.reqLog2 }).raiseSrc s.lead 0x40)) ∧
    (∀ agent pkt place, s.activating = false → s.part.reqs.length < 64 → s.part.replies.length < 64 → pkt.length = 64 →
      s.nextRequest agent pkt = some place → mgmtOp (fieldAt pkt 0 2) = true → fieldAt pkt 4 4 = 0 →
      ¬(agent = 0x02 ∧ boardMay (fieldAt pkt 0 2) = false) →
      exec (.requestTake agent pkt) s = .next (s.takeRequest (MReq.of agent pkt (place.map (·.1))) place)) ∧
    (∀ agent pkt place, s.activating = false → s.part.reqs.length < 64 → s.part.replies.length < 64 → pkt.length = 64 →
      s.nextRequest agent pkt = some place → mgmtOp (fieldAt pkt 0 2) = false →
      exec (.requestTake agent pkt) s = .next ((s.takeRequest (MReq.of agent pkt (place.map (·.1))) place).reply
        (MReq.of agent pkt (place.map (·.1))) stUnknownOpcode)) ∧
    ∀ i, (s.site i).managed = true →
      ((∀ r rest, s.part.rings.on = true → s.part.rings.err = false → (s.site i).watch.alarms = r :: rest →
        1 + r.cont.length ≤ 2 ^ s.part.rings.fltLog2 - 1 -
          (s.part.rings.fltPos + 2 ^ s.part.rings.fltLog2 - s.part.rings.fltHead) % 2 ^ s.part.rings.fltLog2 →
        exec (.faultRecordWrite i) s = .next (((writeRec r (s.site i).id (r.body :: r.cont) s).onWatch i fun w =>
          { w with alarms := rest }).raiseSrc s.lead 0x43)) ∧
      (∀ r rest, s.part.rings.on = true → s.part.rings.err = false → (s.site i).watch.alarms = [] →
        (s.site i).watch.logs = r :: rest → 9 ≤ 2 ^ s.part.rings.fltLog2 - 1 -
          (s.part.rings.fltPos + 2 ^ s.part.rings.fltLog2 - s.part.rings.fltHead) % 2 ^ s.part.rings.fltLog2 →
        exec (.faultRecordWrite i) s = .next (((writeRec r (s.site i).id [r.body] s).onWatch i fun w =>
          { w with logs := rest }).raiseSrc s.lead 0x43)) ∧
      ∀ us, (s.site i).watch.losing = true → exec (.lossSummary i us) s =
        .next ((s.onWatch i (·.summarise i us (s.site i).time)).raiseSrc s.lead 0x45))

/-- A request that is next to run and well formed, and whose command ends OK (SLICE_CREATE, UNIT_BIND, UNIT_UNBIND,
UNIT_MOVE, ALLOT_SET, SCHED_SET, CORE_MODE, LABEL_SET, SHARE_SET, GUARD_SET, MCAST_RANGE, LOFT_BUDGET, LEND_SET,
CORE_STATE, MEMPORT_STATE, LINK_STATE, LINK_ENABLE), replies OK with its result in the state the command leaves;
SLICE_DESTROY, and a unit, mode or power command that takes longer, begins and replies when it is over (R400, R407,
R429, R430, R431, R432, R485, R486, R487, R577, R581, spec/12 management interrupts.md). -/
def Obligations.ManagementShape : Prop :=
  ∀ (m : MgmtRun) (s t : State) (r : MReq) (b : Bytes),
    (MgmtReady m 0x101 sliceCreateBad s r → sliceCreateEnd s m r = .done t stOk b → exec (.sliceCreate m) s = .next (t.reply r stOk b)) ∧
    (MgmtReady m 0x102 sliceDestroyBad s r → sliceDestroyEnd s r = .later t → exec (.sliceDestroy m) s = .next (t.begin r)) ∧
    (MgmtReady m 0x103 unitBindBad s r → unitBindEnd s m r = .done t stOk b → exec (.unitBind m) s = .next (t.reply r stOk b)) ∧
    (MgmtReady m 0x104 unitUnbindBad s r → unitUnbindEnd s r = .done t stOk b → exec (.unitUnbind m) s = .next (t.reply r stOk b)) ∧
    (MgmtReady m 0x104 unitUnbindBad s r → unitUnbindEnd s r = .later t → exec (.unitUnbind m) s = .next (t.begin r)) ∧
    (MgmtReady m 0x105 unitMoveBad s r → unitMoveEnd s m r = .done t stOk b → exec (.unitMove m) s = .next (t.reply r stOk b)) ∧
    (MgmtReady m 0x105 unitMoveBad s r → unitMoveEnd s m r = .later t → exec (.unitMove m) s = .next (t.begin r)) ∧
    (MgmtReady m 0x106 allotSetBad s r → allotSetEnd s m r = .done t stOk b → exec (.allotSet m) s = .next (t.reply r stOk b)) ∧
    (MgmtReady m 0x107 schedSetBad s r → schedSetEnd s r = .done t stOk b → exec (.schedSet m) s = .next (t.reply r stOk b)) ∧
    (MgmtReady m 0x108 coreModeBad s r → coreModeEnd s r = .done t stOk b → exec (.coreMode m) s = .next (t.reply r stOk b)) ∧
    (MgmtReady m 0x108 coreModeBad s r → coreModeEnd s r = .later t → exec (.coreMode m) s = .next (t.begin r)) ∧
    (MgmtReady m 0x109 labelSetBad s r → labelSetEnd s r = .done t stOk b → exec (.labelSet m) s = .next (t.reply r stOk b)) ∧
    (MgmtReady m 0x10A shareSetBad s r → shareSetEnd s r = .done t stOk b → exec (.shareSet m) s = .next (t.reply r stOk b)) ∧
    (MgmtReady m 0x10B guardSetBad s r → guardSetEnd s r = .done t stOk b → exec (.guardSet m) s = .next (t.reply r stOk b)) ∧
    (MgmtReady m 0x10C mcastRangeBad s r → mcastRangeEnd s r = .done t stOk b → exec (.mcastRange m) s = .next (t.reply r stOk b)) ∧
    (MgmtReady m 0x10D loftBudgetBad s r → loftBudgetEnd s r = .done t stOk b → exec (.loftBudget m) s = .next (t.reply r stOk b)) ∧
    (MgmtReady m 0x10E lendSetBad s r → lendSetEnd s r = .done t stOk b → exec (.lendSet m) s = .next (t.reply r stOk b)) ∧
    (MgmtReady m 0x201 coreStateBad s r → coreStateEnd s r = .done t stOk b → exec (.coreState m) s = .next (t.reply r stOk b)) ∧
    (MgmtReady m 0x201 coreStateBad s r → coreStateEnd s r = .later t → exec (.coreState m) s = .next (t.begin r)) ∧
    (MgmtReady m 0x202 memportStateBad s r → memportStateEnd s r = .done t stOk b → exec (.memportState m) s = .next (t.reply r stOk b)) ∧
    (MgmtReady m 0x202 memportStateBad s r → memportStateEnd s r = .later t → exec (.memportState m) s = .next (t.begin r)) ∧
    (MgmtReady m 0x203 linkStateBad s r → linkStateEnd s r = .done t stOk b → exec (.linkState m) s = .next (t.reply r stOk b)) ∧
    (MgmtReady m 0x203 linkStateBad s r → linkStateEnd s r = .later t → exec (.linkState m) s = .next (t.begin r)) ∧
    (MgmtReady m 0x701 linkEnableBad s r → linkEnableEnd s r = .done t stOk b → exec (.linkEnable m) s = .next (t.reply r stOk b))

/-- A request that is next to run and well formed, and whose command ends OK (RESET, ESCALATE_SET, HEALTH_GET,
FW_STAGE, FW_COMMIT, FW_DISCARD, FW_INFO, ATT_STATE, ATT_MEASURE, ATT_REPORT, POLICY_SET, PAGE_RETIRE, CH_EVACUATE,
CH_RETURN, WEIGHT_ALLOT, WEIGHT_LOAD, WEIGHT_COPY, WEIGHT_GRANT, WEIGHT_REVOKE, WEIGHT_FREE, CH_TEST, LOG_LEVEL,
MIGRATE_FREEZE, MIGRATE_PEER, MIGRATE_SAVE, MIGRATE_RESTORE, MIGRATE_COMMIT, MIGRATE_CANCEL, MIGRATE_THAW, SPARE_IN,
HEALTH_CHECK, SPARE_GET), replies OK with its result in the state the command leaves; FW_ACTIVATE and PORTGROUP_RESET,
and a command that takes longer, begin and reply when they are over (R443, R444, R445, R455, R459, R485, R488, R490,
R515, R525, spec/12 management interrupts.md). -/
def Obligations.ManagementCare : Prop :=
  ∀ (m : MgmtRun) (s t : State) (r : MReq) (b : Bytes),
    (MgmtReady m 0x301 resetBad s r → resetEnd s r = .done t stOk b → exec (.reset m) s = .next (t.reply r stOk b)) ∧
    (MgmtReady m 0x301 resetBad s r → resetEnd s r = .later t → exec (.reset m) s = .next (t.begin r)) ∧
    (MgmtReady m 0x302 escalateSetBad s r → escalateSetEnd s r = .done t stOk b → exec (.escalateSet m) s = .next (t.reply r stOk b)) ∧
    (MgmtReady m 0x303 healthGetBad s r → healthGetEnd s r = .done t stOk b → exec (.healthGet m) s = .next (t.reply r stOk b)) ∧
    (MgmtReady m 0x401 fwStageBad s r → fwStageEnd s m r = .done t stOk b → exec (.fwStage m) s = .next (t.reply r stOk b)) ∧
    (MgmtReady m 0x402 fwActivateBad s r → fwActivateEnd s m r = .later t → exec (.fwActivate m) s = .next (t.begin r)) ∧
    (MgmtReady m 0x403 fwCommitBad s r → fwCommitEnd s r = .done t stOk b → exec (.fwCommit m) s = .next (t.reply r stOk b)) ∧
    (MgmtReady m 0x404 fwDiscardBad s r → fwDiscardEnd s r = .done t stOk b → exec (.fwDiscard m) s = .next (t.reply r stOk b)) ∧
    (MgmtReady m 0x405 fwInfoBad s r → fwInfoEnd s r = .done t stOk b → exec (.fwInfo m) s = .next (t.reply r stOk b)) ∧
    (MgmtReady m 0x501 attStateBad s r → attStateEnd s r = .done t stOk b → exec (.attState m) s = .next (t.reply r stOk b)) ∧
    (MgmtReady m 0x502 attMeasureBad s r → attMeasureEnd s r = .done t stOk b → exec (.attMeasure m) s = .next (t.reply r stOk b)) ∧
    (MgmtReady m 0x503 attReportBad s r → attReportEnd s m r = .done t stOk b → exec (.attReport m) s = .next (t.reply r stOk b)) ∧
    (MgmtReady m 0x601 policySetBad s r → policySetEnd s m r = .done t stOk b → exec (.policySet m) s = .next (t.reply r stOk b)) ∧
    (MgmtReady m 0x602 pageRetireBad s r → pageRetireEnd s r = .done t stOk b → exec (.pageRetire m) s = .next (t.reply r stOk b)) ∧
    (MgmtReady m 0x602 pageRetireBad s r → pageRetireEnd s r = .later t → exec (.pageRetire m) s = .next (t.begin r)) ∧
    (MgmtReady m 0x603 chEvacuateBad s r → chEvacuateEnd s r = .done t stOk b → exec (.chEvacuate m) s = .next (t.reply r stOk b)) ∧
    (MgmtReady m 0x603 chEvacuateBad s r → chEvacuateEnd s r = .later t → exec (.chEvacuate m) s = .next (t.begin r)) ∧
    (MgmtReady m 0x604 chReturnBad s r → chReturnEnd s r = .done t stOk b → exec (.chReturn m) s = .next (t.reply r stOk b)) ∧
    (MgmtReady m 0x605 weightAllotBad s r → weightAllotEnd s r = .done t stOk b → exec (.weightAllot m) s = .next (t.reply r stOk b)) ∧
    (MgmtReady m 0x606 weightLoadBad s r → weightLoadEnd s m r = .done t stOk b → exec (.weightLoad m) s = .next (t.reply r stOk b)) ∧
    (MgmtReady m 0x607 weightCopyBad s r → weightCopyEnd s r = .done t stOk b → exec (.weightCopy m) s = .next (t.reply r stOk b)) ∧
    (MgmtReady m 0x608 weightGrantBad s r → weightGrantEnd s r = .done t stOk b → exec (.weightGrant m) s = .next (t.reply r stOk b)) ∧
    (MgmtReady m 0x609 weightRevokeBad s r → weightRevokeEnd s r = .done t stOk b → exec (.weightRevoke m) s = .next (t.reply r stOk b)) ∧
    (MgmtReady m 0x609 weightRevokeBad s r → weightRevokeEnd s r = .later t → exec (.weightRevoke m) s = .next (t.begin r)) ∧
    (MgmtReady m 0x60A weightFreeBad s r → weightFreeEnd s r = .done t stOk b → exec (.weightFree m) s = .next (t.reply r stOk b)) ∧
    (MgmtReady m 0x702 portgroupResetBad s r → portgroupResetEnd s r = .later t → exec (.portgroupReset m) s = .next (t.begin r)) ∧
    (MgmtReady m 0x801 chTestBad s r → chTestEnd s r = .done t stOk b → exec (.chTest m) s = .next (t.reply r stOk b)) ∧
    (MgmtReady m 0x802 logLevelBad s r → logLevelEnd s r = .done t stOk b → exec (.logLevel m) s = .next (t.reply r stOk b)) ∧
    (MgmtReady m 0x901 migrateFreezeBad s r → migrateFreezeEnd s r = .done t stOk b → exec (.migrateFreeze m) s = .next (t.reply r stOk b)) ∧
    (MgmtReady m 0x901 migrateFreezeBad s r → migrateFreezeEnd s r = .later t → exec (.migrateFreeze m) s = .next (t.begin r)) ∧
    (MgmtReady m 0x902 migratePeerBad s r → migratePeerEnd s m r = .done t stOk b → exec (.migratePeer m) s = .next (t.reply r stOk b)) ∧
    (MgmtReady m 0x903 migrateSaveBad s r → migrateSaveEnd s m r = .done t stOk b → exec (.migrateSave m) s = .next (t.reply r stOk b)) ∧
    (MgmtReady m 0x904 migrateRestoreBad s r → migrateRestoreEnd s m r = .done t stOk b → exec (.migrateRestore m) s = .next (t.reply r stOk b)) ∧
    (MgmtReady m 0x905 migrateCommitBad s r → migrateCommitEnd s m r = .done t stOk b → exec (.migrateCommit m) s = .next (t.reply r stOk b)) ∧
    (MgmtReady m 0x906 migrateCancelBad s r → migrateCancelEnd s r = .done t stOk b → exec (.migrateCancel m) s = .next (t.reply r stOk b)) ∧
    (MgmtReady m 0x907 migrateThawBad s r → migrateThawEnd s m r = .done t stOk b → exec (.migrateThaw m) s = .next (t.reply r stOk b)) ∧
    (MgmtReady m 0xA01 spareInBad s r → spareInEnd s m r = .done t stOk b → exec (.spareIn m) s = .next (t.reply r stOk b)) ∧
    (MgmtReady m 0xA02 healthCheckBad s r → healthCheckEnd s m r = .done t stOk b → exec (.healthCheck m) s = .next (t.reply r stOk b)) ∧
    (MgmtReady m 0xA03 spareGetBad s r → spareGetEnd s r = .done t stOk b → exec (.spareGet m) s = .next (t.reply r stOk b))

/-- On a managed instance a read of MBX_LOCK returns the holder, or 0 for a FREE mailbox, which the reader then holds;
a write of MBX_DATA by the holder sets the word, MBX_DOORBELL by the holder delivers the mailbox and tells its
receiver, and MBX_FREE by the holder or the receiver frees it; by anyone else each is ignored and counted under
REFUSED when the mailbox is held or delivered. The target reset pattern frees the mailboxes of the board agent, and
ENTDAA and SETDASA give the target its address (R493, R494, R495, R557, spec/12 management interrupts.md). -/
def Obligations.Mailboxes : Prop :=
  ∀ (s : State) (i box : Nat) (agent : Byte), (s.site i).managed = true → box < 16 →
    (((s.site i).box box).state = .free → exec (.mbxLock i agent box) s =
      .next (State.onBox { s with rd := ((s.site i).boxHolder box).zeroExtend 64 } i box fun b =>
        { b with state := .held agent })) ∧
    (((s.site i).box box).state ≠ .free → exec (.mbxLock i agent box) s =
      .next { s with rd := ((s.site i).boxHolder box).zeroExtend 64 }) ∧
    (∀ w value, w < 16 → ((s.site i).box box).state = .held agent → exec (.mbxData i agent box w value) s =
      .next (s.onBox i box fun b => { b with data := b.data.set w value })) ∧
    (∀ w value, w < 16 → ((s.site i).box box).state ≠ .held agent →
      exec (.mbxData i agent box w value) s = .next (s.boxRefuses i box agent)) ∧
    (∀ value : W32, bitOf value 0 = true → ((s.site i).box box).state = .held agent →
      exec (.mbxDoorbell i agent box value) s =
        .next ((s.onBox i box fun b => { b with state := .delivered }).tellBox i box)) ∧
    (∀ value : W32, bitOf value 0 = true → ((s.site i).box box).state ≠ .held agent →
      exec (.mbxDoorbell i agent box value) s = .next (s.boxRefuses i box agent)) ∧
    (∀ value : W32, bitOf value 0 = true → ((s.site i).box box).state ≠ .free → (s.site i).boxHolder box = agent →
      exec (.mbxFree i agent box value) s = .next (s.freeBox i box).flushReplies) ∧
    (∀ value : W32, bitOf value 0 = true → ¬(((s.site i).box box).state ≠ .free ∧ (s.site i).boxHolder box = agent) →
      exec (.mbxFree i agent box value) s = .next (s.boxRefuses i box agent)) ∧
    exec (.targetReset i) s = .next (s.freeBoxes i 0x02) ∧
    (∀ addr, (s.site i).pins.i3cAddr = none → exec (.entdaa i addr) s = .next (s.giveAddr i addr)) ∧
    ∀ addr, exec (.setdasa i addr) s = .next (s.giveAddr i addr)

/-- On a managed instance, an edge on a named source latches it; a shared source that is pending, enabled and not yet
delivered is delivered when its time passes; a claim returns the private source its processor has, else the shared
one, and clears it, or returns 0xFFF when there is none; an IRQ_IPI write raises source 4 plus the writer's number on
each processor it names (R497, R498, R499, R500, R501, R502, spec/12 management interrupts.md). -/
def Obligations.InterruptSources : Prop :=
  ∀ (s : State) (i : Nat), (s.site i).managed = true →
    (∀ proc n, srcNamed proc n = true → n < 0x40 → exec (.sourceEdge i proc n) s = .next (s.raisePriv i proc n)) ∧
    (∀ proc n, srcNamed proc n = true → 0x40 ≤ n → exec (.sourceEdge i proc n) s = .next (s.raiseSrc i n)) ∧
    (∀ n, 0x40 ≤ n → n ≤ 0xFFE → (s.site i).fld (rIrqSrc (n - 0x40)) Fld.irqSrcPend ≠ 0 →
      (s.site i).fld (rIrqSrc (n - 0x40)) Fld.irqSrcEn ≠ 0 → (s.site i).watch.delivered.contains n = false →
      exec (.irqCoalesceExpiry i n) s = .next (s.deliverSrc i n)) ∧
    (∀ proc n, proc < 4 → (s.site i).claimPriv proc = some n →
      exec (.irqClaim i proc) s = .next (s.claimedPriv i proc n)) ∧
    (∀ proc n, proc < 4 → (s.site i).claimPriv proc = none → (s.site i).claimShared proc = some n →
      exec (.irqClaim i proc) s = .next (s.claimedShared i n)) ∧
    (∀ proc, proc < 4 → (s.site i).claimPriv proc = none → (s.site i).claimShared proc = none →
      exec (.irqClaim i proc) s = .next { s with rd := 0xFFF }) ∧
    ∀ proc (value : W32), proc < 4 → exec (.irqIpi i proc value) s =
      .next ((List.range 4).foldl (fun s j => if bitOf value j then s.raisePriv i j (4 + proc) else s) s)

/-- The private source a claim selects is pending and enabled, or one of the four privileged inputs on processor 0,
and no lower-numbered source is; the shared source it selects is a delivered source of the processor with the highest
PRIO, the lowest number among equals (R502, spec/12 management interrupts.md). -/
def Obligations.ClaimOrder : Prop :=
  ∀ (t : Site) (k n : Nat),
    (t.claimPriv k = some n → n < 64 ∧
      bitOf (t.reg (rIrqPrivPendLo k + (if n < 32 then 0 else 4))) (n % 32) = true ∧
      ∀ j, j < n → bitOf (t.reg (rIrqPrivPendLo k + (if j < 32 then 0 else 4))) (j % 32) = true →
        bitOf (t.reg (rIrqPrivEnLo k + (if j < 32 then 0 else 4))) (j % 32) = false ∧ ¬(k = 0 ∧ j < 4)) ∧
    (t.claimShared k = some n → n ∈ t.watch.delivered ∧ t.fld (rIrqSrc (n - 0x40)) Fld.irqSrcTarget = k ∧
      ∀ j ∈ t.watch.delivered, t.fld (rIrqSrc (j - 0x40)) Fld.irqSrcTarget = k →
        t.fld (rIrqSrc (j - 0x40)) Fld.irqSrcPend = 1 → t.fld (rIrqSrc (j - 0x40)) Fld.irqSrcEn = 1 →
        t.fld (rIrqSrc (j - 0x40)) Fld.irqSrcPrio < t.fld (rIrqSrc (n - 0x40)) Fld.irqSrcPrio ∨
          (t.fld (rIrqSrc (j - 0x40)) Fld.irqSrcPrio = t.fld (rIrqSrc (n - 0x40)) Fld.irqSrcPrio ∧ n ≤ j))

/-- A reset of a domain begins for each of its causes; a domain in reset is released when nothing it depends on holds
it, and is up again once it has retrained; an awaited spare core comes in, or the place stays empty when none passes
its test; a hung engine, a missed sequencer report, a missed heartbeat and a drain that fails begin the reset they
name; a missed watchdog of the lead asserts FAULT_N, and a sibling whose heartbeat stops is absent (R511, R512, R513,
R515, R519, R520, R522, R525, R526, spec/13 faults recovery.md). -/
def Obligations.ResetAndHealth : Prop :=
  ∀ (s : State) (i u : Nat),
    (∀ cause, cause ≤ 9 → u ≠ 19 → exec (.domainReset i u cause) s = .next (s.resetDomain i u cause)) ∧
    ((s.site i).present = true → (s.site i).domState u = 2 → (outerDoms u).any (s.site i).inReset = false →
      (s.site i).mayRelease u = true → exec (.resetRelease i u) s = .next (s.releaseDom i u)) ∧
    ((s.site i).present = true → (s.site i).domState u = 3 → (outerDoms u).any (s.site i).inReset = false →
      (s.site i).retrained u = true → exec (.domainUp i u) s = .next (s.domUps i u)) ∧
    (∀ p k rest, (s.site i).up = true → (s.site i).awaitsSpare p = true → (s.site i).sparesFor p = k :: rest →
      exec (.spareBringIn i p true) s = .next (s.takePlace i p k)) ∧
    (∀ p, (s.site i).up = true → (s.site i).awaitsSpare p = true → (s.site i).sparesFor p = [] →
      ∀ ok, exec (.spareBringIn i p ok) s = .next (s.vacate i p)) ∧
    (∀ p e, (s.site i).coreRuns p = true → p < 6 → (s.coreCodes i p).getD e 0 = 1 →
      exec (.hang i p false e) s = .next ((s.raiseSrc i (0x68 + p)).resetDomain i p 1 (some e))) ∧
    (∀ p e, (s.site i).up = true → (s.dmaCodes i).getD e 0 = 1 →
      exec (.hang i p true e) s = .next ((s.raiseSrc i 0x84).resetDomain i 20 9 (some e))) ∧
    (∀ cl, (s.site i).up = true → cl < 2 → (s.site i).domUp (domCluster cl) = true →
      exec (.sequencerReportMiss i cl) s = .next ((s.raiseSrc i (0x6E + cl)).resetDomain i (domCluster cl) 2)) ∧
    ((s.site i).up = true → exec (.heartbeatMiss i) s = .next ((s.raiseSrc i 0x67).resetDomain i 20 3)) ∧
    (∀ p, p < 6 → exec (.drainFailure i p) s = .next (s.resetDomain i p 4)) ∧
    (∀ p, (s.site i).managed = true → p < 4 → s.part.lead = some i →
      exec (.watchdogExpiry i p) s = .next (s.assertFault i)) ∧
    (s.part.lead.isSome = true → i ≠ s.lead → (s.site i).absent = false → (s.site i).managed = true →
      exec (.siblingHeartbeatMiss i) s =
        .next ((s.onSite i fun t => { t with absent := true }).absentRecord (s.site i).id))

/-- Releasing COLD_RST_N starts an instance and asserting it takes it back to its state before start-up; the
membership settles once it may; debug unlock with a valid token opens the part, and a refused one is counted; the TAP
takes a reset; the privileged inputs pend their source and act; a temperature sample is recorded, and one that crosses
its threshold raises its source; a lost lock is counted and resets what the loop clocks, and a found one sets its bit.
A power transition under way of a core, a memory port or a link takes its next step while the unit and its instance
are out of reset; a power switch that follows its enable is acknowledged, and one that does not in time raises its
condition (R37, R440, R499, R558, R562, R574, R575, R577, R578, R581, R582, spec/15 clocks power startup.md). -/
def Obligations.StartUpPinsAndPower : Prop :=
  (∀ (s : State) (i : Nat),
    (∀ b, i < 8 → (s.site i).pins.coldRstN = false → exec (.coldRstNRelease i b) s = .next (s.startSite i b)) ∧
    ((s.site i).pins.coldRstN = true → exec (.coldRstNAssert i) s = .next (s.coldSite i)) ∧
    (s.maySettle = true → exec .membershipSettle s = .next s.settleMembers) ∧
    ((s.site i).managed = true →
      exec (.debugUnlock i true) s =
        .next (s.draw.2.onPins i fun p => { p with debugNonce := s.draw.1.toNat }).unlock ∧
      exec (.debugUnlock i false) s =
        .next ((s.draw.2.onPins i fun p => { p with debugNonce := s.draw.1.toNat }).bump i rSecDebug Fld.secDebugRefused) ∧
      exec (.resetReq i) s = .next ((s.raisePriv i 0 0).resetDomain i 20 8) ∧
      exec (.faultIn i) s = .next ((s.raisePriv i 0 1).condition i 3 0) ∧
      exec (.thermAlert i) s = .next ((s.raisePriv i 0 2).condition i 4 0) ∧
      (∀ k, k < 2 → (s.site i).fld (rMpPort k) Fld.mpPortState ≠ 0 → (s.site i).fld (rMpPort k) Fld.mpPortState ≠ 5 →
        exec (.hspCattrip i k) s = .next ((s.raisePriv i 0 2).condition i 5 k)) ∧
      ∀ n (temp : BitVec 12), n < 8 → ∃ u above,
        u = (((s.setFld i (rTelTs n) Fld.telTsTemp temp.toNat).setFld i (rTelTs n) Fld.telTsValid 1).onPins i fun p =>
          { p with hot := p.hot.set n above }) ∧
        (above = true ↔ (BitVec.ofNat 12 ((s.site i).fld (rTelTs n) Fld.telTsThresh)).toInt ≤ temp.toInt) ∧
        exec (.temperatureSample i n temp) s =
          .next (if above ∧ (s.site i).pins.hot.getD n false = false then u.raiseSrc i 0x71 else u)) ∧
    exec (.tapReset i) s = .next (s.onPins i fun p => { p with tapReset := true, tapInstr := .idcode }) ∧
    (∀ loop, (s.site i).pins.coldRstN = true → 0 < loop → loop < 10 → (s.site i).fld rClkLock (loopBit loop) ≠ 0 →
      exec (.lossOfLock i loop) s = .next ((((s.setFld i rClkLock (loopBit loop) 0).bump i rClkLock
        Fld.clkLockLosses).condition i 1 loop).resetDomain i (loopDom loop) 0)) ∧
    ∀ loop, (s.site i).pins.coldRstN = true → loop < 2 → 3 ≤ (s.site i).fld rPwrBoot Fld.pwrBootStep →
      exec (.relock i loop) s = .next (s.setFld i rClkLock (loopBit loop) 1)) ∧
  ∀ (s : State) (i n : Nat) (x : PowerCmd), (s.site i).pins.coldRstN = true → (s.site i).inReset 20 = false →
    ((s.site i).powerOf .core n = some x → (s.site i).inReset (unitDom .core n) = false →
      exec (.powerTransition i .core n) s = .next (s.coreLeg i n x.leg)) ∧
    ((s.site i).powerOf .memPort n = some x → (s.site i).inReset (unitDom .memPort n) = false →
      exec (.powerTransition i .memPort n) s = .next (s.portLeg i n x)) ∧
    ((s.site i).powerOf .link n = some x → (s.site i).inReset (unitDom .link n) = false →
      exec (.powerTransition i .link n) s = .next (s.linkLeg i n x)) ∧
    (∀ k, k < 14 → (s.site i).pins.pswEn.getLsbD k = true → exec (.pswAck i k true) s =
      .next (s.onPins i fun p => { p with pswAck := p.pswAck ||| BitVec.ofNat 16 (2 ^ k) })) ∧
    (∀ k, k < 14 → (s.site i).pins.pswEn.getLsbD k = false → exec (.pswAck i k false) s =
      .next (s.onPins i fun p => { p with pswAck := p.pswAck &&& ~~~(BitVec.ofNat 16 (2 ^ k)) })) ∧
    ∀ k, k < 14 → (s.site i).pins.pswEn.getLsbD k ≠ (s.site i).pins.pswAck.getLsbD k →
      (s.site i).powerOf .core (k % 6) = none →
      exec (.pswAckTimeout i k) s = .next ((s.condition i 2 k).raiseSrc i 0x72)

/-- A read of a register's low word, of its high word or of a counter that clears on a read returns what the access
rules give for that address; a write to an offset of PF BAR0 reaches the instance register that lies there, and a
write to a virtual function's BAR0 or BAR2 reaches that device's register when the device answers. That one access
rule serves the three read rows, by address, is the model's reading (log entry 1) (R9, R10, R13, R15, R17, R326,
spec/02 registers topology.md). -/
def Obligations.RegisterAccess : Prop :=
  ∀ (a : RegAddr) (s : State),
    exec (.lowWordRead a) s = .next (s.readAt a) ∧ exec (.highWordRead a) s = .next (s.readAt a) ∧
    exec (.rcRead a) s = .next (s.readAt a) ∧
    (∀ value i o r, a.space = .pf → s.pfPlace a.off = some (i, o, r) →
      exec (.registerWrite a value) s = .next (s.writePf a.agent i o r value)) ∧
    (∀ value v, a.space = .vf0 v → s.vfAnswers v = true → a.off % 4 = 0 →
      exec (.registerWrite a value) s = .next (s.writeVf v a.off value)) ∧
    ∀ value v, a.space = .vf2 v → s.vfAnswers v = true → a.off % 4 = 0 →
      exec (.registerWrite a value) s = .next (s.writeNoel v a.off value)

/-- The JTAG port takes BYPASS, IDCODE and SAMPLE/PRELOAD in every state; EXTEST, every other IEEE 1149.1 instruction
and every IEEE 1500 wrapper instruction leave the block as it was until the port has been opened, which a debug unlock
does on every powered instance (R465). -/
def Obligations.JtagGate : Prop :=
  (∀ (s : State) (i : Nat),
    (∀ x ∈ [JtagInstr.bypass, .idcode, .samplePreload], exec (.jtagInstruction i x) s =
      .next (s.onPins i fun p => { p with tapInstr := x, tapReset := false })) ∧
    (∀ x ∈ [JtagInstr.extest, .other1149, .wrapper1500],
      ((s.site i).pins.jtagOpen = false → exec (.jtagInstruction i x) s = .next s) ∧
      ((s.site i).pins.jtagOpen = true → exec (.jtagInstruction i x) s =
        .next (s.onPins i fun p => { p with tapInstr := x, tapReset := false })))) ∧
  ∀ (s t : State) (i k : Nat), s.Inv → k < 8 → (s.site i).managed = true → (s.site k).pins.coldRstN = true →
    exec (.debugUnlock i true) s = .next t → (t.site k).pins.jtagOpen = true

/-- Core p is domain p for p from 0 to 5, cluster c is 6 + c, memory port p is 8 + p, die-to-die port j is 14 + j, the
host port is 18, the fabric port group is 19 and the instance is 20, in the numbers the model uses everywhere and in
the domain that a reset command of each kind names (R512). -/
def Obligations.DomainNumbers : Prop :=
  (∀ p, p < 6 → domCore p = p ∧ resetDom 0 p = some p ∧ unitDom .core p = p) ∧
    (∀ c, c < 2 → domCluster c = 6 + c ∧ resetDom 1 c = some (6 + c)) ∧
    (∀ p, p < 6 → domPort p = 8 + p ∧ resetDom 2 p = some (8 + p) ∧ unitDom .memPort p = 8 + p) ∧
    (∀ j, j < 4 → domD2d j = 14 + j ∧ resetDom 3 j = some (14 + j)) ∧
    resetDom 4 0 = some 18 ∧ (∀ l, unitDom .link l = 19) ∧ resetDom 5 0 = some 20
end

