-- ==== Sys2Proof/Laws/Exec.lean ====
section
/-! SUPPORT. Each command runs its own meaning: one equation per arm of `exec`. -/

namespace Sys2Proof.Machine

@[simp] theorem exec_nop {c : CmdRef} {s : State} :
    exec (.nop c) s = execNop c s := rfl
@[simp] theorem exec_streamCreate {c : CmdRef} {s : State} :
    exec (.streamCreate c) s = execStreamCreate c s := rfl
@[simp] theorem exec_streamDestroy {c : CmdRef} {s : State} :
    exec (.streamDestroy c) s = execStreamDestroy c s := rfl
@[simp] theorem exec_streamAbort {c : CmdRef} {s : State} :
    exec (.streamAbort c) s = execStreamAbort c s := rfl
@[simp] theorem exec_sliceInfo {c : CmdRef} {s : State} :
    exec (.sliceInfo c) s = execSliceInfo c s := rfl
@[simp] theorem exec_noelRingSet {c : CmdRef} {s : State} :
    exec (.noelRingSet c) s = execNoelRingSet c s := rfl
@[simp] theorem exec_aspaceCreate {c : CmdRef} {s : State} :
    exec (.aspaceCreate c) s = execAspaceCreate c s := rfl
@[simp] theorem exec_aspaceDestroy {c : CmdRef} {s : State} :
    exec (.aspaceDestroy c) s = execAspaceDestroy c s := rfl
@[simp] theorem exec_objCreate {c : CmdRef} {s : State} :
    exec (.objCreate c) s = execObjCreate c s := rfl
@[simp] theorem exec_objFree {c : CmdRef} {s : State} :
    exec (.objFree c) s = execObjFree c s := rfl
@[simp] theorem exec_map {c : CmdRef} {s : State} :
    exec (.map c) s = execMap c s := rfl
@[simp] theorem exec_unmap {c : CmdRef} {s : State} :
    exec (.unmap c) s = execUnmap c s := rfl
@[simp] theorem exec_faultResolve {c : CmdRef} {s : State} :
    exec (.faultResolve c) s = execFaultResolve c s := rfl
@[simp] theorem exec_tensorTile {c : CmdRef} {s : State} :
    exec (.tensorTile c) s = execTensorTile c s := rfl
@[simp] theorem exec_attention {c : CmdRef} {s : State} :
    exec (.attention c) s = execAttention c s := rfl
@[simp] theorem exec_scalarRun {c : CmdRef} {s : State} :
    exec (.scalarRun c) s = execScalarRun c s := rfl
@[simp] theorem exec_select {c : CmdRef} {s : State} :
    exec (.select c) s = execSelect c s := rfl
@[simp] theorem exec_gatherScatter {c : CmdRef} {s : State} :
    exec (.gatherScatter c) s = execGatherScatter c s := rfl
@[simp] theorem exec_layout {c : CmdRef} {s : State} :
    exec (.layout c) s = execLayout c s := rfl
@[simp] theorem exec_codec {c : CmdRef} {s : State} :
    exec (.codec c) s = execCodec c s := rfl
@[simp] theorem exec_route {c : CmdRef} {s : State} :
    exec (.route c) s = execRoute c s := rfl
@[simp] theorem exec_reduce {c : CmdRef} {s : State} :
    exec (.reduce c) s = execReduce c s := rfl
@[simp] theorem exec_reduceArm {c : CmdRef} {s : State} :
    exec (.reduceArm c) s = execReduceArm c s := rfl
@[simp] theorem exec_dmaCopy {c : CmdRef} {s : State} :
    exec (.dmaCopy c) s = execDmaCopy c s := rfl
@[simp] theorem exec_dmaFill {c : CmdRef} {s : State} :
    exec (.dmaFill c) s = execDmaFill c s := rfl
@[simp] theorem exec_fabAtomic {c : CmdRef} {s : State} :
    exec (.fabAtomic c) s = execFabAtomic c s := rfl
@[simp] theorem exec_loftAcquire {c : CmdRef} {s : State} :
    exec (.loftAcquire c) s = execLoftAcquire c s := rfl
@[simp] theorem exec_loftRelease {c : CmdRef} {s : State} :
    exec (.loftRelease c) s = execLoftRelease c s := rfl
@[simp] theorem exec_mcastGroupSet {c : CmdRef} {s : State} :
    exec (.mcastGroupSet c) s = execMcastGroupSet c s := rfl
@[simp] theorem exec_mcastWrite {c : CmdRef} {s : State} :
    exec (.mcastWrite c) s = execMcastWrite c s := rfl
@[simp] theorem exec_collective {c : CmdRef} {s : State} :
    exec (.collective c) s = execCollective c s := rfl
@[simp] theorem exec_feDoorbell {vd : Nat} {tail : BitVec 12} {s : State} :
    exec (.feDoorbell vd tail) s = execFeDoorbell vd tail s := rfl
@[simp] theorem exec_submissionRead {vd ring : Nat} {slots : List Bytes} {s : State} :
    exec (.submissionRead vd ring slots) s = execSubmissionRead vd ring slots s := rfl
@[simp] theorem exec_fetchLost {vd ring : Nat} {status : BitVec 16} {s : State} :
    exec (.fetchLost vd ring status) s = execFetchLost vd ring status s := rfl
@[simp] theorem exec_descriptorPlace {vd ring : Nat} {s : State} :
    exec (.descriptorPlace vd ring) s = execDescriptorPlace vd ring s := rfl
@[simp] theorem exec_feNoelDb {vd ring : Nat} {tail : BitVec 12} {s : State} :
    exec (.feNoelDb vd ring tail) s = execFeNoelDb vd ring tail s := rfl
@[simp] theorem exec_commandReady {c : CmdRef} {s : State} :
    exec (.commandReady c) s = execCommandReady c s := rfl
@[simp] theorem exec_commandIssue {c : CmdRef} {s : State} :
    exec (.commandIssue c) s = execCommandIssue c s := rfl
@[simp] theorem exec_commandEnd {c : CmdRef} {s : State} :
    exec (.commandEnd c) s = execCommandEnd c s := rfl
@[simp] theorem exec_commandTimeout {c : CmdRef} {s : State} :
    exec (.commandTimeout c) s = execCommandTimeout c s := rfl
@[simp] theorem exec_fenceSignal {c : CmdRef} {s : State} :
    exec (.fenceSignal c) s = execFenceSignal c s := rfl
@[simp] theorem exec_fenceReevaluate {c : CmdRef} {s : State} :
    exec (.fenceReevaluate c) s = execFenceReevaluate c s := rfl
@[simp] theorem exec_completionRecordWrite {c : CmdRef} {s : State} :
    exec (.completionRecordWrite c) s = execCompletionRecordWrite c s := rfl
@[simp] theorem exec_msixCoalesceExpiry {vd vec : Nat} {s : State} :
    exec (.msixCoalesceExpiry vd vec) s = execMsixCoalesceExpiry vd vec s := rfl
@[simp] theorem exec_msixUnmask {vd vec : Nat} {s : State} :
    exec (.msixUnmask vd vec) s = execMsixUnmask vd vec s := rfl
@[simp] theorem exec_streamFreed {vd st : Nat} {s : State} :
    exec (.streamFreed vd st) s = execStreamFreed vd st s := rfl
@[simp] theorem exec_feCqHead {vd : Nat} {head : W32} {s : State} :
    exec (.feCqHead vd head) s = execFeCqHead vd head s := rfl
@[simp] theorem exec_feEqHead {vd : Nat} {head : W32} {s : State} :
    exec (.feEqHead vd head) s = execFeEqHead vd head s := rfl
@[simp] theorem exec_feFqHead {vd : Nat} {head : W32} {s : State} :
    exec (.feFqHead vd head) s = execFeFqHead vd head s := rfl
@[simp] theorem exec_feNoelCqHead {vd ring : Nat} {head : W32} {s : State} :
    exec (.feNoelCqHead vd ring head) s = execFeNoelCqHead vd ring head s := rfl
@[simp] theorem exec_ringEnable {vd : Nat} {s : State} :
    exec (.ringEnable vd) s = execRingEnable vd s := rfl
@[simp] theorem exec_ringDisable {vd : Nat} {s : State} :
    exec (.ringDisable vd) s = execRingDisable vd s := rfl
@[simp] theorem exec_feStreamResume {vd : Nat} {value : W32} {s : State} :
    exec (.feStreamResume vd value) s = execFeStreamResume vd value s := rfl
@[simp] theorem exec_dvaFault {c : CmdRef} {dva : Nat} {access : BitVec 3} {engine : Nat} {s : State} :
    exec (.dvaFault c dva access engine) s = execDvaFault c dva access engine s := rfl
@[simp] theorem exec_faultBatchWrite {vd : Nat} {s : State} :
    exec (.faultBatchWrite vd) s = execFaultBatchWrite vd s := rfl
@[simp] theorem exec_faultRingFullExpiry {vd : Nat} {s : State} :
    exec (.faultRingFullExpiry vd) s = execFaultRingFullExpiry vd s := rfl
@[simp] theorem exec_faultEntryExpiry {vd fid : Nat} {s : State} :
    exec (.faultEntryExpiry vd fid) s = execFaultEntryExpiry vd fid s := rfl
@[simp] theorem exec_invalidationAck {vd k : Nat} {s : State} :
    exec (.invalidationAck vd k) s = execInvalidationAck vd k s := rfl
@[simp] theorem exec_invalidationDrain {vd k : Nat} {s : State} :
    exec (.invalidationDrain vd k) s = execInvalidationDrain vd k s := rfl
@[simp] theorem exec_atsInvalidation {vd bus len : Nat} {s : State} :
    exec (.atsInvalidation vd bus len) s = execAtsInvalidation vd bus len s := rfl
@[simp] theorem exec_pageRequestResponse {c : CmdRef} {ok : Bool} {s : State} :
    exec (.pageRequestResponse c ok) s = execPageRequestResponse c ok s := rfl
@[simp] theorem exec_hostCompletion {c : CmdRef} {st : HostStatus} {bus : Nat} {data : Bytes} {s : State} :
    exec (.hostCompletion c st bus data) s = execHostCompletion c st bus data s := rfl
@[simp] theorem exec_release {vd obj : Nat} {s : State} :
    exec (.release vd obj) s = execRelease vd obj s := rfl
@[simp] theorem exec_tileBoundary {i core q : Nat} {s : State} :
    exec (.tileBoundary i core q) s = execTileBoundary i core q s := rfl
@[simp] theorem exec_quantumExpiry {i core q : Nat} {s : State} :
    exec (.quantumExpiry i core q) s = execQuantumExpiry i core q s := rfl
@[simp] theorem exec_reelIdleYield {i core q : Nat} {s : State} :
    exec (.reelIdleYield i core q) s = execReelIdleYield i core q s := rfl
@[simp] theorem exec_switchWindow {i core q : Nat} {s : State} :
    exec (.switchWindow i core q) s = execSwitchWindow i core q s := rfl
@[simp] theorem exec_zeroingDone {i core q : Nat} {s : State} :
    exec (.zeroingDone i core q) s = execZeroingDone i core q s := rfl
@[simp] theorem exec_budgetWindowEnd {i slice bset path : Nat} {m : WindowMeasure} {s : State} :
    exec (.budgetWindowEnd i slice bset path m) s = execBudgetWindowEnd i slice bset path m s := rfl
@[simp] theorem exec_memoryRead {i : Nat} {r : MemReq} {f : ReadFinding} {s : State} :
    exec (.memoryRead i r f) s = execMemoryRead i r f s := rfl
@[simp] theorem exec_memoryWrite {i : Nat} {r : MemReq} {data : Bytes} {s : State} :
    exec (.memoryWrite i r data) s = execMemoryWrite i r data s := rfl
@[simp] theorem exec_refresh {i ch : Nat} {s : State} :
    exec (.refresh i ch) s = execRefresh i ch s := rfl
@[simp] theorem exec_phyMasterRequest {i ch : Nat} {s : State} :
    exec (.phyMasterRequest i ch) s = execPhyMasterRequest i ch s := rfl
@[simp] theorem exec_memoryPortTraining {i port : Nat} {t : TrainReport} {s : State} :
    exec (.memoryPortTraining i port t) s = execMemoryPortTraining i port t s := rfl
@[simp] theorem exec_phyReadyTimeout {i port : Nat} {s : State} :
    exec (.phyReadyTimeout i port) s = execPhyReadyTimeout i port s := rfl
@[simp] theorem exec_sweep {i : Nat} {s : State} :
    exec (.sweep i) s = execSweep i s := rfl
@[simp] theorem exec_claim {i ch : Nat} {s : State} :
    exec (.claim i ch) s = execClaim i ch s := rfl
@[simp] theorem exec_copy {i ch : Nat} {ok : Bool} {s : State} :
    exec (.copy i ch ok) s = execCopy i ch ok s := rfl
@[simp] theorem exec_reCopy {i ch : Nat} {ok : Bool} {s : State} :
    exec (.reCopy i ch ok) s = execReCopy i ch ok s := rfl
@[simp] theorem exec_switch {i ch : Nat} {s : State} :
    exec (.switch i ch) s = execSwitch i ch s := rfl
@[simp] theorem exec_tgPatternDone {i ch : Nat} {r : TgReport} {s : State} :
    exec (.tgPatternDone i ch r) s = execTgPatternDone i ch r s := rfl
@[simp] theorem exec_readReq {i : Nat} {p : Pkt} {s : State} :
    exec (.readReq i p) s = execReadReq i p s := rfl
@[simp] theorem exec_readRsp {i : Nat} {p : Pkt} {s : State} :
    exec (.readRsp i p) s = execReadRsp i p s := rfl
@[simp] theorem exec_write {i : Nat} {p : Pkt} {s : State} :
    exec (.write i p) s = execWrite i p s := rfl
@[simp] theorem exec_writeAck {i : Nat} {p : Pkt} {s : State} :
    exec (.writeAck i p) s = execWriteAck i p s := rfl
@[simp] theorem exec_atomic {i : Nat} {p : Pkt} {s : State} :
    exec (.atomic i p) s = execAtomic i p s := rfl
@[simp] theorem exec_atomicRsp {i : Nat} {p : Pkt} {s : State} :
    exec (.atomicRsp i p) s = execAtomicRsp i p s := rfl
@[simp] theorem exec_fenceSig {i : Nat} {p : Pkt} {s : State} :
    exec (.fenceSig i p) s = execFenceSig i p s := rfl
@[simp] theorem exec_fenceAck {i : Nat} {p : Pkt} {s : State} :
    exec (.fenceAck i p) s = execFenceAck i p s := rfl
@[simp] theorem exec_contrib {i : Nat} {p : Pkt} {s : State} :
    exec (.contrib i p) s = execContrib i p s := rfl
@[simp] theorem exec_contribAck {i : Nat} {p : Pkt} {s : State} :
    exec (.contribAck i p) s = execContribAck i p s := rfl
@[simp] theorem exec_control {i : Nat} {p : Pkt} {s : State} :
    exec (.control i p) s = execControl i p s := rfl
@[simp] theorem exec_controlAck {i : Nat} {p : Pkt} {s : State} :
    exec (.controlAck i p) s = execControlAck i p s := rfl
@[simp] theorem exec_linkFrame {i l seq : Nat} {crcOk : Bool} {units : Nat} {s : State} :
    exec (.linkFrame i l seq crcOk units) s = execLinkFrame i l seq crcOk units s := rfl
@[simp] theorem exec_acknowledgement {i l seq : Nat} {s : State} :
    exec (.acknowledgement i l seq) s = execAcknowledgement i l seq s := rfl
@[simp] theorem exec_negativeAcknowledgement {i l seq : Nat} {s : State} :
    exec (.negativeAcknowledgement i l seq) s = execNegativeAcknowledgement i l seq s := rfl
@[simp] theorem exec_creditReturn {i l : Nat} {cr : CreditGrant} {s : State} :
    exec (.creditReturn i l cr) s = execCreditReturn i l cr s := rfl
@[simp] theorem exec_detect {i l : Nat} {signal : BitVec 5} {s : State} :
    exec (.detect i l signal) s = execDetect i l signal s := rfl
@[simp] theorem exec_linkMap {i l : Nat} {lanes : List LaneObs} {s : State} :
    exec (.linkMap i l lanes) s = execLinkMap i l lanes s := rfl
@[simp] theorem exec_equalise {i l : Nat} {signal : BitVec 5} {s : State} :
    exec (.equalise i l signal) s = execEqualise i l signal s := rfl
@[simp] theorem exec_align {i l : Nat} {ok : Bool} {s : State} :
    exec (.align i l ok) s = execAlign i l ok s := rfl
@[simp] theorem exec_credit {i l : Nat} {cr : CreditGrant} {rtt : Nat} {s : State} :
    exec (.credit i l cr rtt) s = execCredit i l cr rtt s := rfl
@[simp] theorem exec_laneLoss {i l lane : Nat} {s : State} :
    exec (.laneLoss i l lane) s = execLaneLoss i l lane s := rfl
@[simp] theorem exec_linkRetry {i l : Nat} {s : State} :
    exec (.linkRetry i l) s = execLinkRetry i l s := rfl
@[simp] theorem exec_transportTimeout {i txn : Nat} {s : State} :
    exec (.transportTimeout i txn) s = execTransportTimeout i txn s := rfl
@[simp] theorem exec_forwardTimeout {i tag : Nat} {s : State} :
    exec (.forwardTimeout i tag) s = execForwardTimeout i tag s := rfl
@[simp] theorem exec_holdTimeExpiry {c : CmdRef} {branch : Nat} {s : State} :
    exec (.holdTimeExpiry c branch) s = execHoldTimeExpiry c branch s := rfl
@[simp] theorem exec_fabRt {i d : Nat} {hi : W32} {s : State} :
    exec (.fabRt i d hi) s = execFabRt i d hi s := rfl
@[simp] theorem exec_fabQuiesceReq {i slot : Nat} {s : State} :
    exec (.fabQuiesceReq i slot) s = execFabQuiesceReq i slot s := rfl
@[simp] theorem exec_fabQuiesceDone {i : Nat} {s : State} :
    exec (.fabQuiesceDone i) s = execFabQuiesceDone i s := rfl
@[simp] theorem exec_dmaQuiesceReq {i slot : Nat} {s : State} :
    exec (.dmaQuiesceReq i slot) s = execDmaQuiesceReq i slot s := rfl
@[simp] theorem exec_quiesceClear {i : Nat} {fab : Bool} {s : State} :
    exec (.quiesceClear i fab) s = execQuiesceClear i fab s := rfl
@[simp] theorem exec_d2dTraining {i j : Nat} {r : D2dReport} {s : State} :
    exec (.d2dTraining i j r) s = execD2dTraining i j r s := rfl
@[simp] theorem exec_d2dPortDown {i j : Nat} {s : State} :
    exec (.d2dPortDown i j) s = execD2dPortDown i j s := rfl
@[simp] theorem exec_keyCreate {i slot slice : Nat} {s : State} :
    exec (.keyCreate i slot slice) s = execKeyCreate i slot slice s := rfl
@[simp] theorem exec_keyInstall {i slot slice : Nat} {gen : BitVec 6} {secret : BitVec 256} {s : State} :
    exec (.keyInstall i slot slice gen secret) s = execKeyInstall i slot slice gen secret s := rfl
@[simp] theorem exec_keyWrap {i slot : Nat} {peer : PeerReport} {s : State} :
    exec (.keyWrap i slot peer) s = execKeyWrap i slot peer s := rfl
@[simp] theorem exec_keyDrain {i slot : Nat} {s : State} :
    exec (.keyDrain i slot) s = execKeyDrain i slot s := rfl
@[simp] theorem exec_keyDestroy {i slot : Nat} {s : State} :
    exec (.keyDestroy i slot) s = execKeyDestroy i slot s := rfl
@[simp] theorem exec_removalStep {slice : Nat} {s : State} :
    exec (.removalStep slice) s = execRemovalStep slice s := rfl
@[simp] theorem exec_getMeasurements {index : Nat} {s : State} :
    exec (.getMeasurements index) s = execGetMeasurements index s := rfl
@[simp] theorem exec_sliceReport {vd : Nat} {nonce : Bytes} {s : State} :
    exec (.sliceReport vd nonce) s = execSliceReport vd nonce s := rfl
@[simp] theorem exec_spdmRequest {code : Byte} {s : State} :
    exec (.spdmRequest code) s = execSpdmRequest code s := rfl
@[simp] theorem exec_ideKm {i stream keyset : Nat} {rx : Bool} {s : State} :
    exec (.ideKm i stream keyset rx) s = execIdeKm i stream keyset rx s := rfl
@[simp] theorem exec_ideStreamLoss {i stream : Nat} {s : State} :
    exec (.ideStreamLoss i stream) s = execIdeStreamLoss i stream s := rfl
@[simp] theorem exec_getTdispVersion {vd : Nat} {s : State} :
    exec (.getTdispVersion vd) s = execGetTdispVersion vd s := rfl
@[simp] theorem exec_getTdispCapabilities {vd : Nat} {s : State} :
    exec (.getTdispCapabilities vd) s = execGetTdispCapabilities vd s := rfl
@[simp] theorem exec_lockInterfaceRequest {vd stream : Nat} {s : State} :
    exec (.lockInterfaceRequest vd stream) s = execLockInterfaceRequest vd stream s := rfl
@[simp] theorem exec_getDeviceInterfaceReport {vd : Nat} {s : State} :
    exec (.getDeviceInterfaceReport vd) s = execGetDeviceInterfaceReport vd s := rfl
@[simp] theorem exec_getDeviceInterfaceState {vd : Nat} {s : State} :
    exec (.getDeviceInterfaceState vd) s = execGetDeviceInterfaceState vd s := rfl
@[simp] theorem exec_startInterfaceRequest {vd : Nat} {s : State} :
    exec (.startInterfaceRequest vd) s = execStartInterfaceRequest vd s := rfl
@[simp] theorem exec_stopInterfaceRequest {vd : Nat} {s : State} :
    exec (.stopInterfaceRequest vd) s = execStopInterfaceRequest vd s := rfl
@[simp] theorem exec_configurationRequest {i fn : Nat} {r : CfgReq} {s : State} :
    exec (.configurationRequest i fn r) s = execConfigurationRequest i fn r s := rfl
@[simp] theorem exec_functionLevelReset {i fn : Nat} {s : State} :
    exec (.functionLevelReset i fn) s = execFunctionLevelReset i fn s := rfl
@[simp] theorem exec_hipPerstN {i : Nat} {level : Bool} {s : State} :
    exec (.hipPerstN i level) s = execHipPerstN i level s := rfl
@[simp] theorem exec_reqTail {value : W32} {s : State} :
    exec (.reqTail value) s = execReqTail value s := rfl
@[simp] theorem exec_requestTake {agent : Byte} {pkt : Bytes} {s : State} :
    exec (.requestTake agent pkt) s = execRequestTake agent pkt s := rfl
@[simp] theorem exec_managementRingEnable {value : W32} {s : State} :
    exec (.managementRingEnable value) s = execManagementRingEnable value s := rfl
@[simp] theorem exec_managementRingDisable {s : State} :
    exec (.managementRingDisable) s = execManagementRingDisable s := rfl
@[simp] theorem exec_rplHead {value : W32} {s : State} :
    exec (.rplHead value) s = execRplHead value s := rfl
@[simp] theorem exec_fltHead {value : W32} {s : State} :
    exec (.fltHead value) s = execFltHead value s := rfl
@[simp] theorem exec_faultRecordWrite {i : Nat} {s : State} :
    exec (.faultRecordWrite i) s = execFaultRecordWrite i s := rfl
@[simp] theorem exec_lossSummary {i us : Nat} {s : State} :
    exec (.lossSummary i us) s = execLossSummary i us s := rfl
@[simp] theorem exec_sliceCreate {m : MgmtRun} {s : State} :
    exec (.sliceCreate m) s = execSliceCreate m s := rfl
@[simp] theorem exec_sliceDestroy {m : MgmtRun} {s : State} :
    exec (.sliceDestroy m) s = execSliceDestroy m s := rfl
@[simp] theorem exec_unitBind {m : MgmtRun} {s : State} :
    exec (.unitBind m) s = execUnitBind m s := rfl
@[simp] theorem exec_unitUnbind {m : MgmtRun} {s : State} :
    exec (.unitUnbind m) s = execUnitUnbind m s := rfl
@[simp] theorem exec_unitMove {m : MgmtRun} {s : State} :
    exec (.unitMove m) s = execUnitMove m s := rfl
@[simp] theorem exec_allotSet {m : MgmtRun} {s : State} :
    exec (.allotSet m) s = execAllotSet m s := rfl
@[simp] theorem exec_schedSet {m : MgmtRun} {s : State} :
    exec (.schedSet m) s = execSchedSet m s := rfl
@[simp] theorem exec_coreMode {m : MgmtRun} {s : State} :
    exec (.coreMode m) s = execCoreMode m s := rfl
@[simp] theorem exec_labelSet {m : MgmtRun} {s : State} :
    exec (.labelSet m) s = execLabelSet m s := rfl
@[simp] theorem exec_shareSet {m : MgmtRun} {s : State} :
    exec (.shareSet m) s = execShareSet m s := rfl
@[simp] theorem exec_guardSet {m : MgmtRun} {s : State} :
    exec (.guardSet m) s = execGuardSet m s := rfl
@[simp] theorem exec_mcastRange {m : MgmtRun} {s : State} :
    exec (.mcastRange m) s = execMcastRange m s := rfl
@[simp] theorem exec_loftBudget {m : MgmtRun} {s : State} :
    exec (.loftBudget m) s = execLoftBudget m s := rfl
@[simp] theorem exec_lendSet {m : MgmtRun} {s : State} :
    exec (.lendSet m) s = execLendSet m s := rfl
@[simp] theorem exec_coreState {m : MgmtRun} {s : State} :
    exec (.coreState m) s = execCoreState m s := rfl
@[simp] theorem exec_memportState {m : MgmtRun} {s : State} :
    exec (.memportState m) s = execMemportState m s := rfl
@[simp] theorem exec_linkState {m : MgmtRun} {s : State} :
    exec (.linkState m) s = execLinkState m s := rfl
@[simp] theorem exec_reset {m : MgmtRun} {s : State} :
    exec (.reset m) s = execReset m s := rfl
@[simp] theorem exec_escalateSet {m : MgmtRun} {s : State} :
    exec (.escalateSet m) s = execEscalateSet m s := rfl
@[simp] theorem exec_healthGet {m : MgmtRun} {s : State} :
    exec (.healthGet m) s = execHealthGet m s := rfl
@[simp] theorem exec_fwStage {m : MgmtRun} {s : State} :
    exec (.fwStage m) s = execFwStage m s := rfl
@[simp] theorem exec_fwActivate {m : MgmtRun} {s : State} :
    exec (.fwActivate m) s = execFwActivate m s := rfl
@[simp] theorem exec_fwCommit {m : MgmtRun} {s : State} :
    exec (.fwCommit m) s = execFwCommit m s := rfl
@[simp] theorem exec_fwDiscard {m : MgmtRun} {s : State} :
    exec (.fwDiscard m) s = execFwDiscard m s := rfl
@[simp] theorem exec_fwInfo {m : MgmtRun} {s : State} :
    exec (.fwInfo m) s = execFwInfo m s := rfl
@[simp] theorem exec_attState {m : MgmtRun} {s : State} :
    exec (.attState m) s = execAttState m s := rfl
@[simp] theorem exec_attMeasure {m : MgmtRun} {s : State} :
    exec (.attMeasure m) s = execAttMeasure m s := rfl
@[simp] theorem exec_attReport {m : MgmtRun} {s : State} :
    exec (.attReport m) s = execAttReport m s := rfl
@[simp] theorem exec_policySet {m : MgmtRun} {s : State} :
    exec (.policySet m) s = execPolicySet m s := rfl
@[simp] theorem exec_pageRetire {m : MgmtRun} {s : State} :
    exec (.pageRetire m) s = execPageRetire m s := rfl
@[simp] theorem exec_chEvacuate {m : MgmtRun} {s : State} :
    exec (.chEvacuate m) s = execChEvacuate m s := rfl
@[simp] theorem exec_chReturn {m : MgmtRun} {s : State} :
    exec (.chReturn m) s = execChReturn m s := rfl
@[simp] theorem exec_weightAllot {m : MgmtRun} {s : State} :
    exec (.weightAllot m) s = execWeightAllot m s := rfl
@[simp] theorem exec_weightLoad {m : MgmtRun} {s : State} :
    exec (.weightLoad m) s = execWeightLoad m s := rfl
@[simp] theorem exec_weightCopy {m : MgmtRun} {s : State} :
    exec (.weightCopy m) s = execWeightCopy m s := rfl
@[simp] theorem exec_weightGrant {m : MgmtRun} {s : State} :
    exec (.weightGrant m) s = execWeightGrant m s := rfl
@[simp] theorem exec_weightRevoke {m : MgmtRun} {s : State} :
    exec (.weightRevoke m) s = execWeightRevoke m s := rfl
@[simp] theorem exec_weightFree {m : MgmtRun} {s : State} :
    exec (.weightFree m) s = execWeightFree m s := rfl
@[simp] theorem exec_linkEnable {m : MgmtRun} {s : State} :
    exec (.linkEnable m) s = execLinkEnable m s := rfl
@[simp] theorem exec_portgroupReset {m : MgmtRun} {s : State} :
    exec (.portgroupReset m) s = execPortgroupReset m s := rfl
@[simp] theorem exec_chTest {m : MgmtRun} {s : State} :
    exec (.chTest m) s = execChTest m s := rfl
@[simp] theorem exec_logLevel {m : MgmtRun} {s : State} :
    exec (.logLevel m) s = execLogLevel m s := rfl
@[simp] theorem exec_migrateFreeze {m : MgmtRun} {s : State} :
    exec (.migrateFreeze m) s = execMigrateFreeze m s := rfl
@[simp] theorem exec_migratePeer {m : MgmtRun} {s : State} :
    exec (.migratePeer m) s = execMigratePeer m s := rfl
@[simp] theorem exec_migrateSave {m : MgmtRun} {s : State} :
    exec (.migrateSave m) s = execMigrateSave m s := rfl
@[simp] theorem exec_migrateRestore {m : MgmtRun} {s : State} :
    exec (.migrateRestore m) s = execMigrateRestore m s := rfl
@[simp] theorem exec_migrateCommit {m : MgmtRun} {s : State} :
    exec (.migrateCommit m) s = execMigrateCommit m s := rfl
@[simp] theorem exec_migrateCancel {m : MgmtRun} {s : State} :
    exec (.migrateCancel m) s = execMigrateCancel m s := rfl
@[simp] theorem exec_migrateThaw {m : MgmtRun} {s : State} :
    exec (.migrateThaw m) s = execMigrateThaw m s := rfl
@[simp] theorem exec_spareIn {m : MgmtRun} {s : State} :
    exec (.spareIn m) s = execSpareIn m s := rfl
@[simp] theorem exec_healthCheck {m : MgmtRun} {s : State} :
    exec (.healthCheck m) s = execHealthCheck m s := rfl
@[simp] theorem exec_spareGet {m : MgmtRun} {s : State} :
    exec (.spareGet m) s = execSpareGet m s := rfl
@[simp] theorem exec_mbxLock {i : Nat} {agent : Byte} {box : Nat} {s : State} :
    exec (.mbxLock i agent box) s = execMbxLock i agent box s := rfl
@[simp] theorem exec_mbxData {i : Nat} {agent : Byte} {box w : Nat} {value : W32} {s : State} :
    exec (.mbxData i agent box w value) s = execMbxData i agent box w value s := rfl
@[simp] theorem exec_mbxDoorbell {i : Nat} {agent : Byte} {box : Nat} {value : W32} {s : State} :
    exec (.mbxDoorbell i agent box value) s = execMbxDoorbell i agent box value s := rfl
@[simp] theorem exec_mbxFree {i : Nat} {agent : Byte} {box : Nat} {value : W32} {s : State} :
    exec (.mbxFree i agent box value) s = execMbxFree i agent box value s := rfl
@[simp] theorem exec_sourceEdge {i proc n : Nat} {s : State} :
    exec (.sourceEdge i proc n) s = execSourceEdge i proc n s := rfl
@[simp] theorem exec_irqCoalesceExpiry {i n : Nat} {s : State} :
    exec (.irqCoalesceExpiry i n) s = execIrqCoalesceExpiry i n s := rfl
@[simp] theorem exec_irqClaim {i proc : Nat} {s : State} :
    exec (.irqClaim i proc) s = execIrqClaim i proc s := rfl
@[simp] theorem exec_irqIpi {i proc : Nat} {value : W32} {s : State} :
    exec (.irqIpi i proc value) s = execIrqIpi i proc value s := rfl
@[simp] theorem exec_domainReset {i u cause : Nat} {s : State} :
    exec (.domainReset i u cause) s = execDomainReset i u cause s := rfl
@[simp] theorem exec_resetRelease {i u : Nat} {s : State} :
    exec (.resetRelease i u) s = execResetRelease i u s := rfl
@[simp] theorem exec_domainUp {i u : Nat} {s : State} :
    exec (.domainUp i u) s = execDomainUp i u s := rfl
@[simp] theorem exec_spareBringIn {i core : Nat} {bistOk : Bool} {s : State} :
    exec (.spareBringIn i core bistOk) s = execSpareBringIn i core bistOk s := rfl
@[simp] theorem exec_hang {i core : Nat} {dma : Bool} {engine : Nat} {s : State} :
    exec (.hang i core dma engine) s = execHang i core dma engine s := rfl
@[simp] theorem exec_sequencerReportMiss {i cl : Nat} {s : State} :
    exec (.sequencerReportMiss i cl) s = execSequencerReportMiss i cl s := rfl
@[simp] theorem exec_heartbeatMiss {i : Nat} {s : State} :
    exec (.heartbeatMiss i) s = execHeartbeatMiss i s := rfl
@[simp] theorem exec_watchdogExpiry {i proc : Nat} {s : State} :
    exec (.watchdogExpiry i proc) s = execWatchdogExpiry i proc s := rfl
@[simp] theorem exec_siblingHeartbeatMiss {i : Nat} {s : State} :
    exec (.siblingHeartbeatMiss i) s = execSiblingHeartbeatMiss i s := rfl
@[simp] theorem exec_drainFailure {i core : Nat} {s : State} :
    exec (.drainFailure i core) s = execDrainFailure i core s := rfl
@[simp] theorem exec_coldRstNRelease {i : Nat} {b : BootInput} {s : State} :
    exec (.coldRstNRelease i b) s = execColdRstNRelease i b s := rfl
@[simp] theorem exec_coldRstNAssert {i : Nat} {s : State} :
    exec (.coldRstNAssert i) s = execColdRstNAssert i s := rfl
@[simp] theorem exec_membershipSettle {s : State} :
    exec (.membershipSettle) s = execMembershipSettle s := rfl
@[simp] theorem exec_resetReq {i : Nat} {s : State} :
    exec (.resetReq i) s = execResetReq i s := rfl
@[simp] theorem exec_faultIn {i : Nat} {s : State} :
    exec (.faultIn i) s = execFaultIn i s := rfl
@[simp] theorem exec_thermAlert {i : Nat} {s : State} :
    exec (.thermAlert i) s = execThermAlert i s := rfl
@[simp] theorem exec_hspCattrip {i stack : Nat} {s : State} :
    exec (.hspCattrip i stack) s = execHspCattrip i stack s := rfl
@[simp] theorem exec_temperatureSample {i sensor : Nat} {temp : BitVec 12} {s : State} :
    exec (.temperatureSample i sensor temp) s = execTemperatureSample i sensor temp s := rfl
@[simp] theorem exec_lossOfLock {i loop : Nat} {s : State} :
    exec (.lossOfLock i loop) s = execLossOfLock i loop s := rfl
@[simp] theorem exec_relock {i loop : Nat} {s : State} :
    exec (.relock i loop) s = execRelock i loop s := rfl
@[simp] theorem exec_powerTransition {i : Nat} {kind : PowerUnit} {idx : Nat} {s : State} :
    exec (.powerTransition i kind idx) s = execPowerTransition i kind idx s := rfl
@[simp] theorem exec_pswAck {i k : Nat} {level : Bool} {s : State} :
    exec (.pswAck i k level) s = execPswAck i k level s := rfl
@[simp] theorem exec_pswAckTimeout {i k : Nat} {s : State} :
    exec (.pswAckTimeout i k) s = execPswAckTimeout i k s := rfl
@[simp] theorem exec_debugUnlock {i : Nat} {ok : Bool} {s : State} :
    exec (.debugUnlock i ok) s = execDebugUnlock i ok s := rfl
@[simp] theorem exec_jtagInstruction {i : Nat} {code : JtagInstr} {s : State} :
    exec (.jtagInstruction i code) s = execJtagInstruction i code s := rfl
@[simp] theorem exec_tapReset {i : Nat} {s : State} :
    exec (.tapReset i) s = execTapReset i s := rfl
@[simp] theorem exec_entdaa {i : Nat} {addr : BitVec 7} {s : State} :
    exec (.entdaa i addr) s = execEntdaa i addr s := rfl
@[simp] theorem exec_setdasa {i : Nat} {addr : BitVec 7} {s : State} :
    exec (.setdasa i addr) s = execSetdasa i addr s := rfl
@[simp] theorem exec_targetReset {i : Nat} {s : State} :
    exec (.targetReset i) s = execTargetReset i s := rfl
@[simp] theorem exec_go {i ch : Nat} {value : W32} {s : State} :
    exec (.go i ch value) s = execGo i ch value s := rfl
@[simp] theorem exec_stop {i ch : Nat} {s : State} :
    exec (.stop i ch) s = execStop i ch s := rfl
@[simp] theorem exec_snap {i : Nat} {value : W32} {s : State} :
    exec (.snap i value) s = execSnap i value s := rfl
@[simp] theorem exec_snapClear {i : Nat} {value : W32} {s : State} :
    exec (.snapClear i value) s = execSnapClear i value s := rfl
@[simp] theorem exec_lowWordRead {a : RegAddr} {s : State} :
    exec (.lowWordRead a) s = execLowWordRead a s := rfl
@[simp] theorem exec_highWordRead {a : RegAddr} {s : State} :
    exec (.highWordRead a) s = execHighWordRead a s := rfl
@[simp] theorem exec_rcRead {a : RegAddr} {s : State} :
    exec (.rcRead a) s = execRcRead a s := rfl
@[simp] theorem exec_registerWrite {a : RegAddr} {value : W32} {s : State} :
    exec (.registerWrite a value) s = execRegisterWrite a value s := rfl
@[simp] theorem exec_chainRow {i core half : Nat} {s : State} :
    exec (.chainRow i core half) s = execChainRow i core half s := rfl
@[simp] theorem exec_ticketEnd {i core ticket : Nat} {s : State} :
    exec (.ticketEnd i core ticket) s = execTicketEnd i core ticket s := rfl
@[simp] theorem exec_moveEnd {i core ticket : Nat} {ok : Bool} {s : State} :
    exec (.moveEnd i core ticket ok) s = execMoveEnd i core ticket ok s := rfl
@[simp] theorem exec_evwaitExpiry {e : SeRef} {s : State} :
    exec (.evwaitExpiry e) s = execEvwaitExpiry e s := rfl
@[simp] theorem exec_scalarInstruction {e : SeRef} {w : W32} {s : State} :
    exec (.scalarInstruction e w) s = execScalarInstruction e w s := rfl
@[simp] theorem exec_wfi {e : SeRef} {w : W32} {s : State} :
    exec (.wfi e w) s = execWfi e w s := rfl
@[simp] theorem exec_vlaunch {e : SeRef} {w : W32} {s : State} :
    exec (.vlaunch e w) s = execVlaunch e w s := rfl
@[simp] theorem exec_vwait {e : SeRef} {w : W32} {s : State} :
    exec (.vwait e w) s = execVwait e w s := rfl
@[simp] theorem exec_vpoll {e : SeRef} {w : W32} {s : State} :
    exec (.vpoll e w) s = execVpoll e w s := rfl
@[simp] theorem exec_cmcopy {e : SeRef} {w : W32} {s : State} :
    exec (.cmcopy e w) s = execCmcopy e w s := rfl
@[simp] theorem exec_mwait {e : SeRef} {w : W32} {s : State} :
    exec (.mwait e w) s = execMwait e w s := rfl
@[simp] theorem exec_evwait {e : SeRef} {w : W32} {s : State} :
    exec (.evwait e w) s = execEvwait e w s := rfl
@[simp] theorem exec_evset {e : SeRef} {w : W32} {s : State} :
    exec (.evset e w) s = execEvset e w s := rfl
@[simp] theorem exec_sehalt {e : SeRef} {w : W32} {s : State} :
    exec (.sehalt e w) s = execSehalt e w s := rfl
@[simp] theorem exec_charm {e : SeRef} {w : W32} {s : State} :
    exec (.charm e w) s = execCharm e w s := rfl
@[simp] theorem exec_vabort {e : SeRef} {w : W32} {s : State} :
    exec (.vabort e w) s = execVabort e w s := rfl
@[simp] theorem exec_vadd {e : VeRef} {w : W64} {s : State} :
    exec (.vadd e w) s = execVadd e w s := rfl
@[simp] theorem exec_vsub {e : VeRef} {w : W64} {s : State} :
    exec (.vsub e w) s = execVsub e w s := rfl
@[simp] theorem exec_vmul {e : VeRef} {w : W64} {s : State} :
    exec (.vmul e w) s = execVmul e w s := rfl
@[simp] theorem exec_vfma {e : VeRef} {w : W64} {s : State} :
    exec (.vfma e w) s = execVfma e w s := rfl
@[simp] theorem exec_vfms {e : VeRef} {w : W64} {s : State} :
    exec (.vfms e w) s = execVfms e w s := rfl
@[simp] theorem exec_vmax {e : VeRef} {w : W64} {s : State} :
    exec (.vmax e w) s = execVmax e w s := rfl
@[simp] theorem exec_vmin {e : VeRef} {w : W64} {s : State} :
    exec (.vmin e w) s = execVmin e w s := rfl
@[simp] theorem exec_vabs {e : VeRef} {w : W64} {s : State} :
    exec (.vabs e w) s = execVabs e w s := rfl
@[simp] theorem exec_vneg {e : VeRef} {w : W64} {s : State} :
    exec (.vneg e w) s = execVneg e w s := rfl
@[simp] theorem exec_vand {e : VeRef} {w : W64} {s : State} :
    exec (.vand e w) s = execVand e w s := rfl
@[simp] theorem exec_vor {e : VeRef} {w : W64} {s : State} :
    exec (.vor e w) s = execVor e w s := rfl
@[simp] theorem exec_vxor {e : VeRef} {w : W64} {s : State} :
    exec (.vxor e w) s = execVxor e w s := rfl
@[simp] theorem exec_vshl {e : VeRef} {w : W64} {s : State} :
    exec (.vshl e w) s = execVshl e w s := rfl
@[simp] theorem exec_vsra {e : VeRef} {w : W64} {s : State} :
    exec (.vsra e w) s = execVsra e w s := rfl
@[simp] theorem exec_vsrl {e : VeRef} {w : W64} {s : State} :
    exec (.vsrl e w) s = execVsrl e w s := rfl
@[simp] theorem exec_vsel {e : VeRef} {w : W64} {s : State} :
    exec (.vsel e w) s = execVsel e w s := rfl
@[simp] theorem exec_vmov {e : VeRef} {w : W64} {s : State} :
    exec (.vmov e w) s = execVmov e w s := rfl
@[simp] theorem exec_vperm {e : VeRef} {w : W64} {s : State} :
    exec (.vperm e w) s = execVperm e w s := rfl
@[simp] theorem exec_vcmpeq {e : VeRef} {w : W64} {s : State} :
    exec (.vcmpeq e w) s = execVcmpeq e w s := rfl
@[simp] theorem exec_vcmpne {e : VeRef} {w : W64} {s : State} :
    exec (.vcmpne e w) s = execVcmpne e w s := rfl
@[simp] theorem exec_vcmplt {e : VeRef} {w : W64} {s : State} :
    exec (.vcmplt e w) s = execVcmplt e w s := rfl
@[simp] theorem exec_vcmple {e : VeRef} {w : W64} {s : State} :
    exec (.vcmple e w) s = execVcmple e w s := rfl
@[simp] theorem exec_vcmpuo {e : VeRef} {w : W64} {s : State} :
    exec (.vcmpuo e w) s = execVcmpuo e w s := rfl
@[simp] theorem exec_vrsum {e : VeRef} {w : W64} {s : State} :
    exec (.vrsum e w) s = execVrsum e w s := rfl
@[simp] theorem exec_vrmax {e : VeRef} {w : W64} {s : State} :
    exec (.vrmax e w) s = execVrmax e w s := rfl
@[simp] theorem exec_vrmin {e : VeRef} {w : W64} {s : State} :
    exec (.vrmin e w) s = execVrmin e w s := rfl
@[simp] theorem exec_vadds {e : VeRef} {w : W64} {s : State} :
    exec (.vadds e w) s = execVadds e w s := rfl
@[simp] theorem exec_vsubs {e : VeRef} {w : W64} {s : State} :
    exec (.vsubs e w) s = execVsubs e w s := rfl
@[simp] theorem exec_vrsubs {e : VeRef} {w : W64} {s : State} :
    exec (.vrsubs e w) s = execVrsubs e w s := rfl
@[simp] theorem exec_vmuls {e : VeRef} {w : W64} {s : State} :
    exec (.vmuls e w) s = execVmuls e w s := rfl
@[simp] theorem exec_vfmas {e : VeRef} {w : W64} {s : State} :
    exec (.vfmas e w) s = execVfmas e w s := rfl
@[simp] theorem exec_vmaxs {e : VeRef} {w : W64} {s : State} :
    exec (.vmaxs e w) s = execVmaxs e w s := rfl
@[simp] theorem exec_vmins {e : VeRef} {w : W64} {s : State} :
    exec (.vmins e w) s = execVmins e w s := rfl
@[simp] theorem exec_vands {e : VeRef} {w : W64} {s : State} :
    exec (.vands e w) s = execVands e w s := rfl
@[simp] theorem exec_vors {e : VeRef} {w : W64} {s : State} :
    exec (.vors e w) s = execVors e w s := rfl
@[simp] theorem exec_vxors {e : VeRef} {w : W64} {s : State} :
    exec (.vxors e w) s = execVxors e w s := rfl
@[simp] theorem exec_vshls {e : VeRef} {w : W64} {s : State} :
    exec (.vshls e w) s = execVshls e w s := rfl
@[simp] theorem exec_vsras {e : VeRef} {w : W64} {s : State} :
    exec (.vsras e w) s = execVsras e w s := rfl
@[simp] theorem exec_vsrls {e : VeRef} {w : W64} {s : State} :
    exec (.vsrls e w) s = execVsrls e w s := rfl
@[simp] theorem exec_vsplat {e : VeRef} {w : W64} {s : State} :
    exec (.vsplat e w) s = execVsplat e w s := rfl
@[simp] theorem exec_viota {e : VeRef} {w : W64} {s : State} :
    exec (.viota e w) s = execViota e w s := rfl
@[simp] theorem exec_vexta {e : VeRef} {w : W64} {s : State} :
    exec (.vexta e w) s = execVexta e w s := rfl
@[simp] theorem exec_vcmpeqs {e : VeRef} {w : W64} {s : State} :
    exec (.vcmpeqs e w) s = execVcmpeqs e w s := rfl
@[simp] theorem exec_vcmpnes {e : VeRef} {w : W64} {s : State} :
    exec (.vcmpnes e w) s = execVcmpnes e w s := rfl
@[simp] theorem exec_vcmplts {e : VeRef} {w : W64} {s : State} :
    exec (.vcmplts e w) s = execVcmplts e w s := rfl
@[simp] theorem exec_vcmples {e : VeRef} {w : W64} {s : State} :
    exec (.vcmples e w) s = execVcmples e w s := rfl
@[simp] theorem exec_vcmpgts {e : VeRef} {w : W64} {s : State} :
    exec (.vcmpgts e w) s = execVcmpgts e w s := rfl
@[simp] theorem exec_vcmpges {e : VeRef} {w : W64} {s : State} :
    exec (.vcmpges e w) s = execVcmpges e w s := rfl
@[simp] theorem exec_vld {e : VeRef} {w : W64} {s : State} :
    exec (.vld e w) s = execVld e w s := rfl
@[simp] theorem exec_vst {e : VeRef} {w : W64} {s : State} :
    exec (.vst e w) s = execVst e w s := rfl
@[simp] theorem exec_pld {e : VeRef} {w : W64} {s : State} :
    exec (.pld e w) s = execPld e w s := rfl
@[simp] theorem exec_pst {e : VeRef} {w : W64} {s : State} :
    exec (.pst e w) s = execPst e w s := rfl
@[simp] theorem exec_chpop {e : VeRef} {w : W64} {s : State} :
    exec (.chpop e w) s = execChpop e w s := rfl
@[simp] theorem exec_vcvt {e : VeRef} {w : W64} {s : State} :
    exec (.vcvt e w) s = execVcvt e w s := rfl
@[simp] theorem exec_vexp {e : VeRef} {w : W64} {s : State} :
    exec (.vexp e w) s = execVexp e w s := rfl
@[simp] theorem exec_vlog {e : VeRef} {w : W64} {s : State} :
    exec (.vlog e w) s = execVlog e w s := rfl
@[simp] theorem exec_vrsqrt {e : VeRef} {w : W64} {s : State} :
    exec (.vrsqrt e w) s = execVrsqrt e w s := rfl
@[simp] theorem exec_vrcp {e : VeRef} {w : W64} {s : State} :
    exec (.vrcp e w) s = execVrcp e w s := rfl
@[simp] theorem exec_vtanh {e : VeRef} {w : W64} {s : State} :
    exec (.vtanh e w) s = execVtanh e w s := rfl
@[simp] theorem exec_verf {e : VeRef} {w : W64} {s : State} :
    exec (.verf e w) s = execVerf e w s := rfl
@[simp] theorem exec_vcNop {e : VeRef} {w : W64} {s : State} :
    exec (.vcNop e w) s = execVcNop e w s := rfl
@[simp] theorem exec_halt {e : VeRef} {w : W64} {s : State} :
    exec (.halt e w) s = execHalt e w s := rfl
@[simp] theorem exec_br {e : VeRef} {w : W64} {s : State} :
    exec (.br e w) s = execBr e w s := rfl
@[simp] theorem exec_bz {e : VeRef} {w : W64} {s : State} :
    exec (.bz e w) s = execBz e w s := rfl
@[simp] theorem exec_bnz {e : VeRef} {w : W64} {s : State} :
    exec (.bnz e w) s = execBnz e w s := rfl
@[simp] theorem exec_loop {e : VeRef} {w : W64} {s : State} :
    exec (.loop e w) s = execLoop e w s := rfl
@[simp] theorem exec_pany {e : VeRef} {w : W64} {s : State} :
    exec (.pany e w) s = execPany e w s := rfl
@[simp] theorem exec_pnone {e : VeRef} {w : W64} {s : State} :
    exec (.pnone e w) s = execPnone e w s := rfl
@[simp] theorem exec_ali {e : VeRef} {w : W64} {s : State} :
    exec (.ali e w) s = execAli e w s := rfl
@[simp] theorem exec_alui {e : VeRef} {w : W64} {s : State} :
    exec (.alui e w) s = execAlui e w s := rfl
@[simp] theorem exec_aaddi {e : VeRef} {w : W64} {s : State} :
    exec (.aaddi e w) s = execAaddi e w s := rfl
@[simp] theorem exec_aadd {e : VeRef} {w : W64} {s : State} :
    exec (.aadd e w) s = execAadd e w s := rfl
@[simp] theorem exec_asub {e : VeRef} {w : W64} {s : State} :
    exec (.asub e w) s = execAsub e w s := rfl
@[simp] theorem exec_amul {e : VeRef} {w : W64} {s : State} :
    exec (.amul e w) s = execAmul e w s := rfl
@[simp] theorem exec_ashli {e : VeRef} {w : W64} {s : State} :
    exec (.ashli e w) s = execAshli e w s := rfl
@[simp] theorem exec_ashri {e : VeRef} {w : W64} {s : State} :
    exec (.ashri e w) s = execAshri e w s := rfl
@[simp] theorem exec_pand {e : VeRef} {w : W64} {s : State} :
    exec (.pand e w) s = execPand e w s := rfl
@[simp] theorem exec_por {e : VeRef} {w : W64} {s : State} :
    exec (.por e w) s = execPor e w s := rfl
@[simp] theorem exec_pxor {e : VeRef} {w : W64} {s : State} :
    exec (.pxor e w) s = execPxor e w s := rfl
@[simp] theorem exec_pnot {e : VeRef} {w : W64} {s : State} :
    exec (.pnot e w) s = execPnot e w s := rfl
@[simp] theorem exec_setvl {e : VeRef} {w : W64} {s : State} :
    exec (.setvl e w) s = execSetvl e w s := rfl
@[simp] theorem exec_flgrd {e : VeRef} {w : W64} {s : State} :
    exec (.flgrd e w) s = execFlgrd e w s := rfl
@[simp] theorem exec_srseed {e : VeRef} {w : W64} {s : State} :
    exec (.srseed e w) s = execSrseed e w s := rfl
@[simp] theorem exec_fence {e : VeRef} {w : W64} {s : State} :
    exec (.fence e w) s = execFence e w s := rfl
@[simp] theorem exec_evsig {e : VeRef} {w : W64} {s : State} :
    exec (.evsig e w) s = execEvsig e w s := rfl
@[simp] theorem exec_hotReset {i : Nat} {s : State} :
    exec (.hotReset i) s = execHotReset i s := rfl
@[simp] theorem exec_hostCompletionTimeout {c : CmdRef} {s : State} :
    exec (.hostCompletionTimeout c) s = execHostCompletionTimeout c s := rfl
@[simp] theorem exec_workUnitBoundary {i core q : Nat} {kind : EngineKind} {s : State} :
    exec (.workUnitBoundary i core q kind) s = execWorkUnitBoundary i core q kind s := rfl
@[simp] theorem exec_moduleLeavesPort {i j k : Nat} {s : State} :
    exec (.moduleLeavesPort i j k) s = execModuleLeavesPort i j k s := rfl
@[simp] theorem exec_releaseWaitExpiry {vd obj : Nat} {s : State} :
    exec (.releaseWaitExpiry vd obj) s = execReleaseWaitExpiry vd obj s := rfl

end Sys2Proof.Machine
end

