-- ==== Sys2Proof/Laws/Mem.lean ====
section
/-! SUPPORT. The memory operations keep the canonical form, and a read after a write gives what was written. -/

namespace Sys2Proof.Machine

theorem Mem.wfFrom_mono {m : Mem} {lo lo' : Nat} (h : Mem.wfFrom lo m = true) (l : lo' ≤ lo) :
    Mem.wfFrom lo' m = true := by
  cases m with
  | nil => rfl
  | cons c r =>
    simp only [Mem.wfFrom, Bool.and_eq_true, decide_eq_true_eq] at h ⊢
    exact ⟨⟨by omega, h.1.2⟩, h.2⟩

theorem Mem.wfFrom_filter {p : Nat × Byte → Bool} {m : Mem} {lo : Nat} (h : Mem.wfFrom lo m = true) :
    Mem.wfFrom lo (m.filter p) = true := by
  induction m generalizing lo with
  | nil => rfl
  | cons c r ih =>
    simp only [Mem.wfFrom, Bool.and_eq_true, decide_eq_true_eq] at h
    by_cases hp : p c = true
    · rw [List.filter_cons_of_pos hp]
      simp only [Mem.wfFrom, Bool.and_eq_true, decide_eq_true_eq]
      exact ⟨h.1, ih h.2⟩
    · rw [List.filter_cons_of_neg hp]
      exact Mem.wfFrom_mono (ih h.2) (by omega)

theorem Mem.wf_filter {p : Nat × Byte → Bool} {m : Mem} (h : m.wf = true) : Mem.wf (m.filter p) = true :=
  Mem.wfFrom_filter h

theorem Mem.wf_nil : Mem.wf [] = true := rfl

/-- Two canonical lists whose addresses are apart join to a canonical list. -/
theorem Mem.wfFrom_append {a b : Mem} {lo mid : Nat} (ha : Mem.wfFrom lo a = true)
    (hb : Mem.wfFrom mid b = true) (hm : ∀ c ∈ a, c.1 < mid) (hl : lo ≤ mid) : Mem.wfFrom lo (a ++ b) = true := by
  induction a generalizing lo with
  | nil => exact Mem.wfFrom_mono hb hl
  | cons c r ih =>
    simp only [Mem.wfFrom, Bool.and_eq_true, decide_eq_true_eq, List.cons_append] at ha ⊢
    have hc := hm c (by simp)
    exact ⟨ha.1, ih ha.2 (fun d hd => hm d (by simp [hd])) (by omega)⟩

theorem Mem.wfFrom_above {m : Mem} {lo k : Nat} {p : Nat × Byte → Bool} (h : Mem.wfFrom lo m = true)
    (hp : ∀ c, p c = true → k ≤ c.1) : Mem.wfFrom k (m.filter p) = true := by
  induction m generalizing lo with
  | nil => rfl
  | cons c r ih =>
    simp only [Mem.wfFrom, Bool.and_eq_true, decide_eq_true_eq] at h
    by_cases hc : p c = true
    · rw [List.filter_cons_of_pos hc]
      simp only [Mem.wfFrom, Bool.and_eq_true, decide_eq_true_eq]
      exact ⟨⟨hp c hc, h.1.2⟩, Mem.wfFrom_filter h.2⟩
    · rw [List.filter_cons_of_neg hc]
      exact ih h.2

theorem Mem.wfFrom_cells (a : Nat) (bs : Bytes) : Mem.wfFrom a (Mem.cells a bs) = true := by
  induction bs generalizing a with
  | nil => rfl
  | cons b r ih =>
    unfold Mem.cells
    split
    · exact Mem.wfFrom_mono (ih (a + 1)) (by omega)
    · simp only [Mem.wfFrom, Bool.and_eq_true, decide_eq_true_eq]
      exact ⟨⟨Nat.le_refl a, ‹_›⟩, ih (a + 1)⟩

theorem Mem.cells_below (a : Nat) (bs : Bytes) : ∀ c ∈ Mem.cells a bs, c.1 < a + bs.length := by
  induction bs generalizing a with
  | nil => simp [Mem.cells]
  | cons b r ih =>
    intro c hc
    unfold Mem.cells at hc
    split at hc
    · have := ih (a + 1) c hc
      simp only [List.length_cons]; omega
    · rcases List.mem_cons.mp hc with rfl | hc
      · simp only [List.length_cons]; omega
      · have := ih (a + 1) c hc
        simp only [List.length_cons]; omega

/-- A write keeps the canonical form. -/
theorem Mem.wf_write {m : Mem} (h : m.wf = true) (a : Nat) (bs : Bytes) : (m.write a bs).wf = true := by
  unfold Mem.write Mem.wf
  rw [List.append_assoc]
  refine Mem.wfFrom_append (mid := a) (Mem.wfFrom_filter h) ?_ (by simp) (by omega)
  exact Mem.wfFrom_append (Mem.wfFrom_cells a bs) (Mem.wfFrom_above (k := a + bs.length) h (by simp))
    (Mem.cells_below a bs) (by omega)

/-- Zeroing keeps the canonical form. -/
theorem Mem.wf_clear {m : Mem} (h : m.wf = true) (a n : Nat) : (m.clear a n).wf = true := Mem.wf_filter h

theorem Mem.wfFrom_moved {m : Mem} {lo a b : Nat} (h : Mem.wfFrom lo m = true) (ha : ∀ c ∈ m, a ≤ c.1) :
    Mem.wfFrom (max lo a - a + b) (m.map fun c => (c.1 - a + b, c.2)) = true := by
  induction m generalizing lo with
  | nil => rfl
  | cons c r ih =>
    simp only [Mem.wfFrom, Bool.and_eq_true, decide_eq_true_eq] at h
    have hc := ha c (by simp)
    simp only [List.map_cons, Mem.wfFrom, Bool.and_eq_true, decide_eq_true_eq]
    exact ⟨⟨by omega, h.1.2⟩, Mem.wfFrom_mono (ih h.2 (fun d hd => ha d (by simp [hd]))) (by omega)⟩

/-- A copy between canonical memories is canonical. -/
theorem Mem.wf_copy {src dst : Mem} (hs : src.wf = true) (hd : dst.wf = true) (a n b : Nat) :
    (Mem.copy src a n dst b).wf = true := by
  unfold Mem.copy Mem.wf
  rw [List.append_assoc]
  refine Mem.wfFrom_append (mid := b) (Mem.wfFrom_filter hd) ?_ (by simp) (by omega)
  refine Mem.wfFrom_append (mid := b + n) ?_ (Mem.wfFrom_above hd (by simp)) ?_ (by omega)
  · refine Mem.wfFrom_mono (Mem.wfFrom_moved (a := a) (b := b) (Mem.wfFrom_filter hs) ?_) (by omega)
    intro c hc
    have := (List.mem_filter.mp hc).2
    simp at this
    exact this.1
  · intro c hc
    obtain ⟨d, hd', rfl⟩ := List.mem_map.mp hc
    have := (List.mem_filter.mp hd').2
    simp at this
    show d.1 - a + b < b + n
    omega

/-! What a read gives -/

theorem Mem.get_of_lt {m : Mem} {lo a : Nat} (h : Mem.wfFrom lo m = true) (l : a < lo) : m.get a = 0 := by
  induction m generalizing lo with
  | nil => rfl
  | cons c r ih =>
    simp only [Mem.wfFrom, Bool.and_eq_true, decide_eq_true_eq] at h
    simp only [Mem.get]
    rw [if_neg (by omega)]
    exact ih h.2 (by omega)

theorem Mem.get_append {x y : Mem} {a : Nat} (h : ∀ c ∈ x, c.1 ≠ a) : Mem.get (x ++ y) a = Mem.get y a := by
  induction x with
  | nil => rfl
  | cons c r ih =>
    simp only [List.cons_append, Mem.get]
    rw [if_neg (h c (by simp))]
    exact ih fun d hd => h d (by simp [hd])

theorem Mem.get_append_right {x y : Mem} {a : Nat} (h : ∀ c ∈ y, c.1 ≠ a) : Mem.get (x ++ y) a = Mem.get x a := by
  induction x with
  | nil =>
    have e := Mem.get_append (x := y) (y := []) h
    simpa using e
  | cons c r ih =>
    simp only [List.cons_append, Mem.get]
    split
    · rfl
    · exact ih

theorem Mem.get_filter {p : Nat × Byte → Bool} {m : Mem} {a : Nat} (h : ∀ b, p (a, b) = true) :
    Mem.get (m.filter p) a = m.get a := by
  induction m with
  | nil => rfl
  | cons c r ih =>
    by_cases hp : p c = true
    · rw [List.filter_cons_of_pos hp]
      simp only [Mem.get]
      rw [ih]
    · rw [List.filter_cons_of_neg hp, ih]
      simp only [Mem.get]
      rw [if_neg]
      intro e
      exact hp (by rw [← e] at h; exact h c.2)

theorem Mem.get_cells (a k : Nat) (bs : Bytes) :
    Mem.get (Mem.cells a bs) (a + k) = bs.getD k 0 := by
  induction bs generalizing a k with
  | nil => simp [Mem.cells, Mem.get]
  | cons b r ih =>
    have low : Mem.get (Mem.cells (a + 1) r) a = 0 := Mem.get_of_lt (Mem.wfFrom_cells (a + 1) r) (by omega)
    unfold Mem.cells
    cases k with
    | zero =>
      split
      · simp_all
      · simp [Mem.get]
    | succ k =>
      have e : a + (k + 1) = a + 1 + k := by omega
      split
      · rw [e, ih]; simp
      · simp only [Mem.get]
        rw [if_neg (by omega), e, ih]
        simp

/-- A byte inside a write reads as written. -/
theorem Mem.get_write_in (m : Mem) (a k : Nat) (bs : Bytes) (h : k < bs.length) :
    (m.write a bs).get (a + k) = bs.getD k 0 := by
  unfold Mem.write
  rw [List.append_assoc, Mem.get_append, Mem.get_append_right, Mem.get_cells]
  · intro c hc
    have := (List.mem_filter.mp hc).2
    simp at this
    omega
  · intro c hc
    have := (List.mem_filter.mp hc).2
    simp at this
    omega

theorem Mem.cells_above (a : Nat) (bs : Bytes) : ∀ c ∈ Mem.cells a bs, a ≤ c.1 := by
  induction bs generalizing a with
  | nil => simp [Mem.cells]
  | cons b r ih =>
    intro c hc
    unfold Mem.cells at hc
    split at hc
    · have := ih (a + 1) c hc
      omega
    · rcases List.mem_cons.mp hc with rfl | hc
      · simp
      · have := ih (a + 1) c hc
        omega

/-- A byte outside a write reads as before. -/
theorem Mem.get_write_out (m : Mem) (a x : Nat) (bs : Bytes) (h : x < a ∨ a + bs.length ≤ x) :
    (m.write a bs).get x = m.get x := by
  have lo := Mem.cells_above a bs
  have hi := Mem.cells_below a bs
  unfold Mem.write
  rw [List.append_assoc]
  rcases h with h | h
  · rw [Mem.get_append_right, Mem.get_filter (by simpa using h)]
    intro c hc
    rcases List.mem_append.mp hc with hc | hc
    · have := lo c hc
      omega
    · have := (List.mem_filter.mp hc).2
      simp at this
      omega
  · rw [Mem.get_append, Mem.get_append, Mem.get_filter (by simpa using h)]
    · intro c hc
      have := hi c hc
      omega
    · intro c hc
      have := (List.mem_filter.mp hc).2
      simp at this
      omega

end Sys2Proof.Machine
end

