-- ==== Sys2Proof/Laws/Kept.lean ====
section
/-! SUPPORT. How `Kept` composes, and the named operations over the state that keep it. -/

namespace Sys2Proof.Machine

variable {s₀ s t : State}

theorem Kept.refl (s : State) : Kept s s := ⟨rfl, List.prefix_rfl, Nat.le_refl _, id⟩

theorem Kept.trans {a b c : State} (h : Kept a b) (g : Kept b c) : Kept a c :=
  ⟨g.1.trans h.1, h.2.1.trans g.2.1, Nat.le_trans h.2.2.1 g.2.2.1, fun i => g.2.2.2 (h.2.2.2 i)⟩

/-- A change of the sites alone, each kept canonical. -/
theorem Kept.sites (h : Kept s₀ s) {l : List Site} (hl : l.length = s.sites.length)
    (hc : (∀ t ∈ s.sites, t.canonical) → ∀ t ∈ l, t.canonical) : Kept s₀ { s with sites := l } :=
  ⟨h.1, h.2.1, h.2.2.1, fun i =>
    have k := h.2.2.2 i
    ⟨hl.trans k.1, k.2.1, hc k.2.2⟩⟩

theorem Kept.vds (h : Kept s₀ s) {l : List Vd} (hl : l.length = s.vds.length) : Kept s₀ { s with vds := l } :=
  ⟨h.1, h.2.1, h.2.2.1, fun i =>
    have k := h.2.2.2 i
    ⟨k.1, hl.trans k.2.1, k.2.2⟩⟩

theorem Kept.part (h : Kept s₀ s) (p : Part) : Kept s₀ { s with part := p } := h
theorem Kept.rd (h : Kept s₀ s) (w : W64) : Kept s₀ { s with rd := w } := h
theorem Kept.drawn (h : Kept s₀ s) (n : Nat) : Kept s₀ { s with free := s.free + n } :=
  ⟨h.1, h.2.1, Nat.le_trans h.2.2.1 (Nat.le_add_right _ _), h.2.2.2⟩

theorem Kept.ite {c : Prop} [Decidable c] {a b : State} (ha : Kept s₀ a) (hb : Kept s₀ b) :
    Kept s₀ (if c then a else b) := by
  split <;> assumption

theorem Kept.foldl {α : Type} {l : List α} {f : State → α → State} (h : Kept s₀ s)
    (hf : ∀ s a, Kept s₀ s → Kept s₀ (f s a)) : Kept s₀ (l.foldl f s) := by
  induction l generalizing s with
  | nil => exact h
  | cons a r ih => exact ih (hf s a h)

theorem Kept.foldlFst {α β : Type} {l : List α} {f : State × β → α → State × β} {b : β} (h : Kept s₀ s)
    (hf : ∀ s b a, Kept s₀ s → Kept s₀ (f (s, b) a).1) : Kept s₀ (l.foldl f (s, b)).1 := by
  induction l generalizing s b with
  | nil => exact h
  | cons a r ih => exact ih (s := (f (s, b) a).1) (b := (f (s, b) a).2) (hf s b a h)

theorem mem_modify {α : Type} {p : α → Prop} {l : List α} {i : Nat} {f : α → α} (hl : ∀ x ∈ l, p x)
    (hf : ∀ x, p x → p (f x)) : ∀ x ∈ l.modify i f, p x := by
  intro x hx
  obtain ⟨n, hn, rfl⟩ := List.getElem_of_mem hx
  rw [List.getElem_modify]
  split
  · exact hf _ (hl _ (List.getElem_mem _))
  · exact hl _ (List.getElem_mem _)

theorem mem_map {α : Type} {p : α → Prop} {l : List α} {f : α → α} (hl : ∀ x ∈ l, p x)
    (hf : ∀ x, p x → p (f x)) : ∀ x ∈ l.map f, p x := by
  intro x hx
  obtain ⟨y, hy, rfl⟩ := List.mem_map.mp hx
  exact hf y (hl y hy)

/-! Sites -/

theorem State.onSite_kept (h : Kept s₀ s) {i : Nat} {f : Site → Site} (hf : ∀ t, t.canonical → (f t).canonical) :
    Kept s₀ (s.onSite i f) := h.sites (List.length_modify _ _ _) fun k => mem_modify k hf

/-- The same for a change that uses the state itself, whose memories are canonical. -/
theorem State.onSite_kept_inv (h : Kept s₀ s) {i : Nat} {f : Site → Site}
    (hf : s.Inv → ∀ t, t.canonical → (f t).canonical) : Kept s₀ (s.onSite i f) :=
  ⟨h.1, h.2.1, h.2.2.1, fun k =>
    have g := h.2.2.2 k
    ⟨(List.length_modify _ _ _).trans g.1, g.2.1, mem_modify g.2.2 (hf g)⟩⟩

theorem Site.default_canonical : ({} : Site).canonical := by
  refine ⟨rfl, rfl, ?_, ?_, rfl, rfl⟩
  · intro c hc
    rw [List.eq_of_mem_replicate hc]
    refine ⟨rfl, rfl, ?_⟩
    intro u hu x hx
    rw [List.eq_of_mem_replicate hu] at hx
    cases hx
  · intro c hc
    rw [List.eq_of_mem_replicate hc]
    rfl

theorem State.Inv.site (h : s.Inv) (i : Nat) : (s.site i).canonical := by
  unfold State.site
  rw [List.getD_eq_getElem?_getD]
  cases e : s.sites[i]? with
  | none => exact Site.default_canonical
  | some t => exact h.2.2 t (List.mem_of_getElem? e)

theorem Kept.mapSites (h : Kept s₀ s) {f : Site → Site} (hf : ∀ t, t.canonical → (f t).canonical) :
    Kept s₀ { s with sites := s.sites.map f } := h.sites (List.length_map _) fun k => mem_map k hf

theorem State.onVd_kept (h : Kept s₀ s) {i : Nat} {f : Vd → Vd} : Kept s₀ (s.onVd i f) :=
  h.vds (List.length_modify _ _ _)

theorem State.onFe_kept (h : Kept s₀ s) {i : Nat} {f : FrontEnd → FrontEnd} : Kept s₀ (s.onFe i f) := onVd_kept h
theorem State.onSp_kept (h : Kept s₀ s) {i : Nat} {f : Space → Space} : Kept s₀ (s.onSp i f) := onVd_kept h
theorem State.onHold_kept (h : Kept s₀ s) {i : Nat} {f : Holdings → Holdings} : Kept s₀ (s.onHold i f) := onVd_kept h
theorem State.onStream_kept (h : Kept s₀ s) {v n : Nat} {f : Stream → Stream} : Kept s₀ (s.onStream v n f) := onFe_kept h
theorem State.onRing_kept (h : Kept s₀ s) {v n : Nat} {f : Ring → Ring} : Kept s₀ (s.onRing v n f) := onFe_kept h
theorem State.onCmd_kept (h : Kept s₀ s) {c : CmdRef} {f : Cmd → Cmd} : Kept s₀ (s.onCmd c f) := onStream_kept h
theorem State.onPart_kept (h : Kept s₀ s) {f : Part → Part} : Kept s₀ (s.onPart f) := h.part _
theorem State.emit_kept (h : Kept s₀ s) {m : Msg} : Kept s₀ (s.emit m) :=
  ⟨h.1, h.2.1.trans (List.prefix_append _ _), h.2.2.1, h.2.2.2⟩
theorem State.draw_kept (h : Kept s₀ s) : Kept s₀ s.draw.2 := h.drawn 1

theorem State.onNet_kept (h : Kept s₀ s) {i : Nat} {f : Transport → Transport} : Kept s₀ (s.onNet i f) :=
  onSite_kept h fun _ k => k
theorem State.onWatch_kept (h : Kept s₀ s) {i : Nat} {f : Watch → Watch} : Kept s₀ (s.onWatch i f) :=
  onSite_kept h fun _ k => k
theorem State.onPins_kept (h : Kept s₀ s) {i : Nat} {f : Pins → Pins} : Kept s₀ (s.onPins i f) :=
  onSite_kept h fun _ k => k
theorem State.setFld_kept (h : Kept s₀ s) {i off v : Nat} {f : Nat × Nat} : Kept s₀ (s.setFld i off f v) :=
  onSite_kept h fun _ k => k
theorem State.bump_kept (h : Kept s₀ s) {i off n : Nat} {f : Nat × Nat} : Kept s₀ (s.bump i off f n) :=
  onSite_kept h fun _ k => k

theorem Site.onCore_canonical {t : Site} (h : t.canonical) {p : Nat} {f : Core → Core}
    (hf : ∀ c, c.canonical → (f c).canonical) : (t.onCore p f).canonical :=
  ⟨(List.length_modify _ _ _).trans h.1, h.2.1, mem_modify h.2.2.1 hf, h.2.2.2⟩

theorem Site.onCluster_canonical {t : Site} (h : t.canonical) {p : Nat} {f : Cluster → Cluster}
    (hf : ∀ c, c.clm.wf = true → (f c).clm.wf = true) : (t.onCluster p f).canonical :=
  ⟨h.1, (List.length_modify _ _ _).trans h.2.1, h.2.2.1, mem_modify h.2.2.2.1 hf, h.2.2.2.2⟩

theorem State.onCore_kept (h : Kept s₀ s) {i p : Nat} {f : Core → Core} (hf : ∀ c, c.canonical → (f c).canonical) :
    Kept s₀ (s.onCore i p f) := onSite_kept h fun _ k => Site.onCore_canonical k hf

theorem State.onCore_kept_inv (h : Kept s₀ s) {i p : Nat} {f : Core → Core}
    (hf : s.Inv → ∀ c, c.canonical → (f c).canonical) : Kept s₀ (s.onCore i p f) :=
  onSite_kept_inv h fun g _ k => Site.onCore_canonical k (hf g)

theorem Site.setFld_canonical {t : Site} (h : t.canonical) {off v : Nat} {f : Nat × Nat} :
    (t.setFld off f v).canonical := h
theorem Site.bump_canonical {t : Site} (h : t.canonical) {off n : Nat} {f : Nat × Nat} :
    (t.bump off f n).canonical := h

theorem State.draw_kept' {x : W64} (h : Kept s₀ s) (e : s.draw = (x, t)) : Kept s₀ t := by
  have k := draw_kept h
  rw [e] at k
  exact k

end Sys2Proof.Machine
end

