-- ==== Sys2Proof/Laws/KeptA.lean ====
section
/-! SUPPORT. The operations of Ops, Operands, Vector, Riscv, Scalar, Transport keep what every command keeps. -/

set_option linter.unusedVariables false

namespace Sys2Proof.Machine

theorem Site.setReg_canonical {t : Site} (h : t.canonical) {off : Nat} {v : W32} : (t.setReg off v).canonical := h

theorem Site.latchSrc_canonical {t : Site} (hk : t.canonical) {n : Nat} :
    (Site.latchSrc t n).canonical := by
  unfold Site.latchSrc
  (try dsimp only)
  repeat' first
    | with_reducible assumption
    | exact hk
    | with_reducible apply Site.setFld_canonical
    | with_reducible apply Site.bump_canonical
    | exact fun _ k => k
    | split
    | intro

theorem State.deliverSrc_kept {s₀ s : State} (hk : Kept s₀ s) {i n : Nat} :
    Kept s₀ (State.deliverSrc s i n) := by
  unfold State.deliverSrc
  (try dsimp only)
  repeat' first
    | with_reducible assumption
    | with_reducible apply State.emit_kept
    | with_reducible apply State.onWatch_kept
    | with_reducible apply State.setFld_kept
    | with_reducible apply Site.setFld_canonical
    | exact fun _ k => k
    | split
    | intro

theorem State.raiseSrc_kept {s₀ s : State} (hk : Kept s₀ s) {i n : Nat} :
    Kept s₀ (State.raiseSrc s i n) := by
  unfold State.raiseSrc
  (try dsimp only)
  repeat' first
    | with_reducible assumption
    | with_reducible apply State.onSite_kept
    | with_reducible apply State.deliverSrc_kept
    | with_reducible apply Site.latchSrc_canonical
    | exact fun _ k => k
    | split
    | intro

theorem State.raisePriv_kept {s₀ s : State} (hk : Kept s₀ s) {i k n : Nat} :
    Kept s₀ (State.raisePriv s i k n) := by
  unfold State.raisePriv
  (try dsimp only)
  repeat' first
    | with_reducible assumption
    | with_reducible apply State.onSite_kept
    | with_reducible apply State.emit_kept
    | with_reducible apply State.onWatch_kept
    | with_reducible apply Site.setReg_canonical
    | exact fun _ k => k
    | split
    | intro

theorem State.report_kept {s₀ s : State} (hk : Kept s₀ s) {i type sev : Nat} {body : Bytes} {cont : List Bytes} :
    Kept s₀ (State.report s i type sev body cont) := by
  unfold State.report
  (try dsimp only)
  repeat' first
    | with_reducible assumption
    | with_reducible apply State.onWatch_kept
    | with_reducible apply State.bump_kept
    | with_reducible apply Kept.foldl
    | with_reducible apply Kept.foldlFst
    | with_reducible apply Site.bump_canonical
    | exact fun _ k => k
    | split
    | intro

theorem Mem.wf_foldl {α : Type} {l : List α} {f : Mem → α → Mem} {m : Mem} (h : m.wf = true)
    (hf : ∀ m a, Mem.wf m = true → (f m a).wf = true) : (l.foldl f m).wf = true := by
  induction l generalizing m with
  | nil => exact h
  | cons a r ih => exact ih (hf m a h)

theorem Core.writeCm_canonical {c : Core} (h : c.canonical) {q : Option Nat} {a : Nat} {bs : Bytes} :
    (c.writeCm q a bs).canonical :=
  ⟨Mem.wf_foldl h.1 fun _ _ k => Mem.wf_write k _ _, h.2⟩

theorem Core.zeroBanks_canonical {c : Core} (h : c.canonical) {q : Option Nat} : (c.zeroBanks q).canonical := by
  unfold Core.zeroBanks
  split
  · exact ⟨Mem.wf_nil, h.2⟩
  · exact ⟨Mem.wf_clear h.1 _ _, h.2⟩

theorem State.onVe_kept {s₀ s : State} (hk : Kept s₀ s) {i p e : Nat} {f : Ve → Ve} :
    Kept s₀ (State.onVe s i p e f) := by
  unfold State.onVe
  (try dsimp only)
  repeat' first
    | with_reducible assumption
    | with_reducible apply State.onCore_kept
    | with_reducible apply Site.onCore_canonical
    | exact fun _ k => k
    | split
    | intro

theorem State.onSe_kept {s₀ s : State} (hk : Kept s₀ s) {i p k : Nat} {f : Se → Se} :
    Kept s₀ (State.onSe s i p k f) := by
  unfold State.onSe
  (try dsimp only)
  repeat' first
    | with_reducible assumption
    | with_reducible apply State.onCore_kept
    | with_reducible apply Site.onCore_canonical
    | exact fun _ k => k
    | split
    | intro

theorem VCtx.put_kept {s₀ s : State} (hk : Kept s₀ s) {c : VCtx} {v : Ve} :
    Kept s₀ (VCtx.put c s v) := by
  unfold VCtx.put
  (try dsimp only)
  repeat' first
    | with_reducible assumption
    | with_reducible apply State.onVe_kept
    | exact fun _ k => k
    | split
    | intro

theorem VCtx.next_kept {s₀ s : State} (hk : Kept s₀ s) {c : VCtx} {v : Ve} :
    Kept s₀ (VCtx.next c s v) := by
  unfold VCtx.next
  (try dsimp only)
  repeat' first
    | with_reducible assumption
    | with_reducible apply VCtx.put_kept
    | exact fun _ k => k
    | split
    | intro

theorem Core.endVe_canonical {c : Core} (hk : c.canonical) {e : Nat} {how : VeEnd} :
    (Core.endVe c e how).canonical := by
  unfold Core.endVe
  (try dsimp only)
  repeat' first
    | with_reducible assumption
    | exact hk
    | exact fun _ k => k
    | split
    | intro

theorem State.health_kept {s₀ s : State} (hk : Kept s₀ s) {i kind a b row : Nat} :
    Kept s₀ (State.health s i kind a b row) := by
  unfold State.health
  (try dsimp only)
  repeat' first
    | with_reducible assumption
    | with_reducible apply State.raiseSrc_kept
    | with_reducible apply State.report_kept
    | exact fun _ k => k
    | split
    | intro

theorem VCtx.fault_kept {s₀ s : State} (hk : Kept s₀ s) {c : VCtx} {code : Nat} :
    Kept s₀ (VCtx.fault c s code) := by
  unfold VCtx.fault
  (try dsimp only)
  repeat' first
    | with_reducible assumption
    | with_reducible apply State.onCore_kept
    | with_reducible apply Site.onCore_canonical
    | with_reducible apply Core.endVe_canonical
    | exact fun _ k => k
    | split
    | intro

theorem VCtx.eccFault_kept {s₀ s : State} (hk : Kept s₀ s) {c : VCtx} :
    Kept s₀ (VCtx.eccFault c s) := by
  unfold VCtx.eccFault
  (try dsimp only)
  repeat' first
    | with_reducible assumption
    | with_reducible apply State.bump_kept
    | with_reducible apply State.health_kept
    | with_reducible apply VCtx.fault_kept
    | with_reducible apply Site.bump_canonical
    | exact fun _ k => k
    | split
    | intro

theorem vvArith_kept {s₀ s : State} (hk : Kept s₀ s) {c : VCtx} {w : W64} {f : Fp → Fp → Fp → Fp × Bool} {g : Int → Int → Int} {satOk : Bool} {rounds : Bool} :
    Kept s₀ (vvArith c s w f g satOk rounds) := by
  unfold vvArith
  (try dsimp only)
  repeat' first
    | with_reducible assumption
    | with_reducible apply VCtx.next_kept
    | exact fun _ k => k
    | split
    | intro

theorem vsArith_kept {s₀ s : State} (hk : Kept s₀ s) {c : VCtx} {w : W64} {f : Fp → Fp → Fp → Fp × Bool} {g : Int → Int → Int} :
    Kept s₀ (vsArith c s w f g) := by
  unfold vsArith
  (try dsimp only)
  repeat' first
    | with_reducible assumption
    | with_reducible apply VCtx.next_kept
    | exact fun _ k => k
    | split
    | intro

theorem vvBits_kept {s₀ s : State} (hk : Kept s₀ s) {c : VCtx} {w : W64} {g : Nat → Nat → Nat} :
    Kept s₀ (vvBits c s w g) := by
  unfold vvBits
  (try dsimp only)
  repeat' first
    | with_reducible assumption
    | with_reducible apply VCtx.next_kept
    | exact fun _ k => k
    | split
    | intro

theorem vsBits_kept {s₀ s : State} (hk : Kept s₀ s) {c : VCtx} {w : W64} {g : Nat → Nat → Nat} :
    Kept s₀ (vsBits c s w g) := by
  unfold vsBits
  (try dsimp only)
  repeat' first
    | with_reducible assumption
    | with_reducible apply VCtx.next_kept
    | exact fun _ k => k
    | split
    | intro

theorem compareInto_kept {s₀ s : State} (hk : Kept s₀ s) {c : VCtx} {w : W64} {bOf : Nat → Nat} {k : Cmp} :
    Kept s₀ (compareInto c s w bOf k) := by
  unfold compareInto
  (try dsimp only)
  repeat' first
    | with_reducible assumption
    | with_reducible apply VCtx.next_kept
    | with_reducible apply Kept.foldl
    | with_reducible apply Kept.foldlFst
    | exact fun _ k => k
    | split
    | intro

theorem vvCmp_kept {s₀ s : State} (hk : Kept s₀ s) {k : Cmp} {c : VCtx} {w : W64} :
    Kept s₀ (vvCmp k c s w) := by
  unfold vvCmp
  (try dsimp only)
  repeat' first
    | with_reducible assumption
    | with_reducible apply compareInto_kept
    | exact fun _ k => k
    | split
    | intro

theorem vsCmp_kept {s₀ s : State} (hk : Kept s₀ s) {k : Cmp} {c : VCtx} {w : W64} :
    Kept s₀ (vsCmp k c s w) := by
  unfold vsCmp
  (try dsimp only)
  repeat' first
    | with_reducible assumption
    | with_reducible apply compareInto_kept
    | exact fun _ k => k
    | split
    | intro

theorem VCtx.nextScalarVd_kept {s₀ s : State} (hk : Kept s₀ s) {c : VCtx} {w : W64} {x : Nat} {f : FpFlags} {v : Ve} :
    Kept s₀ (VCtx.nextScalarVd c s w x f v) := by
  unfold VCtx.nextScalarVd
  (try dsimp only)
  repeat' first
    | with_reducible assumption
    | with_reducible apply VCtx.next_kept
    | exact fun _ k => k
    | split
    | intro

theorem vrSum_kept {s₀ s : State} (hk : Kept s₀ s) {c : VCtx} {w : W64} :
    Kept s₀ (vrSum c s w) := by
  unfold vrSum
  (try dsimp only)
  repeat' first
    | with_reducible assumption
    | with_reducible apply VCtx.nextScalarVd_kept
    | with_reducible apply Kept.foldl
    | with_reducible apply Kept.foldlFst
    | exact fun _ k => k
    | split
    | intro

theorem vrPick_kept {s₀ s : State} (hk : Kept s₀ s) {big : Bool} {c : VCtx} {w : W64} :
    Kept s₀ (vrPick big c s w) := by
  unfold vrPick
  (try dsimp only)
  repeat' first
    | with_reducible assumption
    | with_reducible apply VCtx.nextScalarVd_kept
    | with_reducible apply Kept.foldl
    | with_reducible apply Kept.foldlFst
    | exact fun _ k => k
    | split
    | intro

theorem VCtx.drawn_kept {s₀ s : State} (hk : Kept s₀ s) {c : VCtx} {w : W64} :
    Kept s₀ (VCtx.drawn c w s) := by
  unfold VCtx.drawn
  (try dsimp only)
  repeat' first
    | with_reducible assumption
    | with_reducible apply Kept.drawn
    | exact fun _ k => k
    | split
    | intro

theorem VCtx.storeAll_canonical {k : Core} (hk : k.canonical) {c : VCtx} {w : W64} {free : Nat} :
    (c.storeAll w free k).canonical := by
  unfold VCtx.storeAll
  generalize c.elems w = l
  induction l generalizing k with
  | nil => exact hk
  | cons a r ih => exact ih (Core.writeCm_canonical hk)

theorem vxTransc_kept {s₀ s : State} (hk : Kept s₀ s) {fn : Nat} {c : VCtx} {w : W64} :
    Kept s₀ (vxTransc fn c s w) := by
  unfold vxTransc
  (try dsimp only)
  repeat' first
    | with_reducible assumption
    | with_reducible apply VCtx.next_kept
    | exact fun _ k => k
    | split
    | intro

theorem VCtx.branch_kept {s₀ s : State} (hk : Kept s₀ s) {c : VCtx} {w : W64} {v : Ve} {taken : Bool} :
    Kept s₀ (VCtx.branch c s w v taken) := by
  unfold VCtx.branch
  (try dsimp only)
  repeat' first
    | with_reducible assumption
    | with_reducible apply VCtx.put_kept
    | exact fun _ k => k
    | split
    | intro

theorem vcAddr_kept {s₀ s : State} (hk : Kept s₀ s) {c : VCtx} {w : W64} {x : Int} :
    Kept s₀ (vcAddr c s w x) := by
  unfold vcAddr
  (try dsimp only)
  repeat' first
    | with_reducible assumption
    | with_reducible apply VCtx.next_kept
    | exact fun _ k => k
    | split
    | intro

theorem vcPred_kept {s₀ s : State} (hk : Kept s₀ s) {c : VCtx} {w : W64} {x : Nat} :
    Kept s₀ (vcPred c s w x) := by
  unfold vcPred
  (try dsimp only)
  repeat' first
    | with_reducible assumption
    | with_reducible apply VCtx.next_kept
    | exact fun _ k => k
    | split
    | intro

theorem SCtx.put_kept {s₀ s : State} (hk : Kept s₀ s) {c : SCtx} {e : Se} :
    Kept s₀ (SCtx.put c s e) := by
  unfold SCtx.put
  (try dsimp only)
  repeat' first
    | with_reducible assumption
    | with_reducible apply State.onSe_kept
    | exact fun _ k => k
    | split
    | intro

theorem SCtx.retire_kept {s₀ s : State} (hk : Kept s₀ s) {c : SCtx} {n : Nat} {e : Se} :
    Kept s₀ (SCtx.retire c s n e) := by
  unfold SCtx.retire
  (try dsimp only)
  repeat' first
    | with_reducible assumption
    | with_reducible apply VCtx.put_kept
    | with_reducible apply SCtx.put_kept
    | exact fun _ k => k
    | split
    | intro

theorem SCtx.jump_kept {s₀ s : State} (hk : Kept s₀ s) {c : SCtx} {pc : W64} {e : Se} :
    Kept s₀ (SCtx.jump c s pc e) := by
  unfold SCtx.jump
  (try dsimp only)
  repeat' first
    | with_reducible assumption
    | with_reducible apply VCtx.put_kept
    | with_reducible apply SCtx.put_kept
    | exact fun _ k => k
    | split
    | intro

theorem SCtx.trap_kept {s₀ s : State} (hk : Kept s₀ s) {c : SCtx} {cause : Nat} {tval : W64} :
    Kept s₀ (SCtx.trap c s cause tval) := by
  unfold SCtx.trap
  (try dsimp only)
  repeat' first
    | with_reducible assumption
    | with_reducible apply VCtx.put_kept
    | with_reducible apply SCtx.put_kept
    | exact fun _ k => k
    | split
    | intro

theorem SCtx.illegal_kept {s₀ s : State} (hk : Kept s₀ s) {c : SCtx} {w : Nat} :
    Kept s₀ (SCtx.illegal c s w) := by
  unfold SCtx.illegal
  (try dsimp only)
  repeat' first
    | with_reducible assumption
    | with_reducible apply SCtx.trap_kept
    | exact fun _ k => k
    | split
    | intro

theorem SCtx.store_kept {s₀ s : State} (hk : Kept s₀ s) {c : SCtx} {a : Nat} {bs : Bytes} :
    Kept s₀ (c.store s a bs) := by
  unfold SCtx.store
  split
  · exact State.onCore_kept hk fun _ k =>
      have w := Core.writeCm_canonical (q := c.q) (a := a) (bs := bs) k
      ⟨w.1, w.2.1, w.2.2⟩
  · exact State.onSe_kept hk
  · exact hk

theorem SCtx.zicsr_kept {s₀ s : State} (hk : Kept s₀ s) {c : SCtx} {w n : Nat} :
    Kept s₀ (SCtx.zicsr c s w n) := by
  unfold SCtx.zicsr
  (try dsimp only)
  repeat' first
    | with_reducible assumption
    | with_reducible apply VCtx.put_kept
    | with_reducible apply SCtx.put_kept
    | with_reducible apply SCtx.retire_kept
    | with_reducible apply SCtx.illegal_kept
    | with_reducible apply Kept.drawn
    | with_reducible apply Site.setReg_canonical
    | exact fun _ k => k
    | split
    | intro

theorem SCtx.atomic_kept {s₀ s : State} (hk : Kept s₀ s) {c : SCtx} {w n : Nat} :
    Kept s₀ (SCtx.atomic c s w n) := by
  unfold SCtx.atomic
  (try dsimp only)
  repeat' first
    | with_reducible assumption
    | with_reducible apply SCtx.retire_kept
    | with_reducible apply SCtx.trap_kept
    | with_reducible apply SCtx.illegal_kept
    | with_reducible apply SCtx.store_kept
    | with_reducible apply Site.setReg_canonical
    | exact fun _ k => k
    | split
    | intro

theorem SCtx.system_kept {s₀ s : State} (hk : Kept s₀ s) {c : SCtx} {w : Nat} :
    Kept s₀ (SCtx.system c s w) := by
  unfold SCtx.system
  (try dsimp only)
  repeat' first
    | with_reducible assumption
    | with_reducible apply SCtx.jump_kept
    | with_reducible apply SCtx.trap_kept
    | with_reducible apply SCtx.illegal_kept
    | exact fun _ k => k
    | split
    | intro

theorem SCtx.run_kept {s₀ s : State} (hk : Kept s₀ s) {c : SCtx} {w n : Nat} : Kept s₀ (c.run s w n) := by
  unfold SCtx.run
  extract_lets +onlyGivenNames e pc a b rd wr addr fp
  have hw : ∀ v, Kept s₀ (wr v) := fun v => SCtx.retire_kept hk
  have hf : ∀ r, Kept s₀ (fp r) := by
    intro r
    unfold fp
    split
    · exact SCtx.illegal_kept hk
    · exact SCtx.retire_kept hk
    · exact SCtx.retire_kept hk
  clear_value wr fp
  dsimp only
  repeat' first
    | with_reducible assumption
    | with_reducible apply hw
    | with_reducible apply hf
    | with_reducible apply SCtx.retire_kept
    | with_reducible apply SCtx.jump_kept
    | with_reducible apply SCtx.trap_kept
    | with_reducible apply SCtx.illegal_kept
    | with_reducible apply SCtx.store_kept
    | with_reducible apply SCtx.zicsr_kept
    | with_reducible apply SCtx.atomic_kept
    | with_reducible apply SCtx.system_kept
    | split
    | intro

theorem SCtx.give_kept {s₀ s : State} (hk : Kept s₀ s) {c : SCtx} {w : W32} {v : Nat} :
    Kept s₀ (SCtx.give c s w v) := by
  unfold SCtx.give
  (try dsimp only)
  repeat' first
    | with_reducible assumption
    | with_reducible apply SCtx.retire_kept
    | with_reducible apply Site.setReg_canonical
    | exact fun _ k => k
    | split
    | intro

theorem SCtx.await_kept {s₀ s : State} (hk : Kept s₀ s) {c : SCtx} {x : SeWait} :
    Kept s₀ (SCtx.await c s x) := by
  unfold SCtx.await
  (try dsimp only)
  repeat' first
    | with_reducible assumption
    | with_reducible apply VCtx.put_kept
    | with_reducible apply SCtx.put_kept
    | exact fun _ k => k
    | split
    | intro

theorem SCtx.launch_kept {s₀ s : State} (hk : Kept s₀ s) {c : SCtx} {w : W32} {blk : Bytes} :
    Kept s₀ (SCtx.launch c s w blk) := by
  unfold SCtx.launch
  (try dsimp only)
  repeat' first
    | with_reducible assumption
    | with_reducible apply State.onCore_kept
    | with_reducible apply SCtx.give_kept
    | with_reducible apply Kept.foldl
    | with_reducible apply Kept.foldlFst
    | with_reducible apply Kept.drawn
    | with_reducible apply Site.onCore_canonical
    | exact fun _ k => k
    | split
    | intro

theorem Core.collect_canonical {c : Core} (hk : c.canonical) {t : Nat} :
    (Core.collect c t).canonical := by
  unfold Core.collect
  (try dsimp only)
  repeat' first
    | with_reducible assumption
    | exact hk
    | exact fun _ k => k
    | split
    | intro

theorem Core.endTicket_canonical {c : Core} (hk : c.canonical) {ticket st : Nat} :
    (Core.endTicket c ticket st).canonical := by
  unfold Core.endTicket
  (try dsimp only)
  repeat' first
    | with_reducible assumption
    | exact hk
    | with_reducible apply Core.collect_canonical
    | exact fun _ k => k
    | split
    | intro

theorem Cluster.write_canonical {c : Cluster} (h : c.clm.wf = true) {slice a : Nat} {bs : Bytes} :
    (c.write slice a bs).clm.wf = true := Mem.wf_foldl h fun _ _ k => Mem.wf_write k _ _

theorem Core.dropMove_canonical {c : Core} (hk : c.canonical) {t : Nat} :
    (Core.dropMove c t).canonical := by
  unfold Core.dropMove
  (try dsimp only)
  repeat' first
    | with_reducible assumption
    | exact hk
    | exact fun _ k => k
    | split
    | intro

theorem Core.endMove_canonical {c : Core} {ticket r : Nat} (k : c.canonical) : (c.endMove ticket r).canonical := by
  have d : (c.dropMove ticket).canonical := Core.dropMove_canonical k
  unfold Core.endMove
  extract_lets +onlyGivenNames first
  split
  · exact ⟨d.1, d.2.1, d.2.2⟩
  · exact ⟨k.1, k.2.1, k.2.2⟩

theorem State.moveBytes_kept {s0 s : State} (h : Kept s0 s) (i core : Nat) (m : Move) : Kept s0 (s.moveBytes i core m) := by
  unfold State.moveBytes
  extract_lets +onlyGivenNames site c q slice
  split
  · exact State.onSite_kept h fun _ k => Site.onCluster_canonical k fun _ w => Cluster.write_canonical w
  · exact State.onCore_kept h fun _ k => Core.writeCm_canonical k

theorem Core.chainIn_canonical {c : Core} (hk : c.canonical) {h : Nat} {row : Nat × Bytes} :
    (Core.chainIn c h row).canonical := by
  unfold Core.chainIn
  (try dsimp only)
  repeat' first
    | with_reducible assumption
    | exact hk
    | exact fun _ k => k
    | split
    | intro

theorem Core.chainEnd_canonical {c : Core} (hk : c.canonical) {h : Nat} :
    (Core.chainEnd c h).canonical := by
  unfold Core.chainEnd
  (try dsimp only)
  repeat' first
    | with_reducible assumption
    | exact hk
    | exact fun _ k => k
    | split
    | intro

theorem State.onLink_kept {s₀ s : State} (hk : Kept s₀ s) {i l : Nat} {f : Link → Link} :
    Kept s₀ (State.onLink s i l f) := by
  unfold State.onLink
  (try dsimp only)
  repeat' first
    | with_reducible assumption
    | with_reducible apply State.onSite_kept
    | exact fun _ k => k
    | split
    | intro

theorem State.sendFrame_kept {s₀ s : State} (hk : Kept s₀ s) {i l : Nat} {p : Pkt} {c : CreditGrant} :
    Kept s₀ (State.sendFrame s i l p c) := by
  unfold State.sendFrame
  (try dsimp only)
  repeat' first
    | with_reducible assumption
    | with_reducible apply State.emit_kept
    | with_reducible apply State.onLink_kept
    | exact fun _ k => k
    | split
    | intro

theorem State.linkSend_kept {s₀ s : State} (hk : Kept s₀ s) {i l : Nat} {p : Pkt} :
    Kept s₀ (State.linkSend s i l p) := by
  unfold State.linkSend
  (try dsimp only)
  repeat' first
    | with_reducible assumption
    | with_reducible apply State.onLink_kept
    | with_reducible apply State.sendFrame_kept
    | exact fun _ k => k
    | split
    | intro

theorem drainLink_kept {s₀ : State} {n i l : Nat} : ∀ {s : State}, Kept s₀ s → Kept s₀ (drainLink n i l s) := by
  induction n with
  | zero => exact fun h => h
  | succ n ih =>
    intro s h
    unfold drainLink
    dsimp only
    split
    · exact h
    · exact ih (State.sendFrame_kept (State.onLink_kept h))

theorem State.drain_kept {s₀ s : State} (hk : Kept s₀ s) {i l : Nat} :
    Kept s₀ (State.drain s i l) := by
  unfold State.drain
  (try dsimp only)
  repeat' first
    | with_reducible assumption
    | with_reducible apply drainLink_kept
    | exact fun _ k => k
    | split
    | intro

theorem State.pickAmong_kept {s₀ s : State} (hk : Kept s₀ s) {i : Nat} {h : Hdr} {hi : W32} {ls : List Nat} :
    Kept s₀ (State.pickAmong s i h hi ls).2 := by
  unfold State.pickAmong
  (try dsimp only)
  repeat' first
    | with_reducible assumption
    | with_reducible apply State.onNet_kept
    | with_reducible apply State.draw_kept
    | with_reducible refine State.draw_kept' ?_ ‹_›
    | exact fun _ k => k
    | split
    | intro

theorem State.pickAmong_kept' {s₀ s t : State} (hk : Kept s₀ s) {i : Nat} {h : Hdr} {hi : W32} {ls : List Nat} {x : Option Nat}
    (e : State.pickAmong s i h hi ls = (x, t)) : Kept s₀ t := by
  have k : Kept s₀ (State.pickAmong s i h hi ls).2 := State.pickAmong_kept hk
  rw [e] at k
  exact k

theorem State.pickRoute_kept {s₀ s : State} (hk : Kept s₀ s) {i : Nat} {h : Hdr} :
    Kept s₀ (State.pickRoute s i h).2 := by
  unfold State.pickRoute
  (try dsimp only)
  repeat' first
    | with_reducible assumption
    | with_reducible apply State.pickAmong_kept
    | with_reducible refine State.pickAmong_kept' ?_ ‹_›
    | exact fun _ k => k
    | split
    | intro

theorem State.pickRoute_kept' {s₀ s t : State} (hk : Kept s₀ s) {i : Nat} {h : Hdr} {x : Option Nat}
    (e : State.pickRoute s i h = (x, t)) : Kept s₀ t := by
  have k : Kept s₀ (State.pickRoute s i h).2 := State.pickRoute_kept hk
  rw [e] at k
  exact k

theorem State.dropped_kept {s₀ s : State} (hk : Kept s₀ s) {i off : Nat} {f : Nat × Nat} :
    Kept s₀ (State.dropped s i off f) := by
  unfold State.dropped
  (try dsimp only)
  repeat' first
    | with_reducible assumption
    | with_reducible apply State.bump_kept
    | with_reducible apply Site.bump_canonical
    | exact fun _ k => k
    | split
    | intro

theorem State.handOff_kept {s₀ s : State} (hk : Kept s₀ s) {i j : Nat} {p : Pkt} :
    Kept s₀ (State.handOff s i j p) := by
  unfold State.handOff
  (try dsimp only)
  repeat' first
    | with_reducible assumption
    | with_reducible apply State.emit_kept
    | with_reducible apply State.dropped_kept
    | exact fun _ k => k
    | split
    | intro

theorem State.inject_kept {s₀ s : State} (hk : Kept s₀ s) {i : Nat} {p : Pkt} :
    Kept s₀ (State.inject s i p) := by
  unfold State.inject
  (try dsimp only)
  repeat' first
    | with_reducible assumption
    | with_reducible apply State.linkSend_kept
    | with_reducible apply State.pickRoute_kept
    | with_reducible refine State.pickRoute_kept' ?_ ‹_›
    | with_reducible apply State.dropped_kept
    | with_reducible apply State.handOff_kept
    | exact fun _ k => k
    | split
    | intro

theorem State.reroute_kept {s₀ s : State} (hk : Kept s₀ s) {i l : Nat} :
    Kept s₀ (State.reroute s i l) := by
  unfold State.reroute
  (try dsimp only)
  repeat' first
    | with_reducible assumption
    | with_reducible apply State.onLink_kept
    | with_reducible apply State.inject_kept
    | with_reducible apply Kept.foldl
    | with_reducible apply Kept.foldlFst
    | exact fun _ k => k
    | split
    | intro

theorem State.rerouteDown_kept {s₀ s : State} (hk : Kept s₀ s) {i : Nat} :
    Kept s₀ (State.rerouteDown s i) := by
  unfold State.rerouteDown
  (try dsimp only)
  repeat' first
    | with_reducible assumption
    | with_reducible apply State.reroute_kept
    | with_reducible apply Kept.foldl
    | with_reducible apply Kept.foldlFst
    | exact fun _ k => k
    | split
    | intro

theorem State.nextNonce_kept {s₀ s : State} (hk : Kept s₀ s) {i slot dst : Nat} {rsp : Bool} :
    Kept s₀ (State.nextNonce s i slot dst rsp).2 := by
  unfold State.nextNonce
  (try dsimp only)
  repeat' first
    | with_reducible assumption
    | with_reducible apply State.onNet_kept
    | exact fun _ k => k
    | split
    | intro

theorem State.nextNonce_kept' {s₀ s t : State} (hk : Kept s₀ s) {i slot dst : Nat} {rsp : Bool} {x : Nat}
    (e : State.nextNonce s i slot dst rsp = (x, t)) : Kept s₀ t := by
  have k : Kept s₀ (State.nextNonce s i slot dst rsp).2 := State.nextNonce_kept hk
  rw [e] at k
  exact k

theorem State.request_kept {s₀ s : State} (hk : Kept s₀ s) {i : Nat} {f : From} {r : Req} :
    Kept s₀ (State.request s i f r) := by
  unfold State.request
  (try dsimp only)
  repeat' first
    | with_reducible assumption
    | with_reducible apply State.onSite_kept
    | with_reducible apply VCtx.branch_kept
    | with_reducible apply State.inject_kept
    | with_reducible apply State.nextNonce_kept
    | with_reducible refine State.nextNonce_kept' ?_ ‹_›
    | with_reducible apply Kept.rd
    | exact fun _ k => k
    | split
    | intro

theorem State.respond_kept {s₀ s : State} (hk : Kept s₀ s) {i : Nat} {q : Pkt} {st : W16} {payload : Bytes} :
    Kept s₀ (State.respond s i q st payload) := by
  unfold State.respond
  (try dsimp only)
  repeat' first
    | with_reducible assumption
    | with_reducible apply State.onSite_kept
    | with_reducible apply State.inject_kept
    | with_reducible apply State.nextNonce_kept
    | with_reducible refine State.nextNonce_kept' ?_ ‹_›
    | with_reducible apply Kept.rd
    | exact fun _ k => k
    | split
    | intro

end Sys2Proof.Machine
end

