-- ==== Sys2Proof/Laws/KeptRun.lean ====
section
/-! SUPPORT. How runs of accesses keep what every command keeps: whatever a run does before it ends, stops or waits. -/

namespace Sys2Proof.Machine

/-- From every state that keeps what `s₀` has, the run leaves such a state. -/
def Keeps {α : Type} (s₀ : State) (m : Run α) : Prop := ∀ s, Kept s₀ s → Kept s₀ (m.run s).2

variable {s₀ s t : State} {α β : Type}

theorem Keeps.run {m : Run α} {r : Except Stop α} (h : Keeps s₀ m) (hk : Kept s₀ s) (e : m.run s = (r, t)) :
    Kept s₀ t := by
  have k := h s hk
  rw [e] at k
  exact k

theorem Keeps.pure (a : α) : Keeps s₀ (Pure.pure a : Run α) := fun _ h => h
theorem Keeps.throw (x : Stop) : Keeps s₀ (MonadExcept.throw x : Run α) := fun _ h => h
theorem Keeps.fail (st : W16) (d : Nat) : Keeps s₀ (Machine.fail st d : Run α) := fun _ h => h

theorem Keeps.bind {m : Run α} {k : α → Run β} (hm : Keeps s₀ m) (hk : ∀ a, Keeps s₀ (k a)) : Keeps s₀ (m >>= k) := by
  intro s h
  have g := hm s h
  have e : (m >>= k).run s = ExceptT.bindCont k (m.run s).1 (m.run s).2 := rfl
  rw [e]
  match m.run s, g with
  | (.ok a, t), g => exact hk a t g
  | (.error _, _), g => exact g

theorem Keeps.seqRight {m : Run α} {k : Run β} (hm : Keeps s₀ m) (hk : Keeps s₀ k) : Keeps s₀ (m >>= fun _ => k) :=
  hm.bind fun _ => hk

theorem Keeps.map {m : Run α} {f : α → β} (hm : Keeps s₀ m) : Keeps s₀ (f <$> m) := by
  rw [← bind_pure_comp]
  exact hm.bind fun _ => Keeps.pure _

theorem Keeps.get {k : State → Run β} (hk : ∀ s, Kept s₀ s → Keeps s₀ (k s)) : Keeps s₀ (MonadState.get >>= k) :=
  fun s h => hk s h s h

theorem Keeps.set (h : Kept s₀ t) : Keeps s₀ (MonadStateOf.set t : Run PUnit) := fun _ _ => h
theorem Keeps.modify {f : State → State} (hf : ∀ s, Kept s₀ s → Kept s₀ (f s)) : Keeps s₀ (modify f : Run PUnit) :=
  fun s h => hf s h

theorem Keeps.ite {c : Prop} [Decidable c] {a b : Run α} (ha : Keeps s₀ a) (hb : Keeps s₀ b) :
    Keeps s₀ (if c then a else b) := by
  split <;> assumption

theorem Keeps.tryCatch {m : Run α} {k : Stop → Run α} (hm : Keeps s₀ m) (hk : ∀ a, Keeps s₀ (k a)) :
    Keeps s₀ (MonadExcept.tryCatch m k) := by
  intro s h
  have g := hm s h
  have e : (MonadExcept.tryCatch m k : Run α).run s = (match m.run s with
    | (.ok a, t) => (.ok a, t)
    | (.error x, t) => (k x).run t) := by
    simp only [MonadExcept.tryCatch, tryCatchThe, MonadExceptOf.tryCatch, ExceptT.tryCatch, ExceptT.run, ExceptT.mk, Bind.bind, StateT.bind]
    cases m s with
    | mk r t => cases r <;> rfl
  rw [e]
  match m.run s, g with
  | (.ok a, t), g => exact g
  | (.error x, t), g => exact hk x t g

theorem Keeps.forM {l : List α} {f : α → Run PUnit} (hf : ∀ a, Keeps s₀ (f a)) : Keeps s₀ (l.forM f) := by
  induction l with
  | nil => exact Keeps.pure _
  | cons a r ih => exact (hf a).bind fun _ => ih

theorem Keeps.mapM {l : List α} {f : α → Run β} (hf : ∀ a, Keeps s₀ (f a)) : Keeps s₀ (l.mapM f) := by
  induction l with
  | nil => exact Keeps.pure _
  | cons a r ih =>
    rw [List.mapM_cons]
    exact (hf a).bind fun _ => ih.bind fun _ => Keeps.pure _

theorem Keeps.viaPort {f : State → Except W16 α × State} (hf : ∀ s, Kept s₀ s → Kept s₀ (f s).2) :
    Keeps s₀ (Machine.viaPort f) := by
  unfold Machine.viaPort
  refine Keeps.get fun s h => (Keeps.set (hf s h)).bind fun _ => ?_
  split
  · exact Keeps.pure _
  · exact Keeps.fail _ _

theorem Keeps.viaHold {f : State → Option (Except W16 α × State)}
    (hf : ∀ s x t, Kept s₀ s → f s = some (x, t) → Kept s₀ t) : Keeps s₀ (Machine.viaHold f) := by
  unfold Machine.viaHold
  refine Keeps.get fun s h => ?_
  split
  · exact Keeps.throw _
  · refine (Keeps.set (hf s _ _ h ‹_›)).bind fun _ => ?_
    split
    · exact Keeps.pure _
    · exact Keeps.fail _ _

end Sys2Proof.Machine
end

