-- ==== Sys2Proof/Laws/KeptB.lean ====
section
/-! SUPPORT. The operations of Memory, Access keep what every command keeps. -/

set_option linter.unusedVariables false

namespace Sys2Proof.Machine

theorem Site.onTier_canonical {t : Site} (h : t.canonical) {slow : Bool} {f : Tier → Tier}
    (hf : ∀ r : Tier, r.data.wf = true → (f r).data.wf = true) : (t.onTier slow f).canonical := by
  unfold Site.onTier
  split
  · exact ⟨h.1, h.2.1, h.2.2.1, h.2.2.2.1, h.2.2.2.2.1, hf _ h.2.2.2.2.2⟩
  · exact ⟨h.1, h.2.1, h.2.2.1, h.2.2.2.1, hf _ h.2.2.2.2.1, h.2.2.2.2.2⟩

theorem Site.tier_wf {t : Site} (h : t.canonical) (slow : Bool) : (t.tier slow).data.wf = true := by
  unfold Site.tier
  split
  · exact h.2.2.2.2.2
  · exact h.2.2.2.2.1

theorem Site.foldl_canonical {α : Type} {l : List α} {f : Site → α → Site} {t : Site} (h : t.canonical)
    (hf : ∀ t a, Site.canonical t → (f t a).canonical) : (l.foldl f t).canonical := by
  induction l generalizing t with
  | nil => exact h
  | cons a r ih => exact ih (hf t a h)

theorem Site.takePage_canonical {t : Site} (hk : t.canonical) {slow : Bool} {ppn : Nat} :
    (Site.takePage t slow ppn).canonical := by
  unfold Site.takePage
  (try dsimp only)
  repeat' first
    | with_reducible assumption
    | exact hk
    | with_reducible apply Site.onTier_canonical
    | exact fun _ k => k
    | split
    | intro

theorem Site.drawPages_canonical {slow : Bool} {n : Nat} : ∀ {t u : Site} {l : List Nat}, t.canonical →
    Site.drawPages slow n t = some (l, u) → u.canonical := by
  induction n with
  | zero =>
    intro t u l h e
    cases e
    exact h
  | succ n ih =>
    intro t u l h e
    unfold Site.drawPages at e
    split at e
    · cases e
    · obtain ⟨⟨l', u'⟩, e', k⟩ := Option.map_eq_some_iff.mp e
      cases k
      exact ih (Site.takePage_canonical h) e'

theorem Site.freePage_canonical {t : Site} (h : t.canonical) {slow : Bool} {ppn : Nat} :
    (t.freePage slow ppn).canonical :=
  Site.onTier_canonical h fun _ k => Mem.wf_clear k _ _

theorem Site.onEntry_canonical {t : Site} (hk : t.canonical) {ns page : Nat} {f : TierEntry → TierEntry} :
    (Site.onEntry t ns page f).canonical := by
  unfold Site.onEntry
  (try dsimp only)
  repeat' first
    | with_reducible assumption
    | exact hk
    | with_reducible apply Site.onTier_canonical
    | exact fun _ k => k
    | split
    | intro

theorem Tier.setSub_canonical {r : Tier} (hk : r.data.wf = true) {m : SubMeta} :
    (Tier.setSub r m).data.wf = true := by
  unfold Tier.setSub
  (try dsimp only)
  repeat' first
    | with_reducible assumption
    | exact hk
    | exact fun _ k => k
    | split
    | intro

theorem State.memError_kept {s₀ s : State} (hk : Kept s₀ s) {i kind : Nat} {slow : Bool} {ppn addr slice : Nat} {mapped : Bool} :
    Kept s₀ (State.memError s i kind slow ppn addr slice mapped) := by
  unfold State.memError
  (try dsimp only)
  repeat' first
    | with_reducible assumption
    | with_reducible apply State.onWatch_kept
    | with_reducible apply State.raiseSrc_kept
    | with_reducible apply State.report_kept
    | exact fun _ k => k
    | split
    | intro

theorem State.memCorrected_kept {s₀ s : State} (hk : Kept s₀ s) {i : Nat} {slow : Bool} {ppn addr slice : Nat} :
    Kept s₀ (State.memCorrected s i slow ppn addr slice) := by
  unfold State.memCorrected
  (try dsimp only)
  repeat' first
    | with_reducible assumption
    | with_reducible apply State.onWatch_kept
    | with_reducible apply State.bump_kept
    | with_reducible apply State.memError_kept
    | with_reducible apply Site.bump_canonical
    | exact fun _ k => k
    | split
    | intro

theorem State.memUncorrectable_kept {s₀ s : State} (hk : Kept s₀ s) {i ns page j : Nat} {e : TierEntry} {addr : Nat} :
    Kept s₀ (State.memUncorrectable s i ns page j e addr) := by
  unfold State.memUncorrectable
  (try dsimp only)
  repeat' first
    | with_reducible assumption
    | with_reducible apply State.onSite_kept
    | with_reducible apply State.bump_kept
    | with_reducible apply State.memError_kept
    | with_reducible apply Site.bump_canonical
    | with_reducible apply Site.onEntry_canonical
    | exact fun _ k => k
    | split
    | intro

theorem State.memIntegrity_kept {s₀ s : State} (hk : Kept s₀ s) {i : Nat} {e : TierEntry} {addr : Nat} :
    Kept s₀ (State.memIntegrity s i e addr) := by
  unfold State.memIntegrity
  (try dsimp only)
  repeat' first
    | with_reducible assumption
    | with_reducible apply State.bump_kept
    | with_reducible apply State.memError_kept
    | with_reducible apply Site.bump_canonical
    | exact fun _ k => k
    | split
    | intro

theorem Site.countAccess_canonical {t : Site} (hk : t.canonical) {ns page off n : Nat} :
    (Site.countAccess t ns page off n).canonical := by
  unfold Site.countAccess
  (try dsimp only)
  repeat' first
    | with_reducible assumption
    | exact hk
    | with_reducible apply Site.onEntry_canonical
    | exact fun _ k => k
    | split
    | intro

theorem State.tierRead_kept {s₀ s : State} (hk : Kept s₀ s) {i addr n slot : Nat} {priv engine : Bool} :
    Kept s₀ (State.tierRead s i addr n slot priv engine).2 := by
  unfold State.tierRead
  (try dsimp only)
  repeat' first
    | with_reducible assumption
    | with_reducible apply State.onSite_kept
    | with_reducible apply State.memUncorrectable_kept
    | with_reducible apply State.memIntegrity_kept
    | with_reducible apply Site.countAccess_canonical
    | exact fun _ k => k
    | split
    | intro

theorem State.tierRead_kept' {s₀ s t : State} (hk : Kept s₀ s) {i addr n slot : Nat} {priv engine : Bool} {x : Except W16 Bytes}
    (e : State.tierRead s i addr n slot priv engine = (x, t)) : Kept s₀ t := by
  have k : Kept s₀ (State.tierRead s i addr n slot priv engine).2 := State.tierRead_kept hk
  rw [e] at k
  exact k

theorem Site.writeSub_canonical {t : Site} (h : t.canonical) {slow : Bool} {ppn off : Nat} {bs : Bytes} {slot : Nat}
    {priv : Bool} : (t.writeSub slow ppn off bs slot priv).canonical := by
  refine Site.onTier_canonical h fun r k => ?_
  show Mem.wf _ = true
  refine Mem.wf_write ?_ _ _
  split
  · exact Mem.wf_clear (Site.tier_wf h slow) _ _
  · exact Site.tier_wf h slow

theorem Site.cacheWrite_canonical {t : Site} (h : t.canonical) {own : Option Nat} {key off : Nat} {bs : Bytes} :
    (t.cacheWrite own key off bs).canonical := by
  unfold Site.cacheWrite
  extract_lets +onlyGivenNames hits
  generalize e : List.foldl _ t (List.range 2) = u
  have k : u.canonical := by
    rw [← e]
    refine Site.foldl_canonical h fun t c k => ?_
    split
    · exact k
    · dsimp only
      split
      · exact k
      · refine Site.bump_canonical (Site.onCluster_canonical k ?_)
        exact fun _ w => w
  dsimp only
  split
  · exact k
  · refine Site.onCluster_canonical k ?_
    exact fun _ w => w

theorem State.tierWrite_kept {s₀ s t : State} (hk : Kept s₀ s) {i addr : Nat} {bs : Bytes} {slot : Nat}
    {priv engine : Bool} {own : Option Nat} {x : Except W16 Unit}
    (e : s.tierWrite i addr bs slot priv engine own = some (x, t)) : Kept s₀ t := by
  revert e
  unfold State.tierWrite
  dsimp only
  repeat' first
    | with_reducible exact hk
    | with_reducible apply State.onSite_kept
    | with_reducible apply State.bump_kept
    | (intro _ w; exact Site.countAccess_canonical w)
    | (intro _ w; exact Site.cacheWrite_canonical (Site.writeSub_canonical w))
    | (intro _ w; split <;> exact Site.cacheWrite_canonical (Site.writeSub_canonical w))
    | (intro e; cases e)
    | split

theorem Site.useBudget_canonical {t : Site} (hk : t.canonical) {slice bset path n : Nat} :
    (Site.useBudget t slice bset path n).canonical := by
  unfold Site.useBudget
  (try dsimp only)
  repeat' first
    | with_reducible assumption
    | exact hk
    | exact fun _ k => k
    | split
    | intro

theorem Cluster.fill_canonical {c : Cluster} (h : c.clm.wf = true) {slice bset key off : Nat} {data : Bytes}
    {excess : Bool} : (c.fill slice bset key off data excess).clm.wf = true := by
  unfold Cluster.fill
  dsimp only
  repeat' first
    | exact h
    | split

theorem Cluster.foldl_canonical {α : Type} {l : List α} {f : Cluster → α → Cluster} {c : Cluster} (h : c.clm.wf = true)
    (hf : ∀ c a, Mem.wf (Cluster.clm c) = true → (f c a).clm.wf = true) : (l.foldl f c).clm.wf = true := by
  induction l generalizing c with
  | nil => exact h
  | cons a r ih => exact ih (hf c a h)

theorem State.charge_kept {s₀ s : State} (hk : Kept s₀ s) {j : Job} {p : Spot} {n : Nat} :
    Kept s₀ (State.charge s j p n) := by
  unfold State.charge
  (try dsimp only)
  repeat' first
    | with_reducible assumption
    | with_reducible apply State.onSite_kept
    | with_reducible apply Site.useBudget_canonical
    | exact fun _ k => k
    | split
    | intro

theorem Job.charge_keeps {s₀ : State} {j : Job} {p : Spot} {n : Nat} : Keeps s₀ (Job.charge j p n) := by
  unfold Job.charge
  (try dsimp only)
  repeat' first
    | with_reducible assumption
    | with_reducible apply Keeps.get
    | with_reducible apply Keeps.set
    | with_reducible apply Keeps.modify
    | with_reducible apply Keeps.pure
    | with_reducible apply Keeps.throw
    | with_reducible apply Keeps.fail
    | with_reducible apply Keeps.bind
    | with_reducible apply State.charge_kept
    | exact fun _ k => k
    | split
    | intro

theorem Job.hostGet_keeps {s₀ : State} {j : Job} {bus n : Nat} : Keeps s₀ (Job.hostGet j bus n) := by
  unfold Job.hostGet
  (try dsimp only)
  repeat' first
    | with_reducible assumption
    | with_reducible apply Job.charge_keeps
    | with_reducible apply Keeps.get
    | with_reducible apply Keeps.set
    | with_reducible apply Keeps.modify
    | with_reducible apply Keeps.pure
    | with_reducible apply Keeps.throw
    | with_reducible apply Keeps.fail
    | with_reducible apply Keeps.bind
    | with_reducible apply State.charge_kept
    | exact fun _ k => k
    | split
    | intro

theorem Job.hostPut_keeps {s₀ : State} {j : Job} {bus : Nat} {bs : Bytes} : Keeps s₀ (Job.hostPut j bus bs) := by
  unfold Job.hostPut
  (try dsimp only)
  repeat' first
    | with_reducible assumption
    | with_reducible apply Job.charge_keeps
    | with_reducible apply Keeps.get
    | with_reducible apply Keeps.set
    | with_reducible apply Keeps.modify
    | with_reducible apply Keeps.pure
    | with_reducible apply Keeps.throw
    | with_reducible apply Keeps.fail
    | with_reducible apply Keeps.bind
    | with_reducible apply State.onCmd_kept
    | with_reducible apply State.emit_kept
    | with_reducible apply State.charge_kept
    | exact fun _ k => k
    | split
    | intro

theorem Job.siteGet_keeps {s₀ : State} {j : Job} {b : Nat} {p : Spot} {n : Nat} : Keeps s₀ (Job.siteGet j b p n) := by
  unfold Job.siteGet
  (try dsimp only)
  repeat' first
    | with_reducible assumption
    | with_reducible apply Job.charge_keeps
    | with_reducible apply Keeps.get
    | with_reducible apply Keeps.set
    | with_reducible apply Keeps.modify
    | with_reducible apply Keeps.pure
    | with_reducible apply Keeps.throw
    | with_reducible apply Keeps.fail
    | with_reducible apply Keeps.viaPort
    | with_reducible apply Keeps.bind
    | with_reducible apply State.tierRead_kept
    | with_reducible refine State.tierRead_kept' ?_ ‹_›
    | with_reducible apply State.charge_kept
    | exact fun _ k => k
    | split
    | intro

theorem Job.cachedGet_keeps {s₀ : State} {j : Job} {c : Nat} {p : Spot} {n : Nat} : Keeps s₀ (Job.cachedGet j c p n) := by
  unfold Job.cachedGet
  (try dsimp only)
  repeat' first
    | with_reducible assumption
    | with_reducible apply Job.siteGet_keeps
    | with_reducible apply Keeps.get
    | with_reducible apply Keeps.set
    | with_reducible apply Keeps.modify
    | with_reducible apply Keeps.pure
    | with_reducible apply Keeps.throw
    | with_reducible apply Keeps.fail
    | with_reducible apply Keeps.bind
    | with_reducible apply State.onSite_kept
    | with_reducible apply Kept.foldl
    | with_reducible apply Kept.foldlFst
    | with_reducible apply Site.foldl_canonical
    | with_reducible apply Site.onCluster_canonical
    | with_reducible apply Site.useBudget_canonical
    | with_reducible apply Cluster.fill_canonical
    | with_reducible apply Cluster.foldl_canonical
    | exact fun _ k => k
    | split
    | intro

theorem Job.farGet_keeps {s₀ : State} {j : Job} {p : Spot} {n : Nat} : Keeps s₀ (Job.farGet j p n) := by
  unfold Job.farGet
  (try dsimp only)
  repeat' first
    | with_reducible assumption
    | with_reducible apply Job.charge_keeps
    | with_reducible apply Job.siteGet_keeps
    | with_reducible apply Keeps.get
    | with_reducible apply Keeps.set
    | with_reducible apply Keeps.modify
    | with_reducible apply Keeps.pure
    | with_reducible apply Keeps.throw
    | with_reducible apply Keeps.fail
    | with_reducible apply Keeps.bind
    | with_reducible apply State.charge_kept
    | exact fun _ k => k
    | split
    | intro

theorem State.onFrame_kept {s₀ s : State} (hk : Kept s₀ s) {i v dst page : Nat} {f : Frame → Frame} :
    Kept s₀ (State.onFrame s i v dst page f) := by
  unfold State.onFrame
  (try dsimp only)
  repeat' first
    | with_reducible assumption
    | with_reducible apply State.onNet_kept
    | exact fun _ k => k
    | split
    | intro

theorem State.dropFrames_kept {s₀ s : State} (hk : Kept s₀ s) {i : Nat} {which : Frame → Bool} :
    Kept s₀ (s.dropFrames i which) :=
  State.onSite_kept hk fun _ k => by
    have w := Site.foldl_canonical (l := (s.site i).net.frames.filter which)
      (f := fun t f => t.freePage false f.ppn) k fun _ _ w => Site.freePage_canonical w
    exact w

theorem State.frameFor_kept {s₀ s t : State} (hk : Kept s₀ s) {i v dst page slot bset : Nat}
    (e : State.frameFor s i v dst page slot bset = some t) : Kept s₀ t := by
  revert e
  unfold State.frameFor
  (try dsimp only)
  repeat' first
    | with_reducible assumption
    | contradiction
    | with_reducible apply State.onSite_kept
    | with_reducible apply State.onNet_kept
    | with_reducible apply State.dropFrames_kept
    | with_reducible apply Kept.foldl
    | with_reducible apply Kept.foldlFst
    | with_reducible apply Site.foldl_canonical
    | with_reducible apply Site.takePage_canonical
    | exact fun _ k => k
    | split
    | (intro e; cases e)
    | intro

theorem State.fillFrame_kept {s₀ s : State} (hk : Kept s₀ s) {i v dst addr : Nat} {data : Bytes} :
    Kept s₀ (State.fillFrame s i v dst addr data) := by
  unfold State.fillFrame
  (try dsimp only)
  repeat' first
    | with_reducible assumption
    | with_reducible apply State.onSite_kept
    | with_reducible apply State.onFrame_kept
    | with_reducible apply Site.writeSub_canonical
    | exact fun _ k => k
    | split
    | intro

theorem State.discardDirty_kept {s₀ s : State} (hk : Kept s₀ s) {v i asid base len : Nat} :
    Kept s₀ (State.discardDirty s v i asid base len) := by
  unfold State.discardDirty
  (try dsimp only)
  repeat' first
    | with_reducible assumption
    | with_reducible apply State.onNet_kept
    | with_reducible apply State.bump_kept
    | with_reducible apply Kept.foldl
    | with_reducible apply Kept.foldlFst
    | with_reducible apply Site.foldl_canonical
    | with_reducible apply Site.bump_canonical
    | exact fun _ k => k
    | split
    | intro

theorem Job.loftFill_keeps {s₀ : State} {j : Job} {p : Spot} : Keeps s₀ (Job.loftFill j p) := by
  unfold Job.loftFill
  (try dsimp only)
  repeat' first
    | with_reducible assumption
    | with_reducible apply Job.siteGet_keeps
    | with_reducible apply Keeps.get
    | with_reducible apply Keeps.set
    | with_reducible apply Keeps.modify
    | with_reducible apply Keeps.pure
    | with_reducible apply Keeps.throw
    | with_reducible apply Keeps.fail
    | with_reducible apply Keeps.bind
    | with_reducible apply State.onSite_kept
    | with_reducible apply State.onNet_kept
    | with_reducible apply State.onFrame_kept
    | with_reducible refine State.frameFor_kept ?_ ‹_›
    | with_reducible apply State.fillFrame_kept
    | with_reducible apply Site.useBudget_canonical
    | with_reducible apply Cluster.fill_canonical
    | exact fun _ k => k
    | split
    | intro

theorem Job.loftGet_keeps {s₀ : State} {j : Job} {dva : Nat} {p : Spot} {n : Nat} : Keeps s₀ (Job.loftGet j dva p n) := by
  unfold Job.loftGet
  (try dsimp only)
  repeat' first
    | with_reducible assumption
    | with_reducible apply Job.farGet_keeps
    | with_reducible apply Job.loftFill_keeps
    | with_reducible apply Keeps.get
    | with_reducible apply Keeps.set
    | with_reducible apply Keeps.modify
    | with_reducible apply Keeps.pure
    | with_reducible apply Keeps.throw
    | with_reducible apply Keeps.fail
    | with_reducible apply Keeps.bind
    | exact fun _ k => k
    | split
    | intro

theorem Job.find_keeps {s₀ : State} {j : Job} {dva need : Nat} : Keeps s₀ (Job.find j dva need) := by
  unfold Job.find
  (try dsimp only)
  repeat' first
    | with_reducible assumption
    | with_reducible apply Keeps.get
    | with_reducible apply Keeps.set
    | with_reducible apply Keeps.modify
    | with_reducible apply Keeps.pure
    | with_reducible apply Keeps.throw
    | with_reducible apply Keeps.fail
    | with_reducible apply Keeps.bind
    | with_reducible apply VCtx.fault_kept
    | exact fun _ k => k
    | split
    | intro

theorem Job.getPiece_keeps {s₀ : State} {j : Job} {dva n : Nat} : Keeps s₀ (Job.getPiece j dva n) := by
  unfold Job.getPiece
  (try dsimp only)
  repeat' first
    | with_reducible assumption
    | with_reducible apply Job.hostGet_keeps
    | with_reducible apply Job.siteGet_keeps
    | with_reducible apply Job.cachedGet_keeps
    | with_reducible apply Job.farGet_keeps
    | with_reducible apply Job.loftGet_keeps
    | with_reducible apply Job.find_keeps
    | with_reducible apply Keeps.get
    | with_reducible apply Keeps.set
    | with_reducible apply Keeps.modify
    | with_reducible apply Keeps.pure
    | with_reducible apply Keeps.throw
    | with_reducible apply Keeps.fail
    | with_reducible apply Keeps.bind
    | exact fun _ k => k
    | split
    | intro

theorem Job.send_keeps {s₀ : State} {j : Job} {r : Req} : Keeps s₀ (Job.send j r) := by
  unfold Job.send
  (try dsimp only)
  repeat' first
    | with_reducible assumption
    | with_reducible apply Keeps.get
    | with_reducible apply Keeps.set
    | with_reducible apply Keeps.modify
    | with_reducible apply Keeps.pure
    | with_reducible apply Keeps.throw
    | with_reducible apply Keeps.fail
    | with_reducible apply Keeps.bind
    | with_reducible apply State.onCmd_kept
    | exact fun _ k => k
    | split
    | intro

theorem Job.farPut_keeps {s₀ : State} {j : Job} {p : Spot} {bs : Bytes} {branch : Nat} {group : Option Nat} : Keeps s₀ (Job.farPut j p bs branch group) := by
  unfold Job.farPut
  (try dsimp only)
  repeat' first
    | with_reducible assumption
    | with_reducible apply Job.charge_keeps
    | with_reducible apply Job.send_keeps
    | with_reducible apply Keeps.get
    | with_reducible apply Keeps.set
    | with_reducible apply Keeps.modify
    | with_reducible apply Keeps.pure
    | with_reducible apply Keeps.throw
    | with_reducible apply Keeps.fail
    | with_reducible apply Keeps.viaHold
    | with_reducible apply Keeps.bind
    | with_reducible apply State.onCmd_kept
    | with_reducible apply VCtx.branch_kept
    | with_reducible refine State.tierWrite_kept ?_ ‹_›
    | with_reducible apply State.charge_kept
    | with_reducible apply Cluster.write_canonical
    | exact fun _ k => k
    | split
    | intro

theorem Job.putPiece_keeps {s₀ : State} {j : Job} {dva : Nat} {bs : Bytes} {branch : Nat} {group : Option Nat} : Keeps s₀ (Job.putPiece j dva bs branch group) := by
  unfold Job.putPiece
  (try dsimp only)
  repeat' first
    | with_reducible assumption
    | with_reducible apply Job.charge_keeps
    | with_reducible apply Job.hostPut_keeps
    | with_reducible apply Job.loftFill_keeps
    | with_reducible apply Job.find_keeps
    | with_reducible apply Job.farPut_keeps
    | with_reducible apply Keeps.get
    | with_reducible apply Keeps.set
    | with_reducible apply Keeps.modify
    | with_reducible apply Keeps.pure
    | with_reducible apply Keeps.throw
    | with_reducible apply Keeps.fail
    | with_reducible apply Keeps.viaHold
    | with_reducible apply Keeps.bind
    | with_reducible apply State.onSite_kept
    | with_reducible apply VCtx.branch_kept
    | with_reducible refine State.tierWrite_kept ?_ ‹_›
    | with_reducible apply State.charge_kept
    | with_reducible apply State.onFrame_kept
    | with_reducible apply Site.writeSub_canonical
    | exact fun _ k => k
    | split
    | intro

theorem mixBytes_keeps {s₀ : State} {a b : Bytes} : Keeps s₀ (mixBytes a b) := by
  induction a generalizing b with
  | nil => exact Keeps.pure _
  | cons x xs ih =>
    cases b with
    | nil => exact Keeps.pure _
    | cons y ys =>
      unfold mixBytes
      refine Keeps.bind ih fun _ => ?_
      split
      · exact Keeps.pure _
      · exact Keeps.get fun s h => (Keeps.set (State.draw_kept h)).bind fun _ => Keeps.pure _

theorem Job.mixed_keeps {s₀ : State} {j : Job} {raw : Run Bytes} (h : Keeps s₀ raw) : Keeps s₀ (j.mixed raw) := by
  unfold Job.mixed
  refine Keeps.bind h fun _ => ?_
  split
  · split
    · exact Keeps.pure _
    · exact mixBytes_keeps
  · exact Keeps.pure _

theorem Job.rawDva_keeps {s₀ : State} {j : Job} {dva n : Nat} : Keeps s₀ (Job.rawDva j dva n) := by
  unfold Job.rawDva
  (try dsimp only)
  repeat' first
    | with_reducible assumption
    | with_reducible apply Job.getPiece_keeps
    | with_reducible apply Keeps.get
    | with_reducible apply Keeps.set
    | with_reducible apply Keeps.modify
    | with_reducible apply Keeps.pure
    | with_reducible apply Keeps.throw
    | with_reducible apply Keeps.fail
    | with_reducible apply Keeps.mapM
    | with_reducible apply Keeps.bind
    | exact fun _ k => k
    | split
    | intro

theorem Job.getDva_keeps {s₀ : State} {j : Job} {dva n : Nat} : Keeps s₀ (Job.getDva j dva n) := by
  unfold Job.getDva
  (try dsimp only)
  repeat' first
    | with_reducible assumption
    | with_reducible apply Job.mixed_keeps
    | with_reducible apply Job.rawDva_keeps
    | with_reducible apply Keeps.get
    | with_reducible apply Keeps.set
    | with_reducible apply Keeps.modify
    | with_reducible apply Keeps.pure
    | with_reducible apply Keeps.throw
    | with_reducible apply Keeps.fail
    | with_reducible apply Keeps.bind
    | exact fun _ k => k
    | split
    | intro

theorem Job.putDva_keeps {s₀ : State} {j : Job} {dva : Nat} {bs : Bytes} {branch : Nat} {group : Option Nat} : Keeps s₀ (Job.putDva j dva bs branch group) := by
  unfold Job.putDva
  (try dsimp only)
  repeat' first
    | with_reducible assumption
    | with_reducible apply Job.putPiece_keeps
    | with_reducible apply Keeps.get
    | with_reducible apply Keeps.set
    | with_reducible apply Keeps.modify
    | with_reducible apply Keeps.pure
    | with_reducible apply Keeps.throw
    | with_reducible apply Keeps.fail
    | with_reducible apply Keeps.forM
    | with_reducible apply Keeps.bind
    | with_reducible apply VCtx.branch_kept
    | exact fun _ k => k
    | split
    | intro

theorem Job.rawCm_keeps {s₀ : State} {j : Job} {a n : Nat} : Keeps s₀ (Job.rawCm j a n) := by
  unfold Job.rawCm
  (try dsimp only)
  repeat' first
    | with_reducible assumption
    | with_reducible apply Keeps.get
    | with_reducible apply Keeps.set
    | with_reducible apply Keeps.modify
    | with_reducible apply Keeps.pure
    | with_reducible apply Keeps.throw
    | with_reducible apply Keeps.fail
    | with_reducible apply Keeps.bind
    | exact fun _ k => k
    | split
    | intro

theorem Job.getCm_keeps {s₀ : State} {j : Job} {a n : Nat} : Keeps s₀ (Job.getCm j a n) := by
  unfold Job.getCm
  (try dsimp only)
  repeat' first
    | with_reducible assumption
    | with_reducible apply Job.mixed_keeps
    | with_reducible apply Job.rawCm_keeps
    | with_reducible apply Keeps.get
    | with_reducible apply Keeps.set
    | with_reducible apply Keeps.modify
    | with_reducible apply Keeps.pure
    | with_reducible apply Keeps.throw
    | with_reducible apply Keeps.fail
    | with_reducible apply Keeps.bind
    | exact fun _ k => k
    | split
    | intro

theorem Job.putCm_keeps {s₀ : State} {j : Job} {a : Nat} {bs : Bytes} : Keeps s₀ (Job.putCm j a bs) := by
  unfold Job.putCm
  (try dsimp only)
  repeat' first
    | with_reducible assumption
    | with_reducible apply Keeps.get
    | with_reducible apply Keeps.set
    | with_reducible apply Keeps.modify
    | with_reducible apply Keeps.pure
    | with_reducible apply Keeps.throw
    | with_reducible apply Keeps.fail
    | with_reducible apply Keeps.bind
    | with_reducible apply State.onCore_kept
    | with_reducible apply Site.onCore_canonical
    | with_reducible apply Core.writeCm_canonical
    | exact fun _ k => k
    | split
    | intro

theorem Job.rawClm_keeps {s₀ : State} {j : Job} {a n : Nat} : Keeps s₀ (Job.rawClm j a n) := by
  unfold Job.rawClm
  (try dsimp only)
  repeat' first
    | with_reducible assumption
    | with_reducible apply Keeps.get
    | with_reducible apply Keeps.set
    | with_reducible apply Keeps.modify
    | with_reducible apply Keeps.pure
    | with_reducible apply Keeps.throw
    | with_reducible apply Keeps.fail
    | with_reducible apply Keeps.bind
    | exact fun _ k => k
    | split
    | intro

theorem Job.getClm_keeps {s₀ : State} {j : Job} {a n : Nat} : Keeps s₀ (Job.getClm j a n) := by
  unfold Job.getClm
  (try dsimp only)
  repeat' first
    | with_reducible assumption
    | with_reducible apply Job.mixed_keeps
    | with_reducible apply Job.rawClm_keeps
    | with_reducible apply Keeps.get
    | with_reducible apply Keeps.set
    | with_reducible apply Keeps.modify
    | with_reducible apply Keeps.pure
    | with_reducible apply Keeps.throw
    | with_reducible apply Keeps.fail
    | with_reducible apply Keeps.bind
    | exact fun _ k => k
    | split
    | intro

theorem Job.putClm_keeps {s₀ : State} {j : Job} {a : Nat} {bs : Bytes} : Keeps s₀ (Job.putClm j a bs) := by
  unfold Job.putClm
  (try dsimp only)
  repeat' first
    | with_reducible assumption
    | with_reducible apply Keeps.get
    | with_reducible apply Keeps.set
    | with_reducible apply Keeps.modify
    | with_reducible apply Keeps.pure
    | with_reducible apply Keeps.throw
    | with_reducible apply Keeps.fail
    | with_reducible apply Keeps.bind
    | with_reducible apply State.onSite_kept
    | with_reducible apply Site.onCluster_canonical
    | with_reducible apply Cluster.write_canonical
    | exact fun _ k => k
    | split
    | intro

theorem Job.load_keeps {s₀ : State} {j : Job} {ea n : Nat} : Keeps s₀ (Job.load j ea n) := by
  unfold Job.load
  (try dsimp only)
  repeat' first
    | with_reducible assumption
    | with_reducible apply Job.getDva_keeps
    | with_reducible apply Job.getCm_keeps
    | with_reducible apply Job.getClm_keeps
    | with_reducible apply Keeps.get
    | with_reducible apply Keeps.set
    | with_reducible apply Keeps.modify
    | with_reducible apply Keeps.pure
    | with_reducible apply Keeps.throw
    | with_reducible apply Keeps.fail
    | with_reducible apply Keeps.bind
    | exact fun _ k => k
    | split
    | intro

theorem Job.store_keeps {s₀ : State} {j : Job} {ea : Nat} {bs : Bytes} : Keeps s₀ (Job.store j ea bs) := by
  unfold Job.store
  (try dsimp only)
  repeat' first
    | with_reducible assumption
    | with_reducible apply Job.putDva_keeps
    | with_reducible apply Job.putCm_keeps
    | with_reducible apply Job.putClm_keeps
    | with_reducible apply Keeps.get
    | with_reducible apply Keeps.set
    | with_reducible apply Keeps.modify
    | with_reducible apply Keeps.pure
    | with_reducible apply Keeps.throw
    | with_reducible apply Keeps.fail
    | with_reducible apply Keeps.bind
    | exact fun _ k => k
    | split
    | intro

theorem Job.flags_keeps {s₀ : State} {j : Job} {w : W16} : Keeps s₀ (Job.flags j w) := by
  unfold Job.flags
  (try dsimp only)
  repeat' first
    | with_reducible assumption
    | with_reducible apply Keeps.get
    | with_reducible apply Keeps.set
    | with_reducible apply Keeps.modify
    | with_reducible apply Keeps.pure
    | with_reducible apply Keeps.throw
    | with_reducible apply Keeps.fail
    | with_reducible apply Keeps.bind
    | with_reducible apply State.onCmd_kept
    | exact fun _ k => k
    | split
    | intro

theorem Job.loadAt_keeps {s₀ : State} {j : Job} {ea n field : Nat} {align : Nat} : Keeps s₀ (Job.loadAt j ea n field align) := by
  unfold Job.loadAt
  (try dsimp only)
  repeat' first
    | with_reducible assumption
    | with_reducible apply Job.load_keeps
    | with_reducible apply Keeps.get
    | with_reducible apply Keeps.set
    | with_reducible apply Keeps.modify
    | with_reducible apply Keeps.pure
    | with_reducible apply Keeps.throw
    | with_reducible apply Keeps.fail
    | with_reducible apply Keeps.bind
    | exact fun _ k => k
    | split
    | intro

theorem Job.storeAt_keeps {s₀ : State} {j : Job} {ea : Nat} {bs : Bytes} {field : Nat} {align : Nat} : Keeps s₀ (Job.storeAt j ea bs field align) := by
  unfold Job.storeAt
  (try dsimp only)
  repeat' first
    | with_reducible assumption
    | with_reducible apply Job.store_keeps
    | with_reducible apply Keeps.get
    | with_reducible apply Keeps.set
    | with_reducible apply Keeps.modify
    | with_reducible apply Keeps.pure
    | with_reducible apply Keeps.throw
    | with_reducible apply Keeps.fail
    | with_reducible apply Keeps.bind
    | with_reducible apply SCtx.store_kept
    | exact fun _ k => k
    | split
    | intro

theorem State.finish_kept {s₀ s : State} (hk : Kept s₀ s) {i : Nat} {c : CmdRef} {st eng : W16} {detail : Nat} :
    Kept s₀ (State.finish s i c st eng detail) := by
  unfold State.finish
  (try dsimp only)
  repeat' first
    | with_reducible assumption
    | with_reducible apply State.onCmd_kept
    | exact fun _ k => k
    | split
    | intro

theorem pumpN_kept {s₀ : State} {n i : Nat} {c : CmdRef} {f : From} :
    ∀ {s : State}, Kept s₀ s → Kept s₀ (pumpN n i c f s) := by
  induction n with
  | zero => exact fun h => h
  | succ n ih =>
    intro s h
    unfold pumpN
    repeat' first
      | exact h
      | exact State.finish_kept h
      | exact ih (State.request_kept (State.onCmd_kept h))
      | split

theorem State.pump_kept {s₀ s : State} (hk : Kept s₀ s) {c : CmdRef} :
    Kept s₀ (State.pump s c) := by
  unfold State.pump
  (try dsimp only)
  repeat' first
    | with_reducible assumption
    | with_reducible apply pumpN_kept
    | exact fun _ k => k
    | split
    | intro

theorem State.settle_kept {s₀ s : State} (hk : Kept s₀ s) {i : Nat} {c : CmdRef} :
    Kept s₀ (State.settle s i c) := by
  unfold State.settle
  (try dsimp only)
  repeat' first
    | with_reducible assumption
    | with_reducible apply State.finish_kept
    | exact fun _ k => k
    | split
    | intro

theorem Job.suspend_kept {s₀ s : State} (hk : Kept s₀ s) {j : Job} {x : Stop} :
    Kept s₀ (Job.suspend j s x) := by
  unfold Job.suspend
  (try dsimp only)
  repeat' first
    | with_reducible assumption
    | with_reducible apply State.onCmd_kept
    | with_reducible apply State.emit_kept
    | with_reducible apply State.pump_kept
    | with_reducible apply Kept.foldl
    | with_reducible apply Kept.foldlFst
    | with_reducible apply Site.foldl_canonical
    | exact fun _ k => k
    | split
    | intro

theorem Job.conclude_kept {s₀ t : State} (hk : Kept s₀ t) {j : Job} {st eng : W16} {detail : Nat} :
    Kept s₀ (Job.conclude j t st eng detail) := by
  unfold Job.conclude
  (try dsimp only)
  repeat' first
    | with_reducible assumption
    | with_reducible apply State.onCmd_kept
    | with_reducible apply State.finish_kept
    | with_reducible apply State.pump_kept
    | with_reducible apply State.settle_kept
    | exact fun _ k => k
    | split
    | intro

theorem Job.close_kept {s₀ s t : State} (hk : Kept s₀ s) (ht : Kept s₀ t) {j : Job} {r : Except Stop (W16 × W16 × Nat)} :
    Kept s₀ (j.close s r t) := by
  unfold Job.close
  repeat' first
    | exact Job.conclude_kept ht
    | exact State.pump_kept ht
    | exact Job.suspend_kept hk
    | split

/-- An engine row keeps what every command keeps if its run does. -/
theorem runRow_kept {s t : State} {c : CmdRef} {op : Nat} {body : Job → Run (W16 × W16 × Nat)}
    (h : ∀ j, Keeps s (body j)) (e : runRow c op s body = .next t) : Kept s t := by
  unfold runRow at e
  injection e with e
  subst e
  repeat' first
    | exact Kept.refl s
    | exact Job.close_kept (Kept.refl s) (h _ s (Kept.refl s))
    | split

end Sys2Proof.Machine
end

