-- ==== Sys2Proof/Laws/KeptC.lean ====
section
/-! SUPPORT. The operations of Tensor, Zoo, Front keep what every command keeps. -/

set_option linter.unusedVariables false

namespace Sys2Proof.Machine

theorem Core.setAccRow_canonical {c : Core} (h : c.canonical) {q : Option Nat} {r : Nat} {l : List Nat} :
    (c.setAccRow q r l).canonical := ⟨h.1, Mem.wf_write h.2.1 _ _, h.2.2⟩

theorem Core.foldl_canonical {α : Type} {l : List α} {f : Core → α → Core} {c : Core} (h : c.canonical)
    (hf : ∀ c a, Core.canonical c → (f c a).canonical) : (l.foldl f c).canonical := by
  induction l generalizing c with
  | nil => exact h
  | cons a r ih => exact ih (hf c a h)

theorem Job.checkTile_keeps {s₀ : State} {j : Job} : Keeps s₀ (Job.checkTile j) := by
  unfold Job.checkTile
  (try dsimp only)
  repeat' first
    | with_reducible assumption
    | with_reducible apply Job.getCm_keeps
    | with_reducible apply Keeps.get
    | with_reducible apply Keeps.set
    | with_reducible apply Keeps.modify
    | with_reducible apply Keeps.pure
    | with_reducible apply Keeps.throw
    | with_reducible apply Keeps.fail
    | with_reducible apply Keeps.bind
    | exact fun _ k => k
    | split
    | intro

theorem Job.scaleWords_keeps {s₀ : State} {j : Job} {f : InFmt} {addr lo n : Nat} : Keeps s₀ (Job.scaleWords j f addr lo n) := by
  unfold Job.scaleWords
  (try dsimp only)
  repeat' first
    | with_reducible assumption
    | with_reducible apply Job.getCm_keeps
    | with_reducible apply Keeps.get
    | with_reducible apply Keeps.set
    | with_reducible apply Keeps.modify
    | with_reducible apply Keeps.pure
    | with_reducible apply Keeps.throw
    | with_reducible apply Keeps.fail
    | with_reducible apply Keeps.bind
    | exact fun _ k => k
    | split
    | intro

theorem Job.stripA_keeps {s₀ : State} {j : Job} {t : Tile} {f : InFmt} {k0 k1 m : Nat} : Keeps s₀ (Job.stripA j t f k0 k1 m) := by
  unfold Job.stripA
  (try dsimp only)
  repeat' first
    | with_reducible assumption
    | with_reducible apply Job.getCm_keeps
    | with_reducible apply Job.scaleWords_keeps
    | with_reducible apply Keeps.get
    | with_reducible apply Keeps.set
    | with_reducible apply Keeps.modify
    | with_reducible apply Keeps.pure
    | with_reducible apply Keeps.throw
    | with_reducible apply Keeps.fail
    | with_reducible apply Keeps.bind
    | exact fun _ k => k
    | split
    | intro

theorem Job.stripsB_keeps {s₀ : State} {j : Job} {t : Tile} {f : InFmt} {k0 k1 : Nat} : Keeps s₀ (Job.stripsB j t f k0 k1) := by
  unfold Job.stripsB
  (try dsimp only)
  repeat' first
    | with_reducible assumption
    | with_reducible apply Job.getCm_keeps
    | with_reducible apply Job.scaleWords_keeps
    | with_reducible apply Keeps.get
    | with_reducible apply Keeps.set
    | with_reducible apply Keeps.modify
    | with_reducible apply Keeps.pure
    | with_reducible apply Keeps.throw
    | with_reducible apply Keeps.fail
    | with_reducible apply Keeps.mapM
    | with_reducible apply Keeps.bind
    | with_reducible apply Kept.foldl
    | with_reducible apply Kept.foldlFst
    | with_reducible apply Site.foldl_canonical
    | exact fun _ k => k
    | split
    | intro

theorem Job.pass_keeps {s₀ : State} {j : Job} {t : Tile} {fa fb : InFmt} {k0 k1 : Nat} {start : Nat → List Nat} : Keeps s₀ (Job.pass j t fa fb k0 k1 start) := by
  unfold Job.pass
  (try dsimp only)
  repeat' first
    | with_reducible assumption
    | with_reducible apply Job.flags_keeps
    | with_reducible apply Job.stripA_keeps
    | with_reducible apply Job.stripsB_keeps
    | with_reducible apply Keeps.get
    | with_reducible apply Keeps.set
    | with_reducible apply Keeps.modify
    | with_reducible apply Keeps.pure
    | with_reducible apply Keeps.throw
    | with_reducible apply Keeps.fail
    | with_reducible apply Keeps.mapM
    | with_reducible apply Keeps.bind
    | with_reducible apply Kept.foldl
    | with_reducible apply Kept.foldlFst
    | with_reducible apply Site.foldl_canonical
    | exact fun _ k => k
    | split
    | intro

theorem Job.putAcc_keeps {s₀ : State} {j : Job} {row : Nat} {rows : List (List Nat)} : Keeps s₀ (Job.putAcc j row rows) := by
  unfold Job.putAcc
  (try dsimp only)
  repeat' first
    | with_reducible assumption
    | with_reducible apply Keeps.get
    | with_reducible apply Keeps.set
    | with_reducible apply Keeps.modify
    | with_reducible apply Keeps.pure
    | with_reducible apply Keeps.throw
    | with_reducible apply Keeps.fail
    | with_reducible apply Core.foldl_canonical
    | with_reducible apply Keeps.bind
    | with_reducible apply State.onCore_kept
    | with_reducible apply Kept.foldl
    | with_reducible apply Kept.foldlFst
    | with_reducible apply Site.foldl_canonical
    | with_reducible apply Site.onCore_canonical
    | with_reducible apply Core.setAccRow_canonical
    | with_reducible apply Core.foldl_canonical
    | exact fun _ k => k
    | split
    | intro

theorem Job.passesWs_keeps {s₀ : State} {j : Job} {t : Tile} {fa fb : InFmt} {l : List Nat} :
    Keeps s₀ (j.passesWs t fa fb l) := by
  induction l with
  | nil => exact Keeps.pure _
  | cons p r ih =>
    unfold Job.passesWs
    repeat' first
      | with_reducible assumption
      | with_reducible apply ih
      | with_reducible apply Job.load_keeps
      | with_reducible apply Job.loadAt_keeps
      | with_reducible apply Job.store_keeps
      | with_reducible apply Job.pass_keeps
      | with_reducible apply Job.putAcc_keeps
      | with_reducible apply Job.putCm_keeps
      | with_reducible apply Job.flags_keeps
      | with_reducible apply Keeps.get
      | with_reducible apply Keeps.pure
      | with_reducible apply Keeps.fail
      | with_reducible apply Keeps.mapM
      | with_reducible apply Keeps.forM
      | with_reducible apply Keeps.bind
      | split
      | dsimp only
      | intro

theorem Job.passOs_keeps {s₀ : State} {j : Job} {t : Tile} {fa fb : InFmt} : Keeps s₀ (Job.passOs j t fa fb) := by
  unfold Job.passOs
  (try dsimp only)
  repeat' first
    | with_reducible assumption
    | with_reducible apply Job.flags_keeps
    | with_reducible apply Job.pass_keeps
    | with_reducible apply Job.putAcc_keeps
    | with_reducible apply Keeps.get
    | with_reducible apply Keeps.set
    | with_reducible apply Keeps.modify
    | with_reducible apply Keeps.pure
    | with_reducible apply Keeps.throw
    | with_reducible apply Keeps.fail
    | with_reducible apply Keeps.bind
    | with_reducible apply Kept.foldl
    | with_reducible apply Kept.foldlFst
    | with_reducible apply Site.foldl_canonical
    | exact fun _ k => k
    | split
    | intro

theorem Job.floats_keeps {s₀ : State} {j : Job} {on : Bool} {addr n : Nat} : Keeps s₀ (Job.floats j on addr n) := by
  unfold Job.floats
  (try dsimp only)
  repeat' first
    | with_reducible assumption
    | with_reducible apply Job.getCm_keeps
    | with_reducible apply Keeps.get
    | with_reducible apply Keeps.set
    | with_reducible apply Keeps.modify
    | with_reducible apply Keeps.pure
    | with_reducible apply Keeps.throw
    | with_reducible apply Keeps.fail
    | with_reducible apply Keeps.bind
    | exact fun _ k => k
    | split
    | intro

theorem Job.epilogue_keeps {s₀ : State} {j : Job} {t : Tile} {int : Bool} : Keeps s₀ (Job.epilogue j t int) := by
  unfold Job.epilogue
  (try dsimp only)
  repeat' first
    | with_reducible assumption
    | with_reducible apply Job.getCm_keeps
    | with_reducible apply Job.putCm_keeps
    | with_reducible apply Job.flags_keeps
    | with_reducible apply Job.floats_keeps
    | with_reducible apply Keeps.get
    | with_reducible apply Keeps.set
    | with_reducible apply Keeps.modify
    | with_reducible apply Keeps.pure
    | with_reducible apply Keeps.throw
    | with_reducible apply Keeps.fail
    | with_reducible apply Keeps.forM
    | with_reducible apply Keeps.bind
    | with_reducible apply State.onCmd_kept
    | with_reducible apply State.draw_kept
    | with_reducible refine State.draw_kept' ?_ ‹_›
    | with_reducible apply Kept.foldl
    | with_reducible apply Kept.foldlFst
    | with_reducible apply Site.foldl_canonical
    | exact fun _ k => k
    | split
    | intro

theorem Job.checkAttention_keeps {s₀ : State} {j : Job} : Keeps s₀ (Job.checkAttention j) := by
  unfold Job.checkAttention
  (try dsimp only)
  repeat' first
    | with_reducible assumption
    | with_reducible apply Keeps.get
    | with_reducible apply Keeps.set
    | with_reducible apply Keeps.modify
    | with_reducible apply Keeps.pure
    | with_reducible apply Keeps.throw
    | with_reducible apply Keeps.fail
    | with_reducible apply Keeps.bind
    | exact fun _ k => k
    | split
    | intro

theorem Job.attChunks_keeps {s₀ : State} {j : Job} {a : Att} {qs : List Strip} {mask : Bytes} {l : List Nat} :
    ∀ {rows : List AttRow}, Keeps s₀ (j.attChunks a qs mask l rows) := by
  induction l with
  | nil => exact Keeps.pure _
  | cons p r ih =>
    intro rows
    unfold Job.attChunks
    repeat' first
      | with_reducible assumption
      | with_reducible apply ih
      | with_reducible apply Job.load_keeps
      | with_reducible apply Job.loadAt_keeps
      | with_reducible apply Job.store_keeps
      | with_reducible apply Job.pass_keeps
      | with_reducible apply Job.putAcc_keeps
      | with_reducible apply Job.putCm_keeps
      | with_reducible apply Job.flags_keeps
      | with_reducible apply Keeps.get
      | with_reducible apply Keeps.pure
      | with_reducible apply Keeps.fail
      | with_reducible apply Keeps.mapM
      | with_reducible apply Keeps.forM
      | with_reducible apply Keeps.bind
      | split
      | dsimp only
      | intro

theorem Job.checkRoute_keeps {s₀ : State} {j : Job} : Keeps s₀ (Job.checkRoute j) := by
  unfold Job.checkRoute
  (try dsimp only)
  repeat' first
    | with_reducible assumption
    | with_reducible apply Keeps.get
    | with_reducible apply Keeps.set
    | with_reducible apply Keeps.modify
    | with_reducible apply Keeps.pure
    | with_reducible apply Keeps.throw
    | with_reducible apply Keeps.fail
    | with_reducible apply Keeps.bind
    | exact fun _ k => k
    | split
    | intro

theorem Job.checkSelect_keeps {s₀ : State} {j : Job} : Keeps s₀ (Job.checkSelect j) := by
  unfold Job.checkSelect
  (try dsimp only)
  repeat' first
    | with_reducible assumption
    | with_reducible apply Keeps.get
    | with_reducible apply Keeps.set
    | with_reducible apply Keeps.modify
    | with_reducible apply Keeps.pure
    | with_reducible apply Keeps.throw
    | with_reducible apply Keeps.fail
    | with_reducible apply Keeps.bind
    | exact fun _ k => k
    | split
    | intro

theorem Job.checkGather_keeps {s₀ : State} {j : Job} : Keeps s₀ (Job.checkGather j) := by
  unfold Job.checkGather
  (try dsimp only)
  repeat' first
    | with_reducible assumption
    | with_reducible apply Keeps.get
    | with_reducible apply Keeps.set
    | with_reducible apply Keeps.modify
    | with_reducible apply Keeps.pure
    | with_reducible apply Keeps.throw
    | with_reducible apply Keeps.fail
    | with_reducible apply Keeps.bind
    | exact fun _ k => k
    | split
    | intro

theorem Job.tableRow_keeps {s₀ : State} {j : Job} {g : GatherBody} {x : Nat} : Keeps s₀ (Job.tableRow j g x) := by
  unfold Job.tableRow
  (try dsimp only)
  repeat' first
    | with_reducible assumption
    | with_reducible apply Job.load_keeps
    | with_reducible apply Keeps.get
    | with_reducible apply Keeps.set
    | with_reducible apply Keeps.modify
    | with_reducible apply Keeps.pure
    | with_reducible apply Keeps.throw
    | with_reducible apply Keeps.fail
    | with_reducible apply Keeps.bind
    | exact fun _ k => k
    | split
    | intro

theorem Job.rowOf_keeps {s₀ : State} {j : Job} {g : GatherBody} {x : Nat} {all : Nat} : Keeps s₀ (Job.rowOf j g x all) := by
  unfold Job.rowOf
  (try dsimp only)
  repeat' first
    | with_reducible assumption
    | with_reducible apply Job.flags_keeps
    | with_reducible apply Keeps.get
    | with_reducible apply Keeps.set
    | with_reducible apply Keeps.modify
    | with_reducible apply Keeps.pure
    | with_reducible apply Keeps.throw
    | with_reducible apply Keeps.fail
    | with_reducible apply Keeps.bind
    | exact fun _ k => k
    | split
    | intro

theorem Job.combineRow_keeps {s₀ : State} {j : Job} {g : GatherBody} {t : Nat} : Keeps s₀ (Job.combineRow j g t) := by
  unfold Job.combineRow
  (try dsimp only)
  repeat' first
    | with_reducible assumption
    | with_reducible apply Job.load_keeps
    | with_reducible apply Job.store_keeps
    | with_reducible apply Job.flags_keeps
    | with_reducible apply Job.loadAt_keeps
    | with_reducible apply Job.tableRow_keeps
    | with_reducible apply Job.rowOf_keeps
    | with_reducible apply Keeps.get
    | with_reducible apply Keeps.set
    | with_reducible apply Keeps.modify
    | with_reducible apply Keeps.pure
    | with_reducible apply Keeps.throw
    | with_reducible apply Keeps.fail
    | with_reducible apply Keeps.mapM
    | with_reducible apply Keeps.bind
    | with_reducible apply SCtx.store_kept
    | with_reducible apply Kept.foldl
    | with_reducible apply Kept.foldlFst
    | with_reducible apply Site.foldl_canonical
    | exact fun _ k => k
    | split
    | intro

theorem Job.checkLayout_keeps {s₀ : State} {j : Job} : Keeps s₀ (Job.checkLayout j) := by
  unfold Job.checkLayout
  (try dsimp only)
  repeat' first
    | with_reducible assumption
    | with_reducible apply Keeps.get
    | with_reducible apply Keeps.set
    | with_reducible apply Keeps.modify
    | with_reducible apply Keeps.pure
    | with_reducible apply Keeps.throw
    | with_reducible apply Keeps.fail
    | with_reducible apply Keeps.bind
    | exact fun _ k => k
    | split
    | intro

theorem Job.checkCodec_keeps {s₀ : State} {j : Job} : Keeps s₀ (Job.checkCodec j) := by
  unfold Job.checkCodec
  (try dsimp only)
  repeat' first
    | with_reducible assumption
    | with_reducible apply Keeps.get
    | with_reducible apply Keeps.set
    | with_reducible apply Keeps.modify
    | with_reducible apply Keeps.pure
    | with_reducible apply Keeps.throw
    | with_reducible apply Keeps.fail
    | with_reducible apply Keeps.bind
    | exact fun _ k => k
    | split
    | intro

theorem Job.pack_keeps {s₀ : State} {j : Job} {x : CodecBody} {l : List Nat} :
    ∀ {off : Nat} {index : Bytes}, Keeps s₀ (j.pack x l off index) := by
  induction l with
  | nil => exact Job.store_keeps
  | cons p r ih =>
    intro off index
    unfold Job.pack
    repeat' first
      | with_reducible assumption
      | with_reducible apply ih
      | with_reducible apply Job.load_keeps
      | with_reducible apply Job.loadAt_keeps
      | with_reducible apply Job.store_keeps
      | with_reducible apply Job.pass_keeps
      | with_reducible apply Job.putAcc_keeps
      | with_reducible apply Job.putCm_keeps
      | with_reducible apply Job.flags_keeps
      | with_reducible apply Keeps.get
      | with_reducible apply Keeps.pure
      | with_reducible apply Keeps.fail
      | with_reducible apply Keeps.mapM
      | with_reducible apply Keeps.forM
      | with_reducible apply Keeps.bind
      | split
      | dsimp only
      | intro

theorem Job.unpackAll_keeps {s₀ : State} {j : Job} {x : CodecBody} : Keeps s₀ (Job.unpackAll j x) := by
  unfold Job.unpackAll
  (try dsimp only)
  repeat' first
    | with_reducible assumption
    | with_reducible apply Job.load_keeps
    | with_reducible apply Job.store_keeps
    | with_reducible apply Job.loadAt_keeps
    | with_reducible apply Keeps.get
    | with_reducible apply Keeps.set
    | with_reducible apply Keeps.modify
    | with_reducible apply Keeps.pure
    | with_reducible apply Keeps.throw
    | with_reducible apply Keeps.fail
    | with_reducible apply Keeps.forM
    | with_reducible apply Keeps.bind
    | with_reducible apply SCtx.store_kept
    | exact fun _ k => k
    | split
    | intro

theorem Job.quant_keeps {s₀ : State} {j : Job} {x : CodecBody} : Keeps s₀ (Job.quant j x) := by
  unfold Job.quant
  (try dsimp only)
  repeat' first
    | with_reducible assumption
    | with_reducible apply Job.load_keeps
    | with_reducible apply Job.store_keeps
    | with_reducible apply Job.flags_keeps
    | with_reducible apply Keeps.get
    | with_reducible apply Keeps.set
    | with_reducible apply Keeps.modify
    | with_reducible apply Keeps.pure
    | with_reducible apply Keeps.throw
    | with_reducible apply Keeps.fail
    | with_reducible apply Keeps.forM
    | with_reducible apply Keeps.mapM
    | with_reducible apply Keeps.bind
    | with_reducible apply SCtx.store_kept
    | exact fun _ k => k
    | split
    | intro

theorem Job.dequant_keeps {s₀ : State} {j : Job} {x : CodecBody} : Keeps s₀ (Job.dequant j x) := by
  unfold Job.dequant
  (try dsimp only)
  repeat' first
    | with_reducible assumption
    | with_reducible apply Job.load_keeps
    | with_reducible apply Job.store_keeps
    | with_reducible apply Job.flags_keeps
    | with_reducible apply Keeps.get
    | with_reducible apply Keeps.set
    | with_reducible apply Keeps.modify
    | with_reducible apply Keeps.pure
    | with_reducible apply Keeps.throw
    | with_reducible apply Keeps.fail
    | with_reducible apply Keeps.forM
    | with_reducible apply Keeps.mapM
    | with_reducible apply Keeps.bind
    | with_reducible apply SCtx.store_kept
    | exact fun _ k => k
    | split
    | intro

theorem State.control_kept {s₀ s : State} (hk : Kept s₀ s) {i v dst : Nat} {cmd : Option CmdRef} {k : Ctl} {body : Bytes} :
    Kept s₀ (State.control s i v dst cmd k body) := by
  unfold State.control
  (try dsimp only)
  repeat' first
    | with_reducible assumption
    | with_reducible apply VCtx.branch_kept
    | with_reducible apply State.request_kept
    | exact fun _ k => k
    | split
    | intro

theorem State.sendVector_kept {s₀ s : State} (hk : Kept s₀ s) {v n : Nat} :
    Kept s₀ (State.sendVector s v n) := by
  unfold State.sendVector
  (try dsimp only)
  repeat' first
    | with_reducible assumption
    | with_reducible apply State.onFe_kept
    | with_reducible apply State.emit_kept
    | exact fun _ k => k
    | split
    | intro

theorem State.accumulate_kept {s₀ s : State} (hk : Kept s₀ s) {v n : Nat} :
    Kept s₀ (State.accumulate s v n) := by
  unfold State.accumulate
  (try dsimp only)
  repeat' first
    | with_reducible assumption
    | with_reducible apply State.onFe_kept
    | with_reducible apply State.sendVector_kept
    | exact fun _ k => k
    | split
    | intro

theorem flushEventsN_kept {s₀ : State} {n v : Nat} : ∀ {s : State}, Kept s₀ s → Kept s₀ (flushEventsN n v s) := by
  induction n with
  | zero => exact fun h => h
  | succ n ih =>
    intro s h
    unfold flushEventsN
    dsimp only
    repeat' first
      | exact h
      | exact State.onFe_kept h
      | exact ih (State.accumulate_kept (State.onFe_kept (State.emit_kept h)))
      | split

theorem State.flushEvents_kept {s₀ s : State} (hk : Kept s₀ s) {v : Nat} :
    Kept s₀ (State.flushEvents s v) := by
  unfold State.flushEvents
  (try dsimp only)
  repeat' first
    | with_reducible assumption
    | with_reducible apply flushEventsN_kept
    | exact fun _ k => k
    | split
    | intro

theorem State.postHere_kept {s₀ s : State} (hk : Kept s₀ s) {v : Nat} {x : Event} :
    Kept s₀ (State.postHere s v x) := by
  unfold State.postHere
  (try dsimp only)
  repeat' first
    | with_reducible assumption
    | with_reducible apply State.onFe_kept
    | with_reducible apply State.flushEvents_kept
    | exact fun _ k => k
    | split
    | intro

theorem State.event_kept {s₀ s : State} (hk : Kept s₀ s) {v i type stream arg : Nat} :
    Kept s₀ (State.event s v i type stream arg) := by
  unfold State.event
  (try dsimp only)
  repeat' first
    | with_reducible assumption
    | with_reducible apply State.control_kept
    | with_reducible apply State.postHere_kept
    | exact fun _ k => k
    | split
    | intro

theorem State.vdException_kept {s₀ s : State} (hk : Kept s₀ s) {v stream : Nat} {st : W16} :
    Kept s₀ (State.vdException s v stream st) := by
  unfold State.vdException
  (try dsimp only)
  repeat' first
    | with_reducible assumption
    | with_reducible apply State.raiseSrc_kept
    | with_reducible apply State.report_kept
    | exact fun _ k => k
    | split
    | intro

theorem Core.free_canonical {k : Core} (h : k.canonical) {r : CmdRef} : (k.free r).canonical := by
  unfold Core.free
  extract_lets +onlyGivenNames mine ves k1 k2
  have h1 : k1.canonical := Core.foldl_canonical h fun _ _ w => Core.endVe_canonical w
  have h2 : k2.canonical := Core.foldl_canonical h1 fun c a w => by
    split
    · exact Core.chainEnd_canonical w
    · exact w
  refine ⟨h2.1, h2.2.1, ?_⟩
  refine mem_map (p := fun u : ReelUnit => ∀ x ∈ u.images, x.canonical) h2.2.2 fun u hu => ?_
  exact mem_map hu fun x hx => hx

theorem State.freeEngines_kept {s₀ s : State} (hk : Kept s₀ s) {r : CmdRef} : Kept s₀ (s.freeEngines r) := by
  unfold State.freeEngines
  split
  · exact hk
  · refine State.onSite_kept hk fun t h => ?_
    exact ⟨(List.length_modify _ _ _).trans h.1, (List.length_map _).trans h.2.1,
      mem_modify h.2.2.1 fun _ w => Core.free_canonical w, mem_map h.2.2.2.1 fun _ w => w, h.2.2.2.2⟩

theorem State.leaveFault_kept {s₀ s : State} (hk : Kept s₀ s) {c : CmdRef} :
    Kept s₀ (State.leaveFault s c) := by
  unfold State.leaveFault
  (try dsimp only)
  repeat' first
    | with_reducible assumption
    | with_reducible apply State.onSp_kept
    | with_reducible apply State.onCmd_kept
    | with_reducible apply VCtx.fault_kept
    | exact fun _ k => k
    | split
    | intro

theorem State.account_kept {s₀ s : State} (hk : Kept s₀ s) {i v n : Nat} {f : Acct → Acct} :
    Kept s₀ (State.account s i v n f) := by
  unfold State.account
  (try dsimp only)
  repeat' first
    | with_reducible assumption
    | with_reducible apply State.onWatch_kept
    | with_reducible apply VCtx.put_kept
    | with_reducible apply SCtx.put_kept
    | exact fun _ k => k
    | split
    | intro

theorem State.accountEnd_kept {s₀ s : State} (hk : Kept s₀ s) {c : CmdRef} {k : Cmd} {now : Nat} :
    Kept s₀ (State.accountEnd s c k now) := by
  unfold State.accountEnd
  (try dsimp only)
  repeat' first
    | with_reducible assumption
    | with_reducible apply SCtx.run_kept
    | with_reducible apply State.account_kept
    | exact fun _ k => k
    | split
    | intro

theorem State.abandonRelease_kept {s₀ s : State} (hk : Kept s₀ s) {c : CmdRef} {k : Cmd} :
    Kept s₀ (State.abandonRelease s c k) := by
  unfold State.abandonRelease
  (try dsimp only)
  repeat' first
    | with_reducible assumption
    | with_reducible apply State.bump_kept
    | with_reducible apply State.discardDirty_kept
    | with_reducible apply Kept.foldl
    | with_reducible apply Kept.foldlFst
    | with_reducible apply Site.foldl_canonical
    | with_reducible apply Site.bump_canonical
    | exact fun _ k => k
    | split
    | intro

theorem State.endWith_kept {s₀ s : State} (hk : Kept s₀ s) {c : CmdRef} {st : W16} {now : Nat} :
    Kept s₀ (State.endWith s c st now) := by
  unfold State.endWith
  (try dsimp only)
  repeat' first
    | with_reducible assumption
    | with_reducible apply State.onCmd_kept
    | with_reducible apply State.freeEngines_kept
    | with_reducible apply State.leaveFault_kept
    | with_reducible apply State.accountEnd_kept
    | with_reducible apply State.abandonRelease_kept
    | exact fun _ k => k
    | split
    | intro

theorem State.failAccess_kept {s₀ s : State} (hk : Kept s₀ s) {c : CmdRef} {st : W16} {detail : Nat} :
    Kept s₀ (State.failAccess s c st detail) := by
  unfold State.failAccess
  (try dsimp only)
  repeat' first
    | with_reducible assumption
    | with_reducible apply State.onCmd_kept
    | with_reducible apply VCtx.fault_kept
    | with_reducible apply State.dropped_kept
    | with_reducible apply State.finish_kept
    | exact fun _ k => k
    | split
    | intro

theorem State.tellFar_kept {s₀ s : State} (hk : Kept s₀ s) {v : Nat} {f : FaultEntry} {failed : Bool} :
    Kept s₀ (State.tellFar s v f failed) := by
  unfold State.tellFar
  (try dsimp only)
  repeat' first
    | with_reducible assumption
    | with_reducible apply State.control_kept
    | with_reducible apply Kept.foldl
    | with_reducible apply Kept.foldlFst
    | with_reducible apply Site.foldl_canonical
    | exact fun _ k => k
    | split
    | intro

theorem State.failEntry_kept {s₀ s : State} (hk : Kept s₀ s) {v : Nat} {f : FaultEntry} :
    Kept s₀ (State.failEntry s v f) := by
  unfold State.failEntry
  (try dsimp only)
  repeat' first
    | with_reducible assumption
    | with_reducible apply State.onSp_kept
    | with_reducible apply State.failAccess_kept
    | with_reducible apply State.tellFar_kept
    | with_reducible apply Kept.foldl
    | with_reducible apply Kept.foldlFst
    | with_reducible apply Site.foldl_canonical
    | exact fun _ k => k
    | split
    | intro

theorem State.retryEntry_kept {s₀ s : State} (hk : Kept s₀ s) {v : Nat} {f : FaultEntry} :
    Kept s₀ (State.retryEntry s v f) := by
  unfold State.retryEntry
  (try dsimp only)
  repeat' first
    | with_reducible assumption
    | with_reducible apply State.onSp_kept
    | with_reducible apply State.onCmd_kept
    | with_reducible apply VCtx.fault_kept
    | with_reducible apply State.tellFar_kept
    | with_reducible apply Kept.foldl
    | with_reducible apply Kept.foldlFst
    | with_reducible apply Site.foldl_canonical
    | exact fun _ k => k
    | split
    | intro

theorem State.mirror_kept {s₀ s : State} (hk : Kept s₀ s) {v n : Nat} {delta : Int} :
    Kept s₀ (State.mirror s v n delta) := by
  unfold State.mirror
  (try dsimp only)
  repeat' first
    | with_reducible assumption
    | with_reducible apply State.onSp_kept
    | with_reducible apply State.emit_kept
    | with_reducible apply VCtx.put_kept
    | with_reducible apply SCtx.put_kept
    | exact fun _ k => k
    | split
    | intro

theorem State.countRef_kept {s₀ s : State} (hk : Kept s₀ s) {v n : Nat} {up : Bool} :
    Kept s₀ (State.countRef s v n up) := by
  unfold State.countRef
  (try dsimp only)
  repeat' first
    | with_reducible assumption
    | with_reducible apply State.onSp_kept
    | with_reducible apply State.mirror_kept
    | exact fun _ k => k
    | split
    | intro

theorem State.dropRefs_kept {s₀ s : State} (hk : Kept s₀ s) {c : CmdRef} {k : Cmd} :
    Kept s₀ (State.dropRefs s c k) := by
  unfold State.dropRefs
  (try dsimp only)
  repeat' first
    | with_reducible assumption
    | with_reducible apply State.countRef_kept
    | with_reducible apply Kept.foldl
    | with_reducible apply Kept.foldlFst
    | with_reducible apply Site.foldl_canonical
    | exact fun _ k => k
    | split
    | intro

theorem State.killCmd_kept {s₀ s : State} (hk : Kept s₀ s) {c : CmdRef} :
    Kept s₀ (State.killCmd s c) := by
  unfold State.killCmd
  (try dsimp only)
  repeat' first
    | with_reducible assumption
    | with_reducible apply State.onCmd_kept
    | with_reducible apply State.dropped_kept
    | with_reducible apply State.freeEngines_kept
    | with_reducible apply State.leaveFault_kept
    | with_reducible apply State.accountEnd_kept
    | with_reducible apply State.abandonRelease_kept
    | exact fun _ k => k
    | split
    | intro

theorem State.killStream_kept {s₀ s : State} (hk : Kept s₀ s) {v n i : Nat} :
    Kept s₀ (State.killStream s v n i) := by
  unfold State.killStream
  (try dsimp only)
  repeat' first
    | with_reducible assumption
    | with_reducible apply State.onStream_kept
    | with_reducible apply State.event_kept
    | with_reducible apply State.killCmd_kept
    | with_reducible apply Kept.foldl
    | with_reducible apply Kept.foldlFst
    | with_reducible apply Site.foldl_canonical
    | with_reducible apply Core.free_canonical
    | exact fun _ k => k
    | split
    | intro

theorem State.killContext_kept {s₀ s : State} (hk : Kept s₀ s) {v ctx i : Nat} :
    Kept s₀ (State.killContext s v ctx i) := by
  unfold State.killContext
  (try dsimp only)
  repeat' first
    | with_reducible assumption
    | with_reducible apply State.control_kept
    | with_reducible apply State.killStream_kept
    | with_reducible apply Kept.foldl
    | with_reducible apply Kept.foldlFst
    | with_reducible apply Site.foldl_canonical
    | with_reducible apply Core.free_canonical
    | exact fun _ k => k
    | split
    | intro

theorem State.invalidate_kept {s₀ s : State} (hk : Kept s₀ s) {v : Nat} {cmd obj : Option Nat} {ats : Option (Nat × Nat)} {home : Option (Nat × Pkt)} :
    Kept s₀ (State.invalidate s v cmd obj ats home) := by
  unfold State.invalidate
  (try dsimp only)
  repeat' first
    | with_reducible assumption
    | with_reducible apply State.onSp_kept
    | exact fun _ k => k
    | split
    | intro

theorem State.replicate_kept {s₀ s : State} (hk : Kept s₀ s) {v : Nat} {cmd : Option CmdRef} {body : Bytes} :
    Kept s₀ (State.replicate s v cmd body) := by
  unfold State.replicate
  (try dsimp only)
  repeat' first
    | with_reducible assumption
    | with_reducible apply State.control_kept
    | with_reducible apply Kept.foldl
    | with_reducible apply Kept.foldlFst
    | with_reducible apply Site.foldl_canonical
    | exact fun _ k => k
    | split
    | intro

end Sys2Proof.Machine
end

