-- ==== Sys2Proof/Laws/KeptD.lean ====
section
/-! SUPPORT. The operations of Craene, Reply, Tiers, Mmu, Mover, Issue keep what every command keeps. -/

set_option linter.unusedVariables false

namespace Sys2Proof.Machine

theorem State.doorbell_kept {s₀ s : State} (hk : Kept s₀ s) {v r tail : Nat} :
    Kept s₀ (State.doorbell s v r tail) := by
  unfold State.doorbell
  (try dsimp only)
  repeat' first
    | with_reducible assumption
    | with_reducible apply State.onFe_kept
    | with_reducible apply State.onRing_kept
    | exact fun _ k => k
    | split
    | intro

theorem State.writeCpl_kept {s₀ s t : State} (hk : Kept s₀ s) {c : CmdRef} {k : Cmd} {held : Bool}
    (e : State.writeCpl s c k held = .ok t) : Kept s₀ t := by
  revert e
  unfold State.writeCpl
  (try dsimp only)
  repeat' first
    | with_reducible assumption
    | contradiction
    | with_reducible apply State.onRing_kept
    | with_reducible apply State.emit_kept
    | with_reducible apply State.accumulate_kept
    | exact fun _ k => k
    | split
    | (intro e; cases e)
    | intro

theorem State.releaseCpl_kept {s₀ s : State} (hk : Kept s₀ s) {v ring : Nat} :
    Kept s₀ (State.releaseCpl s v ring) := by
  unfold State.releaseCpl
  (try dsimp only)
  repeat' first
    | with_reducible assumption
    | with_reducible apply State.onRing_kept
    | exact fun _ k => k
    | split
    | intro

theorem State.unqueue_kept {s₀ s : State} (hk : Kept s₀ s) {c : CmdRef} :
    Kept s₀ (State.unqueue s c) := by
  unfold State.unqueue
  (try dsimp only)
  repeat' first
    | with_reducible assumption
    | with_reducible apply State.onStream_kept
    | exact fun _ k => k
    | split
    | intro

theorem State.sinkLost_kept {s₀ s : State} (hk : Kept s₀ s) {v n : Nat} {st : W16} :
    Kept s₀ (State.sinkLost s v n st) := by
  unfold State.sinkLost
  (try dsimp only)
  repeat' first
    | with_reducible assumption
    | with_reducible apply State.event_kept
    | with_reducible apply State.vdException_kept
    | exact fun _ k => k
    | split
    | intro

theorem State.overflowRec_kept {s₀ s : State} (hk : Kept s₀ s) {c : CmdRef} {k : Cmd} :
    Kept s₀ (State.overflowRec s c k) := by
  unfold State.overflowRec
  (try dsimp only)
  repeat' first
    | with_reducible assumption
    | with_reducible apply State.onStream_kept
    | with_reducible apply State.event_kept
    | with_reducible apply State.dropRefs_kept
    | with_reducible apply State.releaseCpl_kept
    | with_reducible apply State.unqueue_kept
    | exact fun _ k => k
    | split
    | intro

theorem State.holdRec_kept {s₀ s : State} (hk : Kept s₀ s) {c : CmdRef} {k : Cmd} :
    Kept s₀ (State.holdRec s c k) := by
  unfold State.holdRec
  (try dsimp only)
  repeat' first
    | with_reducible assumption
    | with_reducible apply State.onCmd_kept
    | with_reducible apply State.dropRefs_kept
    | with_reducible apply State.overflowRec_kept
    | exact fun _ k => k
    | split
    | intro

theorem State.suppressRec_kept {s₀ s : State} (hk : Kept s₀ s) {c : CmdRef} {k : Cmd} {count : Bool} :
    Kept s₀ (State.suppressRec s c k count) := by
  unfold State.suppressRec
  (try dsimp only)
  repeat' first
    | with_reducible assumption
    | with_reducible apply State.onStream_kept
    | with_reducible apply State.dropRefs_kept
    | with_reducible apply State.releaseCpl_kept
    | with_reducible apply State.unqueue_kept
    | exact fun _ k => k
    | split
    | intro

theorem State.recordOf_kept {s₀ s : State} (hk : Kept s₀ s) {c : CmdRef} {k : Cmd} :
    Kept s₀ (State.recordOf s c k) := by
  unfold State.recordOf
  (try dsimp only)
  repeat' first
    | with_reducible assumption
    | with_reducible apply State.onStream_kept
    | with_reducible apply State.dropRefs_kept
    | with_reducible refine State.writeCpl_kept ?_ ‹_›
    | with_reducible apply State.unqueue_kept
    | with_reducible apply State.sinkLost_kept
    | with_reducible apply State.overflowRec_kept
    | with_reducible apply State.holdRec_kept
    | with_reducible apply State.suppressRec_kept
    | exact fun _ k => k
    | split
    | intro

theorem writeHeld_kept {s₀ : State} {v n : Nat} {l : List Cmd} :
    ∀ {s : State}, Kept s₀ s → Kept s₀ (writeHeld v n l s).1 := by
  induction l with
  | nil => exact fun h => h
  | cons k r ih =>
    intro s h
    unfold writeHeld
    split
    · exact ih (State.unqueue_kept (State.writeCpl_kept h ‹_›))
    · exact State.sinkLost_kept h

theorem writeHeld_kept' {s₀ s t : State} {v n : Nat} {l : List Cmd} {x : Bool} (hk : Kept s₀ s)
    (e : writeHeld v n l s = (t, x)) : Kept s₀ t := by
  have k : Kept s₀ (writeHeld v n l s).1 := writeHeld_kept hk
  rw [e] at k
  exact k

theorem State.resumeStream_kept {s₀ s : State} (hk : Kept s₀ s) {vd n : Nat} :
    Kept s₀ (State.resumeStream s vd n) := by
  unfold State.resumeStream
  (try dsimp only)
  repeat' first
    | with_reducible assumption
    | with_reducible apply State.onStream_kept
    | with_reducible apply State.sinkLost_kept
    | with_reducible apply writeHeld_kept
    | with_reducible refine writeHeld_kept' ?_ ‹_›
    | exact fun _ k => k
    | split
    | intro

theorem State.place_kept {s₀ s : State} (hk : Kept s₀ s) {v ring slot : Nat} {desc ext : Bytes} {hasExt : Bool} {h : Header} :
    Kept s₀ (State.place s v ring slot desc ext hasExt h) := by
  unfold State.place
  (try dsimp only)
  repeat' first
    | with_reducible assumption
    | with_reducible apply State.onFe_kept
    | with_reducible apply State.onStream_kept
    | with_reducible apply State.onRing_kept
    | with_reducible apply State.onNet_kept
    | with_reducible apply State.control_kept
    | with_reducible apply State.event_kept
    | with_reducible apply State.countRef_kept
    | with_reducible apply Kept.foldl
    | with_reducible apply Kept.foldlFst
    | with_reducible apply Site.foldl_canonical
    | exact fun _ k => k
    | split
    | intro

theorem State.refuseDesc_kept {s₀ s : State} (hk : Kept s₀ s) {v ring slot : Nat} {desc : Bytes} {st : W16} :
    Kept s₀ (State.refuseDesc s v ring slot desc st) := by
  unfold State.refuseDesc
  (try dsimp only)
  repeat' first
    | with_reducible assumption
    | with_reducible apply State.onRing_kept
    | with_reducible apply State.vdException_kept
    | with_reducible refine State.writeCpl_kept ?_ ‹_›
    | with_reducible apply State.releaseCpl_kept
    | exact fun _ k => k
    | split
    | intro

theorem State.passSlots_kept {s₀ s : State} (hk : Kept s₀ s) {v ring n : Nat} :
    Kept s₀ (State.passSlots s v ring n) := by
  unfold State.passSlots
  (try dsimp only)
  repeat' first
    | with_reducible assumption
    | with_reducible apply State.onRing_kept
    | exact fun _ k => k
    | split
    | intro

theorem Job.waitsMet_keeps {s₀ : State} {j : Job} {l : List (Nat × Nat)} : Keeps s₀ (j.waitsMet l) := by
  induction l with
  | nil => exact Keeps.pure _
  | cons p r ih =>
    unfold Job.waitsMet
    refine Keeps.bind Job.getDva_keeps fun b => ?_
    split
    · exact ih
    · exact Keeps.pure _

theorem State.endRun_kept {s₀ s : State} (hk : Kept s₀ s) {j : Job} {c : CmdRef} :
    Kept s₀ (State.endRun s j c) := by
  unfold State.endRun
  (try dsimp only)
  repeat' first
    | with_reducible assumption
    | with_reducible apply State.onCmd_kept
    | with_reducible apply SCtx.run_kept
    | with_reducible apply State.freeEngines_kept
    | with_reducible apply State.account_kept
    | exact fun _ k => k
    | split
    | intro

theorem State.raiseWord_kept {s₀ s t : State} (hk : Kept s₀ s) {b addr slot v : Nat} {x : Except W16 Nat}
    (e : State.raiseWord s b addr slot v = some (x, t)) : Kept s₀ t := by
  revert e
  unfold State.raiseWord
  (try dsimp only)
  repeat' first
    | with_reducible assumption
    | contradiction
    | with_reducible apply State.tierRead_kept
    | with_reducible refine State.tierRead_kept' ?_ ‹_›
    | with_reducible refine State.tierWrite_kept ?_ ‹_›
    | exact fun _ k => k
    | split
    | (intro e; cases e)
    | intro

theorem State.signalled_kept {s₀ s : State} (hk : Kept s₀ s) {j : Job} {old v dva : Nat} :
    Kept s₀ (State.signalled s j old v dva) := by
  unfold State.signalled
  (try dsimp only)
  repeat' first
    | with_reducible assumption
    | with_reducible apply State.onCmd_kept
    | with_reducible apply State.event_kept
    | exact fun _ k => k
    | split
    | intro

theorem State.unmask_kept {s₀ s : State} (hk : Kept s₀ s) {v n : Nat} :
    Kept s₀ (State.unmask s v n) := by
  unfold State.unmask
  (try dsimp only)
  repeat' first
    | with_reducible assumption
    | with_reducible apply State.onFe_kept
    | with_reducible apply State.emit_kept
    | exact fun _ k => k
    | split
    | intro

theorem State.enableRings_kept {s₀ s : State} (hk : Kept s₀ s) {vd : Nat} :
    Kept s₀ (State.enableRings s vd) := by
  unfold State.enableRings
  (try dsimp only)
  repeat' first
    | with_reducible assumption
    | with_reducible apply State.onVd_kept
    | with_reducible apply State.onFe_kept
    | with_reducible apply State.onStream_kept
    | with_reducible apply State.onRing_kept
    | with_reducible apply State.flushEvents_kept
    | exact fun _ k => k
    | split
    | intro

theorem State.endCtl_kept {s₀ s : State} (hk : Kept s₀ s) {c : CmdRef} {i : Nat} {st : W16} {detail : Nat} :
    Kept s₀ (State.endCtl s c i st detail) := by
  unfold State.endCtl
  (try dsimp only)
  repeat' first
    | with_reducible assumption
    | with_reducible apply State.onCmd_kept
    | exact fun _ k => k
    | split
    | intro

theorem ctlFail_keeps {s₀ : State} {st : W16} {detail : Nat} : Keeps s₀ (ctlFail st detail) := by
  unfold ctlFail
  (try dsimp only)
  repeat' first
    | with_reducible assumption
    | with_reducible apply Keeps.get
    | with_reducible apply Keeps.set
    | with_reducible apply Keeps.modify
    | with_reducible apply Keeps.pure
    | with_reducible apply Keeps.throw
    | with_reducible apply Keeps.fail
    | with_reducible apply Keeps.bind
    | exact fun _ k => k
    | split
    | intro

theorem State.abortWaiting_kept {s₀ s : State} (hk : Kept s₀ s) {v n : Nat} :
    Kept s₀ (State.abortWaiting s v n) := by
  unfold State.abortWaiting
  (try dsimp only)
  repeat' first
    | with_reducible assumption
    | with_reducible apply State.endWith_kept
    | with_reducible apply Kept.foldl
    | with_reducible apply Kept.foldlFst
    | with_reducible apply Site.foldl_canonical
    | exact fun _ k => k
    | split
    | intro

theorem State.drainStream_kept {s₀ s : State} (hk : Kept s₀ s) {v n : Nat} :
    Kept s₀ (State.drainStream s v n) := by
  unfold State.drainStream
  (try dsimp only)
  repeat' first
    | with_reducible assumption
    | with_reducible apply State.onStream_kept
    | with_reducible refine State.writeCpl_kept ?_ ‹_›
    | with_reducible apply State.unqueue_kept
    | with_reducible apply State.sinkLost_kept
    | with_reducible apply State.suppressRec_kept
    | with_reducible apply State.abortWaiting_kept
    | with_reducible apply Kept.foldl
    | with_reducible apply Kept.foldlFst
    | with_reducible apply Site.foldl_canonical
    | exact fun _ k => k
    | split
    | intro

theorem State.abortCmd_kept {s₀ s : State} (hk : Kept s₀ s) {c : CmdRef} {k : Cmd} :
    Kept s₀ (State.abortCmd s c k).1 := by
  unfold State.abortCmd
  (try dsimp only)
  repeat' first
    | with_reducible assumption
    | with_reducible apply State.control_kept
    | with_reducible apply State.endWith_kept
    | exact fun _ k => k
    | split
    | intro

theorem State.abortCmd_kept' {s₀ s t : State} (hk : Kept s₀ s) {c : CmdRef} {k : Cmd} {x : Bool}
    (e : State.abortCmd s c k = (t, x)) : Kept s₀ t := by
  have k : Kept s₀ (State.abortCmd s c k).1 := State.abortCmd_kept hk
  rw [e] at k
  exact k

theorem State.abortAll_kept {s₀ s : State} (hk : Kept s₀ s) {v n : Nat} {l : List Cmd} :
    Kept s₀ (State.abortAll s v n l).1 := by
  unfold State.abortAll
  (try dsimp only)
  repeat' first
    | with_reducible assumption
    | with_reducible apply State.abortCmd_kept
    | with_reducible refine State.abortCmd_kept' ?_ ‹_›
    | with_reducible apply Kept.foldl
    | with_reducible apply Kept.foldlFst
    | with_reducible apply Site.foldl_canonical
    | exact fun _ k => k
    | split
    | intro

theorem State.abortAll_kept' {s₀ s t : State} (hk : Kept s₀ s) {v n : Nat} {l : List Cmd} {x : Nat × Nat}
    (e : State.abortAll s v n l = (t, x)) : Kept s₀ t := by
  have k : Kept s₀ (State.abortAll s v n l).1 := State.abortAll_kept hk
  rw [e] at k
  exact k

theorem State.freeStream_kept {s₀ s : State} (hk : Kept s₀ s) {v n : Nat} :
    Kept s₀ (State.freeStream s v n) := by
  unfold State.freeStream
  (try dsimp only)
  repeat' first
    | with_reducible assumption
    | with_reducible apply State.onStream_kept
    | with_reducible apply State.event_kept
    | with_reducible apply State.dropRefs_kept
    | with_reducible apply State.releaseCpl_kept
    | with_reducible apply Kept.foldl
    | with_reducible apply Kept.foldlFst
    | with_reducible apply Site.foldl_canonical
    | exact fun _ k => k
    | split
    | intro

theorem State.ownerStreams_kept {s₀ s : State} (hk : Kept s₀ s) {v a : Nat} :
    Kept s₀ (State.ownerStreams s v a) := by
  unfold State.ownerStreams
  (try dsimp only)
  repeat' first
    | with_reducible assumption
    | with_reducible apply State.onRing_kept
    | with_reducible apply State.drainStream_kept
    | with_reducible apply Kept.foldl
    | with_reducible apply Kept.foldlFst
    | with_reducible apply Site.foldl_canonical
    | with_reducible apply Core.free_canonical
    | exact fun _ k => k
    | split
    | intro

theorem State.endDestroys_kept {s₀ s : State} (hk : Kept s₀ s) {v : Nat} :
    Kept s₀ (State.endDestroys s v) := by
  unfold State.endDestroys
  (try dsimp only)
  repeat' first
    | with_reducible assumption
    | with_reducible apply State.endCtl_kept
    | with_reducible apply Kept.foldl
    | with_reducible apply Kept.foldlFst
    | with_reducible apply Site.foldl_canonical
    | exact fun _ k => k
    | split
    | intro

theorem State.onBox_kept {s₀ s : State} (hk : Kept s₀ s) {i m : Nat} {f : Mailbox → Mailbox} :
    Kept s₀ (State.onBox s i m f) := by
  unfold State.onBox
  (try dsimp only)
  repeat' first
    | with_reducible assumption
    | with_reducible apply State.onWatch_kept
    | exact fun _ k => k
    | split
    | intro

theorem State.tellBox_kept {s₀ s : State} (hk : Kept s₀ s) {i m : Nat} :
    Kept s₀ (State.tellBox s i m) := by
  unfold State.tellBox
  (try dsimp only)
  repeat' first
    | with_reducible assumption
    | with_reducible apply State.emit_kept
    | with_reducible apply State.onPins_kept
    | with_reducible apply State.raiseSrc_kept
    | with_reducible apply State.raisePriv_kept
    | exact fun _ k => k
    | split
    | intro

theorem State.freeBox_kept {s₀ s : State} (hk : Kept s₀ s) {i m : Nat} :
    Kept s₀ (State.freeBox s i m) := by
  unfold State.freeBox
  (try dsimp only)
  repeat' first
    | with_reducible assumption
    | with_reducible apply State.onPins_kept
    | with_reducible apply State.onBox_kept
    | exact fun _ k => k
    | split
    | intro

theorem flushRepliesN_kept {s₀ : State} {n : Nat} : ∀ {s : State}, Kept s₀ s → Kept s₀ (flushRepliesN n s) := by
  induction n with
  | zero => exact fun h => h
  | succ n ih =>
    intro s h
    unfold flushRepliesN
    dsimp only
    repeat' first
      | exact h
      | with_reducible apply ih
      | with_reducible apply State.raiseSrc_kept
      | with_reducible apply State.tellBox_kept
      | with_reducible apply State.onBox_kept
      | with_reducible apply State.emit_kept
      | with_reducible apply State.onPart_kept
      | split

theorem State.flushReplies_kept {s₀ s : State} (hk : Kept s₀ s)  :
    Kept s₀ (State.flushReplies s) := by
  unfold State.flushReplies
  (try dsimp only)
  repeat' first
    | with_reducible assumption
    | with_reducible apply flushRepliesN_kept
    | exact fun _ k => k
    | split
    | intro

theorem State.reply_kept {s₀ s : State} (hk : Kept s₀ s) {r : MReq} {st : W16} {result : Bytes} :
    Kept s₀ (State.reply s r st result) := by
  unfold State.reply
  (try dsimp only)
  repeat' first
    | with_reducible assumption
    | with_reducible apply State.onPart_kept
    | with_reducible apply State.flushReplies_kept
    | exact fun _ k => k
    | split
    | intro

theorem State.begin_kept {s₀ s : State} (hk : Kept s₀ s) {r : MReq} :
    Kept s₀ (State.begin s r) := by
  unfold State.begin
  (try dsimp only)
  repeat' first
    | with_reducible assumption
    | with_reducible apply State.onPart_kept
    | exact fun _ k => k
    | split
    | intro

theorem State.answer_kept {s₀ s : State} (hk : Kept s₀ s) {op : Nat} {f : Bytes → Bool} {st : W16} {result : Bytes} :
    Kept s₀ (State.answer s op f st result) := by
  unfold State.answer
  (try dsimp only)
  repeat' first
    | with_reducible assumption
    | with_reducible apply State.reply_kept
    | with_reducible apply Kept.foldl
    | with_reducible apply Kept.foldlFst
    | with_reducible apply Site.foldl_canonical
    | exact fun _ k => k
    | split
    | intro

theorem State.abandonMoves_kept {s₀ s : State} (hk : Kept s₀ s) {i : Nat} {which : TierMove → Bool} :
    Kept s₀ (State.abandonMoves s i which) := by
  unfold State.abandonMoves
  (try dsimp only)
  repeat' first
    | with_reducible assumption
    | with_reducible apply State.onSite_kept
    | with_reducible apply State.bump_kept
    | with_reducible apply Kept.foldl
    | with_reducible apply Kept.foldlFst
    | with_reducible apply Site.foldl_canonical
    | with_reducible apply Site.bump_canonical
    | with_reducible apply Site.freePage_canonical
    | with_reducible apply Site.onEntry_canonical
    | exact fun _ k => k
    | split
    | intro

theorem State.readEnds_kept {s₀ s : State} (hk : Kept s₀ s) {c : Option CmdRef} {st : W16} :
    Kept s₀ (State.readEnds s c st) := by
  unfold State.readEnds
  (try dsimp only)
  repeat' first
    | with_reducible assumption
    | with_reducible apply State.failAccess_kept
    | exact fun _ k => k
    | split
    | intro

theorem State.readFound_kept {s₀ s : State} (hk : Kept s₀ s) {i : Nat} {r : MemReq} {e : TierEntry} {cmd : Option CmdRef} {f : ReadFinding} :
    Kept s₀ (State.readFound s i r e cmd f) := by
  unfold State.readFound
  (try dsimp only)
  repeat' first
    | with_reducible assumption
    | with_reducible apply State.onSite_kept
    | with_reducible apply State.memCorrected_kept
    | with_reducible apply State.memUncorrectable_kept
    | with_reducible apply State.memIntegrity_kept
    | with_reducible apply State.abandonMoves_kept
    | with_reducible apply State.readEnds_kept
    | exact fun _ k => k
    | split
    | intro

theorem State.countStale_kept {s₀ s : State} (hk : Kept s₀ s) {i : Nat} {r : MemReq} :
    Kept s₀ (State.countStale s i r) := by
  unfold State.countStale
  (try dsimp only)
  repeat' first
    | with_reducible assumption
    | with_reducible apply State.bump_kept
    | with_reducible apply Site.bump_canonical
    | exact fun _ k => k
    | split
    | intro

theorem State.channelLost_kept {s₀ s : State} (hk : Kept s₀ s) {i ch kind : Nat} :
    Kept s₀ (State.channelLost s i ch kind) := by
  unfold State.channelLost
  (try dsimp only)
  repeat' first
    | with_reducible assumption
    | with_reducible apply State.memError_kept
    | with_reducible apply Kept.foldl
    | with_reducible apply Kept.foldlFst
    | with_reducible apply Site.foldl_canonical
    | exact fun _ k => k
    | split
    | intro

theorem State.capacityRecord_kept {s₀ s : State} (hk : Kept s₀ s) {i : Nat} {slow : Bool} :
    Kept s₀ (State.capacityRecord s i slow) := by
  unfold State.capacityRecord
  (try dsimp only)
  repeat' first
    | with_reducible assumption
    | with_reducible apply State.report_kept
    | exact fun _ k => k
    | split
    | intro

theorem Site.setPort_canonical {t : Site} (hk : t.canonical) {p state last : Nat} :
    (Site.setPort t p state last).canonical := by
  unfold Site.setPort
  (try dsimp only)
  repeat' first
    | with_reducible assumption
    | exact hk
    | with_reducible apply Site.setFld_canonical
    | exact fun _ k => k
    | split
    | intro

theorem Site.fixChannels_canonical {t : Site} (hk : t.canonical) {slow : Bool} :
    (Site.fixChannels t slow).canonical := by
  unfold Site.fixChannels
  (try dsimp only)
  repeat' first
    | with_reducible assumption
    | exact hk
    | with_reducible apply Site.onTier_canonical
    | exact fun _ k => k
    | split
    | intro

theorem Site.fixReserve_canonical {t : Site} (hk : t.canonical) {slow : Bool} :
    (Site.fixReserve t slow).canonical := by
  unfold Site.fixReserve
  (try dsimp only)
  repeat' first
    | with_reducible assumption
    | exact hk
    | with_reducible apply Site.setFld_canonical
    | exact fun _ k => k
    | split
    | intro

theorem Site.repaired_canonical {t : Site} (hk : t.canonical) {slow : Bool} {pages : List Nat} :
    (Site.repaired t slow pages).canonical := by
  unfold Site.repaired
  (try dsimp only)
  repeat' first
    | with_reducible assumption
    | exact hk
    | with_reducible apply Site.onTier_canonical
    | exact fun _ k => k
    | split
    | intro

theorem State.trainChannel_kept {s₀ s : State} (hk : Kept s₀ s) {i c : Nat} {o : ChannelOutcome} :
    Kept s₀ (State.trainChannel s i c o) := by
  unfold State.trainChannel
  (try dsimp only)
  repeat' first
    | with_reducible assumption
    | with_reducible apply State.setFld_kept
    | with_reducible apply State.channelLost_kept
    | with_reducible apply Site.setFld_canonical
    | exact fun _ k => k
    | split
    | intro

theorem State.trainPort_kept {s₀ s : State} (hk : Kept s₀ s) {i port : Nat} {t : TrainReport} :
    Kept s₀ (State.trainPort s i port t) := by
  unfold State.trainPort
  (try dsimp only)
  repeat' first
    | with_reducible assumption
    | with_reducible apply State.onSite_kept
    | with_reducible apply State.memError_kept
    | with_reducible apply State.capacityRecord_kept
    | with_reducible apply State.trainChannel_kept
    | with_reducible apply Kept.foldl
    | with_reducible apply Kept.foldlFst
    | with_reducible apply Site.foldl_canonical
    | with_reducible apply Site.setPort_canonical
    | with_reducible apply Site.fixChannels_canonical
    | with_reducible apply Site.fixReserve_canonical
    | with_reducible apply Site.repaired_canonical
    | exact fun _ k => k
    | split
    | intro

theorem Site.sweep_canonical {t : Site} (hk : t.canonical)  :
    (Site.sweep t).canonical := by
  unfold Site.sweep
  (try dsimp only)
  repeat' first
    | with_reducible assumption
    | exact hk
    | exact fun _ k => k
    | split
    | intro

theorem State.noRoom_kept {s₀ s : State} (hk : Kept s₀ s) {i : Nat} {m : TierMove} :
    Kept s₀ (State.noRoom s i m) := by
  unfold State.noRoom
  (try dsimp only)
  repeat' first
    | with_reducible assumption
    | with_reducible apply State.onSite_kept
    | with_reducible apply State.setFld_kept
    | with_reducible apply State.answer_kept
    | with_reducible apply Site.setFld_canonical
    | exact fun _ k => k
    | split
    | intro

theorem Site.startMove_canonical {t : Site} (hk : t.canonical) {ch : Nat} {m : TierMove} {d : Nat} :
    (Site.startMove t ch m d).canonical := by
  unfold Site.startMove
  extract_lets +onlyGivenNames e t1 t2 t3
  have h1 : t1.canonical := hk
  have h2 : t2.canonical := Site.onEntry_canonical (Site.takePage_canonical h1)
  have h3 : t3.canonical := by
    unfold t3
    split
    · exact Site.setFld_canonical h2
    · exact h2
  exact h3

theorem Site.copySubs_canonical {t : Site} (h : t.canonical) {m : TierMove} {which : BitVec 16} :
    (t.copySubs m which).canonical := by
  refine Site.foldl_canonical h fun t j k => ?_
  split
  · exact k
  · dsimp only
    split
    · exact k
    · exact Site.onTier_canonical k fun r w => Mem.wf_copy (Site.tier_wf k _) w _ _ _

theorem State.onMove_kept {s₀ s : State} (hk : Kept s₀ s) {i ch : Nat} {f : TierMove → TierMove} :
    Kept s₀ (State.onMove s i ch f) := by
  unfold State.onMove
  (try dsimp only)
  repeat' first
    | with_reducible assumption
    | with_reducible apply State.onSite_kept
    | exact fun _ k => k
    | split
    | intro

theorem State.moveReadFails_kept {s₀ s : State} (hk : Kept s₀ s) {i ch : Nat} {m : TierMove} :
    Kept s₀ (State.moveReadFails s i ch m) := by
  unfold State.moveReadFails
  (try dsimp only)
  repeat' first
    | with_reducible assumption
    | with_reducible apply State.draw_kept
    | with_reducible refine State.draw_kept' ?_ ‹_›
    | with_reducible apply State.abandonMoves_kept
    | with_reducible apply State.onMove_kept
    | exact fun _ k => k
    | split
    | intro

theorem Site.retire_canonical {t : Site} (h : t.canonical) {slow : Bool} {ppn : Nat} :
    (t.retire slow ppn).canonical :=
  have w : ((t.freePage slow ppn).onTier slow fun r => { r with
    retired := ppn :: r.retired.filter (· ≠ ppn), repairs := ppn :: r.repairs.filter (· ≠ ppn) }).canonical :=
    Site.onTier_canonical (Site.freePage_canonical h) fun _ w => w
  w

theorem Site.switchMove_canonical {t : Site} (hk : t.canonical) {ch : Nat} {m : TierMove} :
    (Site.switchMove t ch m).canonical := by
  unfold Site.switchMove
  extract_lets +onlyGivenNames t1 t2 t3
  have h1 : t1.canonical := Site.copySubs_canonical hk
  have h2 : t2.canonical := Site.onEntry_canonical h1
  have h3 : t3.canonical := h2
  clear_value t3
  split
  · exact Site.retire_canonical h3
  · exact Site.freePage_canonical h3

theorem State.runHeld_kept {s₀ s : State} (hk : Kept s₀ s) {i : Nat} {m : TierMove} :
    Kept s₀ (State.runHeld s i m) := by
  unfold State.runHeld
  (try dsimp only)
  repeat' first
    | with_reducible assumption
    | with_reducible refine State.tierWrite_kept ?_ ‹_›
    | with_reducible apply Kept.foldl
    | with_reducible apply Kept.foldlFst
    | with_reducible apply Site.foldl_canonical
    | exact fun _ k => k
    | split
    | intro

theorem State.moveDone_kept {s₀ s : State} (hk : Kept s₀ s) {i : Nat} {m : TierMove} :
    Kept s₀ (State.moveDone s i m) := by
  unfold State.moveDone
  (try dsimp only)
  repeat' first
    | with_reducible assumption
    | with_reducible apply State.setFld_kept
    | with_reducible apply State.answer_kept
    | with_reducible apply Site.setFld_canonical
    | exact fun _ k => k
    | split
    | intro

theorem State.clearUnmapped_kept {s₀ s : State} (hk : Kept s₀ s) {v : Nat} {old new : List Mapping} :
    Kept s₀ (State.clearUnmapped s v old new) := by
  unfold State.clearUnmapped
  (try dsimp only)
  repeat' first
    | with_reducible assumption
    | with_reducible apply State.onSite_kept
    | with_reducible apply State.abandonMoves_kept
    | with_reducible apply Kept.foldl
    | with_reducible apply Kept.foldlFst
    | with_reducible apply Site.foldl_canonical
    | with_reducible apply Site.onTier_canonical
    | exact fun _ k => k
    | split
    | intro

theorem State.withdraw_kept {s₀ s : State} (hk : Kept s₀ s) {v : Nat} {keepOf : Mapping → List Mapping} :
    Kept s₀ (State.withdraw s v keepOf) := by
  unfold State.withdraw
  (try dsimp only)
  repeat' first
    | with_reducible assumption
    | with_reducible apply State.onSp_kept
    | with_reducible apply State.clearUnmapped_kept
    | exact fun _ k => k
    | split
    | intro

theorem State.tableChange_kept {s₀ s : State} (hk : Kept s₀ s) {v id : Nat} {b : Bytes} :
    Kept s₀ (State.tableChange s v id b).1 := by
  unfold State.tableChange
  (try dsimp only)
  repeat' first
    | with_reducible assumption
    | with_reducible apply State.onSp_kept
    | with_reducible apply State.withdraw_kept
    | exact fun _ k => k
    | split
    | intro

theorem State.tableChange_kept' {s₀ s t : State} (hk : Kept s₀ s) {v id : Nat} {b : Bytes} {x : Bool}
    (e : State.tableChange s v id b = (t, x)) : Kept s₀ t := by
  have k : Kept s₀ (State.tableChange s v id b).1 := State.tableChange_kept hk
  rw [e] at k
  exact k

theorem State.tableLater_kept {s₀ s : State} (hk : Kept s₀ s) {v : Nat} {b : Bytes} :
    Kept s₀ (State.tableLater s v b) := by
  unfold State.tableLater
  (try dsimp only)
  repeat' first
    | with_reducible assumption
    | with_reducible apply State.onSp_kept
    | exact fun _ k => k
    | split
    | intro

theorem Job.change_keeps {s₀ : State} {j : Job} : Keeps s₀ (Job.change j) := by
  unfold Job.change
  (try dsimp only)
  repeat' first
    | with_reducible assumption
    | with_reducible apply Keeps.get
    | with_reducible apply Keeps.set
    | with_reducible apply Keeps.modify
    | with_reducible apply Keeps.pure
    | with_reducible apply Keeps.throw
    | with_reducible apply Keeps.fail
    | with_reducible apply Keeps.bind
    | with_reducible apply State.invalidate_kept
    | with_reducible apply State.replicate_kept
    | with_reducible apply State.tableChange_kept
    | with_reducible refine State.tableChange_kept' ?_ ‹_›
    | with_reducible apply State.tableLater_kept
    | exact fun _ k => k
    | split
    | intro

theorem Site.mapPages_canonical {t : Site} (h : t.canonical) {ns base v policy : Nat} {pages : List Nat} :
    (t.mapPages ns base v policy pages).canonical := by
  have w : (t.onTier (ns = 1) fun r => { r with map := r.map ++ pages.zipIdx.map fun (p, k) =>
    ⟨base + k, policy, false, v, 0, 0, decide (ns = 1), p⟩ }).canonical := Site.onTier_canonical h fun _ w => w
  unfold Site.mapPages
  split
  · exact w
  · exact w

theorem State.drawObject_kept {s₀ s t : State} (hk : Kept s₀ s) {i v ns n policy : Nat} {x : Nat}
    (e : s.drawObject i v ns n policy = some (x, t)) : Kept s₀ t := by
  unfold State.drawObject at e
  split at e
  · cases e
  · split at e
    · cases e
    · cases e
      exact State.onSite_kept_inv hk fun g _ _ =>
        Site.mapPages_canonical (Site.drawPages_canonical (g.site i) ‹_›)

theorem Job.newObj_keeps {s₀ : State} {j : Job} {o : Obj} : Keeps s₀ (Job.newObj j o) := by
  unfold Job.newObj
  (try dsimp only)
  repeat' first
    | with_reducible assumption
    | with_reducible apply Keeps.get
    | with_reducible apply Keeps.set
    | with_reducible apply Keeps.modify
    | with_reducible apply Keeps.pure
    | with_reducible apply Keeps.throw
    | with_reducible apply Keeps.fail
    | with_reducible apply Keeps.bind
    | with_reducible apply State.onSp_kept
    | with_reducible apply State.emit_kept
    | with_reducible apply State.replicate_kept
    | exact fun _ k => k
    | split
    | intro

theorem State.freeObject_kept {s₀ s : State} (hk : Kept s₀ s) {v : Nat} {o : Obj} : Kept s₀ (s.freeObject v o) := by
  unfold State.freeObject
  split
  · exact hk
  · refine State.onSite_kept (State.abandonMoves_kept hk) fun t h => ?_
    extract_lets +onlyGivenNames gone u w
    have hu : u.canonical := Site.foldl_canonical h fun _ _ k => Site.freePage_canonical k
    have hw : w.canonical := Site.onTier_canonical hu fun _ k => k
    exact ⟨hw.1, (List.length_map _).trans hw.2.1, hw.2.2.1, mem_map hw.2.2.2.1 fun _ k => k, hw.2.2.2.2⟩

theorem State.freeLoft_kept {s₀ s : State} (hk : Kept s₀ s) {v : Nat} {o : Obj} :
    Kept s₀ (State.freeLoft s v o) := by
  unfold State.freeLoft
  (try dsimp only)
  repeat' first
    | with_reducible assumption
    | with_reducible apply State.bump_kept
    | with_reducible apply State.dropFrames_kept
    | with_reducible apply Kept.foldl
    | with_reducible apply Kept.foldlFst
    | with_reducible apply Site.foldl_canonical
    | with_reducible apply Site.bump_canonical
    | exact fun _ k => k
    | split
    | intro

theorem State.released_kept {s₀ s : State} (hk : Kept s₀ s) {v : Nat} {o : Obj} :
    Kept s₀ (State.released s v o) := by
  unfold State.released
  (try dsimp only)
  repeat' first
    | with_reducible assumption
    | with_reducible apply State.onSp_kept
    | with_reducible apply State.endCtl_kept
    | with_reducible apply State.freeObject_kept
    | with_reducible apply State.freeLoft_kept
    | exact fun _ k => k
    | split
    | intro

theorem State.startRelease_kept {s₀ s : State} (hk : Kept s₀ s) {vd obj : Nat} {o : Obj} :
    Kept s₀ (State.startRelease s vd obj o) := by
  unfold State.startRelease
  (try dsimp only)
  repeat' first
    | with_reducible assumption
    | with_reducible apply State.onSp_kept
    | with_reducible apply State.invalidate_kept
    | with_reducible apply State.replicate_kept
    | with_reducible apply State.withdraw_kept
    | with_reducible apply State.released_kept
    | exact fun _ k => k
    | split
    | intro

theorem State.acknowledged_kept {s₀ s : State} (hk : Kept s₀ s) {v : Nat} {x : Inval} :
    Kept s₀ (State.acknowledged s v x) := by
  unfold State.acknowledged
  (try dsimp only)
  repeat' first
    | with_reducible assumption
    | with_reducible apply State.onSp_kept
    | with_reducible apply State.onCmd_kept
    | with_reducible apply State.emit_kept
    | with_reducible apply State.respond_kept
    | with_reducible apply State.endCtl_kept
    | with_reducible apply State.endDestroys_kept
    | with_reducible apply State.tableLater_kept
    | with_reducible apply State.released_kept
    | exact fun _ k => k
    | split
    | intro

theorem State.killOlder_kept {s₀ s : State} (hk : Kept s₀ s) {vd : Nat} {x : Inval} :
    Kept s₀ (State.killOlder s vd x) := by
  unfold State.killOlder
  (try dsimp only)
  repeat' first
    | with_reducible assumption
    | with_reducible apply State.onCmd_kept
    | with_reducible apply State.bump_kept
    | with_reducible apply State.control_kept
    | with_reducible apply State.killContext_kept
    | with_reducible apply Kept.foldl
    | with_reducible apply Kept.foldlFst
    | with_reducible apply Kept.mapSites
    | with_reducible apply Site.foldl_canonical
    | with_reducible apply Site.bump_canonical
    | exact fun _ k => k
    | split
    | intro

theorem State.openFault_kept {s₀ s t : State} (hk : Kept s₀ s) {j : Job} {dva access bit : Nat} {rights : Bool} {home : CmdRef} {inst part : Nat}
    (e : State.openFault s j dva access bit rights home inst part = some t) : Kept s₀ t := by
  revert e
  unfold State.openFault
  (try dsimp only)
  repeat' first
    | with_reducible assumption
    | contradiction
    | with_reducible apply State.onSp_kept
    | with_reducible apply State.bump_kept
    | with_reducible apply Site.bump_canonical
    | exact fun _ k => k
    | split
    | (intro e; cases e)
    | intro

theorem State.faulted_kept {s₀ s : State} (hk : Kept s₀ s) {j : Job} {dva access : Nat} {rights : Bool} :
    Kept s₀ (State.faulted s j dva access rights) := by
  unfold State.faulted
  (try dsimp only)
  repeat' first
    | with_reducible assumption
    | with_reducible apply State.onCmd_kept
    | with_reducible apply VCtx.fault_kept
    | with_reducible apply State.control_kept
    | with_reducible refine State.openFault_kept ?_ ‹_›
    | exact fun _ k => k
    | split
    | intro

theorem State.loseBatch_kept {s₀ s : State} (hk : Kept s₀ s) {v : Nat} {batch : List FaultEntry} :
    Kept s₀ (State.loseBatch s v batch) := by
  unfold State.loseBatch
  (try dsimp only)
  repeat' first
    | with_reducible assumption
    | with_reducible apply State.onFe_kept
    | with_reducible apply State.event_kept
    | with_reducible apply State.failEntry_kept
    | with_reducible apply Kept.foldl
    | with_reducible apply Kept.foldlFst
    | with_reducible apply Site.foldl_canonical
    | exact fun _ k => k
    | split
    | intro

theorem writeBatch_kept {s₀ : State} {v : Nat} {l : List FaultEntry} :
    ∀ {s t : State}, Kept s₀ s → writeBatch v l s = .ok t → Kept s₀ t := by
  induction l with
  | nil =>
    intro s t h e
    unfold writeBatch at e
    cases e
    exact State.accumulate_kept (State.onSp_kept (State.onFe_kept h))
  | cons f r ih =>
    intro s t h e
    unfold writeBatch at e
    dsimp only at e
    split at e
    · cases e
      exact State.onFe_kept h
    · split at e
      · cases e
      · exact ih (State.onSp_kept (State.onFe_kept (State.emit_kept h))) e

theorem Job.checkReduce_keeps {s₀ : State} {j : Job} : Keeps s₀ (Job.checkReduce j) := by
  unfold Job.checkReduce
  (try dsimp only)
  repeat' first
    | with_reducible assumption
    | with_reducible apply Keeps.get
    | with_reducible apply Keeps.set
    | with_reducible apply Keeps.modify
    | with_reducible apply Keeps.pure
    | with_reducible apply Keeps.throw
    | with_reducible apply Keeps.fail
    | with_reducible apply Keeps.bind
    | exact fun _ k => k
    | split
    | intro

theorem Job.checkArm_keeps {s₀ : State} {j : Job} : Keeps s₀ (Job.checkArm j) := by
  unfold Job.checkArm
  (try dsimp only)
  repeat' first
    | with_reducible assumption
    | with_reducible apply Keeps.get
    | with_reducible apply Keeps.set
    | with_reducible apply Keeps.modify
    | with_reducible apply Keeps.pure
    | with_reducible apply Keeps.throw
    | with_reducible apply Keeps.fail
    | with_reducible apply Keeps.bind
    | exact fun _ k => k
    | split
    | intro

theorem Job.raiseFence_keeps {s₀ : State} {j : Job} {dva v : Nat} : Keeps s₀ (Job.raiseFence j dva v) := by
  unfold Job.raiseFence
  (try dsimp only)
  repeat' first
    | with_reducible assumption
    | with_reducible apply Job.find_keeps
    | with_reducible apply Job.send_keeps
    | with_reducible apply Keeps.get
    | with_reducible apply Keeps.set
    | with_reducible apply Keeps.modify
    | with_reducible apply Keeps.pure
    | with_reducible apply Keeps.throw
    | with_reducible apply Keeps.fail
    | with_reducible apply Keeps.viaHold
    | with_reducible apply Keeps.bind
    | with_reducible apply State.onCmd_kept
    | with_reducible apply State.emit_kept
    | with_reducible apply State.event_kept
    | with_reducible refine State.raiseWord_kept ?_ ‹_›
    | exact fun _ k => k
    | split
    | intro

theorem Job.armBody_keeps {s₀ : State} {j : Job} : Keeps s₀ (Job.armBody j) := by
  unfold Job.armBody
  (try dsimp only)
  repeat' first
    | with_reducible assumption
    | with_reducible apply Job.rawClm_keeps
    | with_reducible apply Job.putClm_keeps
    | with_reducible apply Job.store_keeps
    | with_reducible apply Job.flags_keeps
    | with_reducible apply Job.checkArm_keeps
    | with_reducible apply Job.raiseFence_keeps
    | with_reducible apply Keeps.get
    | with_reducible apply Keeps.set
    | with_reducible apply Keeps.modify
    | with_reducible apply Keeps.pure
    | with_reducible apply Keeps.throw
    | with_reducible apply Keeps.fail
    | with_reducible apply Keeps.bind
    | with_reducible apply State.onSite_kept
    | with_reducible apply State.onCmd_kept
    | with_reducible apply SCtx.store_kept
    | with_reducible apply State.replicate_kept
    | with_reducible apply Site.onCluster_canonical
    | exact fun _ k => k
    | split
    | intro

theorem Cluster.combine_wf {k : Cluster} (h : k.clm.wf = true) {w : Window} {off : Nat} {xs : List Fp} :
    (k.combine w off xs).1.clm.wf = true := by
  have g : ∀ l : List (Nat × Fp), (l.foldl (fun k e =>
      k.write w.slice (w.acc + 4 * e.1) (leBytes 4 (f32bits (reduceStep w.op
        (fp32.decode (leNat (k.read w.slice (w.acc + 4 * e.1) 4))) e.2)))) k).clm.wf = true :=
    fun l => Cluster.foldl_canonical h fun _ _ w => Cluster.write_canonical w
  exact g _

theorem State.cluster_wf {s : State} (h : s.Inv) (i c : Nat) : ((s.site i).cluster c).clm.wf = true := by
  unfold Site.cluster
  rw [List.getD_eq_getElem?_getD]
  cases e : (s.site i).clusters[c]? with
  | none => rfl
  | some t => exact (h.site i).2.2.2.1 t (List.mem_of_getElem? e)

theorem execReduceArm_kept {s t : State} {c : CmdRef} (e : execReduceArm c s = .next t) : Kept s t :=
  runRow_kept (fun _ => Job.armBody_keeps) e

theorem State.contribute_kept {s₀ s : State} (hk : Kept s₀ s) {b cl num slice off inDt : Nat} {data : Bytes} :
    Kept s₀ (s.contribute b cl num slice off inDt data).1 := by
  have h1 : ∀ w xs, Kept s₀ (s.onSite b (·.onCluster cl fun _ => (((s.site b).cluster cl).combine w off xs).1)) :=
    fun w xs => State.onSite_kept_inv hk fun g t k =>
      Site.onCluster_canonical k fun _ _ => Cluster.combine_wf (State.cluster_wf g b cl)
  have h2 : ∀ u c, Kept s₀ u → Kept s₀ (match execReduceArm c u with | .next t => t | _ => u) := by
    intro u c h
    split
    · exact h.trans (execReduceArm_kept ‹_›)
    · exact h
  unfold State.contribute
  dsimp only
  repeat' first
    | with_reducible exact State.bump_kept hk
    | with_reducible exact h1 _ _
    | with_reducible exact State.bump_kept (h1 _ _)
    | with_reducible exact h2 _ _ (h1 _ _)
    | with_reducible exact h2 _ _ (State.bump_kept (h1 _ _))
    | refine Kept.trans ?_ (execReduceArm_kept (by assumption))
    | split

theorem State.contribute_kept' {s₀ s t : State} (hk : Kept s₀ s) {b cl num slice off inDt : Nat} {data : Bytes}
    {x : Bool} (e : s.contribute b cl num slice off inDt data = (t, x)) : Kept s₀ t := by
  have k : Kept s₀ (s.contribute b cl num slice off inDt data).1 := State.contribute_kept hk
  rw [e] at k
  exact k

theorem Job.checkDma_keeps {s₀ : State} {j : Job} {fill : Bool} : Keeps s₀ (Job.checkDma j fill) := by
  unfold Job.checkDma
  (try dsimp only)
  repeat' first
    | with_reducible assumption
    | with_reducible apply Keeps.get
    | with_reducible apply Keeps.set
    | with_reducible apply Keeps.modify
    | with_reducible apply Keeps.pure
    | with_reducible apply Keeps.throw
    | with_reducible apply Keeps.fail
    | with_reducible apply Keeps.bind
    | with_reducible apply Cluster.fill_canonical
    | exact fun _ k => k
    | split
    | intro

theorem Job.checkScalar_keeps {s₀ : State} {j : Job} : Keeps s₀ (Job.checkScalar j) := by
  unfold Job.checkScalar
  (try dsimp only)
  repeat' first
    | with_reducible assumption
    | with_reducible apply Keeps.get
    | with_reducible apply Keeps.set
    | with_reducible apply Keeps.modify
    | with_reducible apply Keeps.pure
    | with_reducible apply Keeps.throw
    | with_reducible apply Keeps.fail
    | with_reducible apply Keeps.bind
    | exact fun _ k => k
    | split
    | intro

theorem Job.check_keeps {s₀ : State} {j : Job} : Keeps s₀ (Job.check j) := by
  unfold Job.check
  (try dsimp only)
  repeat' first
    | with_reducible assumption
    | with_reducible apply Job.checkTile_keeps
    | with_reducible apply Job.checkAttention_keeps
    | with_reducible apply Job.checkRoute_keeps
    | with_reducible apply Job.checkSelect_keeps
    | with_reducible apply Job.checkGather_keeps
    | with_reducible apply Job.checkLayout_keeps
    | with_reducible apply Job.checkCodec_keeps
    | with_reducible apply Job.checkReduce_keeps
    | with_reducible apply Job.checkArm_keeps
    | with_reducible apply Job.checkDma_keeps
    | with_reducible apply Job.checkScalar_keeps
    | with_reducible apply Keeps.get
    | with_reducible apply Keeps.set
    | with_reducible apply Keeps.modify
    | with_reducible apply Keeps.pure
    | with_reducible apply Keeps.throw
    | with_reducible apply Keeps.fail
    | with_reducible apply Keeps.bind
    | exact fun _ k => k
    | split
    | intro

theorem Job.occupy_kept {s₀ s : State} (hk : Kept s₀ s) {j : Job} :
    Kept s₀ (Job.occupy j s) := by
  unfold Job.occupy
  (try dsimp only)
  repeat' first
    | with_reducible assumption
    | with_reducible apply State.onSite_kept
    | with_reducible apply State.onCmd_kept
    | with_reducible apply State.onCore_kept
    | with_reducible apply Site.onCore_canonical
    | with_reducible apply Site.onCluster_canonical
    | exact fun _ k => k
    | split
    | intro

theorem State.issue_kept {s₀ s : State} (hk : Kept s₀ s) {j : Job} {c : CmdRef} :
    Kept s₀ (State.issue s j c) := by
  unfold State.issue
  (try dsimp only)
  repeat' first
    | with_reducible assumption
    | with_reducible apply State.onCmd_kept
    | with_reducible apply SCtx.run_kept
    | with_reducible apply State.finish_kept
    | with_reducible apply State.account_kept
    | with_reducible apply Job.occupy_kept
    | exact fun _ k => k
    | split
    | intro

end Sys2Proof.Machine
end

