-- ==== Sys2Proof/Laws/KeptE.lean ====
section
/-! SUPPORT. The operations of Sched, FabricCmd, Links, Fabric keep what every command keeps. -/

set_option linter.unusedVariables false

namespace Sys2Proof.Machine

theorem Site.wipe_canonical {t : Site} (h : t.canonical) {p : Nat} {q : Option Nat} : (t.wipe p q).canonical :=
  Site.onCore_canonical h fun _ k => ⟨k.1, Mem.wf_clear k.2.1 _ _, k.2.2⟩

theorem Site.zero_canonical {t : Site} (h : t.canonical) {p : Nat} {q : Option Nat} : (t.zero p q).canonical :=
  Site.onCore_canonical h fun _ k =>
    have w := Core.zeroBanks_canonical (q := q) k
    ⟨w.1, w.2.1, w.2.2⟩

theorem Site.putImage_canonical {t : Site} (h : t.canonical) {p : Nat} {q : Option Nat} {m : Image} (g : m.canonical) :
    (t.putImage p q m).canonical :=
  Site.onCore_canonical h fun _ k => ⟨Mem.wf_copy g.1 k.1 _ _ _, Mem.wf_copy g.2 k.2.1 _ _ _, k.2.2⟩

theorem Site.core_canonical {t : Site} (h : t.canonical) (p : Nat) : (t.core p).canonical := by
  unfold Site.core
  rw [List.getD_eq_getElem?_getD]
  cases e : t.cores[p]? with
  | none =>
    refine ⟨rfl, rfl, ?_⟩
    intro u hu x hx
    rw [List.eq_of_mem_replicate hu] at hx
    cases hx
  | some c => exact h.2.2.1 c (List.mem_of_getElem? e)

theorem Core.unit_canonical {c : Core} (h : c.canonical) (q : Option Nat) : (c.unit q).canonical := by
  unfold Core.unit
  rw [List.getD_eq_getElem?_getD]
  cases e : c.units[q.getD 0]? with
  | none => exact fun x hx => by cases hx
  | some u => exact h.2.2 u (List.mem_of_getElem? e)

theorem Site.grab_canonical {t : Site} (h : t.canonical) {p : Nat} {q : Option Nat} {v n : Nat} :
    (t.grab p q v n).canonical :=
  have k := Site.core_canonical h p
  ⟨Mem.wf_copy k.1 Mem.wf_nil _ _ _, Mem.wf_copy k.2.1 Mem.wf_nil _ _ _⟩

theorem Core.onUnits {c : Core} (h : c.canonical) {n : Nat} {f : ReelUnit → ReelUnit}
    (hf : ∀ u, u.canonical → (f u).canonical) : Core.canonical { c with units := c.units.modify n f } :=
  ⟨h.1, h.2.1, mem_modify h.2.2 hf⟩

theorem State.onUnit_kept {s₀ s : State} (h : Kept s₀ s) {i p : Nat} {q : Option Nat} {f : ReelUnit → ReelUnit}
    (hf : ∀ u, u.canonical → (f u).canonical) : Kept s₀ (s.onUnit i p q f) :=
  State.onCore_kept h fun _ k => Core.onUnits k hf

theorem State.preempt_kept {s₀ s : State} (hk : Kept s₀ s) {i p : Nat} {q : Option Nat} {v : Nat} :
    Kept s₀ (s.preempt i p q v) := State.onUnit_kept hk fun _ h => h

theorem State.countPreempt_kept {s₀ s : State} (hk : Kept s₀ s) {i v : Nat} {streams : List Nat} :
    Kept s₀ (State.countPreempt s i v streams) := by
  unfold State.countPreempt
  (try dsimp only)
  repeat' first
    | with_reducible assumption
    | with_reducible apply State.onWatch_kept
    | with_reducible apply State.replicate_kept
    | with_reducible apply State.preempt_kept
    | with_reducible apply Kept.foldl
    | with_reducible apply Kept.foldlFst
    | with_reducible apply Site.foldl_canonical
    | exact fun _ k => k
    | split
    | intro

theorem State.saveUnit_kept {s₀ s : State} (hk : Kept s₀ s) {i p : Nat} {q : Option Nat} {a b : Nat} :
    Kept s₀ (s.saveUnit i p q a b) := by
  unfold State.saveUnit
  extract_lets +onlyGivenNames u s1 s2
  have h1 : Kept s₀ s1 := by
    unfold s1
    split
    · exact State.bump_kept hk
    · exact hk
  have h2 : Kept s₀ s2 := by
    unfold s2
    split
    · exact h1
    · extract_lets +onlyGivenNames cmds s3 s4 m
      have h3 : Kept s₀ s3 := Kept.foldl h1 fun s a k => by
        obtain ⟨n, c⟩ := a
        dsimp only
        split
        · exact k
        · exact State.onCmd_kept k
      have h4 : Kept s₀ s4 := State.countPreempt_kept h3
      refine State.onCore_kept_inv h4 fun g c k => Core.onUnits k fun u w => ?_
      intro x hx
      rcases List.mem_cons.mp hx with rfl | hx
      · exact Site.grab_canonical (g.site i)
      · exact w x (List.mem_filter.mp hx).1
  refine State.onUnit_kept (State.onSite_kept h2 fun t k => ?_) fun _ w => w
  exact Site.onCore_canonical (Site.wipe_canonical k) fun _ w => Core.zeroBanks_canonical w

theorem Core.reoccupy_canonical {c : Core} (hk : c.canonical) {q : Nat} {r : CmdRef} {kind : EngineKind} :
    (Core.reoccupy c q r kind).canonical := by
  unfold Core.reoccupy
  (try dsimp only)
  repeat' first
    | with_reducible assumption
    | exact hk
    | exact fun _ k => k
    | split
    | intro

theorem State.restore_kept {s₀ s : State} (hk : Kept s₀ s) {i p : Nat} {q : Option Nat} {v : Nat} :
    Kept s₀ (s.restore i p q v) := by
  unfold State.restore
  extract_lets +onlyGivenNames now u s1
  have h1 : Kept s₀ s1 := by
    unfold s1
    split
    · dsimp only
      refine Kept.foldl (State.onSite_kept_inv hk fun g t k => Site.putImage_canonical k ?_) fun s a k => ?_
      · exact Core.unit_canonical (Site.core_canonical (g.site i) p) q _ (List.mem_of_find?_eq_some ‹_›)
      · split
        · exact State.onCore_kept (State.onCmd_kept k) fun _ w => Core.reoccupy_canonical w
        · exact k
    · exact hk
  exact State.onUnit_kept h1 fun u w x hx => w x (List.mem_filter.mp hx).1

theorem State.resume_kept {s₀ s : State} (hk : Kept s₀ s) {i p : Nat} {q : Option Nat} {v : Nat} :
    Kept s₀ (State.resume s i p q v) := by
  unfold State.resume
  (try dsimp only)
  repeat' first
    | with_reducible assumption
    | with_reducible apply State.bump_kept
    | with_reducible apply State.restore_kept
    | with_reducible apply Site.bump_canonical
    | exact fun _ k => k
    | split
    | intro

theorem State.setMode_kept {s₀ s : State} (hk : Kept s₀ s) {i p : Nat} {quad : Bool} :
    Kept s₀ (s.setMode i p quad) := by
  unfold State.setMode
  extract_lets +onlyGivenNames owners qs back s1 inst s2 s3
  have h1 : Kept s₀ s1 := Kept.foldl hk fun s v h => by
    refine Kept.foldl h fun s q h => Kept.foldl h fun s a h => ?_
    obtain ⟨n, c⟩ := a
    dsimp only
    split
    · exact h
    · exact State.onCmd_kept (State.leaveFault_kept h)
  have h2 : Kept s₀ s2 := Kept.foldl h1 fun _ _ h => State.onVd_kept h
  have h3 : Kept s₀ s3 := State.onSite_kept h2 fun t k => by
    refine Site.onCore_canonical (Site.zero_canonical (Site.wipe_canonical k)) fun c w => ⟨w.1, w.2.1, ?_⟩
    intro u hu x hx
    obtain ⟨n, _, rfl⟩ := List.mem_map.mp hu
    dsimp only at hx
    split at hx <;> cases hx
  exact State.answer_kept h3

theorem State.guardMiss_kept {s₀ s : State} (hk : Kept s₀ s) {i : Nat} {g : Guard} {v : Nat} :
    Kept s₀ (State.guardMiss s i g v) := by
  unfold State.guardMiss
  (try dsimp only)
  repeat' first
    | with_reducible assumption
    | with_reducible apply State.raiseSrc_kept
    | with_reducible apply State.report_kept
    | exact fun _ k => k
    | split
    | intro

theorem State.endWindow_kept {s₀ s : State} (hk : Kept s₀ s) {i slice bset path : Nat} {b : Budget} {m : WindowMeasure} :
    Kept s₀ (State.endWindow s i slice bset path b m) := by
  unfold State.endWindow
  (try dsimp only)
  repeat' first
    | with_reducible assumption
    | with_reducible apply State.onWatch_kept
    | with_reducible apply State.guardMiss_kept
    | with_reducible apply Kept.foldl
    | with_reducible apply Kept.foldlFst
    | with_reducible apply Site.foldl_canonical
    | exact fun _ k => k
    | split
    | intro

theorem State.snapshot_kept {s₀ s : State} (hk : Kept s₀ s) {i : Nat} {value : W32} {clear : Bool} :
    Kept s₀ (s.snapshot i value clear) := by
  unfold State.snapshot
  extract_lets +onlyGivenNames v n hit words s1
  have h1 : Kept s₀ s1 := State.onSite_kept hk fun t k =>
    Site.foldl_canonical (Site.setReg_canonical k) fun _ _ w => Site.setReg_canonical w
  split
  · exact State.onWatch_kept h1
  · exact h1

theorem State.noteBranch_kept {s₀ s : State} (hk : Kept s₀ s) {c : CmdRef} {b : Nat} {st : W16} :
    Kept s₀ (State.noteBranch s c b st) := by
  unfold State.noteBranch
  (try dsimp only)
  repeat' first
    | with_reducible assumption
    | with_reducible apply State.onCmd_kept
    | exact fun _ k => k
    | split
    | intro

theorem Job.tryBranch_keeps {s₀ : State} {j : Job} {b : Nat} {x : Run Unit} (h : Keeps s₀ x) :
    Keeps s₀ (j.tryBranch b x) :=
  Keeps.tryCatch h fun e => by
    split
    · exact Keeps.modify fun _ k => State.noteBranch_kept k
    · exact Keeps.throw _

theorem State.atomicWord_kept {s₀ s t : State} (hk : Kept s₀ s) {b addr op x cmp slot : Nat} {r : Except W16 Nat}
    (e : s.atomicWord b addr op x cmp slot = some (r, t)) : Kept s₀ t := by
  revert e
  unfold State.atomicWord
  dsimp only
  repeat' first
    | (intro e; cases e; done)
    | (intro e; cases e)
    | with_reducible exact State.tierRead_kept' hk ‹_›
    | with_reducible exact State.tierWrite_kept (State.tierRead_kept' hk ‹_›) ‹_›
    | split

theorem Job.checkAtomic_keeps {s₀ : State} {j : Job} : Keeps s₀ (Job.checkAtomic j) := by
  unfold Job.checkAtomic
  (try dsimp only)
  repeat' first
    | with_reducible assumption
    | with_reducible apply Keeps.get
    | with_reducible apply Keeps.set
    | with_reducible apply Keeps.modify
    | with_reducible apply Keeps.pure
    | with_reducible apply Keeps.throw
    | with_reducible apply Keeps.fail
    | with_reducible apply Keeps.bind
    | exact fun _ k => k
    | split
    | intro

theorem Job.writeBack_keeps {s₀ : State} {j : Job} {f : Frame} {which : BitVec 256} : Keeps s₀ (Job.writeBack j f which) := by
  unfold Job.writeBack
  (try dsimp only)
  repeat' first
    | with_reducible assumption
    | with_reducible apply Job.farPut_keeps
    | with_reducible apply Keeps.get
    | with_reducible apply Keeps.set
    | with_reducible apply Keeps.modify
    | with_reducible apply Keeps.pure
    | with_reducible apply Keeps.throw
    | with_reducible apply Keeps.fail
    | with_reducible apply Keeps.forM
    | with_reducible apply Job.tryBranch_keeps
    | with_reducible apply Keeps.bind
    | with_reducible apply State.onFrame_kept
    | with_reducible apply Job.tryBranch_keeps
    | exact fun _ k => k
    | split
    | intro

theorem Job.cleanFrame_keeps {s₀ : State} {j : Job} {p : Spot} : Keeps s₀ (Job.cleanFrame j p) := by
  unfold Job.cleanFrame
  (try dsimp only)
  repeat' first
    | with_reducible assumption
    | with_reducible apply Job.writeBack_keeps
    | with_reducible apply Keeps.get
    | with_reducible apply Keeps.set
    | with_reducible apply Keeps.modify
    | with_reducible apply Keeps.pure
    | with_reducible apply Keeps.throw
    | with_reducible apply Keeps.fail
    | with_reducible apply Keeps.bind
    | with_reducible apply State.onFrame_kept
    | exact fun _ k => k
    | split
    | intro

theorem Job.hostAtomic_keeps {s₀ : State} {j : Job} {op bus x cmp : Nat} : Keeps s₀ (Job.hostAtomic j op bus x cmp) := by
  unfold Job.hostAtomic
  (try dsimp only)
  repeat' first
    | with_reducible assumption
    | with_reducible apply Keeps.get
    | with_reducible apply Keeps.set
    | with_reducible apply Keeps.modify
    | with_reducible apply Keeps.pure
    | with_reducible apply Keeps.throw
    | with_reducible apply Keeps.fail
    | with_reducible apply Keeps.bind
    | with_reducible apply State.onCmd_kept
    | with_reducible apply State.emit_kept
    | with_reducible apply SCtx.await_kept
    | exact fun _ k => k
    | split
    | intro

theorem Job.atomics_keeps {s₀ : State} {j : Job} {a : AtomicBody} {ops : Bytes} {n : Nat} :
    Keeps s₀ (j.atomics a ops n) := by
  induction n with
  | zero => exact Keeps.pure _
  | succ n ih =>
    unfold Job.atomics
    repeat' first
      | with_reducible assumption
      | with_reducible apply ih
      | with_reducible apply Job.find_keeps
      | with_reducible apply Job.cleanFrame_keeps
      | with_reducible apply Job.hostAtomic_keeps
      | with_reducible apply Job.charge_keeps
      | with_reducible apply Job.send_keeps
      | with_reducible apply Keeps.get
      | with_reducible apply Keeps.modify
      | with_reducible apply Keeps.pure
      | with_reducible apply Keeps.throw
      | with_reducible apply Keeps.fail
      | with_reducible apply Keeps.viaHold
      | with_reducible exact State.atomicWord_kept ‹_› ‹_›
      | with_reducible apply State.onCmd_kept
      | with_reducible apply Keeps.bind
      | split
      | dsimp only
      | intro

theorem State.dropSubs_kept {s₀ s : State} (hk : Kept s₀ s) {v i : Nat} {which : Frame → BitVec 256} {keepDirty : Bool} :
    Kept s₀ (State.dropSubs s v i which keepDirty) := by
  unfold State.dropSubs
  (try dsimp only)
  repeat' first
    | with_reducible assumption
    | with_reducible apply State.onNet_kept
    | with_reducible apply State.dropFrames_kept
    | exact fun _ k => k
    | split
    | intro

theorem State.branchFails_kept {s₀ s : State} (hk : Kept s₀ s) {c : CmdRef} {b : Nat} {st : W16} :
    Kept s₀ (State.branchFails s c b st) := by
  unfold State.branchFails
  (try dsimp only)
  repeat' first
    | with_reducible assumption
    | with_reducible apply State.onCmd_kept
    | with_reducible apply VCtx.branch_kept
    | with_reducible apply State.noteBranch_kept
    | exact fun _ k => k
    | split
    | intro

theorem Job.contribBody_keeps {s₀ : State} {j : Job} : Keeps s₀ (Job.contribBody j) := by
  unfold Job.contribBody
  (try dsimp only)
  repeat' first
    | with_reducible assumption
    | with_reducible apply Job.send_keeps
    | with_reducible apply Job.load_keeps
    | with_reducible apply Keeps.get
    | with_reducible apply Keeps.set
    | with_reducible apply Keeps.modify
    | with_reducible apply Keeps.pure
    | with_reducible apply Keeps.throw
    | with_reducible apply Keeps.fail
    | with_reducible apply Keeps.forM
    | with_reducible apply Keeps.bind
    | with_reducible apply State.contribute_kept
    | with_reducible refine State.contribute_kept' ?_ ‹_›
    | exact fun _ k => k
    | split
    | intro

theorem asBranch_keeps {s₀ : State} {α : Type} {n : Nat} {x : Run α} (h : Keeps s₀ x) : Keeps s₀ (asBranch n x) :=
  Keeps.tryCatch h fun e => by
    split <;> exact Keeps.throw _

theorem Job.allToAll_keeps {s₀ : State} {j : Job} : Keeps s₀ (Job.allToAll j) := by
  unfold Job.allToAll
  (try dsimp only)
  repeat' first
    | with_reducible assumption
    | with_reducible apply Job.getDva_keeps
    | with_reducible apply Job.putDva_keeps
    | with_reducible apply Job.load_keeps
    | with_reducible apply Job.loadAt_keeps
    | with_reducible apply Job.storeAt_keeps
    | with_reducible apply Keeps.get
    | with_reducible apply Keeps.set
    | with_reducible apply Keeps.modify
    | with_reducible apply Keeps.pure
    | with_reducible apply Keeps.throw
    | with_reducible apply Keeps.fail
    | with_reducible apply Keeps.forM
    | with_reducible apply Job.tryBranch_keeps
    | with_reducible apply asBranch_keeps
    | with_reducible apply Keeps.bind
    | with_reducible apply State.onCmd_kept
    | with_reducible apply State.place_kept
    | with_reducible apply Job.tryBranch_keeps
    | with_reducible apply asBranch_keeps
    | exact fun _ k => k
    | split
    | intro

theorem State.linkRecord_kept {s₀ s : State} (hk : Kept s₀ s) {i l : Nat} :
    Kept s₀ (State.linkRecord s i l) := by
  unfold State.linkRecord
  (try dsimp only)
  repeat' first
    | with_reducible assumption
    | with_reducible apply State.report_kept
    | exact fun _ k => k
    | split
    | intro

theorem State.retrain_kept {s₀ s : State} (hk : Kept s₀ s) {i l : Nat} :
    Kept s₀ (State.retrain s i l) := by
  unfold State.retrain
  (try dsimp only)
  repeat' first
    | with_reducible assumption
    | with_reducible apply State.setFld_kept
    | with_reducible apply State.raiseSrc_kept
    | with_reducible apply State.onLink_kept
    | with_reducible apply State.reroute_kept
    | with_reducible apply State.linkRecord_kept
    | with_reducible apply Site.setFld_canonical
    | exact fun _ k => k
    | split
    | intro

theorem State.refused_kept {s₀ s : State} (hk : Kept s₀ s) {i l : Nat} :
    Kept s₀ (State.refused s i l) := by
  unfold State.refused
  (try dsimp only)
  repeat' first
    | with_reducible assumption
    | with_reducible apply State.onLink_kept
    | with_reducible apply State.retrain_kept
    | exact fun _ k => k
    | split
    | intro

theorem State.resendFrom_kept {s₀ s : State} (hk : Kept s₀ s) {i l : Nat} {fs : List LinkFrame} :
    Kept s₀ (State.resendFrom s i l fs) := by
  unfold State.resendFrom
  (try dsimp only)
  repeat' first
    | with_reducible assumption
    | with_reducible apply State.emit_kept
    | with_reducible apply State.bump_kept
    | with_reducible apply Kept.foldl
    | with_reducible apply Kept.foldlFst
    | with_reducible apply Site.foldl_canonical
    | with_reducible apply Site.bump_canonical
    | exact fun _ k => k
    | split
    | intro

theorem State.linkOff_kept {s₀ s : State} (hk : Kept s₀ s) {i l : Nat} :
    Kept s₀ (State.linkOff s i l) := by
  unfold State.linkOff
  (try dsimp only)
  repeat' first
    | with_reducible assumption
    | with_reducible apply State.setFld_kept
    | with_reducible apply State.raiseSrc_kept
    | with_reducible apply State.onLink_kept
    | with_reducible apply State.reroute_kept
    | with_reducible apply State.linkRecord_kept
    | with_reducible apply Site.setFld_canonical
    | exact fun _ k => k
    | split
    | intro

theorem State.linkOn_kept {s₀ s : State} (hk : Kept s₀ s) {i l : Nat} :
    Kept s₀ (State.linkOn s i l) := by
  unfold State.linkOn
  (try dsimp only)
  repeat' first
    | with_reducible assumption
    | with_reducible apply State.setFld_kept
    | with_reducible apply Site.setFld_canonical
    | exact fun _ k => k
    | split
    | intro

theorem State.bringTo_kept {s₀ s : State} (hk : Kept s₀ s) {i l n : Nat} :
    Kept s₀ (State.bringTo s i l n) := by
  unfold State.bringTo
  (try dsimp only)
  repeat' first
    | with_reducible assumption
    | with_reducible apply State.setFld_kept
    | with_reducible apply State.onLink_kept
    | with_reducible apply Site.setFld_canonical
    | exact fun _ k => k
    | split
    | intro

theorem State.linkFails_kept {s₀ s : State} (hk : Kept s₀ s) {i l : Nat} :
    Kept s₀ (State.linkFails s i l) := by
  unfold State.linkFails
  (try dsimp only)
  repeat' first
    | with_reducible assumption
    | with_reducible apply State.setFld_kept
    | with_reducible apply State.raiseSrc_kept
    | with_reducible apply State.onLink_kept
    | with_reducible apply State.reroute_kept
    | with_reducible apply State.linkRecord_kept
    | with_reducible apply Site.setFld_canonical
    | exact fun _ k => k
    | split
    | intro

theorem State.layLanes_kept {s₀ s : State} (hk : Kept s₀ s) {i l : Nat} {usable : List (Nat × Nat)} {next : Nat} :
    Kept s₀ (State.layLanes s i l usable next) := by
  unfold State.layLanes
  (try dsimp only)
  repeat' first
    | with_reducible assumption
    | with_reducible apply State.setFld_kept
    | with_reducible apply VCtx.next_kept
    | with_reducible apply State.onLink_kept
    | with_reducible apply State.bringTo_kept
    | with_reducible apply State.linkFails_kept
    | with_reducible apply Kept.foldl
    | with_reducible apply Kept.foldlFst
    | with_reducible apply Site.foldl_canonical
    | with_reducible apply Site.setFld_canonical
    | exact fun _ k => k
    | split
    | intro

theorem State.mapLanes_kept {s₀ s : State} (hk : Kept s₀ s) {i l : Nat} {lanes : List LaneObs} :
    Kept s₀ (State.mapLanes s i l lanes) := by
  unfold State.mapLanes
  (try dsimp only)
  repeat' first
    | with_reducible assumption
    | with_reducible apply State.setFld_kept
    | with_reducible apply State.linkRecord_kept
    | with_reducible apply State.layLanes_kept
    | with_reducible apply Site.setFld_canonical
    | exact fun _ k => k
    | split
    | intro

theorem State.linkStarts_kept {s₀ s : State} (hk : Kept s₀ s) {i l : Nat} {cr : CreditGrant} {rtt : Nat} :
    Kept s₀ (State.linkStarts s i l cr rtt) := by
  unfold State.linkStarts
  (try dsimp only)
  repeat' first
    | with_reducible assumption
    | with_reducible apply State.setFld_kept
    | with_reducible apply State.raiseSrc_kept
    | with_reducible apply State.onLink_kept
    | with_reducible apply State.drain_kept
    | with_reducible apply State.linkRecord_kept
    | with_reducible apply State.resendFrom_kept
    | with_reducible apply Site.setFld_canonical
    | exact fun _ k => k
    | split
    | intro

theorem State.d2dRecord_kept {s₀ s : State} (hk : Kept s₀ s) {i j : Nat} :
    Kept s₀ (State.d2dRecord s i j) := by
  unfold State.d2dRecord
  (try dsimp only)
  repeat' first
    | with_reducible assumption
    | with_reducible apply State.raiseSrc_kept
    | with_reducible apply State.report_kept
    | exact fun _ k => k
    | split
    | intro

theorem State.setD2d_kept {s₀ s : State} (hk : Kept s₀ s) {i j st : Nat} {modules : BitVec 4} {peer : Nat} :
    Kept s₀ (State.setD2d s i j st modules peer) := by
  unfold State.setD2d
  (try dsimp only)
  repeat' first
    | with_reducible assumption
    | with_reducible apply State.setFld_kept
    | with_reducible apply Site.setFld_canonical
    | exact fun _ k => k
    | split
    | intro

theorem State.trainD2d_kept {s₀ s : State} (hk : Kept s₀ s) {i j : Nat} {r : D2dReport} :
    Kept s₀ (State.trainD2d s i j r) := by
  unfold State.trainD2d
  (try dsimp only)
  repeat' first
    | with_reducible assumption
    | with_reducible apply State.setFld_kept
    | with_reducible apply State.raiseSrc_kept
    | with_reducible apply State.d2dRecord_kept
    | with_reducible apply State.setD2d_kept
    | with_reducible apply Site.setFld_canonical
    | exact fun _ k => k
    | split
    | intro

theorem Site.setRoute_canonical {t : Site} (hk : t.canonical) {d : Nat} {hi : W32} :
    (Site.setRoute t d hi).canonical := by
  unfold Site.setRoute
  (try dsimp only)
  repeat' first
    | with_reducible assumption
    | exact hk
    | with_reducible apply Site.setReg_canonical
    | exact fun _ k => k
    | split
    | intro

theorem State.forwardNear_kept {s₀ s : State} (hk : Kept s₀ s) {i : Nat} {p : Pkt} :
    Kept s₀ (State.forwardNear s i p) := by
  unfold State.forwardNear
  (try dsimp only)
  repeat' first
    | with_reducible assumption
    | with_reducible apply State.onNet_kept
    | with_reducible apply State.bump_kept
    | with_reducible apply State.dropped_kept
    | with_reducible apply State.handOff_kept
    | with_reducible apply Site.bump_canonical
    | exact fun _ k => k
    | split
    | intro

theorem State.arrive_kept {s₀ s : State} (hk : Kept s₀ s) {i type : Nat} {p : Pkt} {run : State → Hdr → State}
    (hr : ∀ t h, Kept s₀ t → Kept s₀ (run t h)) : Kept s₀ (s.arrive i type p run) := by
  unfold State.arrive
  dsimp only
  repeat' first
    | with_reducible exact hk
    | with_reducible apply hr
    | with_reducible apply State.raiseSrc_kept
    | with_reducible apply State.report_kept
    | with_reducible apply State.dropped_kept
    | with_reducible apply State.forwardNear_kept
    | with_reducible apply State.inject_kept
    | with_reducible apply State.onNet_kept
    | split

theorem atomicPacket_kept {s₀ : State} {i : Nat} {h : Hdr} {b : Bytes} {n : Nat} :
    ∀ {k : Nat} {s t : State} {r : Except W16 Nat}, Kept s₀ s → atomicPacket i h b n k s = some (r, t) → Kept s₀ t := by
  induction n with
  | zero =>
    intro k s t r hk e
    cases e
    exact hk
  | succ n ih =>
    intro k s t r hk e
    unfold atomicPacket at e
    dsimp only at e
    split at e
    · have w := State.atomicWord_kept hk ‹_›
      split at e
      · cases e
        exact w
      · exact ih w e
    · exact State.atomicWord_kept hk e

theorem State.closeTxn_kept {s₀ s : State} (hk : Kept s₀ s) {i num : Nat} :
    Kept s₀ (State.closeTxn s i num) := by
  unfold State.closeTxn
  (try dsimp only)
  repeat' first
    | with_reducible assumption
    | with_reducible apply State.onNet_kept
    | with_reducible apply State.rerouteDown_kept
    | exact fun _ k => k
    | split
    | intro

theorem State.pumpSlice_kept {s₀ s : State} (hk : Kept s₀ s) {v : Nat} :
    Kept s₀ (State.pumpSlice s v) := by
  unfold State.pumpSlice
  (try dsimp only)
  repeat' first
    | with_reducible assumption
    | with_reducible apply State.pump_kept
    | with_reducible apply Kept.foldl
    | with_reducible apply Kept.foldlFst
    | with_reducible apply Site.foldl_canonical
    | exact fun _ k => k
    | split
    | intro

theorem State.matchTxn_kept {s₀ s : State} (hk : Kept s₀ s) {i : Nat} {h : Hdr} {kinds : List TxnKind}
    {run : State → Txn → State} (hr : ∀ t x, Kept s₀ t → Kept s₀ (run t x)) :
    Kept s₀ (s.matchTxn i h kinds run) := by
  unfold State.matchTxn
  dsimp only
  repeat' first
    | with_reducible exact hk
    | with_reducible apply hr
    | with_reducible apply State.dropped_kept
    | with_reducible apply State.pumpSlice_kept
    | with_reducible apply State.settle_kept
    | with_reducible apply State.closeTxn_kept
    | split

theorem State.requestFails_kept {s₀ s : State} (hk : Kept s₀ s) {c : CmdRef} {x : Txn} {st : W16} :
    Kept s₀ (State.requestFails s c x st) := by
  unfold State.requestFails
  (try dsimp only)
  repeat' first
    | with_reducible assumption
    | with_reducible apply State.onCmd_kept
    | with_reducible apply VCtx.branch_kept
    | with_reducible apply State.failAccess_kept
    | with_reducible apply State.noteBranch_kept
    | with_reducible apply State.branchFails_kept
    | with_reducible apply Cluster.write_canonical
    | exact fun _ k => k
    | split
    | intro

theorem State.gotFab_kept {s₀ s : State} (hk : Kept s₀ s) {c : CmdRef} {x : Txn} {bs : Bytes} :
    Kept s₀ (State.gotFab s c x bs) := by
  unfold State.gotFab
  (try dsimp only)
  repeat' first
    | with_reducible assumption
    | with_reducible apply State.onCmd_kept
    | exact fun _ k => k
    | split
    | intro

theorem State.tookRead_kept {s₀ s : State} (hk : Kept s₀ s) {i : Nat} {h : Hdr} {x : Txn} {payload : Bytes} :
    Kept s₀ (State.tookRead s i h x payload) := by
  unfold State.tookRead
  (try dsimp only)
  repeat' first
    | with_reducible assumption
    | with_reducible apply State.fillFrame_kept
    | with_reducible apply State.requestFails_kept
    | with_reducible apply State.gotFab_kept
    | with_reducible apply Cluster.fill_canonical
    | exact fun _ k => k
    | split
    | intro

theorem State.acked_kept {s₀ s : State} (hk : Kept s₀ s) {h : Hdr} {x : Txn} :
    Kept s₀ (State.acked s h x) := by
  unfold State.acked
  (try dsimp only)
  repeat' first
    | with_reducible assumption
    | with_reducible apply State.requestFails_kept
    | exact fun _ k => k
    | split
    | intro

theorem State.tookAtomic_kept {s₀ s : State} (hk : Kept s₀ s) {h : Hdr} {x : Txn} {payload : Bytes} :
    Kept s₀ (State.tookAtomic s h x payload) := by
  unfold State.tookAtomic
  (try dsimp only)
  repeat' first
    | with_reducible assumption
    | with_reducible apply State.requestFails_kept
    | with_reducible apply State.gotFab_kept
    | exact fun _ k => k
    | split
    | intro

theorem State.tookFence_kept {s₀ s : State} (hk : Kept s₀ s) {i : Nat} {h : Hdr} {x : Txn} :
    Kept s₀ (State.tookFence s i h x) := by
  unfold State.tookFence
  (try dsimp only)
  repeat' first
    | with_reducible assumption
    | with_reducible apply State.onCmd_kept
    | with_reducible apply State.event_kept
    | with_reducible apply State.requestFails_kept
    | exact fun _ k => k
    | split
    | intro

theorem State.takeWork_kept {s₀ s : State} (hk : Kept s₀ s) {i v : Nat} {q : Pkt} {b : Bytes} :
    Kept s₀ (State.takeWork s i v q b) := by
  unfold State.takeWork
  (try dsimp only)
  repeat' first
    | with_reducible assumption
    | with_reducible apply State.onStream_kept
    | exact fun _ k => k
    | split
    | intro

theorem State.abortFar_kept {s₀ s : State} (hk : Kept s₀ s) {v : Nat} {b : Bytes} :
    Kept s₀ (State.abortFar s v b) := by
  unfold State.abortFar
  (try dsimp only)
  repeat' first
    | with_reducible assumption
    | with_reducible apply State.endWith_kept
    | exact fun _ k => k
    | split
    | intro

theorem State.eventFrom_kept {s₀ s : State} (hk : Kept s₀ s) {v : Nat} {b : Bytes} :
    Kept s₀ (State.eventFrom s v b) := by
  unfold State.eventFrom
  (try dsimp only)
  repeat' first
    | with_reducible assumption
    | with_reducible apply State.postHere_kept
    | exact fun _ k => k
    | split
    | intro

theorem State.faultFrom_kept {s₀ s : State} (hk : Kept s₀ s) {i v : Nat} {b : Bytes} :
    Kept s₀ (State.faultFrom s i v b) := by
  unfold State.faultFrom
  (try dsimp only)
  repeat' first
    | with_reducible assumption
    | with_reducible apply State.onCmd_kept
    | with_reducible apply VCtx.fault_kept
    | with_reducible refine State.openFault_kept ?_ ‹_›
    | exact fun _ k => k
    | split
    | intro

theorem State.resolveFar_kept {s₀ s : State} (hk : Kept s₀ s) {v : Nat} {b : Bytes} :
    Kept s₀ (State.resolveFar s v b) := by
  unfold State.resolveFar
  (try dsimp only)
  repeat' first
    | with_reducible assumption
    | with_reducible apply State.onCmd_kept
    | with_reducible apply VCtx.fault_kept
    | with_reducible apply State.failAccess_kept
    | exact fun _ k => k
    | split
    | intro

theorem State.objectHere_kept {s₀ s t : State} (hk : Kept s₀ s) {v : Nat} {o : Obj} {x : Nat}
    (e : State.objectHere s v o = .ok (t, x)) : Kept s₀ t := by
  revert e
  unfold State.objectHere
  (try dsimp only)
  repeat' first
    | with_reducible assumption
    | contradiction
    | with_reducible apply State.onSp_kept
    | with_reducible refine State.drawObject_kept ?_ ‹_›
    | exact fun _ k => k
    | split
    | (intro e; cases e)
    | intro

theorem State.replicaFrom_kept {s₀ s : State} (hk : Kept s₀ s) {i v : Nat} {q : Pkt} {b : Bytes} :
    Kept s₀ (State.replicaFrom s i v q b) := by
  unfold State.replicaFrom
  (try dsimp only)
  repeat' first
    | with_reducible assumption
    | with_reducible apply State.onStream_kept
    | with_reducible apply State.respond_kept
    | with_reducible apply State.invalidate_kept
    | with_reducible apply State.withdraw_kept
    | with_reducible apply State.tableChange_kept
    | with_reducible refine State.tableChange_kept' ?_ ‹_›
    | with_reducible apply State.tableLater_kept
    | with_reducible apply State.released_kept
    | with_reducible refine State.objectHere_kept ?_ ‹_›
    | exact fun _ k => k
    | split
    | intro

theorem State.killFar_kept {s₀ s : State} (hk : Kept s₀ s) {v ctx : Nat} :
    Kept s₀ (State.killFar s v ctx) := by
  unfold State.killFar
  (try dsimp only)
  repeat' first
    | with_reducible assumption
    | with_reducible apply State.killCmd_kept
    | with_reducible apply Kept.foldl
    | with_reducible apply Kept.foldlFst
    | with_reducible apply Site.foldl_canonical
    | exact fun _ k => k
    | split
    | intro

theorem State.tookControl_kept {s₀ s : State} (hk : Kept s₀ s) {i v : Nat} {p : Pkt} :
    Kept s₀ (State.tookControl s i v p) := by
  unfold State.tookControl
  (try dsimp only)
  repeat' first
    | with_reducible assumption
    | with_reducible apply State.respond_kept
    | with_reducible apply State.takeWork_kept
    | with_reducible apply State.abortFar_kept
    | with_reducible apply State.eventFrom_kept
    | with_reducible apply State.faultFrom_kept
    | with_reducible apply State.resolveFar_kept
    | with_reducible apply State.replicaFrom_kept
    | with_reducible apply State.killFar_kept
    | exact fun _ k => k
    | split
    | intro

theorem State.completeFar_kept {s₀ s : State} (hk : Kept s₀ s) {i : Nat} {b : Bytes} :
    Kept s₀ (State.completeFar s i b) := by
  unfold State.completeFar
  (try dsimp only)
  repeat' first
    | with_reducible assumption
    | with_reducible apply State.onCmd_kept
    | with_reducible apply State.onNet_kept
    | with_reducible apply State.dropped_kept
    | with_reducible apply State.leaveFault_kept
    | exact fun _ k => k
    | split
    | intro

theorem State.replicaAnswered_kept {s₀ s : State} (hk : Kept s₀ s) {x : Txn} {c : CmdRef} {st : W16} {b : Bytes} :
    Kept s₀ (State.replicaAnswered s x c st b) := by
  unfold State.replicaAnswered
  (try dsimp only)
  repeat' first
    | with_reducible assumption
    | with_reducible apply State.onSp_kept
    | with_reducible apply State.control_kept
    | with_reducible apply State.failAccess_kept
    | with_reducible apply Kept.foldl
    | with_reducible apply Kept.foldlFst
    | with_reducible apply Site.foldl_canonical
    | exact fun _ k => k
    | split
    | intro

theorem State.tookControlAck_kept {s₀ s : State} (hk : Kept s₀ s) {i : Nat} {h : Hdr} {x : Txn} {payload : Bytes} :
    Kept s₀ (State.tookControlAck s i h x payload) := by
  unfold State.tookControlAck
  (try dsimp only)
  repeat' first
    | with_reducible assumption
    | with_reducible apply VCtx.branch_kept
    | with_reducible apply State.completeFar_kept
    | with_reducible apply State.replicaAnswered_kept
    | exact fun _ k => k
    | split
    | intro

theorem State.txnLost_kept {s₀ s : State} (hk : Kept s₀ s) {i : Nat} {x : Txn} :
    Kept s₀ (State.txnLost s i x) := by
  unfold State.txnLost
  (try dsimp only)
  repeat' first
    | with_reducible assumption
    | with_reducible apply State.onCmd_kept
    | with_reducible apply State.bump_kept
    | with_reducible apply VCtx.branch_kept
    | with_reducible apply State.request_kept
    | with_reducible apply State.settle_kept
    | with_reducible apply State.control_kept
    | with_reducible apply State.closeTxn_kept
    | with_reducible apply State.pumpSlice_kept
    | with_reducible apply State.requestFails_kept
    | with_reducible apply Site.bump_canonical
    | with_reducible apply Cluster.write_canonical
    | exact fun _ k => k
    | split
    | intro

theorem State.fwdLost_kept {s₀ s : State} (hk : Kept s₀ s) {i : Nat} {f : Fwd} :
    Kept s₀ (State.fwdLost s i f) := by
  unfold State.fwdLost
  (try dsimp only)
  repeat' first
    | with_reducible assumption
    | with_reducible apply State.onCmd_kept
    | with_reducible apply State.onNet_kept
    | with_reducible apply State.control_kept
    | with_reducible apply State.endWith_kept
    | with_reducible apply State.closeTxn_kept
    | exact fun _ k => k
    | split
    | intro

end Sys2Proof.Machine
end

