-- ==== Sys2Proof/Laws/KeptF.lean ====
section
/-! SUPPORT. The operations of Irq, Slices, Reset, Attest, Manage keep what every command keeps. -/

set_option linter.unusedVariables false

namespace Sys2Proof.Machine

theorem State.boxRefuses_kept {s₀ s : State} (hk : Kept s₀ s) {i m : Nat} {agent : Byte} :
    Kept s₀ (State.boxRefuses s i m agent) := by
  unfold State.boxRefuses
  (try dsimp only)
  repeat' first
    | with_reducible assumption
    | with_reducible apply State.bump_kept
    | with_reducible apply Site.bump_canonical
    | exact fun _ k => k
    | split
    | intro

theorem State.freeBoxes_kept {s₀ s : State} (hk : Kept s₀ s) {i : Nat} {agent : Byte} :
    Kept s₀ (State.freeBoxes s i agent) := by
  unfold State.freeBoxes
  (try dsimp only)
  repeat' first
    | with_reducible assumption
    | with_reducible apply State.freeBox_kept
    | with_reducible apply State.flushReplies_kept
    | with_reducible apply Kept.foldl
    | with_reducible apply Kept.foldlFst
    | with_reducible apply Site.foldl_canonical
    | with_reducible apply Core.free_canonical
    | exact fun _ k => k
    | split
    | intro

theorem State.giveAddr_kept {s₀ s : State} (hk : Kept s₀ s) {i : Nat} {addr : BitVec 7} :
    Kept s₀ (State.giveAddr s i addr) := by
  unfold State.giveAddr
  (try dsimp only)
  repeat' first
    | with_reducible assumption
    | with_reducible apply State.onPins_kept
    | exact fun _ k => k
    | split
    | intro

theorem State.claimedPriv_kept {s₀ s : State} (hk : Kept s₀ s) {i proc n : Nat} :
    Kept s₀ (State.claimedPriv s i proc n) := by
  unfold State.claimedPriv
  (try dsimp only)
  repeat' first
    | with_reducible assumption
    | with_reducible apply State.onSite_kept
    | with_reducible apply State.onWatch_kept
    | with_reducible apply Kept.rd
    | with_reducible apply Site.setReg_canonical
    | exact fun _ k => k
    | split
    | intro

theorem State.claimedShared_kept {s₀ s : State} (hk : Kept s₀ s) {i n : Nat} :
    Kept s₀ (State.claimedShared s i n) := by
  unfold State.claimedShared
  (try dsimp only)
  repeat' first
    | with_reducible assumption
    | with_reducible apply State.onWatch_kept
    | with_reducible apply State.setFld_kept
    | with_reducible apply Kept.rd
    | with_reducible apply Site.setFld_canonical
    | exact fun _ k => k
    | split
    | intro

theorem State.onRings_kept {s₀ s : State} (hk : Kept s₀ s) {f : MgmtRings → MgmtRings} :
    Kept s₀ (State.onRings s f) := by
  unfold State.onRings
  (try dsimp only)
  repeat' first
    | with_reducible assumption
    | with_reducible apply State.onPart_kept
    | exact fun _ k => k
    | split
    | intro

theorem State.takeRequest_kept {s₀ s : State} (hk : Kept s₀ s) {r : MReq} {place : Option (Nat × Nat)} :
    Kept s₀ (State.takeRequest s r place) := by
  unfold State.takeRequest
  (try dsimp only)
  repeat' first
    | with_reducible assumption
    | with_reducible apply State.onPart_kept
    | with_reducible apply State.place_kept
    | with_reducible apply State.freeBox_kept
    | with_reducible apply State.onRings_kept
    | exact fun _ k => k
    | split
    | intro

theorem writeRec_kept {s₀ : State} {r : Rec} {id : Nat} {l : List Bytes} :
    ∀ {s : State}, Kept s₀ s → Kept s₀ (writeRec r id l s) := by
  induction l with
  | nil => exact fun h => h
  | cons b rest ih =>
    intro s h
    exact ih (State.onRings_kept (State.emit_kept h))

theorem Site.mapClusters {t u : Site} (h : t.canonical) {f : Cluster → Cluster}
    (hf : ∀ c, c.clm.wf = true → (f c).clm.wf = true) (e : u.cores = t.cores) (el : u.clusters = t.clusters.map f)
    (ef : u.fast = t.fast) (es : u.slow = t.slow) : u.canonical := by
  refine ⟨e ▸ h.1, ?_, e ▸ h.2.2.1, ?_, ef ▸ h.2.2.2.2.1, es ▸ h.2.2.2.2.2⟩
  · rw [el, List.length_map]
    exact h.2.1
  · rw [el]
    exact mem_map h.2.2.2.1 hf

theorem Site.sameMemories {t u : Site} (h : t.canonical) (e : u.cores = t.cores) (el : u.clusters = t.clusters)
    (ef : u.fast = t.fast) (es : u.slow = t.slow) : u.canonical :=
  ⟨e ▸ h.1, el ▸ h.2.1, e ▸ h.2.2.1, el ▸ h.2.2.2.1, ef ▸ h.2.2.2.2.1, es ▸ h.2.2.2.2.2⟩

theorem State.onCore_kept_from {s z : State} (h : Kept s z) {i p : Nat} {f : Core → Core}
    (hf : s.Inv → ∀ c, c.canonical → (f c).canonical) : Kept s (z.onCore i p f) :=
  ⟨h.1, h.2.1, h.2.2.1, fun k =>
    have g := h.2.2.2 k
    ⟨(List.length_modify _ _ _).trans g.1, g.2.1, mem_modify g.2.2 fun _ w => Site.onCore_canonical w (hf k)⟩⟩

theorem Mem.wf_clears {l : List Nat} {m : Mem} {f g : Nat → Nat} (h : m.wf = true) :
    Mem.wf (l.foldl (fun m k => m.clear (f k) (g k)) m) = true := Mem.wf_foldl h fun _ _ k => Mem.wf_clear k _ _

theorem State.relist_kept {s₀ s : State} (hk : Kept s₀ s) {v : Nat} : Kept s₀ (s.relist v) := by
  refine Kept.mapSites (State.onHold_kept hk) fun t k => ?_
  split
  · exact Site.sameMemories k rfl rfl rfl rfl
  · exact k

theorem Site.onSlot_canonical {t : Site} (hk : t.canonical) {n : Nat} {f : KeySlot → KeySlot} :
    (Site.onSlot t n f).canonical := by
  unfold Site.onSlot
  (try dsimp only)
  repeat' first
    | with_reducible assumption
    | exact hk
    | exact fun _ k => k
    | split
    | intro

theorem State.fillSlot_kept {s₀ s : State} (hk : Kept s₀ s) {i n slice gen : Nat} {secret : BitVec 256} :
    Kept s₀ (State.fillSlot s i n slice gen secret) := by
  unfold State.fillSlot
  (try dsimp only)
  repeat' first
    | with_reducible assumption
    | with_reducible apply State.onSite_kept
    | with_reducible apply Site.onSlot_canonical
    | exact fun _ k => k
    | split
    | intro

theorem State.drawSecret_kept {s₀ s : State} (hk : Kept s₀ s)  :
    Kept s₀ (State.drawSecret s).2 := by
  unfold State.drawSecret
  (try dsimp only)
  repeat' first
    | with_reducible assumption
    | with_reducible apply Kept.drawn
    | with_reducible apply Core.free_canonical
    | exact fun _ k => k
    | split
    | intro

theorem State.drawSecret_kept' {s₀ s t : State} (hk : Kept s₀ s)  {x : BitVec 256}
    (e : State.drawSecret s = (x, t)) : Kept s₀ t := by
  have k : Kept s₀ (State.drawSecret s).2 := State.drawSecret_kept hk
  rw [e] at k
  exact k

theorem State.shareKey_kept {s₀ s t : State} (hk : Kept s₀ s) {v i : Nat}
    (e : State.shareKey s v i = some t) : Kept s₀ t := by
  revert e
  unfold State.shareKey
  (try dsimp only)
  repeat' first
    | with_reducible assumption
    | contradiction
    | with_reducible apply State.fillSlot_kept
    | exact fun _ k => k
    | split
    | (intro e; cases e)
    | intro

theorem State.joinUnit_kept {s₀ s : State} (hk : Kept s₀ s) {v : Nat} {u : UnitBind} : Kept s₀ (s.joinUnit v u) := by
  unfold State.joinUnit
  split
  · exact hk
  · refine State.onUnit_kept hk fun x k => ?_
    split
    · exact k
    · split
      · exact fun y hy => nomatch hy
      · exact k

theorem State.zeroUnit_kept {s₀ s : State} (hk : Kept s₀ s) {i p : Nat} {q : Option Nat} :
    Kept s₀ (State.zeroUnit s i p q) := by
  unfold State.zeroUnit
  (try dsimp only)
  repeat' first
    | with_reducible assumption
    | with_reducible apply State.onSite_kept
    | with_reducible apply Site.wipe_canonical
    | with_reducible apply Site.zero_canonical
    | exact fun _ k => k
    | split
    | intro

theorem State.leaveGroup_kept {s₀ s : State} (hk : Kept s₀ s) {i p : Nat} {q : Option Nat} {v : Nat} :
    Kept s₀ (s.leaveGroup i p q v) := by
  unfold State.leaveGroup
  extract_lets +onlyGivenNames u gone
  have hg : s.Inv → gone.canonical := fun g x hx =>
    Core.unit_canonical (Site.core_canonical (g.site i) p) q x (List.mem_filter.mp hx).1
  split
  · exact hk
  · split
    · extract_lets +onlyGivenNames others next z
      have key : Kept s z := by
        unfold z
        cases next with
        | some _ => exact State.onSite_kept (Kept.refl s) fun t k =>
            Site.onCore_canonical (Site.wipe_canonical k) fun _ w => Core.zeroBanks_canonical w
        | none => exact State.zeroUnit_kept (Kept.refl s)
      refine hk.trans ?_
      refine State.onCore_kept_from key fun g c k => Core.onUnits k fun _ _ => ?_
      split
      · exact fun y hy => nomatch hy
      · exact hg g
    · exact State.onCore_kept_inv hk fun g c k => Core.onUnits k fun _ _ => hg g

theorem State.freeSave_kept {s₀ s : State} (hk : Kept s₀ s) {u : UnitBind} :
    Kept s₀ (State.freeSave s u) := by
  unfold State.freeSave
  (try dsimp only)
  repeat' first
    | with_reducible assumption
    | with_reducible apply State.onSite_kept
    | with_reducible apply Kept.foldl
    | with_reducible apply Kept.foldlFst
    | with_reducible apply Site.foldl_canonical
    | with_reducible apply Site.freePage_canonical
    | exact fun _ k => k
    | split
    | intro

theorem State.dropUnit_kept {s₀ s : State} (hk : Kept s₀ s) {v : Nat} {u : UnitBind} :
    Kept s₀ (State.dropUnit s v u) := by
  unfold State.dropUnit
  (try dsimp only)
  repeat' first
    | with_reducible assumption
    | with_reducible apply State.onHold_kept
    | with_reducible apply State.leaveGroup_kept
    | with_reducible apply State.freeSave_kept
    | exact fun _ k => k
    | split
    | intro

theorem State.drainSlot_kept {s₀ s : State} (hk : Kept s₀ s) {i v : Nat} : Kept s₀ (s.drainSlot i v) := by
  unfold State.drainSlot
  dsimp only
  refine State.onSite_kept (Kept.foldl (State.onSite_kept (State.onNet_kept (State.dropFrames_kept (State.bump_kept
    (State.abandonMoves_kept hk)))) fun t k => ?_) fun s u k => ?_) fun t k => Site.onSlot_canonical k
  · exact Site.mapClusters k (f := fun c => { c with windows := c.windows.filter fun w => decide (w.slice ≠ v) })
      (fun _ w => w) rfl rfl rfl rfl
  · split
    · exact State.leaveGroup_kept k
    · exact k

theorem State.destroySlot_kept {s₀ s : State} (hk : Kept s₀ s) {i n : Nat} :
    Kept s₀ (State.destroySlot s i n) := by
  unfold State.destroySlot
  (try dsimp only)
  repeat' first
    | with_reducible assumption
    | with_reducible apply State.onSite_kept
    | with_reducible apply Core.free_canonical
    | with_reducible apply Site.onSlot_canonical
    | exact fun _ k => k
    | split
    | intro

theorem State.killSlice_kept {s₀ s : State} (hk : Kept s₀ s) {v : Nat} :
    Kept s₀ (State.killSlice s v) := by
  unfold State.killSlice
  (try dsimp only)
  repeat' first
    | with_reducible assumption
    | with_reducible apply State.killContext_kept
    | with_reducible apply Kept.foldl
    | with_reducible apply Kept.foldlFst
    | with_reducible apply Site.foldl_canonical
    | exact fun _ k => k
    | split
    | intro

theorem State.zeroPages_kept {s₀ s : State} (hk : Kept s₀ s) {v : Nat} : Kept s₀ (s.zeroPages v) := by
  unfold State.zeroPages
  dsimp only
  exact hk.mapSites fun t k => Site.onTier_canonical (Site.onTier_canonical k fun r w => Mem.wf_clears w)
    fun r w => Mem.wf_clears w

theorem State.clearUnits_kept {s₀ s : State} (hk : Kept s₀ s) {v : Nat} : Kept s₀ (s.clearUnits v) := by
  unfold State.clearUnits
  dsimp only
  refine (Kept.foldl hk fun s u k => ?_).mapSites fun t k => ?_
  · split
    · split
      · exact State.zeroUnit_kept k
      · exact State.onUnit_kept k fun u w x hx => w x (List.mem_filter.mp hx).1
    · exact k
  · exact Site.mapClusters k (fun c w => Mem.wf_clears w) rfl rfl rfl rfl

theorem State.freePages_kept {s₀ s : State} (hk : Kept s₀ s) {v : Nat} :
    Kept s₀ (State.freePages s v) := by
  unfold State.freePages
  (try dsimp only)
  repeat' first
    | with_reducible assumption
    | with_reducible apply Kept.foldl
    | with_reducible apply Kept.foldlFst
    | with_reducible apply Kept.mapSites
    | with_reducible apply Site.foldl_canonical
    | with_reducible apply Site.onTier_canonical
    | with_reducible apply Site.freePage_canonical
    | exact fun _ k => k
    | split
    | intro

theorem Site.forget_canonical {t : Site} (hk : t.canonical) {v : Nat} : (t.forget v).canonical :=
  Site.mapClusters hk (f := fun c => { c with
    alloc := c.alloc.map fun x => if x = .scratch v ∨ x = .cache v then .free else x }) (fun _ w => w) rfl rfl rfl rfl

theorem State.freeSlice_kept {s₀ s : State} (hk : Kept s₀ s) {v : Nat} :
    Kept s₀ (State.freeSlice s v) := by
  unfold State.freeSlice
  (try dsimp only)
  repeat' first
    | with_reducible assumption
    | with_reducible apply State.onVd_kept
    | with_reducible apply State.onPart_kept
    | with_reducible apply State.dropUnit_kept
    | with_reducible apply State.freePages_kept
    | with_reducible apply Kept.foldl
    | with_reducible apply Kept.foldlFst
    | with_reducible apply Kept.mapSites
    | with_reducible apply Site.foldl_canonical
    | with_reducible apply Site.forget_canonical
    | exact fun _ k => k
    | split
    | intro

theorem State.newSecret_kept {s₀ s : State} (hk : Kept s₀ s) {v : Nat} :
    Kept s₀ (State.newSecret s v) := by
  unfold State.newSecret
  (try dsimp only)
  repeat' first
    | with_reducible assumption
    | with_reducible apply State.relist_kept
    | with_reducible apply State.fillSlot_kept
    | with_reducible apply State.drawSecret_kept
    | with_reducible refine State.drawSecret_kept' ?_ ‹_›
    | with_reducible apply Kept.foldl
    | with_reducible apply Kept.foldlFst
    | with_reducible apply Site.foldl_canonical
    | exact fun _ k => k
    | split
    | intro

theorem State.release_kept {s₀ s : State} (hk : Kept s₀ s) {v : Nat} {r : Removal} {sites : List Nat} :
    Kept s₀ (State.release s v r sites) := by
  unfold State.release
  (try dsimp only)
  repeat' first
    | with_reducible assumption
    | with_reducible apply State.onVd_kept
    | with_reducible apply State.bump_kept
    | with_reducible apply State.reply_kept
    | with_reducible apply State.joinUnit_kept
    | with_reducible apply State.freePages_kept
    | with_reducible apply State.freeSlice_kept
    | with_reducible apply State.newSecret_kept
    | with_reducible apply Kept.foldl
    | with_reducible apply Kept.foldlFst
    | with_reducible apply Site.foldl_canonical
    | with_reducible apply Site.bump_canonical
    | exact fun _ k => k
    | split
    | intro

theorem State.tdiError_kept {s₀ s : State} (hk : Kept s₀ s) {v : Nat} :
    Kept s₀ (State.tdiError s v) := by
  unfold State.tdiError
  (try dsimp only)
  repeat' first
    | with_reducible assumption
    | with_reducible apply State.onVd_kept
    | with_reducible apply SCtx.run_kept
    | with_reducible apply State.killSlice_kept
    | exact fun _ k => k
    | split
    | intro

theorem State.onDom_kept {s₀ s : State} (hk : Kept s₀ s) {i u : Nat} {f : Dom → Dom} :
    Kept s₀ (State.onDom s i u f) := by
  unfold State.onDom
  (try dsimp only)
  repeat' first
    | with_reducible assumption
    | with_reducible apply State.onWatch_kept
    | exact fun _ k => k
    | split
    | intro

theorem State.crashRecord_kept {s₀ s : State} (hk : Kept s₀ s) {i u cause : Nat} {hung : Option Nat} {ctxs : List (Nat × Nat)} :
    Kept s₀ (State.crashRecord s i u cause hung ctxs) := by
  unfold State.crashRecord
  (try dsimp only)
  repeat' first
    | with_reducible assumption
    | with_reducible apply State.report_kept
    | with_reducible apply Core.free_canonical
    | exact fun _ k => k
    | split
    | intro

theorem State.joinCrash_kept {s₀ s : State} (hk : Kept s₀ s) {i u cause : Nat} :
    Kept s₀ (State.joinCrash s i u cause) := by
  unfold State.joinCrash
  (try dsimp only)
  repeat' first
    | with_reducible assumption
    | with_reducible apply State.onWatch_kept
    | exact fun _ k => k
    | split
    | intro

theorem Site.resetRegs_canonical {t : Site} (hk : t.canonical) {lo hi : Nat} {keepReg : Nat → Bool} :
    (Site.resetRegs t lo hi keepReg).canonical := by
  unfold Site.resetRegs
  (try dsimp only)
  repeat' first
    | with_reducible assumption
    | exact hk
    | exact fun _ k => k
    | split
    | intro

theorem Site.resetCore_canonical {t : Site} (hk : t.canonical) {p : Nat} : (t.resetCore p).canonical := by
  have h : ((t.wipe p none).onCore p fun c => { c with
      pendQuad := none, units := c.units.map fun u => { u with preempt := none } }).canonical :=
    Site.onCore_canonical (Site.wipe_canonical hk) fun c k => ⟨k.1, k.2.1, mem_map k.2.2 fun _ w => w⟩
  exact Site.resetRegs_canonical h

theorem Site.resetCluster_canonical {t : Site} (hk : t.canonical) {c : Nat} :
    (Site.resetCluster t c).canonical := by
  unfold Site.resetCluster
  (try dsimp only)
  repeat' first
    | with_reducible assumption
    | exact hk
    | with_reducible apply Site.onCluster_canonical
    | with_reducible apply Site.resetRegs_canonical
    | exact fun _ k => k
    | split
    | intro

theorem Site.resetPort_canonical {t : Site} (hk : t.canonical) {p : Nat} :
    (Site.resetPort t p).canonical := by
  unfold Site.resetPort
  (try dsimp only)
  repeat' first
    | with_reducible assumption
    | exact hk
    | with_reducible apply Site.setFld_canonical
    | with_reducible apply Site.resetRegs_canonical
    | exact fun _ k => k
    | split
    | intro

theorem Site.resetD2d_canonical {t : Site} (hk : t.canonical) {j : Nat} :
    (Site.resetD2d t j).canonical := by
  unfold Site.resetD2d
  (try dsimp only)
  repeat' first
    | with_reducible assumption
    | exact hk
    | with_reducible apply Site.setFld_canonical
    | with_reducible apply Site.resetRegs_canonical
    | exact fun _ k => k
    | split
    | intro

theorem Site.resetGroup_canonical {t : Site} (hk : t.canonical) : t.resetGroup.canonical := by
  unfold Site.resetGroup
  extract_lets +onlyGivenNames kept t1 t2 n t3
  have h1 : t1.canonical := Site.resetRegs_canonical (Site.resetRegs_canonical (Site.resetRegs_canonical hk))
  have h2 : t2.canonical := Site.resetRegs_canonical h1
  have h3 : t3.canonical := Site.sameMemories h2 rfl rfl rfl rfl
  exact Site.foldl_canonical h3 fun t a k => Site.setFld_canonical k

theorem Site.resetFront_canonical {t : Site} (hk : t.canonical)  :
    (Site.resetFront t).canonical := by
  unfold Site.resetFront
  (try dsimp only)
  repeat' first
    | with_reducible assumption
    | exact hk
    | with_reducible apply Site.resetRegs_canonical
    | exact fun _ k => k
    | split
    | intro

theorem State.resetHost_kept {s₀ s : State} (hk : Kept s₀ s) {i : Nat} :
    Kept s₀ (State.resetHost s i) := by
  unfold State.resetHost
  (try dsimp only)
  repeat' first
    | with_reducible assumption
    | with_reducible apply State.onSite_kept
    | with_reducible apply State.onVd_kept
    | with_reducible apply State.freeBoxes_kept
    | with_reducible apply State.onRings_kept
    | with_reducible apply State.tdiError_kept
    | with_reducible apply Kept.foldl
    | with_reducible apply Kept.foldlFst
    | with_reducible apply Site.foldl_canonical
    | with_reducible apply Site.resetRegs_canonical
    | exact fun _ k => k
    | split
    | intro

theorem State.assertDom_kept {s₀ s : State} (hk : Kept s₀ s) {i u : Nat} :
    Kept s₀ (State.assertDom s i u) := by
  unfold State.assertDom
  (try dsimp only)
  repeat' first
    | with_reducible assumption
    | with_reducible apply State.onSite_kept
    | with_reducible apply State.onFe_kept
    | with_reducible apply State.dropFrames_kept
    | with_reducible apply State.killCmd_kept
    | with_reducible apply State.abandonMoves_kept
    | with_reducible apply State.freeBoxes_kept
    | with_reducible apply State.resetHost_kept
    | with_reducible apply Kept.foldl
    | with_reducible apply Kept.foldlFst
    | with_reducible apply Site.foldl_canonical
    | with_reducible apply Site.resetCore_canonical
    | with_reducible apply Site.resetCluster_canonical
    | with_reducible apply Site.resetPort_canonical
    | with_reducible apply Site.resetD2d_canonical
    | with_reducible apply Site.resetGroup_canonical
    | with_reducible apply Site.resetFront_canonical
    | exact fun _ k => k
    | split
    | intro

theorem State.strike_kept {s₀ s : State} (hk : Kept s₀ s) {i u : Nat} :
    Kept s₀ (State.strike s i u) := by
  unfold State.strike
  (try dsimp only)
  repeat' first
    | with_reducible assumption
    | with_reducible apply State.setFld_kept
    | with_reducible apply State.assertDom_kept
    | with_reducible apply Site.setFld_canonical
    | exact fun _ k => k
    | split
    | intro

theorem State.resetRecord_kept {s₀ s : State} (hk : Kept s₀ s) {i u event : Nat} :
    Kept s₀ (State.resetRecord s i u event) := by
  unfold State.resetRecord
  (try dsimp only)
  repeat' first
    | with_reducible assumption
    | with_reducible apply State.report_kept
    | with_reducible apply State.event_kept
    | exact fun _ k => k
    | split
    | intro

theorem State.resetDomain_kept {s₀ s : State} (hk : Kept s₀ s) {i u cause : Nat} {hung : Option Nat} :
    Kept s₀ (State.resetDomain s i u cause hung) := by
  unfold State.resetDomain
  (try dsimp only)
  repeat' first
    | with_reducible assumption
    | with_reducible apply State.bump_kept
    | with_reducible apply State.killContext_kept
    | with_reducible apply State.onDom_kept
    | with_reducible apply State.crashRecord_kept
    | with_reducible apply State.joinCrash_kept
    | with_reducible apply State.strike_kept
    | with_reducible apply State.resetRecord_kept
    | with_reducible apply Kept.foldl
    | with_reducible apply Kept.foldlFst
    | with_reducible apply Site.foldl_canonical
    | with_reducible apply Site.bump_canonical
    | exact fun _ k => k
    | split
    | intro

theorem Core.steer_canonical {c : Core} (hk : c.canonical) : c.steer.canonical :=
  Core.foldl_canonical hk fun c r k => by
    split
    · exact k
    · exact ⟨k.1, k.2.1, k.2.2⟩

theorem State.releaseDom_kept {s₀ s : State} (hk : Kept s₀ s) {i u : Nat} :
    Kept s₀ (State.releaseDom s i u) := by
  unfold State.releaseDom
  (try dsimp only)
  repeat' first
    | with_reducible assumption
    | with_reducible apply State.onNet_kept
    | with_reducible apply State.setFld_kept
    | with_reducible apply State.onCore_kept
    | with_reducible apply Kept.foldl
    | with_reducible apply Kept.foldlFst
    | with_reducible apply Site.foldl_canonical
    | with_reducible apply Site.onCore_canonical
    | with_reducible apply Site.setFld_canonical
    | with_reducible apply Core.steer_canonical
    | exact fun _ k => k
    | split
    | intro

theorem Site.setMask_canonical {t : Site} (hk : t.canonical) {f : Nat × Nat} {p : Nat} {on : Bool} :
    (Site.setMask t f p on).canonical := by
  unfold Site.setMask
  (try dsimp only)
  repeat' first
    | with_reducible assumption
    | exact hk
    | with_reducible apply Site.setFld_canonical
    | exact fun _ k => k
    | split
    | intro

theorem State.rewrite_kept {s₀ s : State} (hk : Kept s₀ s) {i cls : Nat} :
    Kept s₀ (State.rewrite s i cls) := by
  unfold State.rewrite
  (try dsimp only)
  repeat' first
    | with_reducible assumption
    | with_reducible apply State.onSite_kept
    | with_reducible apply Kept.drawn
    | with_reducible apply Core.free_canonical
    | exact fun _ k => k
    | split
    | intro

theorem Site.loseCore_canonical {t : Site} (hk : t.canonical) {p : Nat} :
    (Site.loseCore t p).canonical := by
  unfold Site.loseCore
  (try dsimp only)
  repeat' first
    | with_reducible assumption
    | exact hk
    | with_reducible apply Site.setMask_canonical
    | exact fun _ k => k
    | split
    | intro

theorem State.forceUnbind_kept {s₀ s : State} (hk : Kept s₀ s) {v : Nat} {u : UnitBind} :
    Kept s₀ (State.forceUnbind s v u) := by
  unfold State.forceUnbind
  (try dsimp only)
  repeat' first
    | with_reducible assumption
    | with_reducible apply State.onStream_kept
    | with_reducible apply State.killContext_kept
    | with_reducible apply State.dropUnit_kept
    | with_reducible apply Kept.foldl
    | with_reducible apply Kept.foldlFst
    | with_reducible apply Site.foldl_canonical
    | with_reducible apply Core.free_canonical
    | exact fun _ k => k
    | split
    | intro

theorem State.holdOut_kept {s₀ s : State} (hk : Kept s₀ s) {i : Nat} :
    Kept s₀ (State.holdOut s i) := by
  unfold State.holdOut
  (try dsimp only)
  repeat' first
    | with_reducible assumption
    | with_reducible apply State.onSite_kept
    | with_reducible apply State.killContext_kept
    | with_reducible apply Kept.foldl
    | with_reducible apply Kept.foldlFst
    | with_reducible apply Site.foldl_canonical
    | exact fun _ k => k
    | split
    | intro

theorem State.vacate_kept {s₀ s : State} (hk : Kept s₀ s) {i p : Nat} : Kept s₀ (s.vacate i p) := by
  unfold State.vacate
  extract_lets +onlyGivenNames s1 s2 g s3
  have h1 : Kept s₀ s1 := Kept.foldl hk fun s a k => by
    obtain ⟨v, u⟩ := a
    exact State.forceUnbind_kept k
  have h2 : Kept s₀ s2 := by
    unfold s2
    split
    · exact State.setFld_kept h1
    · exact h1
  have h3 : Kept s₀ s3 := State.setFld_kept h2
  split
  · exact State.holdOut_kept h3
  · exact h3

theorem State.coreOut_kept {s₀ s : State} (hk : Kept s₀ s) {i p : Nat} :
    Kept s₀ (State.coreOut s i p) := by
  unfold State.coreOut
  (try dsimp only)
  repeat' first
    | with_reducible assumption
    | with_reducible apply State.onSite_kept
    | with_reducible apply State.rewrite_kept
    | with_reducible apply State.vacate_kept
    | with_reducible apply Site.loseCore_canonical
    | exact fun _ k => k
    | split
    | intro

theorem State.carryUnit_kept {s₀ s : State} (hk : Kept s₀ s) {i p : Nat} {q : Option Nat} {i' p' : Nat}
    {q' : Option Nat} {v : Nat} : Kept s₀ (s.carryUnit i p q i' p' q' v) := by
  unfold State.carryUnit
  extract_lets +onlyGivenNames u m s1
  have hm : s.Inv → m.canonical := by
    intro g
    unfold m
    split
    · exact Core.unit_canonical (Site.core_canonical (g.site i) p) q _ (List.mem_of_find?_eq_some ‹_›)
    · exact Site.grab_canonical (g.site i)
  refine State.leaveGroup_kept (State.onCore_kept_inv hk fun g c k => Core.onUnits k fun u w x hx => ?_)
  rcases List.mem_cons.mp hx with rfl | hx
  · exact hm g
  · exact w x (List.mem_filter.mp hx).1

theorem State.takePlace_kept {s₀ s : State} (hk : Kept s₀ s) {i p k : Nat} : Kept s₀ (s.takePlace i p k) := by
  unfold State.takePlace
  extract_lets +onlyGivenNames c s1 s2 s3 s4 on s5
  have h1 : Kept s s1 := by
    unfold s1
    split
    · exact State.setFld_kept (Kept.refl s)
    · exact Kept.refl s
  have h2 : Kept s s2 := State.onSite_kept h1 fun _ w => Site.sameMemories w rfl rfl rfl rfl
  have h3 : Kept s s3 := State.onCore_kept_from h2 fun g d w =>
    have x := Site.core_canonical (g.site i) p
    ⟨x.1, w.2.1, x.2.2⟩
  have h4 : Kept s s4 := State.onCore_kept h3 fun d w => ⟨Mem.wf_nil, w.2.1, fun u hu x hx => by
    rw [List.eq_of_mem_replicate hu] at hx
    cases hx⟩
  have h5 : Kept s s5 := State.onPins_kept h4
  refine hk.trans ?_
  exact State.rewrite_kept (State.setFld_kept (h5.vds (List.length_map _)))

theorem State.portOut_kept {s₀ s : State} (hk : Kept s₀ s) {i p : Nat} :
    Kept s₀ (State.portOut s i p) := by
  unfold State.portOut
  (try dsimp only)
  repeat' first
    | with_reducible assumption
    | with_reducible apply State.onSite_kept
    | with_reducible apply State.setFld_kept
    | with_reducible apply State.channelLost_kept
    | with_reducible apply Kept.foldl
    | with_reducible apply Kept.foldlFst
    | with_reducible apply Site.foldl_canonical
    | with_reducible apply Site.setFld_canonical
    | with_reducible apply Site.setPort_canonical
    | exact fun _ k => k
    | split
    | intro

theorem State.takeOut_kept {s₀ s : State} (hk : Kept s₀ s) {i u : Nat} :
    Kept s₀ (State.takeOut s i u) := by
  unfold State.takeOut
  (try dsimp only)
  repeat' first
    | with_reducible assumption
    | with_reducible apply State.setFld_kept
    | with_reducible apply State.killContext_kept
    | with_reducible apply State.setD2d_kept
    | with_reducible apply State.holdOut_kept
    | with_reducible apply State.coreOut_kept
    | with_reducible apply State.portOut_kept
    | with_reducible apply Kept.foldl
    | with_reducible apply Kept.foldlFst
    | with_reducible apply Site.foldl_canonical
    | with_reducible apply Site.setFld_canonical
    | exact fun _ k => k
    | split
    | intro

theorem State.hostLink_kept {s₀ s : State} (hk : Kept s₀ s) {i : Nat} :
    Kept s₀ (State.hostLink s i) := by
  unfold State.hostLink
  (try dsimp only)
  repeat' first
    | with_reducible assumption
    | with_reducible apply State.onSite_kept
    | with_reducible apply State.setFld_kept
    | with_reducible apply State.draw_kept
    | with_reducible refine State.draw_kept' ?_ ‹_›
    | with_reducible apply Site.setFld_canonical
    | with_reducible apply Site.resetRegs_canonical
    | exact fun _ k => k
    | split
    | intro

theorem State.resetReply_kept {s₀ s : State} (hk : Kept s₀ s) {i u : Nat} {st : W16} :
    Kept s₀ (State.resetReply s i u st) := by
  unfold State.resetReply
  (try dsimp only)
  repeat' first
    | with_reducible assumption
    | with_reducible apply State.onSite_kept
    | with_reducible apply State.answer_kept
    | exact fun _ k => k
    | split
    | intro

theorem State.domUps_kept {s₀ s : State} (hk : Kept s₀ s) {i u : Nat} :
    Kept s₀ (State.domUps s i u) := by
  unfold State.domUps
  (try dsimp only)
  repeat' first
    | with_reducible assumption
    | with_reducible apply State.setFld_kept
    | with_reducible apply State.report_kept
    | with_reducible apply State.flushReplies_kept
    | with_reducible apply State.onDom_kept
    | with_reducible apply State.resetRecord_kept
    | with_reducible apply State.takeOut_kept
    | with_reducible apply State.hostLink_kept
    | with_reducible apply State.resetReply_kept
    | with_reducible apply Kept.foldl
    | with_reducible apply Kept.foldlFst
    | with_reducible apply Site.foldl_canonical
    | with_reducible apply Site.setFld_canonical
    | exact fun _ k => k
    | split
    | intro

theorem State.assertFault_kept {s₀ s : State} (hk : Kept s₀ s) {i : Nat} :
    Kept s₀ (State.assertFault s i) := by
  unfold State.assertFault
  (try dsimp only)
  repeat' first
    | with_reducible assumption
    | with_reducible apply State.onPins_kept
    | exact fun _ k => k
    | split
    | intro

theorem State.absentRecord_kept {s₀ s : State} (hk : Kept s₀ s) {id : Nat} :
    Kept s₀ (State.absentRecord s id) := by
  unfold State.absentRecord
  (try dsimp only)
  repeat' first
    | with_reducible assumption
    | with_reducible apply State.report_kept
    | exact fun _ k => k
    | split
    | intro

theorem State.spdmError_kept {s₀ s : State} (hk : Kept s₀ s) {code : Nat} :
    Kept s₀ (State.spdmError s code) := by
  unfold State.spdmError
  (try dsimp only)
  repeat' first
    | with_reducible assumption
    | with_reducible apply State.emit_kept
    | exact fun _ k => k
    | split
    | intro

theorem Site.setIdeKey_canonical {t : Site} (hk : t.canonical) {stream keyset : Nat} {rx : Bool} :
    (Site.setIdeKey t stream keyset rx).canonical := by
  unfold Site.setIdeKey
  (try dsimp only)
  repeat' first
    | with_reducible assumption
    | exact hk
    | exact fun _ k => k
    | split
    | intro

theorem State.tdisp_kept {s₀ s : State} (hk : Kept s₀ s) {v : Nat} {body : State → State}
    (hb : ∀ t, Kept s₀ t → Kept s₀ (body t)) : Kept s₀ (s.tdisp v body) := by
  unfold State.tdisp
  dsimp only
  split
  · exact hk
  · split
    · exact State.spdmError_kept (State.raiseSrc_kept hk)
    · exact hb _ (State.raiseSrc_kept hk)

theorem State.tdispReply_kept {s₀ s : State} (hk : Kept s₀ s) {code v : Nat} {b : Bytes} :
    Kept s₀ (State.tdispReply s code v b) := by
  unfold State.tdispReply
  (try dsimp only)
  repeat' first
    | with_reducible assumption
    | with_reducible apply State.emit_kept
    | exact fun _ k => k
    | split
    | intro

theorem State.tdispWrong_kept {s₀ s : State} (hk : Kept s₀ s) {v : Nat} :
    Kept s₀ (State.tdispWrong s v) := by
  unfold State.tdispWrong
  (try dsimp only)
  repeat' first
    | with_reducible assumption
    | with_reducible apply State.tdispReply_kept
    | exact fun _ k => k
    | split
    | intro

theorem State.configured_kept {s₀ s : State} (hk : Kept s₀ s) {v : Nat} {changes : Bool} {f : Vd → Vd} :
    Kept s₀ (State.configured s v changes f) := by
  unfold State.configured
  (try dsimp only)
  repeat' first
    | with_reducible assumption
    | with_reducible apply State.onVd_kept
    | with_reducible apply State.tdiError_kept
    | exact fun _ k => k
    | split
    | intro

theorem State.flr_kept {s₀ s : State} (hk : Kept s₀ s) {v : Nat} :
    Kept s₀ (State.flr s v) := by
  unfold State.flr
  (try dsimp only)
  repeat' first
    | with_reducible assumption
    | with_reducible apply State.onVd_kept
    | with_reducible apply SCtx.run_kept
    | with_reducible apply State.killSlice_kept
    | with_reducible apply State.tdiError_kept
    | exact fun _ k => k
    | split
    | intro

theorem State.resetLink_kept {s₀ s : State} (hk : Kept s₀ s) {i : Nat} :
    Kept s₀ (State.resetLink s i) := by
  unfold State.resetLink
  (try dsimp only)
  repeat' first
    | with_reducible assumption
    | with_reducible apply State.draw_kept
    | with_reducible refine State.draw_kept' ?_ ‹_›
    | with_reducible apply State.resetDomain_kept
    | exact fun _ k => k
    | split
    | intro

theorem State.keyOn_kept {s₀ s t : State} (hk : Kept s₀ s) {v i : Nat}
    (e : State.keyOn s v i = .ok t) : Kept s₀ t := by
  revert e
  unfold State.keyOn
  (try dsimp only)
  repeat' first
    | with_reducible assumption
    | contradiction
    | with_reducible refine State.shareKey_kept ?_ ‹_›
    | exact fun _ k => k
    | split
    | (intro e; cases e)
    | intro

theorem State.keyTo_kept {s₀ s t : State} (hk : Kept s₀ s) {v part : Nat} {peer : PeerReport}
    (e : State.keyTo s v part peer = .ok t) : Kept s₀ t := by
  revert e
  unfold State.keyTo
  (try dsimp only)
  repeat' first
    | with_reducible assumption
    | contradiction
    | with_reducible apply State.emit_kept
    | exact fun _ k => k
    | split
    | (intro e; cases e)
    | intro

theorem State.farBind_kept {s₀ s t : State} (hk : Kept s₀ s) {v part n : Nat} {m : MgmtRun}
    (e : State.farBind s v part n m = .ok t) : Kept s₀ t := by
  revert e
  unfold State.farBind
  (try dsimp only)
  repeat' first
    | with_reducible assumption
    | contradiction
    | with_reducible refine State.keyTo_kept ?_ ‹_›
    | exact fun _ k => k
    | split
    | (intro e; cases e)
    | intro

theorem State.leaveSite_kept {s₀ s : State} (hk : Kept s₀ s) {v i : Nat} :
    Kept s₀ (State.leaveSite s v i) := by
  unfold State.leaveSite
  (try dsimp only)
  repeat' first
    | with_reducible assumption
    | with_reducible apply State.relist_kept
    | with_reducible apply State.drainSlot_kept
    | exact fun _ k => k
    | split
    | intro

theorem State.drawSave_kept {s₀ s t : State} (hk : Kept s₀ s) {v i : Nat} {q : Option Nat} {x : List Nat}
    (e : s.drawSave v i q = .ok (x, t)) : Kept s₀ t := by
  unfold State.drawSave at e
  dsimp only at e
  split at e
  · cases e
  · split at e
    · cases e
      exact State.onSite_kept_inv hk fun g _ _ => Site.drawPages_canonical (g.site i) ‹_›
    · cases e

theorem bindHere_aux {s₀ s t : State} (hk : Kept s₀ s) {v i : Nat} {q : Option Nat} {b : Bool} {x : List Nat}
    (e : (if b then s.drawSave v i q else .ok ([], s)) = .ok (x, t)) : Kept s₀ t := by
  split at e
  · exact State.drawSave_kept hk e
  · cases e
    exact hk

theorem State.bindHere_kept {s₀ s t : State} (hk : Kept s₀ s) {v i p : Nat} {q : Option Nat} {num : Nat} {reel : Bool}
    {quantum : Nat} (e : s.bindHere v i p q num reel quantum = .ok t) : Kept s₀ t := by
  unfold State.bindHere at e
  split at e
  · cases e
  · split at e
    · cases e
    · have h1 := State.keyOn_kept hk ‹_›
      split at e
      · cases e
      · rename_i e2
        dsimp only at e
        cases e
        have h2 := bindHere_aux h1 e2
        refine State.relist_kept (State.joinUnit_kept (State.onHold_kept ?_))
        split
        · exact State.zeroUnit_kept h2
        · exact h2

theorem State.bindUnit_kept {s₀ s t : State} (hk : Kept s₀ s) {v part inst p : Nat} {q : Option Nat} {n : Nat}
    {m : MgmtRun} {x : Nat} (e : s.bindUnit v part inst p q n m = .ok (x, t)) : Kept s₀ t := by
  unfold State.bindUnit at e
  dsimp only at e
  split at e
  · cases e
  · split at e
    · split at e
      · cases e
      · split at e
        · cases e
          exact State.bindHere_kept hk ‹_›
        · cases e
    · split at e
      · cases e
      · cases e
        exact State.relist_kept (State.onHold_kept (State.farBind_kept hk ‹_›))

theorem Cluster.allotTo_wf {c d : Cluster} (h : c.clm.wf = true) {v kind n : Nat} (e : c.allotTo v kind n = some d) :
    d.clm.wf = true := by
  unfold Cluster.allotTo at e
  dsimp only at e
  split at e
  · split at e
    · cases e
    · cases e
      exact h
  · cases e
    split
    · exact Mem.wf_clears h
    · exact Mem.wf_clears h

theorem State.noteAllot_kept {s₀ s : State} (hk : Kept s₀ s) {v kind part inst cluster n : Nat} :
    Kept s₀ (State.noteAllot s v kind part inst cluster n) := by
  unfold State.noteAllot
  (try dsimp only)
  repeat' first
    | with_reducible assumption
    | with_reducible apply State.onHold_kept
    | with_reducible apply State.relist_kept
    | exact fun _ k => k
    | split
    | intro

theorem setAllot_aux {s₀ s t : State} (hk : Kept s₀ s) {c : Prop} [Decidable c] {v i : Nat}
    (e : (if c then .ok s else s.keyOn v i) = .ok t) : Kept s₀ t := by
  split at e
  · cases e
    exact hk
  · exact State.keyOn_kept hk e

theorem State.setAllot_kept {s₀ s t : State} (hk : Kept s₀ s) {v kind part inst cluster n a : Nat} {m : MgmtRun}
    (e : s.setAllot v kind part inst cluster n a m = .ok t) : Kept s₀ t := by
  unfold State.setAllot at e
  dsimp only at e
  split at e
  · split at e
    · cases e
      exact State.noteAllot_kept (State.farBind_kept hk ‹_›)
    · cases e
  · split at e
    · cases e
    · split at e
      · cases e
      · rename_i e2
        have h1 := setAllot_aux hk e2
        split at e
        · split at e
          · cases e
          · split at e
            · cases e
            · cases e
              exact State.leaveSite_kept (State.noteAllot_kept h1)
        · split at e
          · cases e
          · split at e
            · cases e
            · cases e
              exact State.leaveSite_kept (State.noteAllot_kept (State.onSite_kept_inv h1 fun g t k =>
                Site.onCluster_canonical k fun _ _ => Cluster.allotTo_wf (State.cluster_wf g _ _) ‹_›))

end Sys2Proof.Machine
end

