-- ==== Sys2Proof/Laws/KeptG.lean ====
section
/-! SUPPORT. The operations of Shape, Power, Health, Stores, Migrate, Boot, RegView keep what every command keeps. -/

set_option linter.unusedVariables false

namespace Sys2Proof.Machine

theorem State.bindEntry_kept {s₀ s t : State} (hk : Kept s₀ s) {v n : Nat} {b : Bytes} {m : MgmtRun}
    (e : s.bindEntry v n b m = .ok t) : Kept s₀ t := by
  unfold State.bindEntry at e
  dsimp only at e
  split at e
  · cases e
  · split at e
    · generalize h : s.bindUnit v _ _ _ _ n m = r at e
      match r, h with
      | .ok (_, u), h =>
        cases e
        exact State.bindUnit_kept hk h
      | .error _, _ => cases e
    · exact State.setAllot_kept hk e

theorem bindEntries_kept {s₀ : State} {v : Nat} {m : MgmtRun} {l : List (Bytes × Nat)} :
    ∀ {s t : State}, Kept s₀ s → bindEntries v m l s = .ok t → Kept s₀ t := by
  induction l with
  | nil =>
    intro s t h e
    cases e
    exact h
  | cons a r ih =>
    intro s t h e
    unfold bindEntries at e
    split at e
    · exact ih (State.bindEntry_kept h ‹_›) e
    · cases e

theorem State.leaveUnit_kept {s₀ s : State} (hk : Kept s₀ s) {v : Nat} {u : UnitBind} :
    Kept s₀ (State.leaveUnit s v u) := by
  unfold State.leaveUnit
  (try dsimp only)
  repeat' first
    | with_reducible assumption
    | with_reducible apply State.relist_kept
    | with_reducible apply State.leaveSite_kept
    | exact fun _ k => k
    | split
    | intro

theorem State.liftUnit_kept {s₀ s : State} (hk : Kept s₀ s) {v i : Nat} {u : UnitBind} : Kept s₀ (s.liftUnit v i u) := by
  refine hk.trans ?_
  unfold State.liftUnit
  dsimp only
  split
  · exact Kept.refl s
  · have h1 : ∀ l : List (Nat × Cmd), Kept s (l.foldl (fun (s : State) (x : Nat × Cmd) =>
        if x.2.ran ∧ x.2.chainRows = [] then s else s.onCmd ⟨v, x.1, x.2.id⟩ fun k => { k with saved := true }) s) :=
      fun l => Kept.foldl (Kept.refl s) fun s a k => by
        split
        · exact k
        · exact State.onCmd_kept k
    refine State.onCore_kept_from (s := s) ?_ fun k c w => Core.onUnits w fun y hy z hz => ?_
    · repeat' first
        | exact State.onCore_kept (State.onSite_kept (h1 _) fun t k => Site.wipe_canonical k) fun _ k => Core.zeroBanks_canonical k
        | exact State.onSite_kept (h1 _) fun t k => Site.wipe_canonical k
        | split
    · rcases List.mem_cons.mp hz with rfl | hz
      · exact Site.grab_canonical (((h1 _).2.2.2 k).site i)
      · exact hy z (List.mem_filter.mp hz).1

theorem State.unlift_kept {s₀ s : State} (hk : Kept s₀ s) {v i : Nat} {u : UnitBind} :
    Kept s₀ (State.unlift s v i u) := by
  unfold State.unlift
  (try dsimp only)
  repeat' first
    | with_reducible assumption
    | with_reducible apply State.restore_kept
    | exact fun _ k => k
    | split
    | intro

theorem State.landUnit_kept {s₀ s : State} (hk : Kept s₀ s) {v i : Nat} {u : UnitBind} {i' p' : Nat} {q' : Option Nat} {save : List Nat} :
    Kept s₀ (State.landUnit s v i u i' p' q' save) := by
  unfold State.landUnit
  (try dsimp only)
  repeat' first
    | with_reducible assumption
    | with_reducible apply State.onHold_kept
    | with_reducible apply State.restore_kept
    | with_reducible apply State.relist_kept
    | with_reducible apply State.joinUnit_kept
    | with_reducible apply State.freeSave_kept
    | with_reducible apply State.carryUnit_kept
    | with_reducible apply State.leaveUnit_kept
    | exact fun _ k => k
    | split
    | intro

theorem State.moveTarget_kept {s₀ s t : State} (hk : Kept s₀ s) {v i : Nat} {u : UnitBind} {inst p' : Nat} {q' : Option Nat} {x : List Nat}
    (e : State.moveTarget s v i u inst p' q' = .ok (x, t)) : Kept s₀ t := by
  revert e
  unfold State.moveTarget
  (try dsimp only)
  repeat' first
    | with_reducible assumption
    | contradiction
    | with_reducible refine State.keyOn_kept ?_ ‹_›
    | with_reducible refine State.drawSave_kept ?_ ‹_›
    | exact fun _ k => k
    | split
    | (intro e; cases e)
    | intro

theorem State.schedUnit_kept {s₀ s t : State} (hk : Kept s₀ s) {v : Nat} {u : UnitBind} {reel : Bool} {quantum n : Nat}
    (e : s.schedUnit v u reel quantum n = .ok t) : Kept s₀ t := by
  unfold State.schedUnit at e
  dsimp only at e
  have mode {z : State} {i p : Nat} {q : Option Nat} (h : Kept s₀ z) :
      Kept s₀ (z.onUnit i p q fun x => { x with reel := reel, switchN := n }) := State.onUnit_kept h fun _ k => k
  split at e
  · cases e
    exact State.onHold_kept hk
  · split at e
    · cases e
    · split at e
      · cases e
      · split at e
        · cases e
          exact mode (State.onHold_kept hk)
        · split at e
          · split at e
            · cases e
              exact mode (State.onHold_kept (State.drawSave_kept hk ‹_›))
            · cases e
          · cases e
            exact mode (State.onHold_kept (State.freeSave_kept hk))

theorem schedAll_kept {s₀ : State} {v : Nat} {reel : Bool} {quantum n : Nat} {l : List UnitBind} :
    ∀ {s t : State}, Kept s₀ s → schedAll v reel quantum n l s = .ok t → Kept s₀ t := by
  induction l with
  | nil =>
    intro s t h e
    cases e
    exact h
  | cons a r ih =>
    intro s t h e
    unfold schedAll at e
    split at e
    · exact ih (State.schedUnit_kept h ‹_›) e
    · cases e

theorem State.setPower_kept {s₀ s : State} (hk : Kept s₀ s) {i : Nat} {kind : PowerUnit} {n : Nat} {x : Option PowerCmd} :
    Kept s₀ (State.setPower s i kind n x) := by
  unfold State.setPower
  (try dsimp only)
  repeat' first
    | with_reducible assumption
    | with_reducible apply State.onWatch_kept
    | exact fun _ k => k
    | split
    | intro

theorem State.replyTag_kept {s₀ s : State} (hk : Kept s₀ s) {op : Nat} {tag : Option (BitVec 16)} {st : W16} :
    Kept s₀ (State.replyTag s op tag st) := by
  unfold State.replyTag
  (try dsimp only)
  repeat' first
    | with_reducible assumption
    | with_reducible apply State.reply_kept
    | exact fun _ k => k
    | split
    | intro

theorem State.endPower_kept {s₀ s : State} (hk : Kept s₀ s) {i : Nat} {x : PowerCmd} {st : W16} :
    Kept s₀ (State.endPower s i x st) := by
  unfold State.endPower
  (try dsimp only)
  repeat' first
    | with_reducible assumption
    | with_reducible apply State.setPower_kept
    | with_reducible apply State.replyTag_kept
    | exact fun _ k => k
    | split
    | intro

theorem State.switchCore_kept {s₀ s : State} (hk : Kept s₀ s) {i p : Nat} {on : Bool} :
    Kept s₀ (State.switchCore s i p on) := by
  unfold State.switchCore
  (try dsimp only)
  repeat' first
    | with_reducible assumption
    | with_reducible apply State.onPins_kept
    | exact fun _ k => k
    | split
    | intro

theorem State.beginLeg_kept {s₀ s : State} (hk : Kept s₀ s) {i : Nat} {x : PowerCmd} :
    Kept s₀ (State.beginLeg s i x) := by
  unfold State.beginLeg
  (try dsimp only)
  repeat' first
    | with_reducible assumption
    | with_reducible apply State.setFld_kept
    | with_reducible apply State.reroute_kept
    | with_reducible apply State.setPower_kept
    | with_reducible apply State.switchCore_kept
    | with_reducible apply Site.setFld_canonical
    | exact fun _ k => k
    | split
    | intro

theorem State.powerNext_kept {s₀ s : State} (hk : Kept s₀ s) {i : Nat} {kind : PowerUnit} {n : Nat} :
    Kept s₀ (State.powerNext s i kind n) := by
  unfold State.powerNext
  (try dsimp only)
  repeat' first
    | with_reducible assumption
    | with_reducible apply State.setFld_kept
    | with_reducible apply State.setPower_kept
    | with_reducible apply State.endPower_kept
    | with_reducible apply State.beginLeg_kept
    | with_reducible apply Site.setFld_canonical
    | exact fun _ k => k
    | split
    | intro

theorem State.sleepCore_kept {s₀ s : State} (hk : Kept s₀ s) {i p state : Nat} :
    Kept s₀ (State.sleepCore s i p state) := by
  unfold State.sleepCore
  (try dsimp only)
  repeat' first
    | with_reducible assumption
    | with_reducible apply State.onCmd_kept
    | with_reducible apply State.setFld_kept
    | with_reducible apply State.onCore_kept
    | with_reducible apply Kept.foldl
    | with_reducible apply Kept.foldlFst
    | with_reducible apply Site.foldl_canonical
    | with_reducible apply Site.onCore_canonical
    | with_reducible apply Site.setFld_canonical
    | exact fun _ k => k
    | split
    | intro

theorem State.coreBack_kept {s₀ s : State} (hk : Kept s₀ s) {i p : Nat} :
    Kept s₀ (State.coreBack s i p) := by
  unfold State.coreBack
  (try dsimp only)
  repeat' first
    | with_reducible assumption
    | with_reducible apply State.setFld_kept
    | with_reducible apply State.setMode_kept
    | with_reducible apply Site.setFld_canonical
    | exact fun _ k => k
    | split
    | intro

theorem State.wakeCore_kept {s₀ s : State} (hk : Kept s₀ s) {i p : Nat} :
    Kept s₀ (State.wakeCore s i p) := by
  unfold State.wakeCore
  (try dsimp only)
  repeat' first
    | with_reducible assumption
    | with_reducible apply State.onCmd_kept
    | with_reducible apply State.coreBack_kept
    | with_reducible apply Kept.foldl
    | with_reducible apply Kept.foldlFst
    | with_reducible apply Site.foldl_canonical
    | exact fun _ k => k
    | split
    | intro

theorem State.blankCore_kept {s₀ s : State} (hk : Kept s₀ s) {i p : Nat} : Kept s₀ (s.blankCore i p) :=
  State.onSite_kept hk fun _ k => Site.onCore_canonical (Site.wipe_canonical k) fun _ w =>
    have z := Core.zeroBanks_canonical (q := none) w
    ⟨z.1, z.2.1, z.2.2⟩

theorem State.coreLeg_kept {s₀ s : State} (hk : Kept s₀ s) {i p leg : Nat} : Kept s₀ (s.coreLeg i p leg) := by
  unfold State.coreLeg
  extract_lets +onlyGivenNames t cur s'
  have h : ∀ z, s' = some z → Kept s₀ z := by
    intro z e
    unfold s' at e
    split at e
    · cases e
    · split at e
      · split at e
        · cases e
          exact State.setFld_kept (State.blankCore_kept hk)
        · cases e
      · split at e
        · split at e
          · cases e
            exact State.coreBack_kept (State.blankCore_kept hk)
          · cases e
        · split at e
          · split at e
            · cases e
            · cases e
              exact State.sleepCore_kept hk
          · cases e
            exact State.wakeCore_kept hk
  clear_value s'
  cases s' with
  | none => exact hk
  | some z => exact State.powerNext_kept (State.setFld_kept (h z rfl))

theorem State.portLeg_kept {s₀ s : State} (hk : Kept s₀ s) {i p : Nat} {x : PowerCmd} :
    Kept s₀ (State.portLeg s i p x) := by
  unfold State.portLeg
  (try dsimp only)
  repeat' first
    | with_reducible assumption
    | with_reducible apply State.onSite_kept
    | with_reducible apply State.setFld_kept
    | with_reducible apply State.endPower_kept
    | with_reducible apply State.powerNext_kept
    | with_reducible apply Site.setFld_canonical
    | with_reducible apply Site.onTier_canonical
    | with_reducible apply Site.wipe_canonical
    | exact Mem.wf_filter ‹_›
    | exact fun _ k => k
    | split
    | intro

theorem State.linkTo_kept {s₀ s : State} (hk : Kept s₀ s) {i l st : Nat} :
    Kept s₀ (State.linkTo s i l st) := by
  unfold State.linkTo
  (try dsimp only)
  repeat' first
    | with_reducible assumption
    | with_reducible apply State.setFld_kept
    | with_reducible apply State.raiseSrc_kept
    | with_reducible apply State.linkRecord_kept
    | with_reducible apply Site.setFld_canonical
    | exact fun _ k => k
    | split
    | intro

theorem State.linkLeg_kept {s₀ s : State} (hk : Kept s₀ s) {i l : Nat} {x : PowerCmd} :
    Kept s₀ (State.linkLeg s i l x) := by
  unfold State.linkLeg
  (try dsimp only)
  repeat' first
    | with_reducible assumption
    | with_reducible apply State.setFld_kept
    | with_reducible apply State.onLink_kept
    | with_reducible apply State.drain_kept
    | with_reducible apply State.powerNext_kept
    | with_reducible apply State.linkTo_kept
    | with_reducible apply Site.setFld_canonical
    | exact fun _ k => k
    | split
    | intro

theorem State.condition_kept {s₀ s : State} (hk : Kept s₀ s) {i n index : Nat} :
    Kept s₀ (State.condition s i n index) := by
  unfold State.condition
  (try dsimp only)
  repeat' first
    | with_reducible assumption
    | with_reducible apply State.report_kept
    | exact fun _ k => k
    | split
    | intro

theorem State.fwRecord_kept {s₀ s : State} (hk : Kept s₀ s) {i event bank svn : Nat} :
    Kept s₀ (State.fwRecord s i event bank svn) := by
  unfold State.fwRecord
  (try dsimp only)
  repeat' first
    | with_reducible assumption
    | with_reducible apply State.report_kept
    | with_reducible apply State.event_kept
    | exact fun _ k => k
    | split
    | intro

theorem State.restart_kept {s₀ s : State} (hk : Kept s₀ s) {i : Nat} {ok : Bool} :
    Kept s₀ (State.restart s i ok) := by
  unfold State.restart
  (try dsimp only)
  repeat' first
    | with_reducible assumption
    | with_reducible apply State.onSite_kept
    | with_reducible apply State.setFld_kept
    | with_reducible apply State.fwRecord_kept
    | with_reducible apply Site.setFld_canonical
    | exact fun _ k => k
    | split
    | intro

theorem Site.setVeMap_canonical {t : Site} (hk : t.canonical) {p l e : Nat} :
    (Site.setVeMap t p l e).canonical := by
  unfold Site.setVeMap
  (try dsimp only)
  repeat' first
    | with_reducible assumption
    | exact hk
    | with_reducible apply Site.setFld_canonical
    | exact fun _ k => k
    | split
    | intro

theorem State.bringVe_kept {s₀ s : State} (hk : Kept s₀ s) {i p l spare : Nat} :
    Kept s₀ (State.bringVe s i p l spare) := by
  unfold State.bringVe
  (try dsimp only)
  repeat' first
    | with_reducible assumption
    | with_reducible apply State.onSite_kept
    | with_reducible apply State.setFld_kept
    | with_reducible apply State.onCore_kept
    | with_reducible apply State.rewrite_kept
    | with_reducible apply Site.onCore_canonical
    | with_reducible apply Site.setFld_canonical
    | with_reducible apply Site.setVeMap_canonical
    | exact fun _ k => k
    | split
    | intro

theorem State.benched_kept {s₀ s : State} (hk : Kept s₀ s) {i p : Nat} :
    Kept s₀ (State.benched s i p) := by
  unfold State.benched
  (try dsimp only)
  repeat' first
    | with_reducible assumption
    | with_reducible apply State.onSite_kept
    | with_reducible apply State.onPins_kept
    | with_reducible apply State.setFld_kept
    | with_reducible apply State.blankCore_kept
    | with_reducible apply Site.setFld_canonical
    | with_reducible apply Site.setMask_canonical
    | exact fun _ k => k
    | split
    | intro

theorem bringCore_kept {s₀ : State} {i p : Nat} {failing l : List Nat} :
    ∀ {s : State}, Kept s₀ s → Kept s₀ (bringCore i p failing l s).2 := by
  induction l with
  | nil => exact fun h => h
  | cons k rest ih =>
    intro s h
    unfold bringCore
    split
    · exact ih (State.onSite_kept h fun _ k => Site.loseCore_canonical k)
    · exact State.benched_kept (State.takePlace_kept h)

theorem bringCore_kept' {s₀ s t : State} (hk : Kept s₀ s) {i p : Nat} {failing l : List Nat} {x : Option Nat}
    (e : bringCore i p failing l s = (x, t)) : Kept s₀ t := by
  have k : Kept s₀ (bringCore i p failing l s).2 := bringCore_kept hk
  rw [e] at k
  exact k

theorem Kept.foldlSnd {α β : Type} {s₀ s : State} {l : List α} {f : β × State → α → β × State} {b : β} (h : Kept s₀ s)
    (hf : ∀ s b a, Kept s₀ s → Kept s₀ (f (b, s) a).2) : Kept s₀ (l.foldl f (b, s)).2 := by
  induction l generalizing s b with
  | nil => exact h
  | cons a r ih => exact ih (s := (f (b, s) a).2) (b := (f (b, s) a).1) (hf s b a h)

theorem State.core_canonical {s : State} (h : s.Inv) (i p : Nat) : (s.core i p).canonical :=
  Site.core_canonical (h.site i) p

theorem State.steerAll_kept {s₀ s : State} (hk : Kept s₀ s) {i : Nat} : Kept s₀ (s.steerAll i).2 := by
  unfold State.steerAll
  refine Kept.foldlSnd hk fun s b a k => ?_
  dsimp only
  split
  · exact k
  · exact State.onCore_kept_inv k fun g c w => Core.steer_canonical (State.core_canonical g i a)

theorem State.steerAll_kept' {s₀ s t : State} (hk : Kept s₀ s) {i : Nat} {x : Nat}
    (e : s.steerAll i = (x, t)) : Kept s₀ t := by
  have k : Kept s₀ (s.steerAll i).2 := State.steerAll_kept hk
  rw [e] at k
  exact k

theorem State.spareAll_kept {s₀ s : State} (hk : Kept s₀ s) {i : Nat} {failing : List Nat} :
    Kept s₀ (s.spareAll i failing).2 := by
  unfold State.spareAll
  refine Kept.foldlSnd hk fun s b a k => ?_
  dsimp only
  split
  · exact k
  · split
    · exact bringCore_kept' (State.onSite_kept k fun _ w => Site.loseCore_canonical w) ‹_›
    · exact k

theorem State.spareAll_kept' {s₀ s t : State} (hk : Kept s₀ s) {i : Nat} {failing : List Nat} {x : Nat}
    (e : s.spareAll i failing = (x, t)) : Kept s₀ t := by
  have k : Kept s₀ (s.spareAll i failing).2 := State.spareAll_kept hk
  rw [e] at k
  exact k

theorem State.rewriteUnused_kept {s₀ s : State} (hk : Kept s₀ s) {i : Nat} :
    Kept s₀ (State.rewriteUnused s i) := by
  unfold State.rewriteUnused
  (try dsimp only)
  repeat' first
    | with_reducible assumption
    | with_reducible apply State.setFld_kept
    | with_reducible apply State.rewrite_kept
    | with_reducible apply Kept.foldl
    | with_reducible apply Kept.foldlFst
    | with_reducible apply Site.foldl_canonical
    | with_reducible apply Site.setFld_canonical
    | exact fun _ k => k
    | split
    | intro

theorem Site.setPolicy_canonical {t : Site} (hk : t.canonical) {o : Obj} {policy : Nat} :
    (Site.setPolicy t o policy).canonical := by
  unfold Site.setPolicy
  (try dsimp only)
  repeat' first
    | with_reducible assumption
    | exact hk
    | with_reducible apply Site.onTier_canonical
    | exact fun _ k => k
    | split
    | intro

theorem State.shiftPage_kept {s₀ s : State} (hk : Kept s₀ s) {i p q : Nat} : Kept s₀ (s.shiftPage i p q) := by
  unfold State.shiftPage
  extract_lets +onlyGivenNames m here swap s1
  have h1 : Kept s₀ s1 := by
    refine State.onSite_kept hk fun t k => ?_
    extract_lets +onlyGivenNames t1
    have h : t1.canonical := Site.freePage_canonical (Site.copySubs_canonical (Site.takePage_canonical k))
    clear_value t1
    exact Site.sameMemories h rfl rfl rfl rfl
  exact h1.vds (List.length_map _)

theorem shiftAll_kept {s₀ : State} {i : Nat} {avoid l : List Nat} :
    ∀ {s t : State}, Kept s₀ s → shiftAll i avoid l s = some t → Kept s₀ t := by
  induction l with
  | nil =>
    intro s t h e
    cases e
    exact h
  | cons a r ih =>
    intro s t h e
    unfold shiftAll at e
    split at e
    · cases e
    · split at e
      · exact ih (State.shiftPage_kept h) e
      · cases e

theorem Site.lessReserve_canonical {t : Site} (hk : t.canonical) {slow : Bool} :
    (Site.lessReserve t slow).canonical := by
  unfold Site.lessReserve
  (try dsimp only)
  repeat' first
    | with_reducible assumption
    | exact hk
    | with_reducible apply Site.setFld_canonical
    | exact fun _ k => k
    | split
    | intro

theorem Site.land_canonical {t : Site} (hk : t.canonical) {ns base : Nat} {data : Bytes} :
    (Site.land t ns base data).canonical := by
  unfold Site.land
  (try dsimp only)
  repeat' first
    | with_reducible assumption
    | exact hk
    | with_reducible apply Site.foldl_canonical
    | with_reducible apply Site.writeSub_canonical
    | exact fun _ k => k
    | split
    | intro

theorem State.landWeight_kept {s₀ s t : State} (hk : Kept s₀ s) {i : Nat} {slow : Bool} {data : Bytes} {x : Nat}
    (e : s.landWeight i slow data = some (x, t)) : Kept s₀ t := by
  unfold State.landWeight at e
  dsimp only at e
  split at e
  · cases e
  · split at e
    · cases e
    · cases e
      exact State.onSite_kept (State.drawObject_kept hk ‹_›) fun _ k => Site.land_canonical k

theorem State.onWeight_kept {s₀ s : State} (hk : Kept s₀ s) {n : Nat} {f : Weight → Weight} :
    Kept s₀ (State.onWeight s n f) := by
  unfold State.onWeight
  (try dsimp only)
  repeat' first
    | with_reducible assumption
    | with_reducible apply State.onPart_kept
    | exact fun _ k => k
    | split
    | intro

theorem State.freeCopy_kept {s₀ s : State} (hk : Kept s₀ s) {w : Weight} {c : Nat × Bool × Nat} :
    Kept s₀ (State.freeCopy s w c) := by
  unfold State.freeCopy
  (try dsimp only)
  repeat' first
    | with_reducible assumption
    | with_reducible apply State.onSite_kept
    | with_reducible apply State.abandonMoves_kept
    | with_reducible apply Kept.foldl
    | with_reducible apply Kept.foldlFst
    | with_reducible apply Site.foldl_canonical
    | with_reducible apply Site.onTier_canonical
    | with_reducible apply Site.freePage_canonical
    | exact fun _ k => k
    | split
    | intro

theorem State.liftAll_kept {s₀ s : State} (hk : Kept s₀ s) {v : Nat} :
    Kept s₀ (State.liftAll s v) := by
  unfold State.liftAll
  (try dsimp only)
  repeat' first
    | with_reducible assumption
    | with_reducible apply State.liftUnit_kept
    | with_reducible apply Kept.foldl
    | with_reducible apply Kept.foldlFst
    | with_reducible apply Site.foldl_canonical
    | exact fun _ k => k
    | split
    | intro

theorem State.freeze_kept {s₀ s : State} (hk : Kept s₀ s) {v : Nat} :
    Kept s₀ (State.freeze s v) := by
  unfold State.freeze
  (try dsimp only)
  repeat' first
    | with_reducible assumption
    | with_reducible apply State.onVd_kept
    | with_reducible apply State.event_kept
    | with_reducible apply State.liftAll_kept
    | exact fun _ k => k
    | split
    | intro

theorem State.endSession_kept {s₀ s : State} (hk : Kept s₀ s) {g : Migration} :
    Kept s₀ (State.endSession s g) := by
  unfold State.endSession
  (try dsimp only)
  repeat' first
    | with_reducible assumption
    | with_reducible apply State.onPart_kept
    | exact fun _ k => k
    | split
    | intro

theorem State.onMig_kept {s₀ s : State} (hk : Kept s₀ s) {v : Nat} {f : Migration → Migration} :
    Kept s₀ (State.onMig s v f) := by
  unfold State.onMig
  (try dsimp only)
  repeat' first
    | with_reducible assumption
    | with_reducible apply State.onVd_kept
    | exact fun _ k => k
    | split
    | intro

theorem Mem.wf_canon (m : Mem) : m.canon.wf = true := Mem.wf_foldl Mem.wf_nil fun _ _ k => Mem.wf_write k _ _

theorem Image.under_canonical (m : Image) (v : Nat) : (m.under v).canonical := ⟨Mem.wf_canon _, Mem.wf_canon _⟩

theorem loadUnits_kept {s₀ : State} {v : Nat} {place : Nat → Nat} {x : SliceImage} {l : List UnitBind} :
    ∀ {s t : State}, Kept s₀ s → loadUnits v place x l s = .ok t → Kept s₀ t := by
  induction l with
  | nil =>
    intro s t h e
    cases e
    exact h
  | cons a r ih =>
    intro s t h e
    unfold loadUnits at e
    dsimp only at e
    split at e
    · cases e
    · split at e
      · cases e
      · refine ih (State.onUnit_kept (State.bindHere_kept h ‹_›) fun u k y hy => ?_) e
        rcases List.mem_append.mp hy with hy | hy
        · exact k y hy
        · obtain ⟨z, _, rfl⟩ := List.mem_map.mp hy
          exact Image.under_canonical _ _

theorem loadAllots_kept {s₀ : State} {v : Nat} {place : Nat → Nat} {m : MgmtRun} {l : List Allot} :
    ∀ {s t : State}, Kept s₀ s → loadAllots v place m l s = .ok t → Kept s₀ t := by
  induction l with
  | nil =>
    intro s t h e
    cases e
    exact h
  | cons a r ih =>
    intro s t h e
    unfold loadAllots at e
    split at e
    · cases e
    · exact ih (State.setAllot_kept h ‹_›) e

theorem State.loadPage_kept {s₀ s : State} (hk : Kept s₀ s) {v i ns page : Nat} {b : Bytes} :
    Kept s₀ (State.loadPage s v i ns page b) := by
  unfold State.loadPage
  (try dsimp only)
  repeat' first
    | with_reducible assumption
    | with_reducible apply State.onSite_kept
    | with_reducible apply Kept.foldl
    | with_reducible apply Kept.foldlFst
    | with_reducible apply Site.foldl_canonical
    | with_reducible apply Site.writeSub_canonical
    | exact fun _ k => k
    | split
    | intro

theorem loadObjs_kept {s₀ : State} {v : Nat} {place : Nat → Nat} {x : SliceImage} {l : List Obj} :
    ∀ {s t : State}, Kept s₀ s → loadObjs v place x l s = .ok t → Kept s₀ t := by
  induction l with
  | nil =>
    intro s t h e
    cases e
    exact h
  | cons a r ih =>
    intro s t h e
    unfold loadObjs at e
    dsimp only at e
    split at e
    · exact ih (State.onSp_kept h) e
    · split at e
      · split at e
        · cases e
        · exact ih (State.onSp_kept (Kept.foldl (State.drawObject_kept h ‹_›) fun _ _ k => State.loadPage_kept k)) e
      · exact ih (State.onSp_kept h) e

theorem State.retryAll_kept {s₀ s : State} (hk : Kept s₀ s) {v : Nat} :
    Kept s₀ (State.retryAll s v) := by
  unfold State.retryAll
  (try dsimp only)
  repeat' first
    | with_reducible assumption
    | with_reducible apply State.onCmd_kept
    | with_reducible apply State.pump_kept
    | with_reducible apply State.settle_kept
    | with_reducible apply State.requestFails_kept
    | with_reducible apply Kept.foldl
    | with_reducible apply Kept.foldlFst
    | with_reducible apply Site.foldl_canonical
    | with_reducible apply Cluster.write_canonical
    | with_reducible apply Cluster.fill_canonical
    | exact fun _ k => k
    | split
    | intro

theorem State.loadRest_kept {s₀ s : State} (hk : Kept s₀ s) {v : Nat} {place : Nat → Nat} {x : SliceImage} :
    Kept s₀ (s.loadRest v place x) := by
  unfold State.loadRest
  dsimp only
  refine Kept.foldl (Kept.foldl (Kept.foldl (Kept.foldl (Kept.foldl hk ?_) ?_) ?_) ?_) ?_
  · exact fun s a k => State.onSite_kept k fun t w => Site.onCluster_canonical w fun c z =>
      Mem.wf_foldl z fun _ _ y => Mem.wf_write y _ _
  · exact fun s a k => State.onSite_kept k fun t w => Site.onCluster_canonical w fun c z => z
  · exact fun s a k => State.onWatch_kept k
  · exact fun s a k => State.onWatch_kept k
  · exact fun s a k => State.onNet_kept k

theorem State.loadSlice_kept {s₀ s t : State} (hk : Kept s₀ s) {v home vf slot : Nat} {x : SliceImage} {m : MgmtRun}
    (e : s.loadSlice v home vf slot x m = .ok t) : Kept s₀ t := by
  unfold State.loadSlice at e
  dsimp only at e
  split at e
  · cases e
  · split at e
    · cases e
    · split at e
      · cases e
      · split at e
        · cases e
        · cases e
          refine State.retryAll_kept (State.relist_kept (State.loadRest_kept (State.onFe_kept (loadObjs_kept (loadUnits_kept
            (loadAllots_kept (State.relist_kept (State.fillSlot_kept (State.onVd_kept ?_))) ‹_›) ‹_›) ‹_›))))
          exact State.drawSecret_kept hk

theorem State.landAll_kept {s₀ s : State} (hk : Kept s₀ s) {v : Nat} : Kept s₀ (s.landAll v) :=
  Kept.foldl hk fun s u k => by
    split
    · exact k
    · dsimp only
      split
      · exact k
      · split
        · exact State.onUnit_kept k fun _ w => w
        · exact State.restore_kept k

theorem State.thaw_kept {s₀ s : State} (hk : Kept s₀ s) {v : Nat} :
    Kept s₀ (State.thaw s v) := by
  unfold State.thaw
  (try dsimp only)
  repeat' first
    | with_reducible assumption
    | with_reducible apply State.onVd_kept
    | with_reducible apply State.event_kept
    | with_reducible apply State.retryAll_kept
    | with_reducible apply State.landAll_kept
    | exact fun _ k => k
    | split
    | intro

theorem Site.irqDefaults_canonical {t : Site} (hk : t.canonical) : t.irqDefaults.canonical :=
  Site.foldl_canonical hk fun t a k => by
    split
    · exact Site.setFld_canonical (Site.setFld_canonical k)
    · exact k

theorem Site.bootVes_canonical {t : Site} (hk : t.canonical) {p : Nat} {failed : List Nat} :
    (t.bootVes p failed).canonical :=
  Site.onCore_canonical (Site.setFld_canonical (Site.setFld_canonical (Site.foldl_canonical hk fun _ _ k =>
    Site.setVeMap_canonical k))) fun _ w => w

theorem bootSite_canonical {t : Site} {i : Nat} {b : BootInput} : (bootSite t i b).canonical := by
  unfold bootSite
  extract_lets +onlyGivenNames f x1 x2 x3
  have h1 : x1.canonical := Site.sameMemories Site.default_canonical rfl rfl rfl rfl
  have h2 : x2.canonical := by
    unfold x2
    split
    · exact h1
    · exact Site.setReg_canonical h1
  have h3 : x3.canonical := Site.setFld_canonical (Site.setFld_canonical h2)
  clear_value x3
  split
  · exact Site.sameMemories h3 rfl rfl rfl rfl
  · dsimp only
    split
    · exact Site.sameMemories h3 rfl rfl rfl rfl
    · exact Site.sameMemories h3 rfl rfl rfl rfl

theorem State.bootRecords_kept {s₀ s : State} (hk : Kept s₀ s) {i : Nat} {b : BootInput} :
    Kept s₀ (State.bootRecords s i b) := by
  unfold State.bootRecords
  (try dsimp only)
  repeat' first
    | with_reducible assumption
    | with_reducible apply State.onSite_kept
    | with_reducible apply State.report_kept
    | with_reducible apply Kept.foldl
    | with_reducible apply Kept.foldlFst
    | with_reducible apply Site.foldl_canonical
    | with_reducible apply Site.setReg_canonical
    | exact fun _ k => k
    | split
    | intro

theorem State.bootCores_kept {s₀ s : State} (hk : Kept s₀ s) {i : Nat} {b : BootInput} :
    Kept s₀ (s.bootCores i b) := by
  unfold State.bootCores
  extract_lets +onlyGivenNames good cap cert eff enabled n s1 failed bad on s2
  have h1 : Kept s₀ s1 := by
    unfold s1
    split
    · exact State.report_kept hk
    · exact hk
  have h2 : Kept s₀ s2 := by
    refine State.onSite_kept h1 fun t k => ?_
    extract_lets +onlyGivenNames t1 t2 t3 t4 t5
    have k4 : t4.canonical := by
      refine Site.foldl_canonical k fun t p w => ?_
      extract_lets +onlyGivenNames rows u u'
      have hu : u.canonical := by
        unfold u
        refine Site.onCore_canonical (Site.onCore_canonical w ?_) ?_
        · exact fun _ z => z
        · exact fun _ z => Core.steer_canonical z
      clear_value u
      have hb {n : Nat} {l : List Nat} : (u.bootVes n l).canonical := Site.bootVes_canonical hu
      split
      · exact Site.setFld_canonical hb
      · split
        · exact hb
        · exact Site.setFld_canonical hb
    have k5 : t5.canonical := by
      unfold t5
      refine Site.onTier_canonical (Site.onTier_canonical k4 ?_) ?_ <;> exact fun _ w => w
    exact k5
  split
  · exact State.onSite_kept h2 fun _ k => k
  · exact State.setFld_kept h2

theorem State.bootPorts_kept {s₀ s : State} (hk : Kept s₀ s) {i : Nat} : Kept s₀ (s.bootPorts i) := by
  unfold State.bootPorts
  refine State.hostLink_kept (State.onSite_kept (State.drawSecret_kept hk) fun t k => ?_)
  extract_lets +onlyGivenNames t1 t2
  have h1 : t1.canonical := by
    unfold t1
    refine Site.foldl_canonical k ?_
    exact fun _ _ w => Site.setFld_canonical w
  clear_value t1
  have h2 : t2.canonical := by
    unfold t2
    refine Site.foldl_canonical h1 ?_
    exact fun _ _ w => Site.setFld_canonical w
  clear_value t2
  have h3 := Site.irqDefaults_canonical h2
  generalize t2.irqDefaults = t3 at h3
  exact Site.sameMemories h3 rfl rfl rfl rfl

theorem State.startSite_kept {s₀ s : State} (hk : Kept s₀ s) {i : Nat} {b : BootInput} :
    Kept s₀ (State.startSite s i b) := by
  unfold State.startSite
  (try dsimp only)
  repeat' first
    | with_reducible assumption
    | with_reducible apply State.onSite_kept
    | with_reducible apply State.setFld_kept
    | with_reducible apply State.assertFault_kept
    | with_reducible apply State.fwRecord_kept
    | with_reducible apply State.bootRecords_kept
    | with_reducible apply State.bootCores_kept
    | with_reducible apply State.bootPorts_kept
    | with_reducible apply Site.setFld_canonical
    | with_reducible apply bootSite_canonical
    | exact fun _ k => k
    | split
    | intro

theorem Site.cold_canonical {t : Site} : t.cold.canonical := Site.sameMemories Site.default_canonical rfl rfl rfl rfl

theorem State.coldSite_kept {s₀ s : State} (hk : Kept s₀ s) {i : Nat} : Kept s₀ (s.coldSite i) := by
  unfold State.coldSite
  extract_lets +onlyGivenNames s1 s2 s3 seq s4
  have h1 : Kept s₀ s1 := Kept.foldl hk fun s a k => by
    obtain ⟨v, c⟩ := a
    exact State.killContext_kept k
  have h2 : Kept s₀ s2 := Kept.foldl h1 fun s a k => State.onVd_kept k
  have h3 : Kept s₀ s3 := State.onSite_kept h2 fun _ _ => Site.cold_canonical
  clear_value s3
  split
  · have h4 : Kept s₀ s4 := State.onPart_kept h3
    clear_value s4
    split
    · exact ⟨h4.1, h4.2.1, h4.2.2.1, fun k =>
        have g := h4.2.2.2 k
        ⟨g.1, List.length_replicate, g.2.2⟩⟩
    · exact h4
  · exact h3

theorem State.dropSites_kept {s₀ s : State} (hk : Kept s₀ s) {lead : Option Nat} {l : List Nat} :
    Kept s₀ (State.dropSites s lead l) := by
  unfold State.dropSites
  (try dsimp only)
  repeat' first
    | with_reducible assumption
    | with_reducible apply State.onSite_kept
    | with_reducible apply Kept.foldl
    | with_reducible apply Kept.foldlFst
    | with_reducible apply Site.foldl_canonical
    | exact fun _ k => k
    | split
    | intro

theorem State.d2dRoutes_kept {s₀ s : State} (hk : Kept s₀ s) {i : Nat} :
    Kept s₀ (State.d2dRoutes s i) := by
  unfold State.d2dRoutes
  (try dsimp only)
  repeat' first
    | with_reducible assumption
    | with_reducible apply State.setFld_kept
    | with_reducible apply Kept.foldl
    | with_reducible apply Kept.foldlFst
    | with_reducible apply Site.foldl_canonical
    | with_reducible apply Site.setFld_canonical
    | exact fun _ k => k
    | split
    | intro

theorem State.noLead_kept {s₀ s : State} (hk : Kept s₀ s) {l : List Nat} {conflicts : List (Nat × Nat)} :
    Kept s₀ (State.noLead s l conflicts) := by
  unfold State.noLead
  (try dsimp only)
  repeat' first
    | with_reducible assumption
    | with_reducible apply State.onPins_kept
    | with_reducible apply State.onBox_kept
    | with_reducible apply State.tellBox_kept
    | with_reducible apply Kept.foldl
    | with_reducible apply Kept.foldlFst
    | with_reducible apply Site.foldl_canonical
    | exact fun _ k => k
    | split
    | intro

theorem State.ledBy_kept {s₀ s : State} (hk : Kept s₀ s) {k : Nat} {on late : List Nat} {conflicts : List (Nat × Nat)} :
    Kept s₀ (State.ledBy s k on late conflicts) := by
  unfold State.ledBy
  (try dsimp only)
  repeat' first
    | with_reducible assumption
    | with_reducible apply State.onSite_kept
    | with_reducible apply State.onPart_kept
    | with_reducible apply State.setFld_kept
    | with_reducible apply State.report_kept
    | with_reducible apply State.drawSecret_kept
    | with_reducible refine State.drawSecret_kept' ?_ ‹_›
    | with_reducible apply State.dropSites_kept
    | with_reducible apply State.d2dRoutes_kept
    | with_reducible apply Kept.foldl
    | with_reducible apply Kept.foldlFst
    | with_reducible apply Site.foldl_canonical
    | with_reducible apply Site.setFld_canonical
    | exact fun _ k => k
    | split
    | intro

theorem State.settleMembers_kept {s₀ s : State} (hk : Kept s₀ s)  :
    Kept s₀ (State.settleMembers s) := by
  unfold State.settleMembers
  (try dsimp only)
  repeat' first
    | with_reducible assumption
    | with_reducible apply State.onPart_kept
    | with_reducible apply State.setFld_kept
    | with_reducible apply State.noLead_kept
    | with_reducible apply State.ledBy_kept
    | with_reducible apply Kept.foldl
    | with_reducible apply Kept.foldlFst
    | with_reducible apply Site.foldl_canonical
    | with_reducible apply Site.setFld_canonical
    | exact fun _ k => k
    | split
    | intro

theorem Site.scrub_canonical {t : Site} (h : t.canonical) : t.scrub.canonical := by
  refine ⟨(List.length_map _).trans h.1, (List.length_map _).trans h.2.1, mem_map h.2.2.1 fun c k => ?_,
    mem_map h.2.2.2.1 fun _ _ => Mem.wf_nil, Mem.wf_nil, Mem.wf_nil⟩
  exact ⟨Mem.wf_nil, Mem.wf_nil, mem_map (f := fun u : ReelUnit => { u with images := [] }) k.2.2 fun _ _ y hy => nomatch hy⟩

theorem State.unlock_kept {s₀ s : State} (hk : Kept s₀ s) : Kept s₀ s.unlock := by
  unfold State.unlock
  dsimp only
  refine State.onPart_kept (Kept.mapSites (Kept.foldl (Kept.foldl (Kept.foldl hk ?_) ?_) ?_) fun t k => ?_)
  · exact fun s a k => State.killSlice_kept k
  · exact fun s a k => State.tdiError_kept k
  · exact fun s a k => State.onVd_kept (State.clearUnits_kept (State.zeroPages_kept (Kept.foldl (Kept.foldl k fun _ _ w =>
      State.drainSlot_kept w) fun _ _ w => State.destroySlot_kept w)))
  · split
    · exact Site.sameMemories (Site.scrub_canonical k) rfl rfl rfl rfl
    · exact Site.sameMemories k rfl rfl rfl rfl

end Sys2Proof.Machine
end

