-- ==== Sys2Proof/Laws/KeptRow.lean ====
section
/-! SUPPORT. The shared frames of the rows keep what every command keeps if the row's own part does. -/

namespace Sys2Proof.Machine

variable {s₀ s t : State}

/-- What a management command comes to keeps what `s₀` has. -/
def KeptEnd (s₀ : State) : MEnd → Prop
  | .done t _ _ => Kept s₀ t
  | .later t => Kept s₀ t
  | .fail _ _ => True
  | .wait => True

theorem KeptEnd.done (h : Kept s₀ s) {st : W16} {b : Bytes} : KeptEnd s₀ (.done s st b) := h
theorem KeptEnd.later (h : Kept s₀ s) : KeptEnd s₀ (.later s) := h
theorem KeptEnd.ofDone {st : W16} {b : Bytes} (h : KeptEnd s₀ (.done t st b)) : Kept s₀ t := h
theorem KeptEnd.ofLater (h : KeptEnd s₀ (.later t)) : Kept s₀ t := h

theorem vecRow_kept {cls op : Nat} {e : VeRef} {w : W64} {body : VCtx → State → State}
    (h : ∀ c u, Kept s u → Kept s (body c u)) (r : vecRow cls op e w s body = .next t) : Kept s t := by
  unfold vecRow at r
  cases r
  repeat' first
    | with_reducible exact Kept.refl s
    | with_reducible exact VCtx.fault_kept (Kept.refl s)
    | with_reducible exact VCtx.eccFault_kept (Kept.refl s)
    | with_reducible exact h _ _ (Kept.refl s)
    | split

theorem seRow_kept {e : SeRef} {n w : Nat} {body : SCtx → State → State}
    (h : ∀ c u, Kept s u → Kept s (body c u)) (r : seRow e s n w body = .next t) : Kept s t := by
  unfold seRow at r
  cases r
  repeat' first
    | with_reducible exact Kept.refl s
    | with_reducible exact SCtx.trap_kept (Kept.refl s)
    | with_reducible exact h _ _ (Kept.refl s)
    | split

theorem xRow_kept {f7 f3 : Nat} {e : SeRef} {w : W32} {body : SCtx → State → State}
    (h : ∀ c u, Kept s u → Kept s (body c u)) (r : xRow f7 f3 e w s body = .next t) : Kept s t :=
  seRow_kept (fun _ _ k => by
    split
    · exact h _ _ k
    · exact k) r

theorem ctlRow_kept {c : CmdRef} {op : Nat} {body : Job → Run CtlEnd} (h : ∀ j, Keeps s (body j))
    (r : ctlRow c op s body = .next t) : Kept s t := by
  unfold ctlRow at r
  cases r
  split
  · exact Kept.refl s
  · split
    · exact Kept.refl s
    · rename_i j _ _
      have k := h j s (Kept.refl s)
      generalize (body j).run s = o at k
      repeat' first
        | with_reducible exact State.endCtl_kept k
        | with_reducible exact State.settle_kept (State.pump_kept (State.onCmd_kept k))
        | with_reducible exact State.onCmd_kept k
        | with_reducible exact State.pump_kept k
        | with_reducible exact Job.suspend_kept (Kept.refl s)
        | split

theorem mgmtRow_kept {m : MgmtRun} {op : Nat} {bad : Bytes → Bool} {body : MReq → MEnd}
    (h : ∀ r, KeptEnd s (body r)) (e : mgmtRow m op s bad body = .next t) : Kept s t := by
  unfold mgmtRow at e
  cases e
  split
  · exact Kept.refl s
  · rename_i r _
    have k := h r
    generalize body r = o at k
    repeat' first
      | with_reducible exact Kept.refl s
      | with_reducible exact State.reply_kept (Kept.refl s)
      | with_reducible exact State.reply_kept k.ofDone
      | with_reducible exact State.begin_kept k.ofLater
      | split

theorem okWith_kept (h : Kept s₀ s) {b : Bytes} : KeptEnd s₀ (okWith s b) := h
theorem failWith_kept {st : W16} : KeptEnd s₀ (failWith st) := trivial

theorem State.atInst_kept {id : Nat} {k : Nat → MEnd} (h : ∀ i, KeptEnd s₀ (k i)) : KeptEnd s₀ (s.atInst id k) := by
  unfold State.atInst
  dsimp only
  split
  · trivial
  · split
    · trivial
    · exact h _

theorem State.atCore_kept {id p : Nat} {k : Nat → MEnd} (h : ∀ i, KeptEnd s₀ (k i)) : KeptEnd s₀ (s.atCore id p k) :=
  State.atInst_kept fun i => by
    split
    · exact h i
    · trivial

theorem State.ofSlice_kept {v : Nat} {k : Vd → MEnd} (h : ∀ d, KeptEnd s₀ (k d)) : KeptEnd s₀ (s.ofSlice v k) := by
  unfold State.ofSlice
  split
  · exact h _
  · trivial

theorem State.shapes_kept {v : Nat} {k : Vd → MEnd} (h : ∀ d, KeptEnd s₀ (k d)) : KeptEnd s₀ (s.shapes v k) :=
  State.ofSlice_kept fun d => by
    split
    · trivial
    · split
      · trivial
      · exact h d

theorem State.anySlice_kept {v : Nat} {k : Vd → MEnd} (h : ∀ d, KeptEnd s₀ (k d)) : KeptEnd s₀ (s.anySlice v k) := by
  unfold State.anySlice
  repeat' first
    | exact trivial
    | with_reducible exact h _
    | split

theorem State.atPort_kept {id : Nat} {k : Nat → MEnd} (h : ∀ i, KeptEnd s₀ (k i)) : KeptEnd s₀ (s.atPort id k) := by
  unfold State.atPort
  dsimp only
  repeat' first
    | exact trivial
    | with_reducible exact h _
    | split

theorem State.atPlace_kept {b : Bytes} {k : MEnd} (h : KeptEnd s₀ k) : KeptEnd s₀ (s.atPlace b k) := by
  unfold State.atPlace
  split
  · exact State.atCore_kept fun _ => h
  · exact h

theorem orFail_kept {r : Except W16 State} {k : State → MEnd} (h : ∀ t, r = .ok t → KeptEnd s₀ (k t)) :
    KeptEnd s₀ (orFail r k) := by
  unfold orFail
  split
  · exact h _ rfl
  · trivial

theorem State.powerTo_kept (hk : Kept s₀ s) {i : Nat} {kind : PowerUnit} {n target : Nat} {r : MReq} :
    KeptEnd s₀ (s.powerTo i kind n target r) := by
  unfold State.powerTo
  dsimp only
  split
  · exact State.setPower_kept (State.replyTag_kept hk)
  · split
    · exact State.setPower_kept (State.powerNext_kept (State.setPower_kept hk))
    · exact State.powerNext_kept (State.setPower_kept hk)

end Sys2Proof.Machine
end

