-- ==== Sys2Proof/Laws/KeptX1.lean ====
section
/-! SUPPORT. The commands of Vector, Riscv, Scalar, Transport, Memory, Access, Tensor, Zoo, Front, Craene, Reply, Tiers, Mmu, Mover, Issue keep what every command keeps. -/

set_option linter.unusedVariables false

namespace Sys2Proof.Machine

theorem execVadd_kept {s t : State} {e : VeRef} {w : W64} (e : execVadd e w s = .next t) : Kept s t := by
  have hk := Kept.refl s
  unfold execVadd at e
  (try dsimp only)
  repeat' first
    | with_reducible assumption
    | with_reducible refine vecRow_kept ?_ ‹_›
    | with_reducible apply vvArith_kept
    | exact fun _ k => k
    | split
    | dsimp only
    | intro

theorem execVsub_kept {s t : State} {e : VeRef} {w : W64} (e : execVsub e w s = .next t) : Kept s t := by
  have hk := Kept.refl s
  unfold execVsub at e
  (try dsimp only)
  repeat' first
    | with_reducible assumption
    | with_reducible refine vecRow_kept ?_ ‹_›
    | with_reducible apply vvArith_kept
    | exact fun _ k => k
    | split
    | dsimp only
    | intro

theorem execVmul_kept {s t : State} {e : VeRef} {w : W64} (e : execVmul e w s = .next t) : Kept s t := by
  have hk := Kept.refl s
  unfold execVmul at e
  (try dsimp only)
  repeat' first
    | with_reducible assumption
    | with_reducible refine vecRow_kept ?_ ‹_›
    | with_reducible apply vvArith_kept
    | exact fun _ k => k
    | split
    | dsimp only
    | intro

theorem execVfma_kept {s t : State} {e : VeRef} {w : W64} (e : execVfma e w s = .next t) : Kept s t := by
  have hk := Kept.refl s
  unfold execVfma at e
  (try dsimp only)
  repeat' first
    | with_reducible assumption
    | with_reducible refine vecRow_kept ?_ ‹_›
    | with_reducible apply vvArith_kept
    | exact fun _ k => k
    | split
    | dsimp only
    | intro

theorem execVfms_kept {s t : State} {e : VeRef} {w : W64} (e : execVfms e w s = .next t) : Kept s t := by
  have hk := Kept.refl s
  unfold execVfms at e
  (try dsimp only)
  repeat' first
    | with_reducible assumption
    | with_reducible refine vecRow_kept ?_ ‹_›
    | with_reducible apply vvArith_kept
    | exact fun _ k => k
    | split
    | dsimp only
    | intro

theorem execVmax_kept {s t : State} {e : VeRef} {w : W64} (e : execVmax e w s = .next t) : Kept s t := by
  have hk := Kept.refl s
  unfold execVmax at e
  (try dsimp only)
  repeat' first
    | with_reducible assumption
    | with_reducible refine vecRow_kept ?_ ‹_›
    | with_reducible apply vvArith_kept
    | exact fun _ k => k
    | split
    | dsimp only
    | intro

theorem execVmin_kept {s t : State} {e : VeRef} {w : W64} (e : execVmin e w s = .next t) : Kept s t := by
  have hk := Kept.refl s
  unfold execVmin at e
  (try dsimp only)
  repeat' first
    | with_reducible assumption
    | with_reducible refine vecRow_kept ?_ ‹_›
    | with_reducible apply vvArith_kept
    | exact fun _ k => k
    | split
    | dsimp only
    | intro

theorem execVabs_kept {s t : State} {e : VeRef} {w : W64} (e : execVabs e w s = .next t) : Kept s t := by
  have hk := Kept.refl s
  unfold execVabs at e
  (try dsimp only)
  repeat' first
    | with_reducible assumption
    | with_reducible refine vecRow_kept ?_ ‹_›
    | with_reducible apply vvArith_kept
    | exact fun _ k => k
    | split
    | dsimp only
    | intro

theorem execVneg_kept {s t : State} {e : VeRef} {w : W64} (e : execVneg e w s = .next t) : Kept s t := by
  have hk := Kept.refl s
  unfold execVneg at e
  (try dsimp only)
  repeat' first
    | with_reducible assumption
    | with_reducible refine vecRow_kept ?_ ‹_›
    | with_reducible apply vvArith_kept
    | exact fun _ k => k
    | split
    | dsimp only
    | intro

theorem execVand_kept {s t : State} {e : VeRef} {w : W64} (e : execVand e w s = .next t) : Kept s t := by
  have hk := Kept.refl s
  unfold execVand at e
  (try dsimp only)
  repeat' first
    | with_reducible assumption
    | with_reducible refine vecRow_kept ?_ ‹_›
    | with_reducible apply vvBits_kept
    | exact fun _ k => k
    | split
    | dsimp only
    | intro

theorem execVor_kept {s t : State} {e : VeRef} {w : W64} (e : execVor e w s = .next t) : Kept s t := by
  have hk := Kept.refl s
  unfold execVor at e
  (try dsimp only)
  repeat' first
    | with_reducible assumption
    | with_reducible refine vecRow_kept ?_ ‹_›
    | with_reducible apply vvBits_kept
    | exact fun _ k => k
    | split
    | dsimp only
    | intro

theorem execVxor_kept {s t : State} {e : VeRef} {w : W64} (e : execVxor e w s = .next t) : Kept s t := by
  have hk := Kept.refl s
  unfold execVxor at e
  (try dsimp only)
  repeat' first
    | with_reducible assumption
    | with_reducible refine vecRow_kept ?_ ‹_›
    | with_reducible apply vvBits_kept
    | exact fun _ k => k
    | split
    | dsimp only
    | intro

theorem execVshl_kept {s t : State} {e : VeRef} {w : W64} (e : execVshl e w s = .next t) : Kept s t := by
  have hk := Kept.refl s
  unfold execVshl at e
  (try dsimp only)
  repeat' first
    | with_reducible assumption
    | with_reducible refine vecRow_kept ?_ ‹_›
    | with_reducible apply vvArith_kept
    | exact fun _ k => k
    | split
    | dsimp only
    | intro

theorem execVsra_kept {s t : State} {e : VeRef} {w : W64} (e : execVsra e w s = .next t) : Kept s t := by
  have hk := Kept.refl s
  unfold execVsra at e
  (try dsimp only)
  repeat' first
    | with_reducible assumption
    | with_reducible refine vecRow_kept ?_ ‹_›
    | with_reducible apply vvBits_kept
    | exact fun _ k => k
    | split
    | dsimp only
    | intro

theorem execVsrl_kept {s t : State} {e : VeRef} {w : W64} (e : execVsrl e w s = .next t) : Kept s t := by
  have hk := Kept.refl s
  unfold execVsrl at e
  (try dsimp only)
  repeat' first
    | with_reducible assumption
    | with_reducible refine vecRow_kept ?_ ‹_›
    | with_reducible apply vvBits_kept
    | exact fun _ k => k
    | split
    | dsimp only
    | intro

theorem execVsel_kept {s t : State} {e : VeRef} {w : W64} (e : execVsel e w s = .next t) : Kept s t := by
  have hk := Kept.refl s
  unfold execVsel at e
  (try dsimp only)
  repeat' first
    | with_reducible assumption
    | with_reducible refine vecRow_kept ?_ ‹_›
    | with_reducible apply VCtx.next_kept
    | exact fun _ k => k
    | split
    | dsimp only
    | intro

theorem execVmov_kept {s t : State} {e : VeRef} {w : W64} (e : execVmov e w s = .next t) : Kept s t := by
  have hk := Kept.refl s
  unfold execVmov at e
  (try dsimp only)
  repeat' first
    | with_reducible assumption
    | with_reducible refine vecRow_kept ?_ ‹_›
    | with_reducible apply vvBits_kept
    | exact fun _ k => k
    | split
    | dsimp only
    | intro

theorem execVperm_kept {s t : State} {e : VeRef} {w : W64} (e : execVperm e w s = .next t) : Kept s t := by
  have hk := Kept.refl s
  unfold execVperm at e
  (try dsimp only)
  repeat' first
    | with_reducible assumption
    | with_reducible refine vecRow_kept ?_ ‹_›
    | with_reducible apply VCtx.next_kept
    | exact fun _ k => k
    | split
    | dsimp only
    | intro

theorem execVcmpeq_kept {s t : State} {e : VeRef} {w : W64} (e : execVcmpeq e w s = .next t) : Kept s t := by
  have hk := Kept.refl s
  unfold execVcmpeq at e
  (try dsimp only)
  repeat' first
    | with_reducible assumption
    | with_reducible refine vecRow_kept ?_ ‹_›
    | with_reducible apply vvCmp_kept
    | exact fun _ k => k
    | split
    | dsimp only
    | intro

theorem execVcmpne_kept {s t : State} {e : VeRef} {w : W64} (e : execVcmpne e w s = .next t) : Kept s t := by
  have hk := Kept.refl s
  unfold execVcmpne at e
  (try dsimp only)
  repeat' first
    | with_reducible assumption
    | with_reducible refine vecRow_kept ?_ ‹_›
    | with_reducible apply vvCmp_kept
    | exact fun _ k => k
    | split
    | dsimp only
    | intro

theorem execVcmplt_kept {s t : State} {e : VeRef} {w : W64} (e : execVcmplt e w s = .next t) : Kept s t := by
  have hk := Kept.refl s
  unfold execVcmplt at e
  (try dsimp only)
  repeat' first
    | with_reducible assumption
    | with_reducible refine vecRow_kept ?_ ‹_›
    | with_reducible apply vvCmp_kept
    | exact fun _ k => k
    | split
    | dsimp only
    | intro

theorem execVcmple_kept {s t : State} {e : VeRef} {w : W64} (e : execVcmple e w s = .next t) : Kept s t := by
  have hk := Kept.refl s
  unfold execVcmple at e
  (try dsimp only)
  repeat' first
    | with_reducible assumption
    | with_reducible refine vecRow_kept ?_ ‹_›
    | with_reducible apply vvCmp_kept
    | exact fun _ k => k
    | split
    | dsimp only
    | intro

theorem execVcmpuo_kept {s t : State} {e : VeRef} {w : W64} (e : execVcmpuo e w s = .next t) : Kept s t := by
  have hk := Kept.refl s
  unfold execVcmpuo at e
  (try dsimp only)
  repeat' first
    | with_reducible assumption
    | with_reducible refine vecRow_kept ?_ ‹_›
    | with_reducible apply vvCmp_kept
    | exact fun _ k => k
    | split
    | dsimp only
    | intro

theorem execVrsum_kept {s t : State} {e : VeRef} {w : W64} (e : execVrsum e w s = .next t) : Kept s t := by
  have hk := Kept.refl s
  unfold execVrsum at e
  (try dsimp only)
  repeat' first
    | with_reducible assumption
    | with_reducible refine vecRow_kept ?_ ‹_›
    | with_reducible apply vrSum_kept
    | exact fun _ k => k
    | split
    | dsimp only
    | intro

theorem execVrmax_kept {s t : State} {e : VeRef} {w : W64} (e : execVrmax e w s = .next t) : Kept s t := by
  have hk := Kept.refl s
  unfold execVrmax at e
  (try dsimp only)
  repeat' first
    | with_reducible assumption
    | with_reducible refine vecRow_kept ?_ ‹_›
    | with_reducible apply vrPick_kept
    | exact fun _ k => k
    | split
    | dsimp only
    | intro

theorem execVrmin_kept {s t : State} {e : VeRef} {w : W64} (e : execVrmin e w s = .next t) : Kept s t := by
  have hk := Kept.refl s
  unfold execVrmin at e
  (try dsimp only)
  repeat' first
    | with_reducible assumption
    | with_reducible refine vecRow_kept ?_ ‹_›
    | with_reducible apply vrPick_kept
    | exact fun _ k => k
    | split
    | dsimp only
    | intro

theorem execVadds_kept {s t : State} {e : VeRef} {w : W64} (e : execVadds e w s = .next t) : Kept s t := by
  have hk := Kept.refl s
  unfold execVadds at e
  (try dsimp only)
  repeat' first
    | with_reducible assumption
    | with_reducible refine vecRow_kept ?_ ‹_›
    | with_reducible apply vsArith_kept
    | exact fun _ k => k
    | split
    | dsimp only
    | intro

theorem execVsubs_kept {s t : State} {e : VeRef} {w : W64} (e : execVsubs e w s = .next t) : Kept s t := by
  have hk := Kept.refl s
  unfold execVsubs at e
  (try dsimp only)
  repeat' first
    | with_reducible assumption
    | with_reducible refine vecRow_kept ?_ ‹_›
    | with_reducible apply vsArith_kept
    | exact fun _ k => k
    | split
    | dsimp only
    | intro

theorem execVrsubs_kept {s t : State} {e : VeRef} {w : W64} (e : execVrsubs e w s = .next t) : Kept s t := by
  have hk := Kept.refl s
  unfold execVrsubs at e
  (try dsimp only)
  repeat' first
    | with_reducible assumption
    | with_reducible refine vecRow_kept ?_ ‹_›
    | with_reducible apply vsArith_kept
    | exact fun _ k => k
    | split
    | dsimp only
    | intro

theorem execVmuls_kept {s t : State} {e : VeRef} {w : W64} (e : execVmuls e w s = .next t) : Kept s t := by
  have hk := Kept.refl s
  unfold execVmuls at e
  (try dsimp only)
  repeat' first
    | with_reducible assumption
    | with_reducible refine vecRow_kept ?_ ‹_›
    | with_reducible apply vsArith_kept
    | exact fun _ k => k
    | split
    | dsimp only
    | intro

theorem execVfmas_kept {s t : State} {e : VeRef} {w : W64} (e : execVfmas e w s = .next t) : Kept s t := by
  have hk := Kept.refl s
  unfold execVfmas at e
  (try dsimp only)
  repeat' first
    | with_reducible assumption
    | with_reducible refine vecRow_kept ?_ ‹_›
    | with_reducible apply vsArith_kept
    | exact fun _ k => k
    | split
    | dsimp only
    | intro

theorem execVmaxs_kept {s t : State} {e : VeRef} {w : W64} (e : execVmaxs e w s = .next t) : Kept s t := by
  have hk := Kept.refl s
  unfold execVmaxs at e
  (try dsimp only)
  repeat' first
    | with_reducible assumption
    | with_reducible refine vecRow_kept ?_ ‹_›
    | with_reducible apply vsArith_kept
    | exact fun _ k => k
    | split
    | dsimp only
    | intro

theorem execVmins_kept {s t : State} {e : VeRef} {w : W64} (e : execVmins e w s = .next t) : Kept s t := by
  have hk := Kept.refl s
  unfold execVmins at e
  (try dsimp only)
  repeat' first
    | with_reducible assumption
    | with_reducible refine vecRow_kept ?_ ‹_›
    | with_reducible apply vsArith_kept
    | exact fun _ k => k
    | split
    | dsimp only
    | intro

theorem execVands_kept {s t : State} {e : VeRef} {w : W64} (e : execVands e w s = .next t) : Kept s t := by
  have hk := Kept.refl s
  unfold execVands at e
  (try dsimp only)
  repeat' first
    | with_reducible assumption
    | with_reducible refine vecRow_kept ?_ ‹_›
    | with_reducible apply vsBits_kept
    | exact fun _ k => k
    | split
    | dsimp only
    | intro

theorem execVors_kept {s t : State} {e : VeRef} {w : W64} (e : execVors e w s = .next t) : Kept s t := by
  have hk := Kept.refl s
  unfold execVors at e
  (try dsimp only)
  repeat' first
    | with_reducible assumption
    | with_reducible refine vecRow_kept ?_ ‹_›
    | with_reducible apply vsBits_kept
    | exact fun _ k => k
    | split
    | dsimp only
    | intro

theorem execVxors_kept {s t : State} {e : VeRef} {w : W64} (e : execVxors e w s = .next t) : Kept s t := by
  have hk := Kept.refl s
  unfold execVxors at e
  (try dsimp only)
  repeat' first
    | with_reducible assumption
    | with_reducible refine vecRow_kept ?_ ‹_›
    | with_reducible apply vsBits_kept
    | exact fun _ k => k
    | split
    | dsimp only
    | intro

theorem execVshls_kept {s t : State} {e : VeRef} {w : W64} (e : execVshls e w s = .next t) : Kept s t := by
  have hk := Kept.refl s
  unfold execVshls at e
  (try dsimp only)
  repeat' first
    | with_reducible assumption
    | with_reducible refine vecRow_kept ?_ ‹_›
    | with_reducible apply vsBits_kept
    | exact fun _ k => k
    | split
    | dsimp only
    | intro

theorem execVsras_kept {s t : State} {e : VeRef} {w : W64} (e : execVsras e w s = .next t) : Kept s t := by
  have hk := Kept.refl s
  unfold execVsras at e
  (try dsimp only)
  repeat' first
    | with_reducible assumption
    | with_reducible refine vecRow_kept ?_ ‹_›
    | with_reducible apply vsBits_kept
    | exact fun _ k => k
    | split
    | dsimp only
    | intro

theorem execVsrls_kept {s t : State} {e : VeRef} {w : W64} (e : execVsrls e w s = .next t) : Kept s t := by
  have hk := Kept.refl s
  unfold execVsrls at e
  (try dsimp only)
  repeat' first
    | with_reducible assumption
    | with_reducible refine vecRow_kept ?_ ‹_›
    | with_reducible apply vsBits_kept
    | exact fun _ k => k
    | split
    | dsimp only
    | intro

theorem execVsplat_kept {s t : State} {e : VeRef} {w : W64} (e : execVsplat e w s = .next t) : Kept s t := by
  have hk := Kept.refl s
  unfold execVsplat at e
  (try dsimp only)
  repeat' first
    | with_reducible assumption
    | with_reducible refine vecRow_kept ?_ ‹_›
    | with_reducible apply vsBits_kept
    | exact fun _ k => k
    | split
    | dsimp only
    | intro

theorem execViota_kept {s t : State} {e : VeRef} {w : W64} (e : execViota e w s = .next t) : Kept s t := by
  have hk := Kept.refl s
  unfold execViota at e
  (try dsimp only)
  repeat' first
    | with_reducible assumption
    | with_reducible refine vecRow_kept ?_ ‹_›
    | with_reducible apply VCtx.next_kept
    | exact fun _ k => k
    | split
    | dsimp only
    | intro

theorem execVexta_kept {s t : State} {e : VeRef} {w : W64} (e : execVexta e w s = .next t) : Kept s t := by
  have hk := Kept.refl s
  unfold execVexta at e
  (try dsimp only)
  repeat' first
    | with_reducible assumption
    | with_reducible refine vecRow_kept ?_ ‹_›
    | with_reducible apply VCtx.next_kept
    | exact fun _ k => k
    | split
    | dsimp only
    | intro

theorem execVcmpeqs_kept {s t : State} {e : VeRef} {w : W64} (e : execVcmpeqs e w s = .next t) : Kept s t := by
  have hk := Kept.refl s
  unfold execVcmpeqs at e
  (try dsimp only)
  repeat' first
    | with_reducible assumption
    | with_reducible refine vecRow_kept ?_ ‹_›
    | with_reducible apply vsCmp_kept
    | exact fun _ k => k
    | split
    | dsimp only
    | intro

theorem execVcmpnes_kept {s t : State} {e : VeRef} {w : W64} (e : execVcmpnes e w s = .next t) : Kept s t := by
  have hk := Kept.refl s
  unfold execVcmpnes at e
  (try dsimp only)
  repeat' first
    | with_reducible assumption
    | with_reducible refine vecRow_kept ?_ ‹_›
    | with_reducible apply vsCmp_kept
    | exact fun _ k => k
    | split
    | dsimp only
    | intro

theorem execVcmplts_kept {s t : State} {e : VeRef} {w : W64} (e : execVcmplts e w s = .next t) : Kept s t := by
  have hk := Kept.refl s
  unfold execVcmplts at e
  (try dsimp only)
  repeat' first
    | with_reducible assumption
    | with_reducible refine vecRow_kept ?_ ‹_›
    | with_reducible apply vsCmp_kept
    | exact fun _ k => k
    | split
    | dsimp only
    | intro

theorem execVcmples_kept {s t : State} {e : VeRef} {w : W64} (e : execVcmples e w s = .next t) : Kept s t := by
  have hk := Kept.refl s
  unfold execVcmples at e
  (try dsimp only)
  repeat' first
    | with_reducible assumption
    | with_reducible refine vecRow_kept ?_ ‹_›
    | with_reducible apply vsCmp_kept
    | exact fun _ k => k
    | split
    | dsimp only
    | intro

theorem execVcmpgts_kept {s t : State} {e : VeRef} {w : W64} (e : execVcmpgts e w s = .next t) : Kept s t := by
  have hk := Kept.refl s
  unfold execVcmpgts at e
  (try dsimp only)
  repeat' first
    | with_reducible assumption
    | with_reducible refine vecRow_kept ?_ ‹_›
    | with_reducible apply vsCmp_kept
    | exact fun _ k => k
    | split
    | dsimp only
    | intro

theorem execVcmpges_kept {s t : State} {e : VeRef} {w : W64} (e : execVcmpges e w s = .next t) : Kept s t := by
  have hk := Kept.refl s
  unfold execVcmpges at e
  (try dsimp only)
  repeat' first
    | with_reducible assumption
    | with_reducible refine vecRow_kept ?_ ‹_›
    | with_reducible apply vsCmp_kept
    | exact fun _ k => k
    | split
    | dsimp only
    | intro

theorem execVld_kept {s t : State} {e : VeRef} {w : W64} (e : execVld e w s = .next t) : Kept s t := by
  have hk := Kept.refl s
  unfold execVld at e
  (try dsimp only)
  repeat' first
    | with_reducible assumption
    | with_reducible refine vecRow_kept ?_ ‹_›
    | with_reducible apply VCtx.put_kept
    | with_reducible apply VCtx.next_kept
    | with_reducible apply VCtx.fault_kept
    | with_reducible apply VCtx.eccFault_kept
    | with_reducible apply VCtx.drawn_kept
    | with_reducible apply SCtx.put_kept
    | with_reducible apply Core.free_canonical
    | exact fun _ k => k
    | split
    | dsimp only
    | intro

theorem execVst_kept {s t : State} {e : VeRef} {w : W64} (r : execVst e w s = .next t) : Kept s t := by
  unfold execVst at r
  refine vecRow_kept (fun c u k => ?_) r
  split
  · exact VCtx.fault_kept (VCtx.drawn_kept k)
  · exact VCtx.next_kept (State.onCore_kept (VCtx.drawn_kept k) fun _ z => VCtx.storeAll_canonical z)

theorem execPld_kept {s t : State} {e : VeRef} {w : W64} (e : execPld e w s = .next t) : Kept s t := by
  have hk := Kept.refl s
  unfold execPld at e
  (try dsimp only)
  repeat' first
    | with_reducible assumption
    | with_reducible refine vecRow_kept ?_ ‹_›
    | with_reducible apply VCtx.next_kept
    | with_reducible apply VCtx.fault_kept
    | with_reducible apply VCtx.eccFault_kept
    | exact fun _ k => k
    | split
    | dsimp only
    | intro

theorem execPst_kept {s t : State} {e : VeRef} {w : W64} (e : execPst e w s = .next t) : Kept s t := by
  have hk := Kept.refl s
  unfold execPst at e
  (try dsimp only)
  repeat' first
    | with_reducible assumption
    | with_reducible refine vecRow_kept ?_ ‹_›
    | with_reducible apply State.onCore_kept
    | with_reducible apply VCtx.next_kept
    | with_reducible apply VCtx.fault_kept
    | with_reducible apply Site.onCore_canonical
    | with_reducible apply Core.writeCm_canonical
    | exact fun _ k => k
    | split
    | dsimp only
    | intro

theorem execChpop_kept {s t : State} {e : VeRef} {w : W64} (e : execChpop e w s = .next t) : Kept s t := by
  have hk := Kept.refl s
  unfold execChpop at e
  (try dsimp only)
  repeat' first
    | with_reducible assumption
    | with_reducible refine vecRow_kept ?_ ‹_›
    | with_reducible apply State.onCore_kept
    | with_reducible apply State.onVe_kept
    | with_reducible apply VCtx.fault_kept
    | with_reducible apply Site.onCore_canonical
    | exact fun _ k => k
    | split
    | dsimp only
    | intro

theorem execVcvt_kept {s t : State} {e : VeRef} {w : W64} (e : execVcvt e w s = .next t) : Kept s t := by
  have hk := Kept.refl s
  unfold execVcvt at e
  (try dsimp only)
  repeat' first
    | with_reducible assumption
    | with_reducible refine vecRow_kept ?_ ‹_›
    | with_reducible apply VCtx.next_kept
    | with_reducible apply VCtx.eccFault_kept
    | exact fun _ k => k
    | split
    | dsimp only
    | intro

theorem execVexp_kept {s t : State} {e : VeRef} {w : W64} (e : execVexp e w s = .next t) : Kept s t := by
  have hk := Kept.refl s
  unfold execVexp at e
  (try dsimp only)
  repeat' first
    | with_reducible assumption
    | with_reducible refine vecRow_kept ?_ ‹_›
    | with_reducible apply vxTransc_kept
    | exact fun _ k => k
    | split
    | dsimp only
    | intro

theorem execVlog_kept {s t : State} {e : VeRef} {w : W64} (e : execVlog e w s = .next t) : Kept s t := by
  have hk := Kept.refl s
  unfold execVlog at e
  (try dsimp only)
  repeat' first
    | with_reducible assumption
    | with_reducible refine vecRow_kept ?_ ‹_›
    | with_reducible apply vxTransc_kept
    | exact fun _ k => k
    | split
    | dsimp only
    | intro

theorem execVrsqrt_kept {s t : State} {e : VeRef} {w : W64} (e : execVrsqrt e w s = .next t) : Kept s t := by
  have hk := Kept.refl s
  unfold execVrsqrt at e
  (try dsimp only)
  repeat' first
    | with_reducible assumption
    | with_reducible refine vecRow_kept ?_ ‹_›
    | with_reducible apply vxTransc_kept
    | exact fun _ k => k
    | split
    | dsimp only
    | intro

theorem execVrcp_kept {s t : State} {e : VeRef} {w : W64} (e : execVrcp e w s = .next t) : Kept s t := by
  have hk := Kept.refl s
  unfold execVrcp at e
  (try dsimp only)
  repeat' first
    | with_reducible assumption
    | with_reducible refine vecRow_kept ?_ ‹_›
    | with_reducible apply vxTransc_kept
    | exact fun _ k => k
    | split
    | dsimp only
    | intro

theorem execVtanh_kept {s t : State} {e : VeRef} {w : W64} (e : execVtanh e w s = .next t) : Kept s t := by
  have hk := Kept.refl s
  unfold execVtanh at e
  (try dsimp only)
  repeat' first
    | with_reducible assumption
    | with_reducible refine vecRow_kept ?_ ‹_›
    | with_reducible apply vxTransc_kept
    | exact fun _ k => k
    | split
    | dsimp only
    | intro

theorem execVerf_kept {s t : State} {e : VeRef} {w : W64} (e : execVerf e w s = .next t) : Kept s t := by
  have hk := Kept.refl s
  unfold execVerf at e
  (try dsimp only)
  repeat' first
    | with_reducible assumption
    | with_reducible refine vecRow_kept ?_ ‹_›
    | with_reducible apply vxTransc_kept
    | exact fun _ k => k
    | split
    | dsimp only
    | intro

theorem execVcNop_kept {s t : State} {e : VeRef} {w : W64} (e : execVcNop e w s = .next t) : Kept s t := by
  have hk := Kept.refl s
  unfold execVcNop at e
  (try dsimp only)
  repeat' first
    | with_reducible assumption
    | with_reducible refine vecRow_kept ?_ ‹_›
    | with_reducible apply VCtx.next_kept
    | exact fun _ k => k
    | split
    | dsimp only
    | intro

theorem execHalt_kept {s t : State} {e : VeRef} {w : W64} (e : execHalt e w s = .next t) : Kept s t := by
  have hk := Kept.refl s
  unfold execHalt at e
  (try dsimp only)
  repeat' first
    | with_reducible assumption
    | with_reducible refine vecRow_kept ?_ ‹_›
    | with_reducible apply State.onCore_kept
    | with_reducible apply Site.onCore_canonical
    | with_reducible apply Core.endVe_canonical
    | exact fun _ k => k
    | split
    | dsimp only
    | intro

theorem execBr_kept {s t : State} {e : VeRef} {w : W64} (e : execBr e w s = .next t) : Kept s t := by
  have hk := Kept.refl s
  unfold execBr at e
  (try dsimp only)
  repeat' first
    | with_reducible assumption
    | with_reducible refine vecRow_kept ?_ ‹_›
    | with_reducible apply VCtx.branch_kept
    | exact fun _ k => k
    | split
    | dsimp only
    | intro

theorem execBz_kept {s t : State} {e : VeRef} {w : W64} (e : execBz e w s = .next t) : Kept s t := by
  have hk := Kept.refl s
  unfold execBz at e
  (try dsimp only)
  repeat' first
    | with_reducible assumption
    | with_reducible refine vecRow_kept ?_ ‹_›
    | with_reducible apply VCtx.branch_kept
    | exact fun _ k => k
    | split
    | dsimp only
    | intro

theorem execBnz_kept {s t : State} {e : VeRef} {w : W64} (e : execBnz e w s = .next t) : Kept s t := by
  have hk := Kept.refl s
  unfold execBnz at e
  (try dsimp only)
  repeat' first
    | with_reducible assumption
    | with_reducible refine vecRow_kept ?_ ‹_›
    | with_reducible apply VCtx.branch_kept
    | exact fun _ k => k
    | split
    | dsimp only
    | intro

theorem execLoop_kept {s t : State} {e : VeRef} {w : W64} (e : execLoop e w s = .next t) : Kept s t := by
  have hk := Kept.refl s
  unfold execLoop at e
  (try dsimp only)
  repeat' first
    | with_reducible assumption
    | with_reducible refine vecRow_kept ?_ ‹_›
    | with_reducible apply VCtx.branch_kept
    | exact fun _ k => k
    | split
    | dsimp only
    | intro

theorem execPany_kept {s t : State} {e : VeRef} {w : W64} (e : execPany e w s = .next t) : Kept s t := by
  have hk := Kept.refl s
  unfold execPany at e
  (try dsimp only)
  repeat' first
    | with_reducible assumption
    | with_reducible refine vecRow_kept ?_ ‹_›
    | with_reducible apply VCtx.branch_kept
    | exact fun _ k => k
    | split
    | dsimp only
    | intro

theorem execPnone_kept {s t : State} {e : VeRef} {w : W64} (e : execPnone e w s = .next t) : Kept s t := by
  have hk := Kept.refl s
  unfold execPnone at e
  (try dsimp only)
  repeat' first
    | with_reducible assumption
    | with_reducible refine vecRow_kept ?_ ‹_›
    | with_reducible apply VCtx.branch_kept
    | exact fun _ k => k
    | split
    | dsimp only
    | intro

theorem execAli_kept {s t : State} {e : VeRef} {w : W64} (e : execAli e w s = .next t) : Kept s t := by
  have hk := Kept.refl s
  unfold execAli at e
  (try dsimp only)
  repeat' first
    | with_reducible assumption
    | with_reducible refine vecRow_kept ?_ ‹_›
    | with_reducible apply vcAddr_kept
    | exact fun _ k => k
    | split
    | dsimp only
    | intro

theorem execAlui_kept {s t : State} {e : VeRef} {w : W64} (e : execAlui e w s = .next t) : Kept s t := by
  have hk := Kept.refl s
  unfold execAlui at e
  (try dsimp only)
  repeat' first
    | with_reducible assumption
    | with_reducible refine vecRow_kept ?_ ‹_›
    | with_reducible apply vcAddr_kept
    | exact fun _ k => k
    | split
    | dsimp only
    | intro

theorem execAaddi_kept {s t : State} {e : VeRef} {w : W64} (e : execAaddi e w s = .next t) : Kept s t := by
  have hk := Kept.refl s
  unfold execAaddi at e
  (try dsimp only)
  repeat' first
    | with_reducible assumption
    | with_reducible refine vecRow_kept ?_ ‹_›
    | with_reducible apply vcAddr_kept
    | exact fun _ k => k
    | split
    | dsimp only
    | intro

theorem execAadd_kept {s t : State} {e : VeRef} {w : W64} (e : execAadd e w s = .next t) : Kept s t := by
  have hk := Kept.refl s
  unfold execAadd at e
  (try dsimp only)
  repeat' first
    | with_reducible assumption
    | with_reducible refine vecRow_kept ?_ ‹_›
    | with_reducible apply vcAddr_kept
    | exact fun _ k => k
    | split
    | dsimp only
    | intro

theorem execAsub_kept {s t : State} {e : VeRef} {w : W64} (e : execAsub e w s = .next t) : Kept s t := by
  have hk := Kept.refl s
  unfold execAsub at e
  (try dsimp only)
  repeat' first
    | with_reducible assumption
    | with_reducible refine vecRow_kept ?_ ‹_›
    | with_reducible apply vcAddr_kept
    | exact fun _ k => k
    | split
    | dsimp only
    | intro

theorem execAmul_kept {s t : State} {e : VeRef} {w : W64} (e : execAmul e w s = .next t) : Kept s t := by
  have hk := Kept.refl s
  unfold execAmul at e
  (try dsimp only)
  repeat' first
    | with_reducible assumption
    | with_reducible refine vecRow_kept ?_ ‹_›
    | with_reducible apply vcAddr_kept
    | exact fun _ k => k
    | split
    | dsimp only
    | intro

theorem execAshli_kept {s t : State} {e : VeRef} {w : W64} (e : execAshli e w s = .next t) : Kept s t := by
  have hk := Kept.refl s
  unfold execAshli at e
  (try dsimp only)
  repeat' first
    | with_reducible assumption
    | with_reducible refine vecRow_kept ?_ ‹_›
    | with_reducible apply vcAddr_kept
    | exact fun _ k => k
    | split
    | dsimp only
    | intro

theorem execAshri_kept {s t : State} {e : VeRef} {w : W64} (e : execAshri e w s = .next t) : Kept s t := by
  have hk := Kept.refl s
  unfold execAshri at e
  (try dsimp only)
  repeat' first
    | with_reducible assumption
    | with_reducible refine vecRow_kept ?_ ‹_›
    | with_reducible apply vcAddr_kept
    | exact fun _ k => k
    | split
    | dsimp only
    | intro

theorem execPand_kept {s t : State} {e : VeRef} {w : W64} (e : execPand e w s = .next t) : Kept s t := by
  have hk := Kept.refl s
  unfold execPand at e
  (try dsimp only)
  repeat' first
    | with_reducible assumption
    | with_reducible refine vecRow_kept ?_ ‹_›
    | with_reducible apply vcPred_kept
    | exact fun _ k => k
    | split
    | dsimp only
    | intro

theorem execPor_kept {s t : State} {e : VeRef} {w : W64} (e : execPor e w s = .next t) : Kept s t := by
  have hk := Kept.refl s
  unfold execPor at e
  (try dsimp only)
  repeat' first
    | with_reducible assumption
    | with_reducible refine vecRow_kept ?_ ‹_›
    | with_reducible apply vcPred_kept
    | exact fun _ k => k
    | split
    | dsimp only
    | intro

theorem execPxor_kept {s t : State} {e : VeRef} {w : W64} (e : execPxor e w s = .next t) : Kept s t := by
  have hk := Kept.refl s
  unfold execPxor at e
  (try dsimp only)
  repeat' first
    | with_reducible assumption
    | with_reducible refine vecRow_kept ?_ ‹_›
    | with_reducible apply vcPred_kept
    | exact fun _ k => k
    | split
    | dsimp only
    | intro

theorem execPnot_kept {s t : State} {e : VeRef} {w : W64} (e : execPnot e w s = .next t) : Kept s t := by
  have hk := Kept.refl s
  unfold execPnot at e
  (try dsimp only)
  repeat' first
    | with_reducible assumption
    | with_reducible refine vecRow_kept ?_ ‹_›
    | with_reducible apply vcPred_kept
    | exact fun _ k => k
    | split
    | dsimp only
    | intro

theorem execSetvl_kept {s t : State} {e : VeRef} {w : W64} (e : execSetvl e w s = .next t) : Kept s t := by
  have hk := Kept.refl s
  unfold execSetvl at e
  (try dsimp only)
  repeat' first
    | with_reducible assumption
    | with_reducible refine vecRow_kept ?_ ‹_›
    | with_reducible apply VCtx.next_kept
    | exact fun _ k => k
    | split
    | dsimp only
    | intro

theorem execFlgrd_kept {s t : State} {e : VeRef} {w : W64} (e : execFlgrd e w s = .next t) : Kept s t := by
  have hk := Kept.refl s
  unfold execFlgrd at e
  (try dsimp only)
  repeat' first
    | with_reducible assumption
    | with_reducible refine vecRow_kept ?_ ‹_›
    | with_reducible apply VCtx.next_kept
    | exact fun _ k => k
    | split
    | dsimp only
    | intro

theorem execSrseed_kept {s t : State} {e : VeRef} {w : W64} (e : execSrseed e w s = .next t) : Kept s t := by
  have hk := Kept.refl s
  unfold execSrseed at e
  (try dsimp only)
  repeat' first
    | with_reducible assumption
    | with_reducible refine vecRow_kept ?_ ‹_›
    | with_reducible apply VCtx.next_kept
    | exact fun _ k => k
    | split
    | dsimp only
    | intro

theorem execFence_kept {s t : State} {e : VeRef} {w : W64} (e : execFence e w s = .next t) : Kept s t := by
  have hk := Kept.refl s
  unfold execFence at e
  (try dsimp only)
  repeat' first
    | with_reducible assumption
    | with_reducible refine vecRow_kept ?_ ‹_›
    | with_reducible apply VCtx.next_kept
    | exact fun _ k => k
    | split
    | dsimp only
    | intro

theorem execEvsig_kept {s t : State} {e : VeRef} {w : W64} (e : execEvsig e w s = .next t) : Kept s t := by
  have hk := Kept.refl s
  unfold execEvsig at e
  (try dsimp only)
  repeat' first
    | with_reducible assumption
    | with_reducible refine vecRow_kept ?_ ‹_›
    | with_reducible apply State.onSe_kept
    | with_reducible apply VCtx.next_kept
    | exact fun _ k => k
    | split
    | dsimp only
    | intro

theorem execScalarInstruction_kept {s t : State} {e : SeRef} {w : W32} (r : execScalarInstruction e w s = .next t) :
    Kept s t := by
  unfold execScalarInstruction at r
  split at r
  · refine seRow_kept (fun c u k => ?_) r
    split
    · exact k
    · exact SCtx.run_kept k
  · refine seRow_kept (fun c u k => ?_) r
    split
    · exact SCtx.run_kept k
    · exact SCtx.illegal_kept k

theorem execVlaunch_kept {s t : State} {e : SeRef} {w : W32} (e : execVlaunch e w s = .next t) : Kept s t := by
  have hk := Kept.refl s
  unfold execVlaunch at e
  (try dsimp only)
  repeat' first
    | with_reducible assumption
    | with_reducible refine xRow_kept ?_ ‹_›
    | with_reducible apply SCtx.trap_kept
    | with_reducible apply SCtx.illegal_kept
    | with_reducible apply SCtx.give_kept
    | with_reducible apply SCtx.launch_kept
    | exact fun _ k => k
    | split
    | dsimp only
    | intro

theorem execVwait_kept {s t : State} {e : SeRef} {w : W32} (e : execVwait e w s = .next t) : Kept s t := by
  have hk := Kept.refl s
  unfold execVwait at e
  (try dsimp only)
  repeat' first
    | with_reducible assumption
    | with_reducible refine xRow_kept ?_ ‹_›
    | with_reducible apply State.onCore_kept
    | with_reducible apply SCtx.give_kept
    | with_reducible apply SCtx.await_kept
    | with_reducible apply Site.onCore_canonical
    | with_reducible apply Core.collect_canonical
    | exact fun _ k => k
    | split
    | dsimp only
    | intro

theorem execVpoll_kept {s t : State} {e : SeRef} {w : W32} (e : execVpoll e w s = .next t) : Kept s t := by
  have hk := Kept.refl s
  unfold execVpoll at e
  (try dsimp only)
  repeat' first
    | with_reducible assumption
    | with_reducible refine xRow_kept ?_ ‹_›
    | with_reducible apply SCtx.give_kept
    | exact fun _ k => k
    | split
    | dsimp only
    | intro

theorem execTicketEnd_kept {s t : State} {i core ticket : Nat} (e : execTicketEnd i core ticket s = .next t) : Kept s t := by
  have hk := Kept.refl s
  unfold execTicketEnd at e
  cases e
  (try dsimp only)
  repeat' first
    | with_reducible assumption
    | with_reducible apply State.onCore_kept
    | with_reducible apply VCtx.next_kept
    | with_reducible apply Site.onCore_canonical
    | with_reducible apply Core.endTicket_canonical
    | exact fun _ k => k
    | split
    | dsimp only
    | intro

theorem execCmcopy_kept {s t : State} {e : SeRef} {w : W32} (e : execCmcopy e w s = .next t) : Kept s t := by
  have hk := Kept.refl s
  unfold execCmcopy at e
  (try dsimp only)
  repeat' first
    | with_reducible assumption
    | with_reducible refine xRow_kept ?_ ‹_›
    | with_reducible apply State.onCore_kept
    | with_reducible apply SCtx.trap_kept
    | with_reducible apply SCtx.give_kept
    | with_reducible apply Kept.drawn
    | with_reducible apply Site.onCore_canonical
    | with_reducible apply Core.free_canonical
    | exact fun _ k => k
    | split
    | dsimp only
    | intro

theorem execMwait_kept {s t : State} {e : SeRef} {w : W32} (e : execMwait e w s = .next t) : Kept s t := by
  have hk := Kept.refl s
  unfold execMwait at e
  (try dsimp only)
  repeat' first
    | with_reducible assumption
    | with_reducible refine xRow_kept ?_ ‹_›
    | with_reducible apply State.onCore_kept
    | with_reducible apply SCtx.give_kept
    | with_reducible apply SCtx.await_kept
    | with_reducible apply Site.onCore_canonical
    | with_reducible apply Core.dropMove_canonical
    | exact fun _ k => k
    | split
    | dsimp only
    | intro

theorem execMoveEnd_kept {s t : State} {i core ticket : Nat} {ok : Bool} (e : execMoveEnd i core ticket ok s = .next t) : Kept s t := by
  have hk := Kept.refl s
  unfold execMoveEnd at e
  cases e
  (try dsimp only)
  repeat' first
    | with_reducible assumption
    | with_reducible apply State.onCore_kept
    | with_reducible apply VCtx.next_kept
    | with_reducible apply State.moveBytes_kept
    | with_reducible apply Site.onCore_canonical
    | with_reducible apply Core.endMove_canonical
    | exact fun _ k => k
    | split
    | dsimp only
    | intro

theorem execEvwait_kept {s t : State} {e : SeRef} {w : W32} (e : execEvwait e w s = .next t) : Kept s t := by
  have hk := Kept.refl s
  unfold execEvwait at e
  (try dsimp only)
  repeat' first
    | with_reducible assumption
    | with_reducible refine xRow_kept ?_ ‹_›
    | with_reducible apply SCtx.retire_kept
    | with_reducible apply SCtx.await_kept
    | with_reducible apply State.event_kept
    | with_reducible apply Site.setReg_canonical
    | with_reducible apply Site.retire_canonical
    | exact fun _ k => k
    | split
    | dsimp only
    | intro

theorem execEvwaitExpiry_kept {s t : State} {e : SeRef} (e : execEvwaitExpiry e s = .next t) : Kept s t := by
  have hk := Kept.refl s
  unfold execEvwaitExpiry at e
  cases e
  (try dsimp only)
  repeat' first
    | with_reducible assumption
    | with_reducible apply State.onSe_kept
    | with_reducible apply VCtx.next_kept
    | with_reducible apply State.event_kept
    | with_reducible apply State.resume_kept
    | exact fun _ k => k
    | split
    | dsimp only
    | intro

theorem execEvset_kept {s t : State} {e : SeRef} {w : W32} (e : execEvset e w s = .next t) : Kept s t := by
  have hk := Kept.refl s
  unfold execEvset at e
  (try dsimp only)
  repeat' first
    | with_reducible assumption
    | with_reducible refine xRow_kept ?_ ‹_›
    | with_reducible apply State.onSe_kept
    | with_reducible apply SCtx.retire_kept
    | with_reducible apply Site.retire_canonical
    | exact fun _ k => k
    | split
    | dsimp only
    | intro

theorem execSehalt_kept {s t : State} {e : SeRef} {w : W32} (e : execSehalt e w s = .next t) : Kept s t := by
  have hk := Kept.refl s
  unfold execSehalt at e
  (try dsimp only)
  repeat' first
    | with_reducible assumption
    | with_reducible refine xRow_kept ?_ ‹_›
    | with_reducible apply VCtx.put_kept
    | with_reducible apply SCtx.put_kept
    | exact fun _ k => k
    | split
    | dsimp only
    | intro

theorem execCharm_kept {s t : State} {e : SeRef} {w : W32} (e : execCharm e w s = .next t) : Kept s t := by
  have hk := Kept.refl s
  unfold execCharm at e
  (try dsimp only)
  repeat' first
    | with_reducible assumption
    | with_reducible refine xRow_kept ?_ ‹_›
    | with_reducible apply State.onCore_kept
    | with_reducible apply SCtx.give_kept
    | with_reducible apply idle_kept
    | with_reducible apply Site.onCore_canonical
    | exact fun _ k => k
    | split
    | dsimp only
    | intro

theorem execVabort_kept {s t : State} {e : SeRef} {w : W32} (r : execVabort e w s = .next t) : Kept s t := by
  unfold execVabort at r
  refine xRow_kept (fun c u k => ?_) r
  dsimp only
  refine SCtx.retire_kept ?_
  split
  · exact k
  · refine State.onCore_kept k fun c w => Core.foldl_canonical w ?_
    exact fun _ _ z => Core.endVe_canonical z

theorem execWfi_kept {s t : State} {e : SeRef} {w : W32} (e : execWfi e w s = .next t) : Kept s t := by
  have hk := Kept.refl s
  unfold execWfi at e
  (try dsimp only)
  repeat' first
    | with_reducible assumption
    | with_reducible refine seRow_kept ?_ ‹_›
    | with_reducible apply SCtx.retire_kept
    | with_reducible apply SCtx.await_kept
    | with_reducible apply Site.retire_canonical
    | exact fun _ k => k
    | split
    | dsimp only
    | intro

theorem execChainRow_kept {s t : State} {i core half : Nat} (e : execChainRow i core half s = .next t) : Kept s t := by
  have hk := Kept.refl s
  unfold execChainRow at e
  cases e
  (try dsimp only)
  repeat' first
    | with_reducible assumption
    | with_reducible apply State.onCmd_kept
    | with_reducible apply State.onCore_kept
    | with_reducible apply VCtx.next_kept
    | with_reducible apply Site.onCore_canonical
    | with_reducible apply Core.chainIn_canonical
    | exact fun _ k => k
    | split
    | dsimp only
    | intro

theorem execTensorTile_kept {s t : State} {c : CmdRef} (e : execTensorTile c s = .next t) : Kept s t := by
  have hk := Kept.refl s
  unfold execTensorTile tensorTileRun at e
  (try dsimp only)
  repeat' first
    | with_reducible assumption
    | with_reducible refine runRow_kept ?_ ‹_›
    | with_reducible apply Job.checkTile_keeps
    | with_reducible apply Job.passesWs_keeps
    | with_reducible apply Job.passOs_keeps
    | with_reducible apply Job.epilogue_keeps
    | with_reducible apply Keeps.get
    | with_reducible apply Keeps.set
    | with_reducible apply Keeps.modify
    | with_reducible apply Keeps.pure
    | with_reducible apply Keeps.throw
    | with_reducible apply Keeps.fail
    | with_reducible apply Keeps.bind
    | with_reducible apply State.onCore_kept
    | with_reducible apply Site.onCore_canonical
    | exact fun _ k => k
    | split
    | dsimp only
    | intro

theorem execAttention_kept {s t : State} {c : CmdRef} (e : execAttention c s = .next t) : Kept s t := by
  have hk := Kept.refl s
  unfold execAttention attentionRun at e
  (try dsimp only)
  repeat' first
    | with_reducible assumption
    | with_reducible refine runRow_kept ?_ ‹_›
    | with_reducible apply Job.getCm_keeps
    | with_reducible apply Job.putCm_keeps
    | with_reducible apply Job.flags_keeps
    | with_reducible apply Job.scaleWords_keeps
    | with_reducible apply Job.checkAttention_keeps
    | with_reducible apply Job.attChunks_keeps
    | with_reducible apply Keeps.get
    | with_reducible apply Keeps.set
    | with_reducible apply Keeps.modify
    | with_reducible apply Keeps.pure
    | with_reducible apply Keeps.throw
    | with_reducible apply Keeps.fail
    | with_reducible apply Keeps.forM
    | with_reducible apply Keeps.mapM
    | with_reducible apply Keeps.bind
    | with_reducible apply State.replicate_kept
    | exact fun _ k => k
    | split
    | dsimp only
    | intro

theorem execRoute_kept {s t : State} {c : CmdRef} (e : execRoute c s = .next t) : Kept s t := by
  have hk := Kept.refl s
  unfold execRoute routeRun at e
  (try dsimp only)
  repeat' first
    | with_reducible assumption
    | with_reducible refine runRow_kept ?_ ‹_›
    | with_reducible apply Job.load_keeps
    | with_reducible apply Job.store_keeps
    | with_reducible apply Job.flags_keeps
    | with_reducible apply Job.checkRoute_keeps
    | with_reducible apply Keeps.get
    | with_reducible apply Keeps.set
    | with_reducible apply Keeps.modify
    | with_reducible apply Keeps.pure
    | with_reducible apply Keeps.throw
    | with_reducible apply Keeps.fail
    | with_reducible apply Keeps.mapM
    | with_reducible apply Keeps.bind
    | with_reducible apply SCtx.store_kept
    | with_reducible apply State.dropped_kept
    | with_reducible apply State.replicate_kept
    | with_reducible apply Kept.foldl
    | with_reducible apply Kept.foldlFst
    | with_reducible apply Site.foldl_canonical
    | with_reducible apply Cluster.fill_canonical
    | exact fun _ k => k
    | split
    | dsimp only
    | intro

theorem execSelect_kept {s t : State} {c : CmdRef} (e : execSelect c s = .next t) : Kept s t := by
  have hk := Kept.refl s
  unfold execSelect selectRun at e
  (try dsimp only)
  repeat' first
    | with_reducible assumption
    | with_reducible refine runRow_kept ?_ ‹_›
    | with_reducible apply Job.load_keeps
    | with_reducible apply Job.store_keeps
    | with_reducible apply Job.flags_keeps
    | with_reducible apply Job.checkSelect_keeps
    | with_reducible apply Keeps.get
    | with_reducible apply Keeps.set
    | with_reducible apply Keeps.modify
    | with_reducible apply Keeps.pure
    | with_reducible apply Keeps.throw
    | with_reducible apply Keeps.fail
    | with_reducible apply Keeps.forM
    | with_reducible apply Keeps.bind
    | with_reducible apply State.draw_kept
    | with_reducible refine State.draw_kept' ?_ ‹_›
    | with_reducible apply SCtx.store_kept
    | exact fun _ k => k
    | split
    | dsimp only
    | intro

theorem execGatherScatter_kept {s t : State} {c : CmdRef} (e : execGatherScatter c s = .next t) : Kept s t := by
  have hk := Kept.refl s
  unfold execGatherScatter gatherScatterRun at e
  (try dsimp only)
  repeat' first
    | with_reducible assumption
    | with_reducible refine runRow_kept ?_ ‹_›
    | with_reducible apply Job.load_keeps
    | with_reducible apply Job.store_keeps
    | with_reducible apply Job.loadAt_keeps
    | with_reducible apply Job.storeAt_keeps
    | with_reducible apply Job.checkGather_keeps
    | with_reducible apply Job.tableRow_keeps
    | with_reducible apply Job.rowOf_keeps
    | with_reducible apply Job.combineRow_keeps
    | with_reducible apply Keeps.get
    | with_reducible apply Keeps.set
    | with_reducible apply Keeps.modify
    | with_reducible apply Keeps.pure
    | with_reducible apply Keeps.throw
    | with_reducible apply Keeps.fail
    | with_reducible apply Keeps.forM
    | with_reducible apply Keeps.bind
    | with_reducible apply SCtx.store_kept
    | exact fun _ k => k
    | split
    | dsimp only
    | intro

theorem execLayout_kept {s t : State} {c : CmdRef} (e : execLayout c s = .next t) : Kept s t := by
  have hk := Kept.refl s
  unfold execLayout layoutRun at e
  (try dsimp only)
  repeat' first
    | with_reducible assumption
    | with_reducible refine runRow_kept ?_ ‹_›
    | with_reducible apply Job.load_keeps
    | with_reducible apply Job.store_keeps
    | with_reducible apply Job.flags_keeps
    | with_reducible apply Job.checkLayout_keeps
    | with_reducible apply Keeps.get
    | with_reducible apply Keeps.set
    | with_reducible apply Keeps.modify
    | with_reducible apply Keeps.pure
    | with_reducible apply Keeps.throw
    | with_reducible apply Keeps.fail
    | with_reducible apply Keeps.forM
    | with_reducible apply Keeps.bind
    | with_reducible apply SCtx.store_kept
    | with_reducible apply Kept.foldl
    | with_reducible apply Kept.foldlFst
    | with_reducible apply Site.foldl_canonical
    | exact fun _ k => k
    | split
    | dsimp only
    | intro

theorem execCodec_kept {s t : State} {c : CmdRef} (e : execCodec c s = .next t) : Kept s t := by
  have hk := Kept.refl s
  unfold execCodec codecRun at e
  (try dsimp only)
  repeat' first
    | with_reducible assumption
    | with_reducible refine runRow_kept ?_ ‹_›
    | with_reducible apply Job.checkCodec_keeps
    | with_reducible apply Job.pack_keeps
    | with_reducible apply Job.unpackAll_keeps
    | with_reducible apply Job.quant_keeps
    | with_reducible apply Job.dequant_keeps
    | with_reducible apply Keeps.get
    | with_reducible apply Keeps.set
    | with_reducible apply Keeps.modify
    | with_reducible apply Keeps.pure
    | with_reducible apply Keeps.throw
    | with_reducible apply Keeps.fail
    | with_reducible apply Keeps.bind
    | exact fun _ k => k
    | split
    | dsimp only
    | intro

theorem execFeDoorbell_kept {s t : State} {vd : Nat} {tail : BitVec 12} (e : execFeDoorbell vd tail s = .next t) : Kept s t := by
  have hk := Kept.refl s
  unfold execFeDoorbell at e
  cases e
  (try dsimp only)
  repeat' first
    | with_reducible assumption
    | with_reducible apply VCtx.next_kept
    | with_reducible apply State.doorbell_kept
    | exact fun _ k => k
    | split
    | dsimp only
    | intro

theorem execFeNoelDb_kept {s t : State} {vd ring : Nat} {tail : BitVec 12} (e : execFeNoelDb vd ring tail s = .next t) : Kept s t := by
  have hk := Kept.refl s
  unfold execFeNoelDb at e
  cases e
  (try dsimp only)
  repeat' first
    | with_reducible assumption
    | with_reducible apply VCtx.next_kept
    | with_reducible apply State.doorbell_kept
    | exact fun _ k => k
    | split
    | dsimp only
    | intro

theorem execSubmissionRead_kept {s t : State} {vd ring : Nat} {slots : List Bytes} (e : execSubmissionRead vd ring slots s = .next t) : Kept s t := by
  have hk := Kept.refl s
  unfold execSubmissionRead at e
  cases e
  (try dsimp only)
  repeat' first
    | with_reducible assumption
    | with_reducible apply State.onRing_kept
    | with_reducible apply VCtx.next_kept
    | exact fun _ k => k
    | split
    | dsimp only
    | intro

theorem execFetchLost_kept {s t : State} {vd ring : Nat} {status : BitVec 16} (e : execFetchLost vd ring status s = .next t) : Kept s t := by
  have hk := Kept.refl s
  unfold execFetchLost at e
  cases e
  (try dsimp only)
  repeat' first
    | with_reducible assumption
    | with_reducible apply State.onFe_kept
    | with_reducible apply VCtx.next_kept
    | with_reducible apply State.event_kept
    | with_reducible apply State.vdException_kept
    | exact fun _ k => k
    | split
    | dsimp only
    | intro

theorem execCompletionRecordWrite_kept {s t : State} {c : CmdRef} (e : execCompletionRecordWrite c s = .next t) : Kept s t := by
  have hk := Kept.refl s
  unfold execCompletionRecordWrite at e
  cases e
  (try dsimp only)
  repeat' first
    | with_reducible assumption
    | with_reducible apply VCtx.next_kept
    | with_reducible apply State.respond_kept
    | with_reducible apply State.unqueue_kept
    | with_reducible apply State.recordOf_kept
    | exact fun _ k => k
    | split
    | dsimp only
    | intro

theorem execFeStreamResume_kept {s t : State} {vd : Nat} {value : W32} (e : execFeStreamResume vd value s = .next t) : Kept s t := by
  have hk := Kept.refl s
  unfold execFeStreamResume at e
  cases e
  (try dsimp only)
  repeat' first
    | with_reducible assumption
    | with_reducible apply State.onFe_kept
    | with_reducible apply VCtx.next_kept
    | with_reducible apply State.flushEvents_kept
    | with_reducible apply State.resumeStream_kept
    | exact fun _ k => k
    | split
    | dsimp only
    | intro

theorem execDescriptorPlace_kept {s t : State} {vd ring : Nat} (e : execDescriptorPlace vd ring s = .next t) : Kept s t := by
  have hk := Kept.refl s
  unfold execDescriptorPlace at e
  cases e
  (try dsimp only)
  repeat' first
    | with_reducible assumption
    | with_reducible apply VCtx.next_kept
    | with_reducible apply State.place_kept
    | with_reducible apply State.refuseDesc_kept
    | with_reducible apply State.passSlots_kept
    | exact fun _ k => k
    | split
    | dsimp only
    | intro

theorem execCommandReady_kept {s t : State} {c : CmdRef} (e : execCommandReady c s = .next t) : Kept s t := by
  have hk := Kept.refl s
  unfold execCommandReady at e
  cases e
  split
  · exact hk
  · dsimp only
    split
    · exact hk
    · rename_i j _ _
      have k := Job.waitsMet_keeps (j := { j with kind := .frontEnd }) (l := j.k.waits) s hk
      generalize ExceptT.run (Job.waitsMet _ _) s = o at k
      obtain ⟨r, u⟩ := o
      dsimp only
      repeat' first
        | with_reducible exact hk
        | with_reducible exact State.onCmd_kept k
        | with_reducible exact State.failAccess_kept k
        | with_reducible exact Job.suspend_kept hk
        | split

theorem execFenceReevaluate_kept {s t : State} {c : CmdRef} (e : execFenceReevaluate c s = .next t) : Kept s t := by
  have hk := Kept.refl s
  unfold execFenceReevaluate at e
  cases e
  (try dsimp only)
  repeat' first
    | with_reducible assumption
    | with_reducible apply State.onCmd_kept
    | with_reducible apply VCtx.next_kept
    | exact fun _ k => k
    | split
    | dsimp only
    | intro

theorem execCommandEnd_kept {s t : State} {c : CmdRef} (e : execCommandEnd c s = .next t) : Kept s t := by
  have hk := Kept.refl s
  unfold execCommandEnd at e
  cases e
  (try dsimp only)
  repeat' first
    | with_reducible assumption
    | with_reducible apply VCtx.next_kept
    | with_reducible apply State.endRun_kept
    | exact fun _ k => k
    | split
    | dsimp only
    | intro

theorem execCommandTimeout_kept {s t : State} {c : CmdRef} (e : execCommandTimeout c s = .next t) : Kept s t := by
  have hk := Kept.refl s
  unfold execCommandTimeout at e
  cases e
  (try dsimp only)
  repeat' first
    | with_reducible assumption
    | with_reducible apply VCtx.next_kept
    | with_reducible apply State.endWith_kept
    | exact fun _ k => k
    | split
    | dsimp only
    | intro

theorem execFenceSignal_kept {s t : State} {c : CmdRef} (e : execFenceSignal c s = .next t) : Kept s t := by
  have hk := Kept.refl s
  unfold execFenceSignal at e
  cases e
  split
  · exact hk
  · extract_lets +onlyGivenNames dva v j
    split
    · exact hk
    · split
      · exact State.failAccess_kept (Job.find_keeps.run hk ‹_›)
      · exact Job.suspend_kept hk
      · have k := Job.find_keeps.run hk ‹_›
        repeat' first
          | with_reducible assumption
          | with_reducible apply Job.suspend_kept
          | with_reducible apply State.signalled_kept
          | with_reducible apply State.onCmd_kept
          | with_reducible apply State.emit_kept
          | with_reducible apply State.failAccess_kept
          | with_reducible refine State.raiseWord_kept ?_ ‹_›
          | with_reducible apply State.pump_kept
          | split
          | dsimp only

theorem execMsixCoalesceExpiry_kept {s t : State} {vd vec : Nat} (e : execMsixCoalesceExpiry vd vec s = .next t) : Kept s t := by
  have hk := Kept.refl s
  unfold execMsixCoalesceExpiry at e
  cases e
  (try dsimp only)
  repeat' first
    | with_reducible assumption
    | with_reducible apply VCtx.next_kept
    | with_reducible apply State.sendVector_kept
    | exact fun _ k => k
    | split
    | dsimp only
    | intro

theorem execMsixUnmask_kept {s t : State} {vd vec : Nat} (e : execMsixUnmask vd vec s = .next t) : Kept s t := by
  have hk := Kept.refl s
  unfold execMsixUnmask at e
  cases e
  (try dsimp only)
  repeat' first
    | with_reducible assumption
    | with_reducible apply VCtx.next_kept
    | with_reducible apply State.unmask_kept
    | exact fun _ k => k
    | split
    | dsimp only
    | intro

theorem execFeCqHead_kept {s t : State} {vd : Nat} {head : W32} (e : execFeCqHead vd head s = .next t) : Kept s t := by
  have hk := Kept.refl s
  unfold execFeCqHead at e
  cases e
  (try dsimp only)
  repeat' first
    | with_reducible assumption
    | with_reducible apply State.onRing_kept
    | with_reducible apply VCtx.next_kept
    | exact fun _ k => k
    | split
    | dsimp only
    | intro

theorem execFeEqHead_kept {s t : State} {vd : Nat} {head : W32} (e : execFeEqHead vd head s = .next t) : Kept s t := by
  have hk := Kept.refl s
  unfold execFeEqHead at e
  cases e
  (try dsimp only)
  repeat' first
    | with_reducible assumption
    | with_reducible apply State.onFe_kept
    | with_reducible apply VCtx.next_kept
    | with_reducible apply State.flushEvents_kept
    | exact fun _ k => k
    | split
    | dsimp only
    | intro

theorem execFeFqHead_kept {s t : State} {vd : Nat} {head : W32} (e : execFeFqHead vd head s = .next t) : Kept s t := by
  have hk := Kept.refl s
  unfold execFeFqHead at e
  cases e
  (try dsimp only)
  repeat' first
    | with_reducible assumption
    | with_reducible apply State.onFe_kept
    | with_reducible apply VCtx.next_kept
    | exact fun _ k => k
    | split
    | dsimp only
    | intro

theorem execFeNoelCqHead_kept {s t : State} {vd ring : Nat} {head : W32} (e : execFeNoelCqHead vd ring head s = .next t) : Kept s t := by
  have hk := Kept.refl s
  unfold execFeNoelCqHead at e
  cases e
  (try dsimp only)
  repeat' first
    | with_reducible assumption
    | with_reducible apply State.onRing_kept
    | with_reducible apply VCtx.next_kept
    | exact fun _ k => k
    | split
    | dsimp only
    | intro

theorem execRingEnable_kept {s t : State} {vd : Nat} (e : execRingEnable vd s = .next t) : Kept s t := by
  have hk := Kept.refl s
  unfold execRingEnable at e
  cases e
  (try dsimp only)
  repeat' first
    | with_reducible assumption
    | with_reducible apply State.onFe_kept
    | with_reducible apply VCtx.next_kept
    | with_reducible apply State.enableRings_kept
    | exact fun _ k => k
    | split
    | dsimp only
    | intro

theorem execRingDisable_kept {s t : State} {vd : Nat} (e : execRingDisable vd s = .next t) : Kept s t := by
  have hk := Kept.refl s
  unfold execRingDisable at e
  cases e
  (try dsimp only)
  repeat' first
    | with_reducible assumption
    | with_reducible apply State.onStream_kept
    | with_reducible apply State.onRing_kept
    | with_reducible apply VCtx.next_kept
    | with_reducible apply Core.free_canonical
    | exact fun _ k => k
    | split
    | dsimp only
    | intro

theorem execNop_kept {s t : State} {c : CmdRef} (e : execNop c s = .next t) : Kept s t := by
  have hk := Kept.refl s
  unfold execNop nopRun at e
  (try dsimp only)
  repeat' first
    | with_reducible assumption
    | with_reducible refine ctlRow_kept ?_ ‹_›
    | with_reducible apply ctlFail_keeps
    | with_reducible apply Keeps.get
    | with_reducible apply Keeps.set
    | with_reducible apply Keeps.modify
    | with_reducible apply Keeps.pure
    | with_reducible apply Keeps.throw
    | with_reducible apply Keeps.fail
    | with_reducible apply Keeps.bind
    | with_reducible apply KeptEnd.done
    | exact fun _ k => k
    | split
    | dsimp only
    | intro

theorem execStreamCreate_kept {s t : State} {c : CmdRef} (e : execStreamCreate c s = .next t) : Kept s t := by
  have hk := Kept.refl s
  unfold execStreamCreate streamCreateRun at e
  (try dsimp only)
  repeat' first
    | with_reducible assumption
    | with_reducible refine ctlRow_kept ?_ ‹_›
    | with_reducible apply ctlFail_keeps
    | with_reducible apply Keeps.get
    | with_reducible apply Keeps.set
    | with_reducible apply Keeps.modify
    | with_reducible apply Keeps.pure
    | with_reducible apply Keeps.throw
    | with_reducible apply Keeps.fail
    | with_reducible apply Keeps.bind
    | with_reducible apply KeptEnd.done
    | with_reducible apply State.onStream_kept
    | with_reducible apply State.replicate_kept
    | with_reducible apply Core.free_canonical
    | exact fun _ k => k
    | split
    | dsimp only
    | intro

theorem execStreamDestroy_kept {s t : State} {c : CmdRef} (e : execStreamDestroy c s = .next t) : Kept s t := by
  have hk := Kept.refl s
  unfold execStreamDestroy streamDestroyRun at e
  (try dsimp only)
  repeat' first
    | with_reducible assumption
    | with_reducible refine ctlRow_kept ?_ ‹_›
    | with_reducible apply ctlFail_keeps
    | with_reducible apply Keeps.get
    | with_reducible apply Keeps.set
    | with_reducible apply Keeps.modify
    | with_reducible apply Keeps.pure
    | with_reducible apply Keeps.throw
    | with_reducible apply Keeps.fail
    | with_reducible apply Keeps.bind
    | with_reducible apply KeptEnd.done
    | with_reducible apply State.drainStream_kept
    | with_reducible apply Core.free_canonical
    | exact fun _ k => k
    | split
    | dsimp only
    | intro

theorem execStreamAbort_kept {s t : State} {c : CmdRef} (e : execStreamAbort c s = .next t) : Kept s t := by
  have hk := Kept.refl s
  unfold execStreamAbort streamAbortRun at e
  (try dsimp only)
  repeat' first
    | with_reducible assumption
    | with_reducible refine ctlRow_kept ?_ ‹_›
    | with_reducible apply ctlFail_keeps
    | with_reducible apply Keeps.get
    | with_reducible apply Keeps.set
    | with_reducible apply Keeps.modify
    | with_reducible apply Keeps.pure
    | with_reducible apply Keeps.throw
    | with_reducible apply Keeps.fail
    | with_reducible apply Keeps.bind
    | with_reducible apply KeptEnd.done
    | with_reducible apply State.abortAll_kept
    | with_reducible refine State.abortAll_kept' ?_ ‹_›
    | with_reducible apply Core.free_canonical
    | exact fun _ k => k
    | split
    | dsimp only
    | intro

theorem execSliceInfo_kept {s t : State} {c : CmdRef} (e : execSliceInfo c s = .next t) : Kept s t := by
  have hk := Kept.refl s
  unfold execSliceInfo sliceInfoRun at e
  (try dsimp only)
  repeat' first
    | with_reducible assumption
    | with_reducible refine ctlRow_kept ?_ ‹_›
    | with_reducible apply Job.putDva_keeps
    | with_reducible apply ctlFail_keeps
    | with_reducible apply Keeps.get
    | with_reducible apply Keeps.set
    | with_reducible apply Keeps.modify
    | with_reducible apply Keeps.pure
    | with_reducible apply Keeps.throw
    | with_reducible apply Keeps.fail
    | with_reducible apply Keeps.bind
    | with_reducible apply KeptEnd.done
    | exact fun _ k => k
    | split
    | dsimp only
    | intro

theorem execNoelRingSet_kept {s t : State} {c : CmdRef} (e : execNoelRingSet c s = .next t) : Kept s t := by
  have hk := Kept.refl s
  unfold execNoelRingSet noelRingSetRun at e
  (try dsimp only)
  repeat' first
    | with_reducible assumption
    | with_reducible refine ctlRow_kept ?_ ‹_›
    | with_reducible apply ctlFail_keeps
    | with_reducible apply Keeps.get
    | with_reducible apply Keeps.set
    | with_reducible apply Keeps.modify
    | with_reducible apply Keeps.pure
    | with_reducible apply Keeps.throw
    | with_reducible apply Keeps.fail
    | with_reducible apply Keeps.bind
    | with_reducible apply KeptEnd.done
    | with_reducible apply State.onRing_kept
    | exact fun _ k => k
    | split
    | dsimp only
    | intro

theorem execStreamFreed_kept {s t : State} {vd st : Nat} (e : execStreamFreed vd st s = .next t) : Kept s t := by
  have hk := Kept.refl s
  unfold execStreamFreed at e
  cases e
  (try dsimp only)
  repeat' first
    | with_reducible assumption
    | with_reducible apply VCtx.next_kept
    | with_reducible apply State.endCtl_kept
    | with_reducible apply State.freeStream_kept
    | with_reducible apply State.endDestroys_kept
    | exact fun _ k => k
    | split
    | dsimp only
    | intro

theorem execMemoryRead_kept {s t : State} {i : Nat} {r : MemReq} {f : ReadFinding} (e : execMemoryRead i r f s = .next t) : Kept s t := by
  have hk := Kept.refl s
  unfold execMemoryRead at e
  cases e
  (try dsimp only)
  repeat' first
    | with_reducible assumption
    | with_reducible apply VCtx.next_kept
    | with_reducible apply State.tierRead_kept
    | with_reducible refine State.tierRead_kept' ?_ ‹_›
    | with_reducible apply State.abandonMoves_kept
    | with_reducible apply State.readEnds_kept
    | with_reducible apply State.readFound_kept
    | with_reducible apply State.countStale_kept
    | exact fun _ k => k
    | split
    | dsimp only
    | intro

theorem execMemoryWrite_kept {s t : State} {i : Nat} {r : MemReq} {data : Bytes} (e : execMemoryWrite i r data s = .next t) : Kept s t := by
  have hk := Kept.refl s
  unfold execMemoryWrite at e
  cases e
  (try dsimp only)
  repeat' first
    | with_reducible assumption
    | with_reducible apply State.onSite_kept
    | with_reducible apply VCtx.next_kept
    | with_reducible refine State.tierWrite_kept ?_ ‹_›
    | with_reducible apply State.readEnds_kept
    | with_reducible apply State.countStale_kept
    | exact fun _ k => k
    | split
    | dsimp only
    | intro

theorem execRefresh_kept {s t : State} {i ch : Nat} (e : execRefresh i ch s = .next t) : Kept s t := by
  have hk := Kept.refl s
  unfold execRefresh at e
  cases e
  (try dsimp only)
  repeat' first
    | with_reducible assumption
    | with_reducible apply VCtx.next_kept
    | exact fun _ k => k
    | split
    | dsimp only
    | intro

theorem execPhyMasterRequest_kept {s t : State} {i ch : Nat} (e : execPhyMasterRequest i ch s = .next t) : Kept s t := by
  have hk := Kept.refl s
  unfold execPhyMasterRequest at e
  cases e
  (try dsimp only)
  repeat' first
    | with_reducible assumption
    | with_reducible apply VCtx.next_kept
    | exact fun _ k => k
    | split
    | dsimp only
    | intro

theorem execMemoryPortTraining_kept {s t : State} {i port : Nat} {r : TrainReport}
    (e : execMemoryPortTraining i port r s = .next t) : Kept s t := by
  have hk := Kept.refl s
  unfold execMemoryPortTraining at e
  extract_lets +onlyGivenNames x at e
  split at e
  · cases e
    exact hk
  · split at e
    · cases e
      exact State.setFld_kept (State.setFld_kept hk)
    · split at e
      · cases e
        exact State.onSite_kept hk fun t k => Site.setPort_canonical k
      · split at e
        · cases e
        · cases e
          exact State.trainPort_kept hk

theorem execPhyReadyTimeout_kept {s t : State} {i port : Nat} (e : execPhyReadyTimeout i port s = .next t) : Kept s t := by
  have hk := Kept.refl s
  unfold execPhyReadyTimeout at e
  cases e
  (try dsimp only)
  repeat' first
    | with_reducible assumption
    | with_reducible apply State.onSite_kept
    | with_reducible apply State.setFld_kept
    | with_reducible apply VCtx.next_kept
    | with_reducible apply State.channelLost_kept
    | with_reducible apply Kept.foldl
    | with_reducible apply Kept.foldlFst
    | with_reducible apply Site.foldl_canonical
    | with_reducible apply Site.setFld_canonical
    | with_reducible apply Site.setPort_canonical
    | exact fun _ k => k
    | split
    | dsimp only
    | intro

theorem execSweep_kept {s t : State} {i : Nat} (e : execSweep i s = .next t) : Kept s t := by
  have hk := Kept.refl s
  unfold execSweep at e
  cases e
  (try dsimp only)
  repeat' first
    | with_reducible assumption
    | with_reducible apply State.onSite_kept
    | with_reducible apply VCtx.next_kept
    | with_reducible apply Site.sweep_canonical
    | exact fun _ k => k
    | split
    | dsimp only
    | intro

theorem execClaim_kept {s t : State} {i ch : Nat} (e : execClaim i ch s = .next t) : Kept s t := by
  have hk := Kept.refl s
  unfold execClaim at e
  cases e
  (try dsimp only)
  repeat' first
    | with_reducible assumption
    | with_reducible apply State.onSite_kept
    | with_reducible apply VCtx.next_kept
    | with_reducible apply State.noRoom_kept
    | with_reducible apply Site.startMove_canonical
    | exact fun _ k => k
    | split
    | dsimp only
    | intro

theorem execCopy_kept {s t : State} {i ch : Nat} {ok : Bool} (e : execCopy i ch ok s = .next t) : Kept s t := by
  have hk := Kept.refl s
  unfold execCopy at e
  cases e
  (try dsimp only)
  repeat' first
    | with_reducible assumption
    | with_reducible apply State.onSite_kept
    | with_reducible apply VCtx.next_kept
    | with_reducible apply State.onMove_kept
    | with_reducible apply State.moveReadFails_kept
    | with_reducible apply Site.copySubs_canonical
    | exact fun _ k => k
    | split
    | dsimp only
    | intro

theorem execReCopy_kept {s t : State} {i ch : Nat} {ok : Bool} (e : execReCopy i ch ok s = .next t) : Kept s t := by
  have hk := Kept.refl s
  unfold execReCopy at e
  cases e
  (try dsimp only)
  repeat' first
    | with_reducible assumption
    | with_reducible apply State.onSite_kept
    | with_reducible apply VCtx.next_kept
    | with_reducible apply State.abandonMoves_kept
    | with_reducible apply State.onMove_kept
    | with_reducible apply State.moveReadFails_kept
    | with_reducible apply Site.copySubs_canonical
    | exact fun _ k => k
    | split
    | dsimp only
    | intro

theorem execSwitch_kept {s t : State} {i ch : Nat} (e : execSwitch i ch s = .next t) : Kept s t := by
  have hk := Kept.refl s
  unfold execSwitch at e
  cases e
  (try dsimp only)
  repeat' first
    | with_reducible assumption
    | with_reducible apply State.onSite_kept
    | with_reducible apply State.bump_kept
    | with_reducible apply VCtx.next_kept
    | with_reducible apply State.runHeld_kept
    | with_reducible apply State.moveDone_kept
    | with_reducible apply Site.bump_canonical
    | with_reducible apply Site.switchMove_canonical
    | exact fun _ k => k
    | split
    | dsimp only
    | intro

theorem execGo_kept {s t : State} {i ch : Nat} {value : W32} (e : execGo i ch value s = .next t) : Kept s t := by
  have hk := Kept.refl s
  unfold execGo at e
  cases e
  (try dsimp only)
  repeat' first
    | with_reducible assumption
    | with_reducible apply State.onSite_kept
    | with_reducible apply State.setFld_kept
    | with_reducible apply VCtx.next_kept
    | with_reducible apply Site.setFld_canonical
    | with_reducible apply Site.setReg_canonical
    | exact fun _ k => k
    | split
    | dsimp only
    | intro

theorem execStop_kept {s t : State} {i ch : Nat} (e : execStop i ch s = .next t) : Kept s t := by
  have hk := Kept.refl s
  unfold execStop at e
  cases e
  (try dsimp only)
  repeat' first
    | with_reducible assumption
    | with_reducible apply State.setFld_kept
    | with_reducible apply VCtx.next_kept
    | with_reducible apply Site.setFld_canonical
    | exact fun _ k => k
    | split
    | dsimp only
    | intro

theorem execTgPatternDone_kept {s t : State} {i ch : Nat} {r : TgReport} (e : execTgPatternDone i ch r s = .next t) : Kept s t := by
  have hk := Kept.refl s
  unfold execTgPatternDone at e
  cases e
  (try dsimp only)
  repeat' first
    | with_reducible assumption
    | with_reducible apply State.onSite_kept
    | with_reducible apply State.setFld_kept
    | with_reducible apply VCtx.next_kept
    | with_reducible apply Site.setFld_canonical
    | with_reducible apply Site.setReg_canonical
    | exact fun _ k => k
    | split
    | dsimp only
    | intro

theorem execAspaceCreate_kept {s t : State} {c : CmdRef} (e : execAspaceCreate c s = .next t) : Kept s t := by
  have hk := Kept.refl s
  unfold execAspaceCreate aspaceCreateRun at e
  (try dsimp only)
  repeat' first
    | with_reducible assumption
    | with_reducible refine ctlRow_kept ?_ ‹_›
    | with_reducible apply ctlFail_keeps
    | with_reducible apply Job.change_keeps
    | with_reducible apply Keeps.get
    | with_reducible apply Keeps.set
    | with_reducible apply Keeps.modify
    | with_reducible apply Keeps.pure
    | with_reducible apply Keeps.throw
    | with_reducible apply Keeps.fail
    | with_reducible apply Keeps.bind
    | exact fun _ k => k
    | split
    | dsimp only
    | intro

theorem execAspaceDestroy_kept {s t : State} {c : CmdRef} (e : execAspaceDestroy c s = .next t) : Kept s t := by
  have hk := Kept.refl s
  unfold execAspaceDestroy aspaceDestroyRun at e
  (try dsimp only)
  repeat' first
    | with_reducible assumption
    | with_reducible refine ctlRow_kept ?_ ‹_›
    | with_reducible apply ctlFail_keeps
    | with_reducible apply Job.change_keeps
    | with_reducible apply Keeps.get
    | with_reducible apply Keeps.set
    | with_reducible apply Keeps.modify
    | with_reducible apply Keeps.pure
    | with_reducible apply Keeps.throw
    | with_reducible apply Keeps.fail
    | with_reducible apply Keeps.bind
    | with_reducible apply State.onCmd_kept
    | with_reducible apply State.ownerStreams_kept
    | exact fun _ k => k
    | split
    | dsimp only
    | intro

theorem execObjCreate_kept {s t : State} {c : CmdRef} (e : execObjCreate c s = .next t) : Kept s t := by
  have hk := Kept.refl s
  unfold execObjCreate objCreateRun at e
  (try dsimp only)
  repeat' first
    | with_reducible assumption
    | with_reducible refine ctlRow_kept ?_ ‹_›
    | with_reducible apply ctlFail_keeps
    | with_reducible apply Job.newObj_keeps
    | with_reducible apply Keeps.get
    | with_reducible apply Keeps.set
    | with_reducible apply Keeps.modify
    | with_reducible apply Keeps.pure
    | with_reducible apply Keeps.throw
    | with_reducible apply Keeps.fail
    | with_reducible apply Keeps.bind
    | with_reducible refine State.drawObject_kept ?_ ‹_›
    | exact fun _ k => k
    | split
    | dsimp only
    | intro

theorem execObjFree_kept {s t : State} {c : CmdRef} (e : execObjFree c s = .next t) : Kept s t := by
  have hk := Kept.refl s
  unfold execObjFree objFreeRun at e
  (try dsimp only)
  repeat' first
    | with_reducible assumption
    | with_reducible refine ctlRow_kept ?_ ‹_›
    | with_reducible apply ctlFail_keeps
    | with_reducible apply Job.change_keeps
    | with_reducible apply Keeps.get
    | with_reducible apply Keeps.set
    | with_reducible apply Keeps.modify
    | with_reducible apply Keeps.pure
    | with_reducible apply Keeps.throw
    | with_reducible apply Keeps.fail
    | with_reducible apply Keeps.bind
    | with_reducible apply State.countRef_kept
    | exact fun _ k => k
    | split
    | dsimp only
    | intro

theorem execMap_kept {s t : State} {c : CmdRef} (e : execMap c s = .next t) : Kept s t := by
  have hk := Kept.refl s
  unfold execMap mapRun at e
  (try dsimp only)
  repeat' first
    | with_reducible assumption
    | with_reducible refine ctlRow_kept ?_ ‹_›
    | with_reducible apply ctlFail_keeps
    | with_reducible apply Job.change_keeps
    | with_reducible apply Keeps.get
    | with_reducible apply Keeps.set
    | with_reducible apply Keeps.modify
    | with_reducible apply Keeps.pure
    | with_reducible apply Keeps.throw
    | with_reducible apply Keeps.fail
    | with_reducible apply Keeps.bind
    | exact fun _ k => k
    | split
    | dsimp only
    | intro

theorem execUnmap_kept {s t : State} {c : CmdRef} (e : execUnmap c s = .next t) : Kept s t := by
  have hk := Kept.refl s
  unfold execUnmap unmapRun at e
  (try dsimp only)
  repeat' first
    | with_reducible assumption
    | with_reducible refine ctlRow_kept ?_ ‹_›
    | with_reducible apply ctlFail_keeps
    | with_reducible apply Job.change_keeps
    | with_reducible apply Keeps.get
    | with_reducible apply Keeps.set
    | with_reducible apply Keeps.modify
    | with_reducible apply Keeps.pure
    | with_reducible apply Keeps.throw
    | with_reducible apply Keeps.fail
    | with_reducible apply Keeps.bind
    | exact fun _ k => k
    | split
    | dsimp only
    | intro

theorem execFaultResolve_kept {s t : State} {c : CmdRef} (e : execFaultResolve c s = .next t) : Kept s t := by
  have hk := Kept.refl s
  unfold execFaultResolve faultResolveRun at e
  (try dsimp only)
  repeat' first
    | with_reducible assumption
    | with_reducible refine ctlRow_kept ?_ ‹_›
    | with_reducible apply ctlFail_keeps
    | with_reducible apply Keeps.get
    | with_reducible apply Keeps.set
    | with_reducible apply Keeps.modify
    | with_reducible apply Keeps.pure
    | with_reducible apply Keeps.throw
    | with_reducible apply Keeps.fail
    | with_reducible apply Keeps.bind
    | with_reducible apply KeptEnd.done
    | with_reducible apply State.failEntry_kept
    | with_reducible apply State.retryEntry_kept
    | exact fun _ k => k
    | split
    | dsimp only
    | intro

theorem execRelease_kept {s t : State} {vd obj : Nat} (e : execRelease vd obj s = .next t) : Kept s t := by
  have hk := Kept.refl s
  unfold execRelease at e
  cases e
  (try dsimp only)
  repeat' first
    | with_reducible assumption
    | with_reducible apply VCtx.next_kept
    | with_reducible apply State.startRelease_kept
    | exact fun _ k => k
    | split
    | dsimp only
    | intro

theorem execReleaseWaitExpiry_kept {s t : State} {vd obj : Nat} (e : execReleaseWaitExpiry vd obj s = .next t) : Kept s t := by
  have hk := Kept.refl s
  unfold execReleaseWaitExpiry at e
  cases e
  (try dsimp only)
  repeat' first
    | with_reducible assumption
    | with_reducible apply VCtx.next_kept
    | with_reducible apply State.released_kept
    | exact fun _ k => k
    | split
    | dsimp only
    | intro

theorem execInvalidationAck_kept {s t : State} {vd k : Nat} (e : execInvalidationAck vd k s = .next t) : Kept s t := by
  have hk := Kept.refl s
  unfold execInvalidationAck at e
  cases e
  (try dsimp only)
  repeat' first
    | with_reducible assumption
    | with_reducible apply VCtx.next_kept
    | with_reducible apply State.acknowledged_kept
    | exact fun _ k => k
    | split
    | dsimp only
    | intro

theorem execInvalidationDrain_kept {s t : State} {vd k : Nat} (e : execInvalidationDrain vd k s = .next t) : Kept s t := by
  have hk := Kept.refl s
  unfold execInvalidationDrain at e
  cases e
  (try dsimp only)
  repeat' first
    | with_reducible assumption
    | with_reducible apply VCtx.next_kept
    | with_reducible apply State.killOlder_kept
    | exact fun _ k => k
    | split
    | dsimp only
    | intro

theorem execAtsInvalidation_kept {s t : State} {vd bus len : Nat} (e : execAtsInvalidation vd bus len s = .next t) : Kept s t := by
  have hk := Kept.refl s
  unfold execAtsInvalidation at e
  cases e
  (try dsimp only)
  repeat' first
    | with_reducible assumption
    | with_reducible apply VCtx.next_kept
    | with_reducible apply State.invalidate_kept
    | exact fun _ k => k
    | split
    | dsimp only
    | intro

theorem execDvaFault_kept {s t : State} {c : CmdRef} {dva : Nat} {access : BitVec 3} {engine : Nat} (e : execDvaFault c dva access engine s = .next t) : Kept s t := by
  have hk := Kept.refl s
  unfold execDvaFault at e
  cases e
  (try dsimp only)
  repeat' first
    | with_reducible assumption
    | with_reducible apply State.onCmd_kept
    | with_reducible apply State.emit_kept
    | with_reducible apply VCtx.next_kept
    | with_reducible apply VCtx.fault_kept
    | with_reducible apply State.faulted_kept
    | exact fun _ k => k
    | split
    | dsimp only
    | intro

theorem execPageRequestResponse_kept {s t : State} {c : CmdRef} {ok : Bool} (e : execPageRequestResponse c ok s = .next t) : Kept s t := by
  have hk := Kept.refl s
  unfold execPageRequestResponse at e
  cases e
  (try dsimp only)
  repeat' first
    | with_reducible assumption
    | with_reducible apply State.onCmd_kept
    | with_reducible apply VCtx.next_kept
    | with_reducible apply VCtx.fault_kept
    | with_reducible apply State.faulted_kept
    | exact fun _ k => k
    | split
    | dsimp only
    | intro

theorem execFaultBatchWrite_kept {s t : State} {vd : Nat} (e : execFaultBatchWrite vd s = .next t) : Kept s t := by
  have hk := Kept.refl s
  unfold execFaultBatchWrite at e
  cases e
  (try dsimp only)
  repeat' first
    | with_reducible assumption
    | with_reducible apply VCtx.next_kept
    | with_reducible apply State.loseBatch_kept
    | with_reducible refine writeBatch_kept ?_ ‹_›
    | exact fun _ k => k
    | split
    | dsimp only
    | intro

theorem execFaultRingFullExpiry_kept {s t : State} {vd : Nat} (e : execFaultRingFullExpiry vd s = .next t) : Kept s t := by
  have hk := Kept.refl s
  unfold execFaultRingFullExpiry at e
  cases e
  (try dsimp only)
  repeat' first
    | with_reducible assumption
    | with_reducible apply VCtx.next_kept
    | with_reducible apply State.loseBatch_kept
    | exact fun _ k => k
    | split
    | dsimp only
    | intro

theorem execFaultEntryExpiry_kept {s t : State} {vd fid : Nat} (e : execFaultEntryExpiry vd fid s = .next t) : Kept s t := by
  have hk := Kept.refl s
  unfold execFaultEntryExpiry at e
  cases e
  (try dsimp only)
  repeat' first
    | with_reducible assumption
    | with_reducible apply VCtx.next_kept
    | with_reducible apply State.failEntry_kept
    | exact fun _ k => k
    | split
    | dsimp only
    | intro

theorem execHostCompletion_kept {s t : State} {c : CmdRef} {st : HostStatus} {bus : Nat} {data : Bytes} (e : execHostCompletion c st bus data s = .next t) : Kept s t := by
  have hk := Kept.refl s
  unfold execHostCompletion at e
  cases e
  (try dsimp only)
  repeat' first
    | with_reducible assumption
    | with_reducible apply State.onSp_kept
    | with_reducible apply State.onCmd_kept
    | with_reducible apply VCtx.next_kept
    | with_reducible apply State.failAccess_kept
    | with_reducible apply State.released_kept
    | exact fun _ k => k
    | split
    | dsimp only
    | intro

theorem execHostCompletionTimeout_kept {s t : State} {c : CmdRef} (e : execHostCompletionTimeout c s = .next t) : Kept s t := by
  have hk := Kept.refl s
  unfold execHostCompletionTimeout at e
  cases e
  (try dsimp only)
  repeat' first
    | with_reducible assumption
    | with_reducible apply VCtx.next_kept
    | with_reducible apply State.failAccess_kept
    | exact fun _ k => k
    | split
    | dsimp only
    | intro

theorem execReduce_kept {s t : State} {c : CmdRef} (e : execReduce c s = .next t) : Kept s t := by
  have hk := Kept.refl s
  unfold execReduce reduceRun at e
  (try dsimp only)
  repeat' first
    | with_reducible assumption
    | with_reducible refine runRow_kept ?_ ‹_›
    | with_reducible apply Job.load_keeps
    | with_reducible apply Job.store_keeps
    | with_reducible apply Job.flags_keeps
    | with_reducible apply Job.loadAt_keeps
    | with_reducible apply Job.checkReduce_keeps
    | with_reducible apply Keeps.get
    | with_reducible apply Keeps.set
    | with_reducible apply Keeps.modify
    | with_reducible apply Keeps.pure
    | with_reducible apply Keeps.throw
    | with_reducible apply Keeps.fail
    | with_reducible apply Keeps.mapM
    | with_reducible apply Keeps.bind
    | with_reducible apply SCtx.store_kept
    | with_reducible apply Kept.foldl
    | with_reducible apply Kept.foldlFst
    | with_reducible apply Site.foldl_canonical
    | exact fun _ k => k
    | split
    | dsimp only
    | intro

theorem execDmaCopy_kept {s t : State} {c : CmdRef} (e : execDmaCopy c s = .next t) : Kept s t := by
  have hk := Kept.refl s
  unfold execDmaCopy dmaCopyRun at e
  (try dsimp only)
  repeat' first
    | with_reducible assumption
    | with_reducible refine runRow_kept ?_ ‹_›
    | with_reducible apply Job.load_keeps
    | with_reducible apply Job.store_keeps
    | with_reducible apply Job.checkDma_keeps
    | with_reducible apply Keeps.get
    | with_reducible apply Keeps.set
    | with_reducible apply Keeps.modify
    | with_reducible apply Keeps.pure
    | with_reducible apply Keeps.throw
    | with_reducible apply Keeps.fail
    | with_reducible apply Keeps.forM
    | with_reducible apply Keeps.bind
    | with_reducible apply SCtx.store_kept
    | exact fun _ k => k
    | split
    | dsimp only
    | intro

theorem execDmaFill_kept {s t : State} {c : CmdRef} (e : execDmaFill c s = .next t) : Kept s t := by
  have hk := Kept.refl s
  unfold execDmaFill dmaFillRun at e
  (try dsimp only)
  repeat' first
    | with_reducible assumption
    | with_reducible refine runRow_kept ?_ ‹_›
    | with_reducible apply Job.store_keeps
    | with_reducible apply Job.checkDma_keeps
    | with_reducible apply Keeps.get
    | with_reducible apply Keeps.set
    | with_reducible apply Keeps.modify
    | with_reducible apply Keeps.pure
    | with_reducible apply Keeps.throw
    | with_reducible apply Keeps.fail
    | with_reducible apply Keeps.forM
    | with_reducible apply Keeps.bind
    | with_reducible apply SCtx.store_kept
    | exact fun _ k => k
    | split
    | dsimp only
    | intro

theorem execScalarRun_kept {s t : State} {c : CmdRef} (e : execScalarRun c s = .next t) : Kept s t := by
  have hk := Kept.refl s
  unfold execScalarRun at e
  cases e
  (try dsimp only)
  repeat' first
    | with_reducible assumption
    | with_reducible apply State.onCore_kept
    | with_reducible apply VCtx.next_kept
    | with_reducible apply idle_kept
    | with_reducible apply Site.onCore_canonical
    | exact fun _ k => k
    | split
    | dsimp only
    | intro

theorem execCommandIssue_kept {s t : State} {c : CmdRef} (e : execCommandIssue c s = .next t) : Kept s t := by
  have hk := Kept.refl s
  unfold execCommandIssue at e
  cases e
  (try dsimp only)
  repeat' first
    | with_reducible assumption
    | with_reducible apply VCtx.next_kept
    | with_reducible apply State.issue_kept
    | exact fun _ k => k
    | split
    | dsimp only
    | intro

end Sys2Proof.Machine
end

