-- ==== Sys2Proof/Laws/KeptX2.lean ====
section
/-! SUPPORT. The commands of Sched, FabricCmd, Links, Fabric, Irq, Slices, Reset, Attest, Manage, Shape, Power, Health, Stores, Migrate, Boot, RegView keep what every command keeps. -/

set_option linter.unusedVariables false

namespace Sys2Proof.Machine

theorem execQuantumExpiry_kept {s t : State} {i core q : Nat} (e : execQuantumExpiry i core q s = .next t) : Kept s t := by
  have hk := Kept.refl s
  unfold execQuantumExpiry at e
  cases e
  (try dsimp only)
  repeat' first
    | with_reducible assumption
    | with_reducible apply State.onUnit_kept
    | with_reducible apply VCtx.next_kept
    | with_reducible apply State.preempt_kept
    | exact fun _ k => k
    | split
    | dsimp only
    | intro

theorem execReelIdleYield_kept {s t : State} {i core q : Nat} (e : execReelIdleYield i core q s = .next t) : Kept s t := by
  have hk := Kept.refl s
  unfold execReelIdleYield at e
  cases e
  (try dsimp only)
  repeat' first
    | with_reducible assumption
    | with_reducible apply State.onUnit_kept
    | with_reducible apply VCtx.next_kept
    | with_reducible apply State.preempt_kept
    | exact fun _ k => k
    | split
    | dsimp only
    | intro

theorem execTileBoundary_kept {s t : State} {i core q : Nat} (e : execTileBoundary i core q s = .next t) : Kept s t := by
  have hk := Kept.refl s
  unfold execTileBoundary at e
  cases e
  (try dsimp only)
  repeat' first
    | with_reducible assumption
    | with_reducible apply VCtx.next_kept
    | with_reducible apply State.preempt_kept
    | with_reducible apply State.saveUnit_kept
    | with_reducible apply State.setMode_kept
    | exact fun _ k => k
    | split
    | dsimp only
    | intro

theorem execWorkUnitBoundary_kept {s t : State} {i core q : Nat} {kind : EngineKind} (e : execWorkUnitBoundary i core q kind s = .next t) : Kept s t := by
  have hk := Kept.refl s
  unfold execWorkUnitBoundary at e
  cases e
  (try dsimp only)
  repeat' first
    | with_reducible assumption
    | with_reducible apply VCtx.next_kept
    | with_reducible apply State.preempt_kept
    | with_reducible apply State.saveUnit_kept
    | exact fun _ k => k
    | split
    | dsimp only
    | intro

theorem execSwitchWindow_kept {s t : State} {i core q : Nat} (e : execSwitchWindow i core q s = .next t) : Kept s t := by
  have hk := Kept.refl s
  unfold execSwitchWindow at e
  cases e
  (try dsimp only)
  repeat' first
    | with_reducible assumption
    | with_reducible apply VCtx.next_kept
    | with_reducible apply State.resume_kept
    | exact fun _ k => k
    | split
    | dsimp only
    | intro

theorem execZeroingDone_kept {s t : State} {i core q : Nat} (e : execZeroingDone i core q s = .next t) : Kept s t := by
  have hk := Kept.refl s
  unfold execZeroingDone at e
  cases e
  (try dsimp only)
  repeat' first
    | with_reducible assumption
    | with_reducible apply State.onCore_kept
    | with_reducible apply VCtx.next_kept
    | with_reducible apply Site.onCore_canonical
    | exact fun _ k => k
    | split
    | dsimp only
    | intro

theorem execBudgetWindowEnd_kept {s t : State} {i slice bset path : Nat} {m : WindowMeasure} (e : execBudgetWindowEnd i slice bset path m s = .next t) : Kept s t := by
  have hk := Kept.refl s
  unfold execBudgetWindowEnd at e
  cases e
  (try dsimp only)
  repeat' first
    | with_reducible assumption
    | with_reducible apply VCtx.next_kept
    | with_reducible apply State.endWindow_kept
    | exact fun _ k => k
    | split
    | dsimp only
    | intro

theorem execSnap_kept {s t : State} {i : Nat} {value : W32} (e : execSnap i value s = .next t) : Kept s t := by
  have hk := Kept.refl s
  unfold execSnap at e
  cases e
  (try dsimp only)
  repeat' first
    | with_reducible assumption
    | with_reducible apply VCtx.next_kept
    | with_reducible apply State.snapshot_kept
    | exact fun _ k => k
    | split
    | dsimp only
    | intro

theorem execSnapClear_kept {s t : State} {i : Nat} {value : W32} (e : execSnapClear i value s = .next t) : Kept s t := by
  have hk := Kept.refl s
  unfold execSnapClear at e
  cases e
  (try dsimp only)
  repeat' first
    | with_reducible assumption
    | with_reducible apply VCtx.next_kept
    | with_reducible apply State.snapshot_kept
    | exact fun _ k => k
    | split
    | dsimp only
    | intro

theorem execFabAtomic_kept {s t : State} {c : CmdRef} (e : execFabAtomic c s = .next t) : Kept s t := by
  have hk := Kept.refl s
  unfold execFabAtomic fabAtomicRun at e
  (try dsimp only)
  repeat' first
    | with_reducible assumption
    | with_reducible refine runRow_kept ?_ ‹_›
    | with_reducible apply Job.load_keeps
    | with_reducible apply Job.store_keeps
    | with_reducible apply Job.checkAtomic_keeps
    | with_reducible apply Job.atomics_keeps
    | with_reducible apply Keeps.get
    | with_reducible apply Keeps.set
    | with_reducible apply Keeps.modify
    | with_reducible apply Keeps.pure
    | with_reducible apply Keeps.throw
    | with_reducible apply Keeps.fail
    | with_reducible apply Keeps.bind
    | with_reducible apply SCtx.store_kept
    | exact fun _ k => k
    | split
    | dsimp only
    | intro

theorem execLoftAcquire_kept {s t : State} {c : CmdRef} (e : execLoftAcquire c s = .next t) : Kept s t := by
  have hk := Kept.refl s
  unfold execLoftAcquire loftAcquireRun at e
  (try dsimp only)
  repeat' first
    | with_reducible assumption
    | with_reducible refine runRow_kept ?_ ‹_›
    | with_reducible apply Keeps.get
    | with_reducible apply Keeps.set
    | with_reducible apply Keeps.modify
    | with_reducible apply Keeps.pure
    | with_reducible apply Keeps.throw
    | with_reducible apply Keeps.fail
    | with_reducible apply Keeps.bind
    | with_reducible apply State.onNet_kept
    | with_reducible apply State.dropSubs_kept
    | exact fun _ k => k
    | split
    | dsimp only
    | intro

theorem execLoftRelease_kept {s t : State} {c : CmdRef} (e : execLoftRelease c s = .next t) : Kept s t := by
  have hk := Kept.refl s
  unfold execLoftRelease loftReleaseRun at e
  (try dsimp only)
  repeat' first
    | with_reducible assumption
    | with_reducible refine runRow_kept ?_ ‹_›
    | with_reducible apply Job.writeBack_keeps
    | with_reducible apply Keeps.get
    | with_reducible apply Keeps.set
    | with_reducible apply Keeps.modify
    | with_reducible apply Keeps.pure
    | with_reducible apply Keeps.throw
    | with_reducible apply Keeps.fail
    | with_reducible apply Keeps.forM
    | with_reducible apply Keeps.bind
    | with_reducible apply State.onCmd_kept
    | with_reducible apply State.onNet_kept
    | with_reducible apply State.dropSubs_kept
    | exact fun _ k => k
    | split
    | dsimp only
    | intro

theorem execMcastGroupSet_kept {s t : State} {c : CmdRef} (e : execMcastGroupSet c s = .next t) : Kept s t := by
  have hk := Kept.refl s
  unfold execMcastGroupSet mcastGroupSetRun at e
  (try dsimp only)
  repeat' first
    | with_reducible assumption
    | with_reducible refine runRow_kept ?_ ‹_›
    | with_reducible apply Job.load_keeps
    | with_reducible apply Keeps.get
    | with_reducible apply Keeps.set
    | with_reducible apply Keeps.modify
    | with_reducible apply Keeps.pure
    | with_reducible apply Keeps.throw
    | with_reducible apply Keeps.fail
    | with_reducible apply Keeps.bind
    | with_reducible apply State.onNet_kept
    | exact fun _ k => k
    | split
    | dsimp only
    | intro

theorem execMcastWrite_kept {s t : State} {c : CmdRef} (e : execMcastWrite c s = .next t) : Kept s t := by
  have hk := Kept.refl s
  unfold execMcastWrite mcastWriteRun at e
  (try dsimp only)
  repeat' first
    | with_reducible assumption
    | with_reducible refine runRow_kept ?_ ‹_›
    | with_reducible apply Job.putDva_keeps
    | with_reducible apply Job.load_keeps
    | with_reducible apply Job.store_keeps
    | with_reducible apply Keeps.get
    | with_reducible apply Keeps.set
    | with_reducible apply Keeps.modify
    | with_reducible apply Keeps.pure
    | with_reducible apply Keeps.throw
    | with_reducible apply Keeps.fail
    | with_reducible apply Keeps.forM
    | with_reducible apply Keeps.bind
    | with_reducible apply Job.tryBranch_keeps
    | with_reducible apply State.onCmd_kept
    | with_reducible apply State.onNet_kept
    | with_reducible apply SCtx.store_kept
    | with_reducible apply Kept.foldl
    | with_reducible apply Kept.foldlFst
    | with_reducible apply Site.foldl_canonical
    | exact fun _ k => k
    | split
    | dsimp only
    | intro

theorem execHoldTimeExpiry_kept {s t : State} {c : CmdRef} {branch : Nat} (e : execHoldTimeExpiry c branch s = .next t) : Kept s t := by
  have hk := Kept.refl s
  unfold execHoldTimeExpiry at e
  cases e
  (try dsimp only)
  repeat' first
    | with_reducible assumption
    | with_reducible apply VCtx.next_kept
    | with_reducible apply VCtx.branch_kept
    | with_reducible apply State.branchFails_kept
    | exact fun _ k => k
    | split
    | dsimp only
    | intro

theorem execCollective_kept {s t : State} {c : CmdRef} (e : execCollective c s = .next t) : Kept s t := by
  have hk := Kept.refl s
  unfold execCollective collectiveRun at e
  (try dsimp only)
  repeat' first
    | with_reducible assumption
    | with_reducible refine runRow_kept ?_ ‹_›
    | with_reducible apply Job.contribBody_keeps
    | with_reducible apply Job.allToAll_keeps
    | with_reducible apply Keeps.get
    | with_reducible apply Keeps.set
    | with_reducible apply Keeps.modify
    | with_reducible apply Keeps.pure
    | with_reducible apply Keeps.throw
    | with_reducible apply Keeps.fail
    | with_reducible apply Keeps.bind
    | exact fun _ k => k
    | split
    | dsimp only
    | intro

theorem execLinkFrame_kept {s t : State} {i l seq : Nat} {crcOk : Bool} {units : Nat} (e : execLinkFrame i l seq crcOk units s = .next t) : Kept s t := by
  have hk := Kept.refl s
  unfold execLinkFrame at e
  cases e
  (try dsimp only)
  repeat' first
    | with_reducible assumption
    | with_reducible apply State.emit_kept
    | with_reducible apply State.bump_kept
    | with_reducible apply State.draw_kept
    | with_reducible refine State.draw_kept' ?_ ‹_›
    | with_reducible apply VCtx.next_kept
    | with_reducible apply State.onLink_kept
    | with_reducible apply State.control_kept
    | with_reducible apply State.refused_kept
    | with_reducible apply Site.bump_canonical
    | exact fun _ k => k
    | split
    | dsimp only
    | intro

theorem execAcknowledgement_kept {s t : State} {i l seq : Nat} (e : execAcknowledgement i l seq s = .next t) : Kept s t := by
  have hk := Kept.refl s
  unfold execAcknowledgement at e
  cases e
  (try dsimp only)
  repeat' first
    | with_reducible assumption
    | with_reducible apply VCtx.next_kept
    | with_reducible apply State.onLink_kept
    | with_reducible apply State.drain_kept
    | exact fun _ k => k
    | split
    | dsimp only
    | intro

theorem execNegativeAcknowledgement_kept {s t : State} {i l seq : Nat} (e : execNegativeAcknowledgement i l seq s = .next t) : Kept s t := by
  have hk := Kept.refl s
  unfold execNegativeAcknowledgement at e
  cases e
  (try dsimp only)
  repeat' first
    | with_reducible assumption
    | with_reducible apply VCtx.next_kept
    | with_reducible apply State.onLink_kept
    | with_reducible apply State.refused_kept
    | with_reducible apply State.resendFrom_kept
    | exact fun _ k => k
    | split
    | dsimp only
    | intro

theorem execCreditReturn_kept {s t : State} {i l : Nat} {cr : CreditGrant} (e : execCreditReturn i l cr s = .next t) : Kept s t := by
  have hk := Kept.refl s
  unfold execCreditReturn at e
  cases e
  (try dsimp only)
  repeat' first
    | with_reducible assumption
    | with_reducible apply VCtx.next_kept
    | with_reducible apply State.onLink_kept
    | with_reducible apply State.drain_kept
    | exact fun _ k => k
    | split
    | dsimp only
    | intro

theorem execDetect_kept {s t : State} {i l : Nat} {signal : BitVec 5} (e : execDetect i l signal s = .next t) : Kept s t := by
  have hk := Kept.refl s
  unfold execDetect at e
  cases e
  (try dsimp only)
  repeat' first
    | with_reducible assumption
    | with_reducible apply VCtx.next_kept
    | with_reducible apply State.bringTo_kept
    | with_reducible apply State.linkFails_kept
    | exact fun _ k => k
    | split
    | dsimp only
    | intro

theorem execLinkMap_kept {s t : State} {i l : Nat} {lanes : List LaneObs} (e : execLinkMap i l lanes s = .next t) : Kept s t := by
  have hk := Kept.refl s
  unfold execLinkMap at e
  cases e
  (try dsimp only)
  repeat' first
    | with_reducible assumption
    | with_reducible apply VCtx.next_kept
    | with_reducible apply State.mapLanes_kept
    | exact fun _ k => k
    | split
    | dsimp only
    | intro

theorem execEqualise_kept {s t : State} {i l : Nat} {signal : BitVec 5} (e : execEqualise i l signal s = .next t) : Kept s t := by
  have hk := Kept.refl s
  unfold execEqualise at e
  cases e
  (try dsimp only)
  repeat' first
    | with_reducible assumption
    | with_reducible apply VCtx.next_kept
    | with_reducible apply State.bringTo_kept
    | with_reducible apply State.layLanes_kept
    | exact fun _ k => k
    | split
    | dsimp only
    | intro

theorem execAlign_kept {s t : State} {i l : Nat} {ok : Bool} (e : execAlign i l ok s = .next t) : Kept s t := by
  have hk := Kept.refl s
  unfold execAlign at e
  cases e
  (try dsimp only)
  repeat' first
    | with_reducible assumption
    | with_reducible apply VCtx.next_kept
    | with_reducible apply State.bringTo_kept
    | with_reducible apply State.linkFails_kept
    | exact fun _ k => k
    | split
    | dsimp only
    | intro

theorem execCredit_kept {s t : State} {i l : Nat} {cr : CreditGrant} {rtt : Nat} (e : execCredit i l cr rtt s = .next t) : Kept s t := by
  have hk := Kept.refl s
  unfold execCredit at e
  cases e
  (try dsimp only)
  repeat' first
    | with_reducible assumption
    | with_reducible apply VCtx.next_kept
    | with_reducible apply State.linkStarts_kept
    | exact fun _ k => k
    | split
    | dsimp only
    | intro

theorem execLaneLoss_kept {s t : State} {i l lane : Nat} (e : execLaneLoss i l lane s = .next t) : Kept s t := by
  have hk := Kept.refl s
  unfold execLaneLoss at e
  cases e
  (try dsimp only)
  repeat' first
    | with_reducible assumption
    | with_reducible apply State.setFld_kept
    | with_reducible apply VCtx.next_kept
    | with_reducible apply State.retrain_kept
    | with_reducible apply Site.setFld_canonical
    | exact fun _ k => k
    | split
    | dsimp only
    | intro

theorem execLinkRetry_kept {s t : State} {i l : Nat} (e : execLinkRetry i l s = .next t) : Kept s t := by
  have hk := Kept.refl s
  unfold execLinkRetry at e
  cases e
  (try dsimp only)
  repeat' first
    | with_reducible assumption
    | with_reducible apply State.setFld_kept
    | with_reducible apply VCtx.next_kept
    | with_reducible apply Site.setFld_canonical
    | exact fun _ k => k
    | split
    | dsimp only
    | intro

theorem execD2dTraining_kept {s t : State} {i j : Nat} {r : D2dReport} (e : execD2dTraining i j r s = .next t) : Kept s t := by
  have hk := Kept.refl s
  unfold execD2dTraining at e
  cases e
  (try dsimp only)
  repeat' first
    | with_reducible assumption
    | with_reducible apply VCtx.next_kept
    | with_reducible apply State.trainD2d_kept
    | exact fun _ k => k
    | split
    | dsimp only
    | intro

theorem execD2dPortDown_kept {s t : State} {i j : Nat} (e : execD2dPortDown i j s = .next t) : Kept s t := by
  have hk := Kept.refl s
  unfold execD2dPortDown at e
  cases e
  (try dsimp only)
  repeat' first
    | with_reducible assumption
    | with_reducible apply VCtx.next_kept
    | with_reducible apply State.d2dRecord_kept
    | with_reducible apply State.setD2d_kept
    | exact fun _ k => k
    | split
    | dsimp only
    | intro

theorem execModuleLeavesPort_kept {s t : State} {i j k : Nat} (e : execModuleLeavesPort i j k s = .next t) : Kept s t := by
  have hk := Kept.refl s
  unfold execModuleLeavesPort at e
  cases e
  (try dsimp only)
  repeat' first
    | with_reducible assumption
    | with_reducible apply VCtx.next_kept
    | with_reducible apply State.d2dRecord_kept
    | with_reducible apply State.setD2d_kept
    | exact fun _ k => k
    | split
    | dsimp only
    | intro

theorem execFabRt_kept {s t : State} {i d : Nat} {hi : W32} (e : execFabRt i d hi s = .next t) : Kept s t := by
  have hk := Kept.refl s
  unfold execFabRt at e
  cases e
  (try dsimp only)
  repeat' first
    | with_reducible assumption
    | with_reducible apply State.onSite_kept
    | with_reducible apply VCtx.next_kept
    | with_reducible apply Site.setRoute_canonical
    | exact fun _ k => k
    | split
    | dsimp only
    | intro

theorem execFabQuiesceReq_kept {s t : State} {i slot : Nat} (e : execFabQuiesceReq i slot s = .next t) : Kept s t := by
  have hk := Kept.refl s
  unfold execFabQuiesceReq at e
  cases e
  (try dsimp only)
  repeat' first
    | with_reducible assumption
    | with_reducible apply State.setFld_kept
    | with_reducible apply VCtx.next_kept
    | with_reducible apply Site.setFld_canonical
    | exact fun _ k => k
    | split
    | dsimp only
    | intro

theorem execFabQuiesceDone_kept {s t : State} {i : Nat} (e : execFabQuiesceDone i s = .next t) : Kept s t := by
  have hk := Kept.refl s
  unfold execFabQuiesceDone at e
  cases e
  (try dsimp only)
  repeat' first
    | with_reducible assumption
    | with_reducible apply State.setFld_kept
    | with_reducible apply VCtx.next_kept
    | with_reducible apply Site.setFld_canonical
    | exact fun _ k => k
    | split
    | dsimp only
    | intro

theorem execDmaQuiesceReq_kept {s t : State} {i slot : Nat} (e : execDmaQuiesceReq i slot s = .next t) : Kept s t := by
  have hk := Kept.refl s
  unfold execDmaQuiesceReq at e
  cases e
  (try dsimp only)
  repeat' first
    | with_reducible assumption
    | with_reducible apply State.setFld_kept
    | with_reducible apply VCtx.next_kept
    | with_reducible apply Site.setFld_canonical
    | exact fun _ k => k
    | split
    | dsimp only
    | intro

theorem execQuiesceClear_kept {s t : State} {i : Nat} {fab : Bool} (e : execQuiesceClear i fab s = .next t) : Kept s t := by
  have hk := Kept.refl s
  unfold execQuiesceClear at e
  cases e
  (try dsimp only)
  repeat' first
    | with_reducible assumption
    | with_reducible apply State.setFld_kept
    | with_reducible apply VCtx.next_kept
    | with_reducible apply Site.setFld_canonical
    | exact fun _ k => k
    | split
    | dsimp only
    | intro

theorem execReadReq_kept {s t : State} {i : Nat} {p : Pkt} (e : execReadReq i p s = .next t) : Kept s t := by
  have hk := Kept.refl s
  unfold execReadReq at e
  cases e
  (try dsimp only)
  repeat' first
    | with_reducible assumption
    | with_reducible apply State.arrive_kept
    | with_reducible apply VCtx.next_kept
    | with_reducible apply State.respond_kept
    | with_reducible apply State.tierRead_kept
    | with_reducible refine State.tierRead_kept' ?_ ‹_›
    | exact fun _ k => k
    | split
    | dsimp only
    | intro

theorem execWrite_kept {s t : State} {i : Nat} {p : Pkt} (e : execWrite i p s = .next t) : Kept s t := by
  have hk := Kept.refl s
  unfold execWrite at e
  cases e
  (try dsimp only)
  repeat' first
    | with_reducible assumption
    | with_reducible apply State.arrive_kept
    | with_reducible apply VCtx.next_kept
    | with_reducible apply State.respond_kept
    | with_reducible refine State.tierWrite_kept ?_ ‹_›
    | exact fun _ k => k
    | split
    | dsimp only
    | intro

theorem execAtomic_kept {s t : State} {i : Nat} {p : Pkt} (e : execAtomic i p s = .next t) : Kept s t := by
  have hk := Kept.refl s
  unfold execAtomic at e
  cases e
  (try dsimp only)
  repeat' first
    | with_reducible assumption
    | with_reducible apply State.arrive_kept
    | with_reducible apply VCtx.next_kept
    | with_reducible apply State.respond_kept
    | with_reducible refine atomicPacket_kept ?_ ‹_›
    | exact fun _ k => k
    | split
    | dsimp only
    | intro

theorem execFenceSig_kept {s t : State} {i : Nat} {p : Pkt} (e : execFenceSig i p s = .next t) : Kept s t := by
  have hk := Kept.refl s
  unfold execFenceSig at e
  cases e
  (try dsimp only)
  repeat' first
    | with_reducible assumption
    | with_reducible apply State.arrive_kept
    | with_reducible apply VCtx.next_kept
    | with_reducible apply State.respond_kept
    | with_reducible refine State.raiseWord_kept ?_ ‹_›
    | exact fun _ k => k
    | split
    | dsimp only
    | intro

theorem execContrib_kept {s t : State} {i : Nat} {p : Pkt} (e : execContrib i p s = .next t) : Kept s t := by
  have hk := Kept.refl s
  unfold execContrib at e
  cases e
  (try dsimp only)
  repeat' first
    | with_reducible assumption
    | with_reducible apply State.arrive_kept
    | with_reducible apply VCtx.next_kept
    | with_reducible apply State.respond_kept
    | with_reducible apply State.contribute_kept
    | with_reducible refine State.contribute_kept' ?_ ‹_›
    | exact fun _ k => k
    | split
    | dsimp only
    | intro

theorem execReadRsp_kept {s t : State} {i : Nat} {p : Pkt} (e : execReadRsp i p s = .next t) : Kept s t := by
  have hk := Kept.refl s
  unfold execReadRsp at e
  cases e
  (try dsimp only)
  repeat' first
    | with_reducible assumption
    | with_reducible apply State.arrive_kept
    | with_reducible apply State.matchTxn_kept
    | with_reducible apply VCtx.next_kept
    | with_reducible apply State.tookRead_kept
    | with_reducible apply Cluster.fill_canonical
    | exact fun _ k => k
    | split
    | dsimp only
    | intro

theorem execWriteAck_kept {s t : State} {i : Nat} {p : Pkt} (e : execWriteAck i p s = .next t) : Kept s t := by
  have hk := Kept.refl s
  unfold execWriteAck at e
  cases e
  (try dsimp only)
  repeat' first
    | with_reducible assumption
    | with_reducible apply State.arrive_kept
    | with_reducible apply State.matchTxn_kept
    | with_reducible apply VCtx.next_kept
    | with_reducible apply State.acked_kept
    | with_reducible apply Cluster.write_canonical
    | exact fun _ k => k
    | split
    | dsimp only
    | intro

theorem execContribAck_kept {s t : State} {i : Nat} {p : Pkt} (e : execContribAck i p s = .next t) : Kept s t := by
  have hk := Kept.refl s
  unfold execContribAck at e
  cases e
  (try dsimp only)
  repeat' first
    | with_reducible assumption
    | with_reducible apply State.arrive_kept
    | with_reducible apply State.matchTxn_kept
    | with_reducible apply VCtx.next_kept
    | with_reducible apply State.acked_kept
    | exact fun _ k => k
    | split
    | dsimp only
    | intro

theorem execAtomicRsp_kept {s t : State} {i : Nat} {p : Pkt} (e : execAtomicRsp i p s = .next t) : Kept s t := by
  have hk := Kept.refl s
  unfold execAtomicRsp at e
  cases e
  (try dsimp only)
  repeat' first
    | with_reducible assumption
    | with_reducible apply State.arrive_kept
    | with_reducible apply State.matchTxn_kept
    | with_reducible apply VCtx.next_kept
    | with_reducible apply SCtx.atomic_kept
    | with_reducible apply State.tookAtomic_kept
    | exact fun _ k => k
    | split
    | dsimp only
    | intro

theorem execFenceAck_kept {s t : State} {i : Nat} {p : Pkt} (e : execFenceAck i p s = .next t) : Kept s t := by
  have hk := Kept.refl s
  unfold execFenceAck at e
  cases e
  (try dsimp only)
  repeat' first
    | with_reducible assumption
    | with_reducible apply State.arrive_kept
    | with_reducible apply State.matchTxn_kept
    | with_reducible apply VCtx.next_kept
    | with_reducible apply State.tookFence_kept
    | exact fun _ k => k
    | split
    | dsimp only
    | intro

theorem execControl_kept {s t : State} {i : Nat} {p : Pkt} (e : execControl i p s = .next t) : Kept s t := by
  have hk := Kept.refl s
  unfold execControl at e
  cases e
  (try dsimp only)
  repeat' first
    | with_reducible assumption
    | with_reducible apply State.arrive_kept
    | with_reducible apply VCtx.next_kept
    | with_reducible apply State.respond_kept
    | with_reducible apply State.tookControl_kept
    | exact fun _ k => k
    | split
    | dsimp only
    | intro

theorem execControlAck_kept {s t : State} {i : Nat} {p : Pkt} (e : execControlAck i p s = .next t) : Kept s t := by
  have hk := Kept.refl s
  unfold execControlAck at e
  cases e
  (try dsimp only)
  repeat' first
    | with_reducible assumption
    | with_reducible apply State.arrive_kept
    | with_reducible apply State.matchTxn_kept
    | with_reducible apply VCtx.next_kept
    | with_reducible apply State.control_kept
    | with_reducible apply State.tookControlAck_kept
    | exact fun _ k => k
    | split
    | dsimp only
    | intro

theorem execTransportTimeout_kept {s t : State} {i txn : Nat} (e : execTransportTimeout i txn s = .next t) : Kept s t := by
  have hk := Kept.refl s
  unfold execTransportTimeout at e
  cases e
  (try dsimp only)
  repeat' first
    | with_reducible assumption
    | with_reducible apply VCtx.next_kept
    | with_reducible apply VCtx.branch_kept
    | with_reducible apply State.control_kept
    | with_reducible apply State.txnLost_kept
    | exact fun _ k => k
    | split
    | dsimp only
    | intro

theorem execForwardTimeout_kept {s t : State} {i tag : Nat} (e : execForwardTimeout i tag s = .next t) : Kept s t := by
  have hk := Kept.refl s
  unfold execForwardTimeout at e
  cases e
  (try dsimp only)
  repeat' first
    | with_reducible assumption
    | with_reducible apply VCtx.next_kept
    | with_reducible apply State.fwdLost_kept
    | exact fun _ k => k
    | split
    | dsimp only
    | intro

theorem execMbxLock_kept {s t : State} {i : Nat} {agent : Byte} {box : Nat} (e : execMbxLock i agent box s = .next t) :
    Kept s t := by
  unfold execMbxLock at e
  cases e
  extract_lets +onlyGivenNames x
  split
  · exact (Kept.refl s).rd _
  · extract_lets +onlyGivenNames s1
    have h1 : Kept s s1 := (Kept.refl s).rd _
    clear_value s1
    split
    · exact State.onBox_kept h1
    · exact h1

theorem execMbxData_kept {s t : State} {i : Nat} {agent : Byte} {box w : Nat} {value : W32} (e : execMbxData i agent box w value s = .next t) : Kept s t := by
  have hk := Kept.refl s
  unfold execMbxData at e
  cases e
  (try dsimp only)
  repeat' first
    | with_reducible assumption
    | with_reducible apply VCtx.next_kept
    | with_reducible apply State.onBox_kept
    | with_reducible apply State.boxRefuses_kept
    | exact fun _ k => k
    | split
    | dsimp only
    | intro

theorem execMbxDoorbell_kept {s t : State} {i : Nat} {agent : Byte} {box : Nat} {value : W32} (e : execMbxDoorbell i agent box value s = .next t) : Kept s t := by
  have hk := Kept.refl s
  unfold execMbxDoorbell at e
  cases e
  (try dsimp only)
  repeat' first
    | with_reducible assumption
    | with_reducible apply VCtx.next_kept
    | with_reducible apply State.onBox_kept
    | with_reducible apply State.tellBox_kept
    | with_reducible apply State.boxRefuses_kept
    | exact fun _ k => k
    | split
    | dsimp only
    | intro

theorem execMbxFree_kept {s t : State} {i : Nat} {agent : Byte} {box : Nat} {value : W32} (e : execMbxFree i agent box value s = .next t) : Kept s t := by
  have hk := Kept.refl s
  unfold execMbxFree at e
  cases e
  (try dsimp only)
  repeat' first
    | with_reducible assumption
    | with_reducible apply VCtx.next_kept
    | with_reducible apply State.freeBox_kept
    | with_reducible apply State.flushReplies_kept
    | with_reducible apply State.boxRefuses_kept
    | with_reducible apply Core.free_canonical
    | exact fun _ k => k
    | split
    | dsimp only
    | intro

theorem execTargetReset_kept {s t : State} {i : Nat} (e : execTargetReset i s = .next t) : Kept s t := by
  have hk := Kept.refl s
  unfold execTargetReset at e
  cases e
  (try dsimp only)
  repeat' first
    | with_reducible assumption
    | with_reducible apply VCtx.next_kept
    | with_reducible apply State.freeBoxes_kept
    | exact fun _ k => k
    | split
    | dsimp only
    | intro

theorem execEntdaa_kept {s t : State} {i : Nat} {addr : BitVec 7} (e : execEntdaa i addr s = .next t) : Kept s t := by
  have hk := Kept.refl s
  unfold execEntdaa at e
  cases e
  (try dsimp only)
  repeat' first
    | with_reducible assumption
    | with_reducible apply VCtx.next_kept
    | with_reducible apply State.giveAddr_kept
    | exact fun _ k => k
    | split
    | dsimp only
    | intro

theorem execSetdasa_kept {s t : State} {i : Nat} {addr : BitVec 7} (e : execSetdasa i addr s = .next t) : Kept s t := by
  have hk := Kept.refl s
  unfold execSetdasa at e
  cases e
  (try dsimp only)
  repeat' first
    | with_reducible assumption
    | with_reducible apply VCtx.next_kept
    | with_reducible apply State.giveAddr_kept
    | exact fun _ k => k
    | split
    | dsimp only
    | intro

theorem execSourceEdge_kept {s t : State} {i proc n : Nat} (e : execSourceEdge i proc n s = .next t) : Kept s t := by
  have hk := Kept.refl s
  unfold execSourceEdge at e
  cases e
  (try dsimp only)
  repeat' first
    | with_reducible assumption
    | with_reducible apply State.raiseSrc_kept
    | with_reducible apply State.raisePriv_kept
    | with_reducible apply VCtx.next_kept
    | exact fun _ k => k
    | split
    | dsimp only
    | intro

theorem execIrqCoalesceExpiry_kept {s t : State} {i n : Nat} (e : execIrqCoalesceExpiry i n s = .next t) : Kept s t := by
  have hk := Kept.refl s
  unfold execIrqCoalesceExpiry at e
  cases e
  (try dsimp only)
  repeat' first
    | with_reducible assumption
    | with_reducible apply State.deliverSrc_kept
    | with_reducible apply VCtx.next_kept
    | exact fun _ k => k
    | split
    | dsimp only
    | intro

theorem execIrqClaim_kept {s t : State} {i proc : Nat} (e : execIrqClaim i proc s = .next t) : Kept s t := by
  have hk := Kept.refl s
  unfold execIrqClaim at e
  cases e
  extract_lets +onlyGivenNames x
  split
  · exact Kept.rd hk _
  · split
    · exact State.claimedPriv_kept hk
    · split
      · exact State.claimedShared_kept hk
      · exact Kept.rd hk _

theorem execIrqIpi_kept {s t : State} {i proc : Nat} {value : W32} (e : execIrqIpi i proc value s = .next t) : Kept s t := by
  have hk := Kept.refl s
  unfold execIrqIpi at e
  cases e
  (try dsimp only)
  repeat' first
    | with_reducible assumption
    | with_reducible apply State.raisePriv_kept
    | with_reducible apply VCtx.next_kept
    | with_reducible apply Kept.foldl
    | with_reducible apply Kept.foldlFst
    | with_reducible apply Site.foldl_canonical
    | exact fun _ k => k
    | split
    | dsimp only
    | intro

theorem execReqTail_kept {s t : State} {value : W32} (e : execReqTail value s = .next t) : Kept s t := by
  have hk := Kept.refl s
  unfold execReqTail at e
  cases e
  (try dsimp only)
  repeat' first
    | with_reducible assumption
    | with_reducible apply State.raiseSrc_kept
    | with_reducible apply VCtx.next_kept
    | with_reducible apply State.onRings_kept
    | exact fun _ k => k
    | split
    | dsimp only
    | intro

theorem execManagementRingEnable_kept {s t : State} {value : W32} (e : execManagementRingEnable value s = .next t) : Kept s t := by
  have hk := Kept.refl s
  unfold execManagementRingEnable at e
  cases e
  (try dsimp only)
  repeat' first
    | with_reducible assumption
    | with_reducible apply VCtx.next_kept
    | with_reducible apply State.flushReplies_kept
    | with_reducible apply State.onRings_kept
    | exact fun _ k => k
    | split
    | dsimp only
    | intro

theorem execManagementRingDisable_kept {s t : State}  (e : execManagementRingDisable s = .next t) : Kept s t := by
  have hk := Kept.refl s
  unfold execManagementRingDisable at e
  cases e
  (try dsimp only)
  repeat' first
    | with_reducible assumption
    | with_reducible apply VCtx.next_kept
    | with_reducible apply State.onRings_kept
    | exact fun _ k => k
    | split
    | dsimp only
    | intro

theorem execRplHead_kept {s t : State} {value : W32} (e : execRplHead value s = .next t) : Kept s t := by
  have hk := Kept.refl s
  unfold execRplHead at e
  cases e
  (try dsimp only)
  repeat' first
    | with_reducible assumption
    | with_reducible apply VCtx.next_kept
    | with_reducible apply State.flushReplies_kept
    | with_reducible apply State.onRings_kept
    | exact fun _ k => k
    | split
    | dsimp only
    | intro

theorem execFltHead_kept {s t : State} {value : W32} (e : execFltHead value s = .next t) : Kept s t := by
  have hk := Kept.refl s
  unfold execFltHead at e
  cases e
  (try dsimp only)
  repeat' first
    | with_reducible assumption
    | with_reducible apply VCtx.next_kept
    | with_reducible apply State.onRings_kept
    | exact fun _ k => k
    | split
    | dsimp only
    | intro

theorem execRequestTake_kept {s t : State} {agent : Byte} {pkt : Bytes} (e : execRequestTake agent pkt s = .next t) : Kept s t := by
  have hk := Kept.refl s
  unfold execRequestTake at e
  cases e
  (try dsimp only)
  repeat' first
    | with_reducible assumption
    | with_reducible apply VCtx.next_kept
    | with_reducible apply State.place_kept
    | with_reducible apply State.reply_kept
    | with_reducible apply State.takeRequest_kept
    | exact fun _ k => k
    | split
    | dsimp only
    | intro

theorem execFaultRecordWrite_kept {s t : State} {i : Nat} (e : execFaultRecordWrite i s = .next t) : Kept s t := by
  have hk := Kept.refl s
  unfold execFaultRecordWrite at e
  cases e
  (try dsimp only)
  repeat' first
    | with_reducible assumption
    | with_reducible apply State.onWatch_kept
    | with_reducible apply State.raiseSrc_kept
    | with_reducible apply VCtx.next_kept
    | with_reducible apply writeRec_kept
    | with_reducible apply Core.free_canonical
    | exact fun _ k => k
    | split
    | dsimp only
    | intro

theorem execLossSummary_kept {s t : State} {i us : Nat} (e : execLossSummary i us s = .next t) : Kept s t := by
  have hk := Kept.refl s
  unfold execLossSummary at e
  cases e
  (try dsimp only)
  repeat' first
    | with_reducible assumption
    | with_reducible apply State.onWatch_kept
    | with_reducible apply State.raiseSrc_kept
    | with_reducible apply VCtx.next_kept
    | exact fun _ k => k
    | split
    | dsimp only
    | intro

theorem execKeyCreate_kept {s t : State} {i slot slice : Nat} (e : execKeyCreate i slot slice s = .next t) : Kept s t := by
  have hk := Kept.refl s
  unfold execKeyCreate at e
  cases e
  (try dsimp only)
  repeat' first
    | with_reducible assumption
    | with_reducible apply VCtx.next_kept
    | with_reducible apply State.relist_kept
    | with_reducible apply State.fillSlot_kept
    | with_reducible apply State.drawSecret_kept
    | with_reducible refine State.drawSecret_kept' ?_ ‹_›
    | exact fun _ k => k
    | split
    | dsimp only
    | intro

theorem execKeyInstall_kept {s t : State} {i slot slice : Nat} {gen : BitVec 6} {secret : BitVec 256} (e : execKeyInstall i slot slice gen secret s = .next t) : Kept s t := by
  have hk := Kept.refl s
  unfold execKeyInstall at e
  cases e
  (try dsimp only)
  repeat' first
    | with_reducible assumption
    | with_reducible apply State.onVd_kept
    | with_reducible apply VCtx.next_kept
    | with_reducible apply State.relist_kept
    | with_reducible apply State.fillSlot_kept
    | with_reducible apply State.joinUnit_kept
    | with_reducible apply Kept.foldl
    | with_reducible apply Kept.foldlFst
    | with_reducible apply Site.foldl_canonical
    | exact fun _ k => k
    | split
    | dsimp only
    | intro

theorem execKeyWrap_kept {s t : State} {i slot : Nat} {peer : PeerReport} (e : execKeyWrap i slot peer s = .next t) : Kept s t := by
  have hk := Kept.refl s
  unfold execKeyWrap at e
  cases e
  (try dsimp only)
  repeat' first
    | with_reducible assumption
    | with_reducible apply State.emit_kept
    | with_reducible apply VCtx.next_kept
    | exact fun _ k => k
    | split
    | dsimp only
    | intro

theorem execRemovalStep_kept {s t : State} {slice : Nat} (e : execRemovalStep slice s = .next t) : Kept s t := by
  have hk := Kept.refl s
  unfold execRemovalStep at e
  cases e
  (try dsimp only)
  repeat' first
    | with_reducible assumption
    | with_reducible apply State.onVd_kept
    | with_reducible apply VCtx.next_kept
    | with_reducible apply State.drainSlot_kept
    | with_reducible apply State.destroySlot_kept
    | with_reducible apply State.killSlice_kept
    | with_reducible apply State.zeroPages_kept
    | with_reducible apply State.clearUnits_kept
    | with_reducible apply State.newSecret_kept
    | with_reducible apply State.release_kept
    | with_reducible apply Kept.foldl
    | with_reducible apply Kept.foldlFst
    | with_reducible apply Site.foldl_canonical
    | exact fun _ k => k
    | split
    | dsimp only
    | intro

theorem execKeyDrain_kept {s t : State} {i slot : Nat} (e : execKeyDrain i slot s = .next t) : Kept s t := by
  have hk := Kept.refl s
  unfold execKeyDrain at e
  cases e
  (try dsimp only)
  repeat' first
    | with_reducible assumption
    | with_reducible apply VCtx.next_kept
    | with_reducible apply State.drainSlot_kept
    | with_reducible apply State.tdiError_kept
    | exact fun _ k => k
    | split
    | dsimp only
    | intro

theorem execKeyDestroy_kept {s t : State} {i slot : Nat} (e : execKeyDestroy i slot s = .next t) : Kept s t := by
  have hk := Kept.refl s
  unfold execKeyDestroy at e
  cases e
  (try dsimp only)
  repeat' first
    | with_reducible assumption
    | with_reducible apply VCtx.next_kept
    | with_reducible apply State.destroySlot_kept
    | with_reducible apply State.zeroPages_kept
    | with_reducible apply State.clearUnits_kept
    | with_reducible apply State.freeSlice_kept
    | exact fun _ k => k
    | split
    | dsimp only
    | intro

theorem execDomainReset_kept {s t : State} {i u cause : Nat} (e : execDomainReset i u cause s = .next t) : Kept s t := by
  have hk := Kept.refl s
  unfold execDomainReset at e
  cases e
  (try dsimp only)
  repeat' first
    | with_reducible assumption
    | with_reducible apply VCtx.next_kept
    | with_reducible apply State.resetDomain_kept
    | exact fun _ k => k
    | split
    | dsimp only
    | intro

theorem execResetRelease_kept {s t : State} {i u : Nat} (e : execResetRelease i u s = .next t) : Kept s t := by
  have hk := Kept.refl s
  unfold execResetRelease at e
  cases e
  (try dsimp only)
  repeat' first
    | with_reducible assumption
    | with_reducible apply VCtx.next_kept
    | with_reducible apply State.releaseDom_kept
    | exact fun _ k => k
    | split
    | dsimp only
    | intro

theorem execSpareBringIn_kept {s t : State} {i core : Nat} {bistOk : Bool} (e : execSpareBringIn i core bistOk s = .next t) : Kept s t := by
  have hk := Kept.refl s
  unfold execSpareBringIn at e
  cases e
  (try dsimp only)
  repeat' first
    | with_reducible assumption
    | with_reducible apply State.onSite_kept
    | with_reducible apply VCtx.next_kept
    | with_reducible apply State.vacate_kept
    | with_reducible apply State.takePlace_kept
    | with_reducible apply Site.loseCore_canonical
    | exact fun _ k => k
    | split
    | dsimp only
    | intro

theorem execDomainUp_kept {s t : State} {i u : Nat} (e : execDomainUp i u s = .next t) : Kept s t := by
  have hk := Kept.refl s
  unfold execDomainUp at e
  cases e
  (try dsimp only)
  repeat' first
    | with_reducible assumption
    | with_reducible apply VCtx.next_kept
    | with_reducible apply State.domUps_kept
    | exact fun _ k => k
    | split
    | dsimp only
    | intro

theorem execHang_kept {s t : State} {i core : Nat} {dma : Bool} {engine : Nat} (e : execHang i core dma engine s = .next t) : Kept s t := by
  have hk := Kept.refl s
  unfold execHang at e
  cases e
  (try dsimp only)
  repeat' first
    | with_reducible assumption
    | with_reducible apply State.raiseSrc_kept
    | with_reducible apply VCtx.next_kept
    | with_reducible apply State.resetDomain_kept
    | exact fun _ k => k
    | split
    | dsimp only
    | intro

theorem execSequencerReportMiss_kept {s t : State} {i cl : Nat} (e : execSequencerReportMiss i cl s = .next t) : Kept s t := by
  have hk := Kept.refl s
  unfold execSequencerReportMiss at e
  cases e
  (try dsimp only)
  repeat' first
    | with_reducible assumption
    | with_reducible apply State.raiseSrc_kept
    | with_reducible apply VCtx.next_kept
    | with_reducible apply State.resetDomain_kept
    | exact fun _ k => k
    | split
    | dsimp only
    | intro

theorem execHeartbeatMiss_kept {s t : State} {i : Nat} (e : execHeartbeatMiss i s = .next t) : Kept s t := by
  have hk := Kept.refl s
  unfold execHeartbeatMiss at e
  cases e
  (try dsimp only)
  repeat' first
    | with_reducible assumption
    | with_reducible apply State.raiseSrc_kept
    | with_reducible apply VCtx.next_kept
    | with_reducible apply State.resetDomain_kept
    | exact fun _ k => k
    | split
    | dsimp only
    | intro

theorem execWatchdogExpiry_kept {s t : State} {i proc : Nat} (e : execWatchdogExpiry i proc s = .next t) : Kept s t := by
  have hk := Kept.refl s
  unfold execWatchdogExpiry at e
  cases e
  (try dsimp only)
  repeat' first
    | with_reducible assumption
    | with_reducible apply VCtx.next_kept
    | with_reducible apply State.assertFault_kept
    | exact fun _ k => k
    | split
    | dsimp only
    | intro

theorem execSiblingHeartbeatMiss_kept {s t : State} {i : Nat} (e : execSiblingHeartbeatMiss i s = .next t) : Kept s t := by
  have hk := Kept.refl s
  unfold execSiblingHeartbeatMiss at e
  cases e
  (try dsimp only)
  repeat' first
    | with_reducible assumption
    | with_reducible apply State.onSite_kept
    | with_reducible apply VCtx.next_kept
    | with_reducible apply State.absentRecord_kept
    | exact fun _ k => k
    | split
    | dsimp only
    | intro

theorem execDrainFailure_kept {s t : State} {i core : Nat} (e : execDrainFailure i core s = .next t) : Kept s t := by
  have hk := Kept.refl s
  unfold execDrainFailure at e
  cases e
  (try dsimp only)
  repeat' first
    | with_reducible assumption
    | with_reducible apply VCtx.next_kept
    | with_reducible apply State.resetDomain_kept
    | exact fun _ k => k
    | split
    | dsimp only
    | intro

theorem execGetMeasurements_kept {s t : State} {index : Nat} (e : execGetMeasurements index s = .next t) : Kept s t := by
  have hk := Kept.refl s
  unfold execGetMeasurements at e
  cases e
  (try dsimp only)
  repeat' first
    | with_reducible assumption
    | with_reducible apply State.emit_kept
    | with_reducible apply VCtx.next_kept
    | with_reducible apply State.spdmError_kept
    | exact fun _ k => k
    | split
    | dsimp only
    | intro

theorem execSliceReport_kept {s t : State} {vd : Nat} {nonce : Bytes} (e : execSliceReport vd nonce s = .next t) : Kept s t := by
  have hk := Kept.refl s
  unfold execSliceReport at e
  cases e
  (try dsimp only)
  repeat' first
    | with_reducible assumption
    | with_reducible apply State.emit_kept
    | with_reducible apply VCtx.next_kept
    | with_reducible apply State.spdmError_kept
    | exact fun _ k => k
    | split
    | dsimp only
    | intro

theorem execSpdmRequest_kept {s t : State} {code : Byte} (e : execSpdmRequest code s = .next t) : Kept s t := by
  have hk := Kept.refl s
  unfold execSpdmRequest at e
  cases e
  (try dsimp only)
  repeat' first
    | with_reducible assumption
    | with_reducible apply State.emit_kept
    | with_reducible apply State.draw_kept
    | with_reducible refine State.draw_kept' ?_ ‹_›
    | with_reducible apply VCtx.next_kept
    | with_reducible apply State.spdmError_kept
    | exact fun _ k => k
    | split
    | dsimp only
    | intro

theorem execIdeKm_kept {s t : State} {i stream keyset : Nat} {rx : Bool} (e : execIdeKm i stream keyset rx s = .next t) : Kept s t := by
  have hk := Kept.refl s
  unfold execIdeKm at e
  cases e
  (try dsimp only)
  repeat' first
    | with_reducible assumption
    | with_reducible apply State.onSite_kept
    | with_reducible apply State.emit_kept
    | with_reducible apply VCtx.next_kept
    | with_reducible apply State.spdmError_kept
    | with_reducible apply Site.setIdeKey_canonical
    | exact fun _ k => k
    | split
    | dsimp only
    | intro

theorem execIdeStreamLoss_kept {s t : State} {i stream : Nat} (e : execIdeStreamLoss i stream s = .next t) : Kept s t := by
  have hk := Kept.refl s
  unfold execIdeStreamLoss at e
  cases e
  (try dsimp only)
  repeat' first
    | with_reducible assumption
    | with_reducible apply State.onSite_kept
    | with_reducible apply VCtx.next_kept
    | with_reducible apply State.tdiError_kept
    | with_reducible apply Kept.foldl
    | with_reducible apply Kept.foldlFst
    | with_reducible apply Site.foldl_canonical
    | exact fun _ k => k
    | split
    | dsimp only
    | intro

theorem execGetTdispVersion_kept {s t : State} {vd : Nat} (e : execGetTdispVersion vd s = .next t) : Kept s t := by
  have hk := Kept.refl s
  unfold execGetTdispVersion at e
  cases e
  (try dsimp only)
  repeat' first
    | with_reducible assumption
    | with_reducible apply State.tdisp_kept
    | with_reducible apply VCtx.next_kept
    | with_reducible apply State.tdispReply_kept
    | exact fun _ k => k
    | split
    | dsimp only
    | intro

theorem execGetTdispCapabilities_kept {s t : State} {vd : Nat} (e : execGetTdispCapabilities vd s = .next t) : Kept s t := by
  have hk := Kept.refl s
  unfold execGetTdispCapabilities at e
  cases e
  (try dsimp only)
  repeat' first
    | with_reducible assumption
    | with_reducible apply State.tdisp_kept
    | with_reducible apply VCtx.next_kept
    | with_reducible apply State.tdispReply_kept
    | exact fun _ k => k
    | split
    | dsimp only
    | intro

theorem execLockInterfaceRequest_kept {s t : State} {vd stream : Nat} (e : execLockInterfaceRequest vd stream s = .next t) : Kept s t := by
  have hk := Kept.refl s
  unfold execLockInterfaceRequest at e
  cases e
  (try dsimp only)
  repeat' first
    | with_reducible assumption
    | with_reducible apply State.tdisp_kept
    | with_reducible apply State.onVd_kept
    | with_reducible apply VCtx.next_kept
    | with_reducible apply State.tdispReply_kept
    | with_reducible apply State.tdispWrong_kept
    | exact fun _ k => k
    | split
    | dsimp only
    | intro

theorem execGetDeviceInterfaceReport_kept {s t : State} {vd : Nat} (e : execGetDeviceInterfaceReport vd s = .next t) : Kept s t := by
  have hk := Kept.refl s
  unfold execGetDeviceInterfaceReport at e
  cases e
  (try dsimp only)
  repeat' first
    | with_reducible assumption
    | with_reducible apply State.tdisp_kept
    | with_reducible apply VCtx.next_kept
    | with_reducible apply SCtx.run_kept
    | with_reducible apply State.tdispReply_kept
    | with_reducible apply State.tdispWrong_kept
    | exact fun _ k => k
    | split
    | dsimp only
    | intro

theorem execGetDeviceInterfaceState_kept {s t : State} {vd : Nat} (e : execGetDeviceInterfaceState vd s = .next t) : Kept s t := by
  have hk := Kept.refl s
  unfold execGetDeviceInterfaceState at e
  cases e
  (try dsimp only)
  repeat' first
    | with_reducible assumption
    | with_reducible apply State.tdisp_kept
    | with_reducible apply VCtx.next_kept
    | with_reducible apply State.tdispReply_kept
    | exact fun _ k => k
    | split
    | dsimp only
    | intro

theorem execStartInterfaceRequest_kept {s t : State} {vd : Nat} (e : execStartInterfaceRequest vd s = .next t) : Kept s t := by
  have hk := Kept.refl s
  unfold execStartInterfaceRequest at e
  cases e
  (try dsimp only)
  repeat' first
    | with_reducible assumption
    | with_reducible apply State.tdisp_kept
    | with_reducible apply State.onVd_kept
    | with_reducible apply VCtx.next_kept
    | with_reducible apply SCtx.run_kept
    | with_reducible apply State.tdispReply_kept
    | with_reducible apply State.tdispWrong_kept
    | exact fun _ k => k
    | split
    | dsimp only
    | intro

theorem execStopInterfaceRequest_kept {s t : State} {vd : Nat} (e : execStopInterfaceRequest vd s = .next t) : Kept s t := by
  have hk := Kept.refl s
  unfold execStopInterfaceRequest at e
  cases e
  (try dsimp only)
  repeat' first
    | with_reducible assumption
    | with_reducible apply State.tdisp_kept
    | with_reducible apply State.onVd_kept
    | with_reducible apply VCtx.next_kept
    | with_reducible apply State.tdispReply_kept
    | exact fun _ k => k
    | split
    | dsimp only
    | intro

theorem execConfigurationRequest_kept {s t : State} {i fn : Nat} {r : CfgReq} (e : execConfigurationRequest i fn r s = .next t) : Kept s t := by
  have hk := Kept.refl s
  unfold execConfigurationRequest at e
  cases e
  (try dsimp only)
  repeat' first
    | with_reducible assumption
    | with_reducible apply State.onSite_kept
    | with_reducible apply State.emit_kept
    | with_reducible apply State.draw_kept
    | with_reducible refine State.draw_kept' ?_ ‹_›
    | with_reducible apply VCtx.next_kept
    | with_reducible apply State.configured_kept
    | exact fun _ k => k
    | split
    | dsimp only
    | intro

theorem execFunctionLevelReset_kept {s t : State} {i fn : Nat} (e : execFunctionLevelReset i fn s = .next t) : Kept s t := by
  have hk := Kept.refl s
  unfold execFunctionLevelReset at e
  cases e
  (try dsimp only)
  repeat' first
    | with_reducible assumption
    | with_reducible apply State.onSite_kept
    | with_reducible apply VCtx.next_kept
    | with_reducible apply State.freeBoxes_kept
    | with_reducible apply State.onRings_kept
    | with_reducible apply State.flr_kept
    | with_reducible apply Kept.foldl
    | with_reducible apply Kept.foldlFst
    | with_reducible apply Site.foldl_canonical
    | exact fun _ k => k
    | split
    | dsimp only
    | intro

theorem execHipPerstN_kept {s t : State} {i : Nat} {level : Bool} (e : execHipPerstN i level s = .next t) : Kept s t := by
  have hk := Kept.refl s
  unfold execHipPerstN at e
  cases e
  (try dsimp only)
  repeat' first
    | with_reducible assumption
    | with_reducible apply State.onPins_kept
    | with_reducible apply State.setFld_kept
    | with_reducible apply VCtx.next_kept
    | with_reducible apply State.hostLink_kept
    | with_reducible apply State.resetLink_kept
    | with_reducible apply Site.setFld_canonical
    | exact fun _ k => k
    | split
    | dsimp only
    | intro

theorem execHotReset_kept {s t : State} {i : Nat} (e : execHotReset i s = .next t) : Kept s t := by
  have hk := Kept.refl s
  unfold execHotReset at e
  cases e
  (try dsimp only)
  repeat' first
    | with_reducible assumption
    | with_reducible apply VCtx.next_kept
    | with_reducible apply State.freeBoxes_kept
    | with_reducible apply State.resetLink_kept
    | exact fun _ k => k
    | split
    | dsimp only
    | intro

theorem execSliceCreate_kept {s t : State} {m : MgmtRun} (e : execSliceCreate m s = .next t) : Kept s t := by
  have hk := Kept.refl s
  unfold execSliceCreate sliceCreateEnd at e
  refine mgmtRow_kept (fun r => ?_) e
  clear e
  refine State.atPort_kept fun home => ?_
  extract_lets +onlyGivenNames es sites free slot taken
  clear_value taken slot free
  split
  · exact failWith_kept
  split
  · exact failWith_kept
  split
  · exact failWith_kept
  split
  · exact failWith_kept
  · split
    · exact failWith_kept
    split
    · exact failWith_kept
    simp only []
    have h1 : Kept s s.drawSecret.2 := State.drawSecret_kept hk
    generalize s.drawSecret = z at h1 ⊢
    obtain ⟨x, u⟩ := z
    replace h1 : Kept s u := h1
    split
    · refine bindEntries_kept (State.relist_kept (State.fillSlot_kept (State.onVd_kept h1))) ‹_›
    · trivial
  · exact failWith_kept

theorem execSliceDestroy_kept {s t : State} {m : MgmtRun} (e : execSliceDestroy m s = .next t) : Kept s t := by
  have hk := Kept.refl s
  unfold execSliceDestroy sliceDestroyEnd sliceDestroyBad at e
  (try dsimp only)
  repeat' first
    | with_reducible assumption
    | exact trivial
    | with_reducible apply State.ofSlice_kept
    | with_reducible apply failWith_kept
    | with_reducible refine mgmtRow_kept ?_ ‹_›
    | with_reducible apply KeptEnd.later
    | with_reducible apply State.onVd_kept
    | with_reducible apply State.onPart_kept
    | exact fun _ k => k
    | split
    | dsimp only
    | intro

theorem execUnitBind_kept {s t : State} {m : MgmtRun} (e : execUnitBind m s = .next t) : Kept s t := by
  have hk := Kept.refl s
  unfold execUnitBind unitBindEnd unitBindBad at e
  (try dsimp only)
  repeat' first
    | with_reducible assumption
    | exact trivial
    | with_reducible apply State.shapes_kept
    | with_reducible apply State.atPlace_kept
    | with_reducible apply okWith_kept
    | with_reducible apply failWith_kept
    | with_reducible refine mgmtRow_kept ?_ ‹_›
    | with_reducible refine State.bindUnit_kept ?_ ‹_›
    | exact fun _ k => k
    | split
    | dsimp only
    | intro

theorem execUnitUnbind_kept {s t : State} {m : MgmtRun} (e : execUnitUnbind m s = .next t) : Kept s t := by
  have hk := Kept.refl s
  unfold execUnitUnbind unitUnbindEnd unitUnbindBad at e
  (try dsimp only)
  repeat' first
    | with_reducible assumption
    | exact trivial
    | with_reducible apply State.shapes_kept
    | with_reducible apply okWith_kept
    | with_reducible apply failWith_kept
    | with_reducible refine mgmtRow_kept ?_ ‹_›
    | with_reducible apply State.onUnit_kept
    | with_reducible apply KeptEnd.later
    | with_reducible apply State.dropUnit_kept
    | with_reducible apply State.forceUnbind_kept
    | with_reducible apply State.leaveUnit_kept
    | exact fun _ k => k
    | split
    | dsimp only
    | intro

theorem execUnitMove_kept {s t : State} {m : MgmtRun} (e : execUnitMove m s = .next t) : Kept s t := by
  have hk := Kept.refl s
  unfold execUnitMove unitMoveEnd unitMoveBad at e
  (try dsimp only)
  repeat' first
    | with_reducible assumption
    | exact trivial
    | with_reducible apply State.shapes_kept
    | with_reducible apply State.atPlace_kept
    | with_reducible apply okWith_kept
    | with_reducible apply failWith_kept
    | with_reducible refine mgmtRow_kept ?_ ‹_›
    | with_reducible apply KeptEnd.later
    | with_reducible apply KeptEnd.done
    | with_reducible apply State.onHold_kept
    | with_reducible apply State.relist_kept
    | with_reducible apply State.zeroUnit_kept
    | with_reducible apply State.leaveGroup_kept
    | with_reducible apply State.freeSave_kept
    | with_reducible refine State.farBind_kept ?_ ‹_›
    | with_reducible apply State.leaveSite_kept
    | with_reducible apply State.liftUnit_kept
    | with_reducible apply State.unlift_kept
    | with_reducible apply State.landUnit_kept
    | with_reducible refine State.moveTarget_kept ?_ ‹_›
    | exact fun _ k => k
    | split
    | dsimp only
    | intro

theorem execAllotSet_kept {s t : State} {m : MgmtRun} (e : execAllotSet m s = .next t) : Kept s t := by
  have hk := Kept.refl s
  unfold execAllotSet allotSetEnd allotSetBad at e
  (try dsimp only)
  repeat' first
    | with_reducible assumption
    | exact trivial
    | with_reducible apply State.atInst_kept
    | with_reducible apply State.shapes_kept
    | with_reducible apply orFail_kept
    | with_reducible apply okWith_kept
    | with_reducible refine mgmtRow_kept ?_ ‹_›
    | with_reducible refine State.setAllot_kept ?_ ‹_›
    | exact fun _ k => k
    | split
    | dsimp only
    | intro

theorem execSchedSet_kept {s t : State} {m : MgmtRun} (e : execSchedSet m s = .next t) : Kept s t := by
  have hk := Kept.refl s
  unfold execSchedSet schedSetEnd schedSetBad at e
  (try dsimp only)
  repeat' first
    | with_reducible assumption
    | exact trivial
    | with_reducible apply State.shapes_kept
    | with_reducible apply orFail_kept
    | with_reducible apply okWith_kept
    | with_reducible apply failWith_kept
    | with_reducible refine mgmtRow_kept ?_ ‹_›
    | with_reducible apply State.onVd_kept
    | with_reducible refine schedAll_kept ?_ ‹_›
    | exact fun _ k => k
    | split
    | dsimp only
    | intro

theorem execCoreMode_kept {s t : State} {m : MgmtRun} (e : execCoreMode m s = .next t) : Kept s t := by
  have hk := Kept.refl s
  unfold execCoreMode coreModeEnd coreModeBad at e
  (try dsimp only)
  repeat' first
    | with_reducible assumption
    | exact trivial
    | with_reducible apply State.atCore_kept
    | with_reducible apply okWith_kept
    | with_reducible apply failWith_kept
    | with_reducible refine mgmtRow_kept ?_ ‹_›
    | with_reducible apply KeptEnd.later
    | with_reducible apply State.onCore_kept
    | with_reducible apply State.setMode_kept
    | with_reducible apply Site.onCore_canonical
    | exact fun _ k => k
    | split
    | dsimp only
    | intro

theorem execLabelSet_kept {s t : State} {m : MgmtRun} (e : execLabelSet m s = .next t) : Kept s t := by
  have hk := Kept.refl s
  unfold execLabelSet labelSetEnd labelSetBad at e
  (try dsimp only)
  repeat' first
    | with_reducible assumption
    | exact trivial
    | with_reducible apply State.shapes_kept
    | with_reducible apply okWith_kept
    | with_reducible refine mgmtRow_kept ?_ ‹_›
    | with_reducible apply State.onHold_kept
    | exact fun _ k => k
    | split
    | dsimp only
    | intro

theorem execShareSet_kept {s t : State} {m : MgmtRun} (e : execShareSet m s = .next t) : Kept s t := by
  have hk := Kept.refl s
  unfold execShareSet shareSetEnd shareSetBad at e
  (try dsimp only)
  repeat' first
    | with_reducible assumption
    | exact trivial
    | with_reducible apply State.atInst_kept
    | with_reducible apply State.anySlice_kept
    | with_reducible apply okWith_kept
    | with_reducible apply failWith_kept
    | with_reducible refine mgmtRow_kept ?_ ‹_›
    | with_reducible apply State.onWatch_kept
    | exact fun _ k => k
    | split
    | dsimp only
    | intro

theorem execGuardSet_kept {s t : State} {m : MgmtRun} (e : execGuardSet m s = .next t) : Kept s t := by
  have hk := Kept.refl s
  unfold execGuardSet guardSetEnd guardSetBad at e
  (try dsimp only)
  repeat' first
    | with_reducible assumption
    | exact trivial
    | with_reducible apply State.atInst_kept
    | with_reducible apply State.anySlice_kept
    | with_reducible apply okWith_kept
    | with_reducible refine mgmtRow_kept ?_ ‹_›
    | with_reducible apply State.onWatch_kept
    | exact fun _ k => k
    | split
    | dsimp only
    | intro

theorem execMcastRange_kept {s t : State} {m : MgmtRun} (e : execMcastRange m s = .next t) : Kept s t := by
  have hk := Kept.refl s
  unfold execMcastRange mcastRangeEnd mcastRangeBad at e
  (try dsimp only)
  repeat' first
    | with_reducible assumption
    | exact trivial
    | with_reducible apply State.atInst_kept
    | with_reducible apply State.anySlice_kept
    | with_reducible apply okWith_kept
    | with_reducible apply failWith_kept
    | with_reducible refine mgmtRow_kept ?_ ‹_›
    | with_reducible apply State.onHold_kept
    | with_reducible apply State.onNet_kept
    | exact fun _ k => k
    | split
    | dsimp only
    | intro

theorem execLoftBudget_kept {s t : State} {m : MgmtRun} (e : execLoftBudget m s = .next t) : Kept s t := by
  have hk := Kept.refl s
  unfold execLoftBudget loftBudgetEnd at e
  refine mgmtRow_kept (fun r => ?_) e
  dsimp only
  refine State.atInst_kept fun i => State.anySlice_kept fun _ => ?_
  split
  · trivial
  · refine orFail_kept fun u h => State.leaveSite_kept (State.onHold_kept ?_)
    exact setAllot_aux hk h

theorem execLendSet_kept {s t : State} {m : MgmtRun} (e : execLendSet m s = .next t) : Kept s t := by
  have hk := Kept.refl s
  unfold execLendSet lendSetEnd lendSetBad at e
  (try dsimp only)
  repeat' first
    | with_reducible assumption
    | exact trivial
    | with_reducible apply State.atInst_kept
    | with_reducible apply okWith_kept
    | with_reducible apply failWith_kept
    | with_reducible refine mgmtRow_kept ?_ ‹_›
    | with_reducible apply State.onPart_kept
    | exact fun _ k => k
    | split
    | dsimp only
    | intro

theorem execCoreState_kept {s t : State} {m : MgmtRun} (e : execCoreState m s = .next t) : Kept s t := by
  have hk := Kept.refl s
  unfold execCoreState coreStateEnd coreStateBad at e
  (try dsimp only)
  repeat' first
    | with_reducible assumption
    | exact trivial
    | with_reducible apply State.atCore_kept
    | with_reducible apply State.powerTo_kept
    | with_reducible apply failWith_kept
    | with_reducible refine mgmtRow_kept ?_ ‹_›
    | with_reducible apply State.setFld_kept
    | with_reducible apply Site.setFld_canonical
    | exact fun _ k => k
    | split
    | dsimp only
    | intro

theorem execMemportState_kept {s t : State} {m : MgmtRun} (e : execMemportState m s = .next t) : Kept s t := by
  have hk := Kept.refl s
  unfold execMemportState memportStateEnd memportStateBad at e
  (try dsimp only)
  repeat' first
    | with_reducible assumption
    | exact trivial
    | with_reducible apply State.atInst_kept
    | with_reducible apply State.powerTo_kept
    | with_reducible apply failWith_kept
    | with_reducible refine mgmtRow_kept ?_ ‹_›
    | exact fun _ k => k
    | split
    | dsimp only
    | intro

theorem execLinkState_kept {s t : State} {m : MgmtRun} (e : execLinkState m s = .next t) : Kept s t := by
  have hk := Kept.refl s
  unfold execLinkState linkStateEnd linkStateBad at e
  (try dsimp only)
  repeat' first
    | with_reducible assumption
    | exact trivial
    | with_reducible apply State.atInst_kept
    | with_reducible apply State.powerTo_kept
    | with_reducible refine mgmtRow_kept ?_ ‹_›
    | exact fun _ k => k
    | split
    | dsimp only
    | intro

theorem execPowerTransition_kept {s t : State} {i : Nat} {kind : PowerUnit} {idx : Nat} (e : execPowerTransition i kind idx s = .next t) : Kept s t := by
  have hk := Kept.refl s
  unfold execPowerTransition at e
  cases e
  (try dsimp only)
  repeat' first
    | with_reducible assumption
    | with_reducible apply VCtx.next_kept
    | with_reducible apply State.coreLeg_kept
    | with_reducible apply State.portLeg_kept
    | with_reducible apply State.linkLeg_kept
    | exact fun _ k => k
    | split
    | dsimp only
    | intro

theorem execPswAck_kept {s t : State} {i k : Nat} {level : Bool} (e : execPswAck i k level s = .next t) : Kept s t := by
  have hk := Kept.refl s
  unfold execPswAck at e
  cases e
  (try dsimp only)
  repeat' first
    | with_reducible assumption
    | with_reducible apply State.onPins_kept
    | with_reducible apply VCtx.next_kept
    | exact fun _ k => k
    | split
    | dsimp only
    | intro

theorem execPswAckTimeout_kept {s t : State} {i k : Nat} (e : execPswAckTimeout i k s = .next t) : Kept s t := by
  have hk := Kept.refl s
  unfold execPswAckTimeout at e
  cases e
  (try dsimp only)
  repeat' first
    | with_reducible assumption
    | with_reducible apply State.setFld_kept
    | with_reducible apply State.raiseSrc_kept
    | with_reducible apply VCtx.next_kept
    | with_reducible apply State.endPower_kept
    | with_reducible apply State.switchCore_kept
    | with_reducible apply State.condition_kept
    | with_reducible apply Site.setFld_canonical
    | exact fun _ k => k
    | split
    | dsimp only
    | intro

theorem execLossOfLock_kept {s t : State} {i loop : Nat} (e : execLossOfLock i loop s = .next t) : Kept s t := by
  have hk := Kept.refl s
  unfold execLossOfLock at e
  cases e
  (try dsimp only)
  repeat' first
    | with_reducible assumption
    | with_reducible apply State.setFld_kept
    | with_reducible apply State.bump_kept
    | with_reducible apply VCtx.next_kept
    | with_reducible apply State.resetDomain_kept
    | with_reducible apply State.assertFault_kept
    | with_reducible apply State.condition_kept
    | with_reducible apply Site.setFld_canonical
    | with_reducible apply Site.bump_canonical
    | exact fun _ k => k
    | split
    | dsimp only
    | intro

theorem execRelock_kept {s t : State} {i loop : Nat} (e : execRelock i loop s = .next t) : Kept s t := by
  have hk := Kept.refl s
  unfold execRelock at e
  cases e
  (try dsimp only)
  repeat' first
    | with_reducible assumption
    | with_reducible apply State.setFld_kept
    | with_reducible apply VCtx.next_kept
    | with_reducible apply State.powerNext_kept
    | with_reducible apply Site.setFld_canonical
    | exact fun _ k => k
    | split
    | dsimp only
    | intro

theorem execResetReq_kept {s t : State} {i : Nat} (e : execResetReq i s = .next t) : Kept s t := by
  have hk := Kept.refl s
  unfold execResetReq at e
  cases e
  (try dsimp only)
  repeat' first
    | with_reducible assumption
    | with_reducible apply State.raisePriv_kept
    | with_reducible apply VCtx.next_kept
    | with_reducible apply State.resetDomain_kept
    | exact fun _ k => k
    | split
    | dsimp only
    | intro

theorem execFaultIn_kept {s t : State} {i : Nat} (e : execFaultIn i s = .next t) : Kept s t := by
  have hk := Kept.refl s
  unfold execFaultIn at e
  cases e
  (try dsimp only)
  repeat' first
    | with_reducible assumption
    | with_reducible apply State.raisePriv_kept
    | with_reducible apply VCtx.next_kept
    | with_reducible apply State.condition_kept
    | exact fun _ k => k
    | split
    | dsimp only
    | intro

theorem execThermAlert_kept {s t : State} {i : Nat} (e : execThermAlert i s = .next t) : Kept s t := by
  have hk := Kept.refl s
  unfold execThermAlert at e
  cases e
  (try dsimp only)
  repeat' first
    | with_reducible assumption
    | with_reducible apply State.raisePriv_kept
    | with_reducible apply VCtx.next_kept
    | with_reducible apply State.condition_kept
    | exact fun _ k => k
    | split
    | dsimp only
    | intro

theorem execHspCattrip_kept {s t : State} {i stack : Nat} (e : execHspCattrip i stack s = .next t) : Kept s t := by
  have hk := Kept.refl s
  unfold execHspCattrip at e
  cases e
  (try dsimp only)
  repeat' first
    | with_reducible assumption
    | with_reducible apply State.raisePriv_kept
    | with_reducible apply VCtx.next_kept
    | with_reducible apply State.condition_kept
    | exact fun _ k => k
    | split
    | dsimp only
    | intro

theorem execTemperatureSample_kept {s t : State} {i sensor : Nat} {temp : BitVec 12} (e : execTemperatureSample i sensor temp s = .next t) : Kept s t := by
  have hk := Kept.refl s
  unfold execTemperatureSample at e
  cases e
  (try dsimp only)
  repeat' first
    | with_reducible assumption
    | with_reducible apply State.onPins_kept
    | with_reducible apply State.setFld_kept
    | with_reducible apply State.raiseSrc_kept
    | with_reducible apply VCtx.next_kept
    | with_reducible apply Site.setFld_canonical
    | exact fun _ k => k
    | split
    | dsimp only
    | intro

theorem execReset_kept {s t : State} {m : MgmtRun} (e : execReset m s = .next t) : Kept s t := by
  have hk := Kept.refl s
  unfold execReset resetEnd resetBad at e
  (try dsimp only)
  repeat' first
    | with_reducible assumption
    | exact trivial
    | with_reducible apply State.atInst_kept
    | with_reducible apply okWith_kept
    | with_reducible apply failWith_kept
    | with_reducible refine mgmtRow_kept ?_ ‹_›
    | with_reducible apply KeptEnd.later
    | with_reducible apply State.resetDomain_kept
    | exact fun _ k => k
    | split
    | dsimp only
    | intro

theorem execEscalateSet_kept {s t : State} {m : MgmtRun} (e : execEscalateSet m s = .next t) : Kept s t := by
  have hk := Kept.refl s
  unfold execEscalateSet escalateSetEnd escalateSetBad at e
  (try dsimp only)
  repeat' first
    | with_reducible assumption
    | exact trivial
    | with_reducible apply State.atInst_kept
    | with_reducible apply okWith_kept
    | with_reducible refine mgmtRow_kept ?_ ‹_›
    | with_reducible apply State.onSite_kept
    | with_reducible apply State.setFld_kept
    | with_reducible apply Kept.foldl
    | with_reducible apply Kept.foldlFst
    | with_reducible apply Site.foldl_canonical
    | with_reducible apply Site.setFld_canonical
    | exact fun _ k => k
    | split
    | dsimp only
    | intro

theorem execHealthGet_kept {s t : State} {m : MgmtRun} (e : execHealthGet m s = .next t) : Kept s t := by
  have hk := Kept.refl s
  unfold execHealthGet healthGetEnd healthGetBad at e
  (try dsimp only)
  repeat' first
    | with_reducible assumption
    | exact trivial
    | with_reducible apply State.atInst_kept
    | with_reducible apply okWith_kept
    | with_reducible refine mgmtRow_kept ?_ ‹_›
    | exact fun _ k => k
    | split
    | dsimp only
    | intro

theorem execFwStage_kept {s t : State} {m : MgmtRun} (e : execFwStage m s = .next t) : Kept s t := by
  have hk := Kept.refl s
  unfold execFwStage fwStageEnd fwStageBad at e
  (try dsimp only)
  repeat' first
    | with_reducible assumption
    | exact trivial
    | with_reducible apply State.atInst_kept
    | with_reducible apply okWith_kept
    | with_reducible apply failWith_kept
    | with_reducible refine mgmtRow_kept ?_ ‹_›
    | with_reducible apply State.onSite_kept
    | with_reducible apply State.fwRecord_kept
    | exact fun _ k => k
    | split
    | dsimp only
    | intro

theorem execFwActivate_kept {s t : State} {m : MgmtRun} (e : execFwActivate m s = .next t) : Kept s t := by
  have hk := Kept.refl s
  unfold execFwActivate fwActivateEnd fwActivateBad at e
  (try dsimp only)
  repeat' first
    | with_reducible assumption
    | exact trivial
    | with_reducible apply State.atInst_kept
    | with_reducible apply failWith_kept
    | with_reducible refine mgmtRow_kept ?_ ‹_›
    | with_reducible apply KeptEnd.later
    | with_reducible apply State.resetDomain_kept
    | with_reducible apply State.restart_kept
    | exact fun _ k => k
    | split
    | dsimp only
    | intro

theorem execFwCommit_kept {s t : State} {m : MgmtRun} (e : execFwCommit m s = .next t) : Kept s t := by
  have hk := Kept.refl s
  unfold execFwCommit fwCommitEnd fwCommitBad at e
  (try dsimp only)
  repeat' first
    | with_reducible assumption
    | exact trivial
    | with_reducible apply State.atInst_kept
    | with_reducible apply okWith_kept
    | with_reducible refine mgmtRow_kept ?_ ‹_›
    | with_reducible apply State.onSite_kept
    | with_reducible apply State.fwRecord_kept
    | exact fun _ k => k
    | split
    | dsimp only
    | intro

theorem execFwDiscard_kept {s t : State} {m : MgmtRun} (e : execFwDiscard m s = .next t) : Kept s t := by
  have hk := Kept.refl s
  unfold execFwDiscard fwDiscardEnd fwDiscardBad at e
  (try dsimp only)
  repeat' first
    | with_reducible assumption
    | exact trivial
    | with_reducible apply State.atInst_kept
    | with_reducible apply okWith_kept
    | with_reducible apply failWith_kept
    | with_reducible refine mgmtRow_kept ?_ ‹_›
    | with_reducible apply State.onSite_kept
    | exact fun _ k => k
    | split
    | dsimp only
    | intro

theorem execFwInfo_kept {s t : State} {m : MgmtRun} (e : execFwInfo m s = .next t) : Kept s t := by
  have hk := Kept.refl s
  unfold execFwInfo fwInfoEnd fwInfoBad at e
  (try dsimp only)
  repeat' first
    | with_reducible assumption
    | exact trivial
    | with_reducible apply State.atInst_kept
    | with_reducible apply okWith_kept
    | with_reducible refine mgmtRow_kept ?_ ‹_›
    | exact fun _ k => k
    | split
    | dsimp only
    | intro

theorem execAttState_kept {s t : State} {m : MgmtRun} (e : execAttState m s = .next t) : Kept s t := by
  have hk := Kept.refl s
  unfold execAttState attStateEnd attStateBad at e
  (try dsimp only)
  repeat' first
    | with_reducible assumption
    | exact trivial
    | with_reducible apply okWith_kept
    | with_reducible refine mgmtRow_kept ?_ ‹_›
    | exact fun _ k => k
    | split
    | dsimp only
    | intro

theorem execAttMeasure_kept {s t : State} {m : MgmtRun} (e : execAttMeasure m s = .next t) : Kept s t := by
  have hk := Kept.refl s
  unfold execAttMeasure attMeasureEnd attMeasureBad at e
  (try dsimp only)
  repeat' first
    | with_reducible assumption
    | exact trivial
    | with_reducible apply okWith_kept
    | with_reducible apply failWith_kept
    | with_reducible refine mgmtRow_kept ?_ ‹_›
    | exact fun _ k => k
    | split
    | dsimp only
    | intro

theorem execAttReport_kept {s t : State} {m : MgmtRun} (e : execAttReport m s = .next t) : Kept s t := by
  have hk := Kept.refl s
  unfold execAttReport attReportEnd attReportBad at e
  (try dsimp only)
  repeat' first
    | with_reducible assumption
    | exact trivial
    | with_reducible apply okWith_kept
    | with_reducible apply failWith_kept
    | with_reducible refine mgmtRow_kept ?_ ‹_›
    | with_reducible apply State.emit_kept
    | exact fun _ k => k
    | split
    | dsimp only
    | intro

theorem execLinkEnable_kept {s t : State} {m : MgmtRun} (e : execLinkEnable m s = .next t) : Kept s t := by
  have hk := Kept.refl s
  unfold execLinkEnable linkEnableEnd linkEnableBad at e
  (try dsimp only)
  repeat' first
    | with_reducible assumption
    | exact trivial
    | with_reducible apply State.atInst_kept
    | with_reducible apply okWith_kept
    | with_reducible refine mgmtRow_kept ?_ ‹_›
    | with_reducible apply State.onLink_kept
    | with_reducible apply State.linkOff_kept
    | with_reducible apply State.linkOn_kept
    | exact fun _ k => k
    | split
    | dsimp only
    | intro

theorem execPortgroupReset_kept {s t : State} {m : MgmtRun} (e : execPortgroupReset m s = .next t) : Kept s t := by
  have hk := Kept.refl s
  unfold execPortgroupReset portgroupResetEnd portgroupResetBad at e
  (try dsimp only)
  repeat' first
    | with_reducible assumption
    | exact trivial
    | with_reducible apply State.atInst_kept
    | with_reducible refine mgmtRow_kept ?_ ‹_›
    | with_reducible apply KeptEnd.later
    | with_reducible apply State.resetDomain_kept
    | exact fun _ k => k
    | split
    | dsimp only
    | intro

theorem execChTest_kept {s t : State} {m : MgmtRun} (e : execChTest m s = .next t) : Kept s t := by
  have hk := Kept.refl s
  unfold execChTest chTestEnd chTestBad at e
  (try dsimp only)
  repeat' first
    | with_reducible assumption
    | exact trivial
    | with_reducible apply State.atInst_kept
    | with_reducible apply okWith_kept
    | with_reducible apply failWith_kept
    | with_reducible refine mgmtRow_kept ?_ ‹_›
    | with_reducible apply State.setFld_kept
    | with_reducible apply Site.setFld_canonical
    | exact fun _ k => k
    | split
    | dsimp only
    | intro

theorem execLogLevel_kept {s t : State} {m : MgmtRun} (e : execLogLevel m s = .next t) : Kept s t := by
  have hk := Kept.refl s
  unfold execLogLevel logLevelEnd logLevelBad at e
  (try dsimp only)
  repeat' first
    | with_reducible assumption
    | exact trivial
    | with_reducible apply okWith_kept
    | with_reducible refine mgmtRow_kept ?_ ‹_›
    | with_reducible apply State.onPart_kept
    | exact fun _ k => k
    | split
    | dsimp only
    | intro

theorem execSpareIn_kept {s t : State} {m : MgmtRun} (e : execSpareIn m s = .next t) : Kept s t := by
  have hk := Kept.refl s
  unfold execSpareIn spareInEnd spareInBad at e
  (try dsimp only)
  repeat' first
    | with_reducible assumption
    | exact trivial
    | with_reducible apply State.atInst_kept
    | with_reducible apply okWith_kept
    | with_reducible apply failWith_kept
    | with_reducible refine mgmtRow_kept ?_ ‹_›
    | with_reducible apply KeptEnd.done
    | with_reducible apply State.rewrite_kept
    | with_reducible apply State.bringVe_kept
    | with_reducible apply bringCore_kept
    | with_reducible refine bringCore_kept' ?_ ‹_›
    | exact fun _ k => k
    | split
    | dsimp only
    | intro

theorem execHealthCheck_kept {s t : State} {m : MgmtRun} (e : execHealthCheck m s = .next t) : Kept s t := by
  have hk := Kept.refl s
  unfold execHealthCheck healthCheckEnd healthCheckBad at e
  (try dsimp only)
  repeat' first
    | with_reducible assumption
    | exact trivial
    | with_reducible apply State.atInst_kept
    | with_reducible apply okWith_kept
    | with_reducible refine mgmtRow_kept ?_ ‹_›
    | with_reducible apply State.rewrite_kept
    | with_reducible apply State.steerAll_kept
    | with_reducible refine State.steerAll_kept' ?_ ‹_›
    | with_reducible apply State.spareAll_kept
    | with_reducible refine State.spareAll_kept' ?_ ‹_›
    | with_reducible apply State.rewriteUnused_kept
    | exact fun _ k => k
    | split
    | dsimp only
    | intro

theorem execSpareGet_kept {s t : State} {m : MgmtRun} (e : execSpareGet m s = .next t) : Kept s t := by
  have hk := Kept.refl s
  unfold execSpareGet spareGetEnd spareGetBad at e
  (try dsimp only)
  repeat' first
    | with_reducible assumption
    | exact trivial
    | with_reducible apply State.atInst_kept
    | with_reducible apply okWith_kept
    | with_reducible refine mgmtRow_kept ?_ ‹_›
    | with_reducible apply Kept.foldl
    | with_reducible apply Kept.foldlFst
    | with_reducible apply Site.foldl_canonical
    | exact fun _ k => k
    | split
    | dsimp only
    | intro

theorem execPolicySet_kept {s t : State} {m : MgmtRun} (e : execPolicySet m s = .next t) : Kept s t := by
  have hk := Kept.refl s
  unfold execPolicySet policySetEnd at e
  refine mgmtRow_kept (fun r => ?_) e
  dsimp only
  refine State.ofSlice_kept fun d => ?_
  repeat' first
    | exact trivial
    | with_reducible exact okWith_kept (State.onHold_kept hk)
    | with_reducible exact okWith_kept (State.onSp_kept hk)
    | with_reducible exact okWith_kept (State.onSp_kept (State.onSite_kept hk fun _ k => Site.setPolicy_canonical k))
    | (with_reducible refine okWith_kept (State.onSp_kept (State.onSite_kept hk fun t k => ?_))
       have w := Site.setPolicy_canonical (o := ‹Obj›) (policy := fieldAt r.pkt 9 1) k
       generalize Site.setPolicy _ _ _ = u at w
       exact Site.sameMemories w rfl rfl rfl rfl)
    | split

theorem execPageRetire_kept {s t : State} {m : MgmtRun} (e : execPageRetire m s = .next t) : Kept s t := by
  have hk := Kept.refl s
  unfold execPageRetire pageRetireEnd pageRetireBad at e
  (try dsimp only)
  repeat' first
    | with_reducible assumption
    | exact trivial
    | with_reducible apply State.atInst_kept
    | with_reducible apply okWith_kept
    | with_reducible apply failWith_kept
    | with_reducible refine mgmtRow_kept ?_ ‹_›
    | with_reducible apply KeptEnd.later
    | with_reducible apply State.onSite_kept
    | with_reducible apply SCtx.retire_kept
    | with_reducible apply State.abandonMoves_kept
    | with_reducible apply State.shiftPage_kept
    | with_reducible apply Site.retire_canonical
    | with_reducible apply Site.lessReserve_canonical
    | exact fun _ k => k
    | split
    | dsimp only
    | intro

theorem execChEvacuate_kept {s t : State} {m : MgmtRun} (e : execChEvacuate m s = .next t) : Kept s t := by
  have hk := Kept.refl s
  unfold execChEvacuate chEvacuateEnd chEvacuateBad at e
  (try dsimp only)
  repeat' first
    | with_reducible assumption
    | exact trivial
    | with_reducible apply State.atInst_kept
    | with_reducible apply okWith_kept
    | with_reducible apply failWith_kept
    | with_reducible refine mgmtRow_kept ?_ ‹_›
    | with_reducible apply KeptEnd.later
    | with_reducible apply KeptEnd.done
    | with_reducible apply State.onSite_kept
    | with_reducible apply State.setFld_kept
    | with_reducible apply State.finish_kept
    | with_reducible apply State.abandonMoves_kept
    | with_reducible refine shiftAll_kept ?_ ‹_›
    | with_reducible apply Site.setFld_canonical
    | exact fun _ k => k
    | split
    | dsimp only
    | intro

theorem execChReturn_kept {s t : State} {m : MgmtRun} (e : execChReturn m s = .next t) : Kept s t := by
  have hk := Kept.refl s
  unfold execChReturn chReturnEnd at e
  refine mgmtRow_kept (fun r => ?_) e
  refine State.atInst_kept fun i => ?_
  dsimp only
  repeat' first
    | trivial
    | split
  all_goals exact State.setFld_kept (State.setFld_kept (State.onSite_kept hk fun t k => Site.onTier_canonical k fun r w =>
    Mem.wf_filter w))

theorem execWeightAllot_kept {s t : State} {m : MgmtRun} (e : execWeightAllot m s = .next t) : Kept s t := by
  have hk := Kept.refl s
  unfold execWeightAllot weightAllotEnd weightAllotBad at e
  (try dsimp only)
  repeat' first
    | with_reducible assumption
    | exact trivial
    | with_reducible apply State.atInst_kept
    | with_reducible apply okWith_kept
    | with_reducible apply failWith_kept
    | with_reducible refine mgmtRow_kept ?_ ‹_›
    | with_reducible apply State.onSite_kept
    | exact fun _ k => k
    | split
    | dsimp only
    | intro

theorem execWeightLoad_kept {s t : State} {m : MgmtRun} (e : execWeightLoad m s = .next t) : Kept s t := by
  have hk := Kept.refl s
  unfold execWeightLoad weightLoadEnd weightLoadBad at e
  (try dsimp only)
  repeat' first
    | with_reducible assumption
    | exact trivial
    | with_reducible apply State.atInst_kept
    | with_reducible apply okWith_kept
    | with_reducible apply failWith_kept
    | with_reducible refine mgmtRow_kept ?_ ‹_›
    | with_reducible apply State.onPart_kept
    | with_reducible refine State.landWeight_kept ?_ ‹_›
    | exact fun _ k => k
    | split
    | dsimp only
    | intro

theorem execWeightCopy_kept {s t : State} {m : MgmtRun} (e : execWeightCopy m s = .next t) : Kept s t := by
  have hk := Kept.refl s
  unfold execWeightCopy weightCopyEnd weightCopyBad at e
  (try dsimp only)
  repeat' first
    | with_reducible assumption
    | exact trivial
    | with_reducible apply State.atInst_kept
    | with_reducible apply okWith_kept
    | with_reducible apply failWith_kept
    | with_reducible refine mgmtRow_kept ?_ ‹_›
    | with_reducible refine State.landWeight_kept ?_ ‹_›
    | with_reducible apply State.onWeight_kept
    | exact fun _ k => k
    | split
    | dsimp only
    | intro

theorem execWeightGrant_kept {s t : State} {m : MgmtRun} (e : execWeightGrant m s = .next t) : Kept s t := by
  have hk := Kept.refl s
  unfold execWeightGrant weightGrantEnd weightGrantBad at e
  (try dsimp only)
  repeat' first
    | with_reducible assumption
    | exact trivial
    | with_reducible apply State.ofSlice_kept
    | with_reducible apply okWith_kept
    | with_reducible apply failWith_kept
    | with_reducible refine mgmtRow_kept ?_ ‹_›
    | with_reducible apply State.onHold_kept
    | with_reducible apply State.onWeight_kept
    | exact fun _ k => k
    | split
    | dsimp only
    | intro

theorem execWeightRevoke_kept {s t : State} {m : MgmtRun} (e : execWeightRevoke m s = .next t) : Kept s t := by
  have hk := Kept.refl s
  unfold execWeightRevoke weightRevokeEnd weightRevokeBad at e
  (try dsimp only)
  repeat' first
    | with_reducible assumption
    | exact trivial
    | with_reducible apply State.ofSlice_kept
    | with_reducible apply okWith_kept
    | with_reducible apply failWith_kept
    | with_reducible refine mgmtRow_kept ?_ ‹_›
    | with_reducible apply KeptEnd.later
    | with_reducible apply State.onSp_kept
    | with_reducible apply State.onHold_kept
    | with_reducible apply State.onWeight_kept
    | with_reducible apply Core.free_canonical
    | exact fun _ k => k
    | split
    | dsimp only
    | intro

theorem execWeightFree_kept {s t : State} {m : MgmtRun} (e : execWeightFree m s = .next t) : Kept s t := by
  have hk := Kept.refl s
  unfold execWeightFree weightFreeEnd weightFreeBad at e
  (try dsimp only)
  repeat' first
    | with_reducible assumption
    | exact trivial
    | with_reducible apply okWith_kept
    | with_reducible apply failWith_kept
    | with_reducible refine mgmtRow_kept ?_ ‹_›
    | with_reducible apply State.onPart_kept
    | with_reducible apply State.freeCopy_kept
    | with_reducible apply Kept.foldl
    | with_reducible apply Kept.foldlFst
    | with_reducible apply Site.foldl_canonical
    | exact fun _ k => k
    | split
    | dsimp only
    | intro

theorem execMigrateFreeze_kept {s t : State} {m : MgmtRun} (e : execMigrateFreeze m s = .next t) : Kept s t := by
  have hk := Kept.refl s
  unfold execMigrateFreeze migrateFreezeEnd migrateFreezeBad at e
  (try dsimp only)
  repeat' first
    | with_reducible assumption
    | exact trivial
    | with_reducible apply State.shapes_kept
    | with_reducible apply okWith_kept
    | with_reducible apply failWith_kept
    | with_reducible refine mgmtRow_kept ?_ ‹_›
    | with_reducible apply KeptEnd.later
    | with_reducible apply State.onVd_kept
    | with_reducible apply State.report_kept
    | with_reducible apply State.liftAll_kept
    | with_reducible apply State.freeze_kept
    | exact fun _ k => k
    | split
    | dsimp only
    | intro

theorem execMigratePeer_kept {s t : State} {m : MgmtRun} (e : execMigratePeer m s = .next t) : Kept s t := by
  have hk := Kept.refl s
  unfold execMigratePeer migratePeerEnd migratePeerBad at e
  (try dsimp only)
  repeat' first
    | with_reducible assumption
    | exact trivial
    | with_reducible apply State.shapes_kept
    | with_reducible apply okWith_kept
    | with_reducible apply failWith_kept
    | with_reducible refine mgmtRow_kept ?_ ‹_›
    | with_reducible apply State.onPart_kept
    | with_reducible apply State.onMig_kept
    | exact fun _ k => k
    | split
    | dsimp only
    | intro

theorem execMigrateSave_kept {s t : State} {m : MgmtRun} (e : execMigrateSave m s = .next t) : Kept s t := by
  have hk := Kept.refl s
  unfold execMigrateSave migrateSaveEnd migrateSaveBad at e
  (try dsimp only)
  repeat' first
    | with_reducible assumption
    | exact trivial
    | with_reducible apply State.shapes_kept
    | with_reducible apply okWith_kept
    | with_reducible apply failWith_kept
    | with_reducible refine mgmtRow_kept ?_ ‹_›
    | with_reducible apply State.onPart_kept
    | with_reducible apply State.emit_kept
    | with_reducible apply State.drawSecret_kept
    | with_reducible refine State.drawSecret_kept' ?_ ‹_›
    | with_reducible apply State.onMig_kept
    | exact fun _ k => k
    | split
    | dsimp only
    | intro

theorem execMigrateRestore_kept {s t : State} {m : MgmtRun} (e : execMigrateRestore m s = .next t) : Kept s t := by
  have hk := Kept.refl s
  unfold execMigrateRestore migrateRestoreEnd migrateRestoreBad at e
  (try dsimp only)
  repeat' first
    | with_reducible assumption
    | exact trivial
    | with_reducible apply State.atPort_kept
    | with_reducible apply okWith_kept
    | with_reducible apply failWith_kept
    | with_reducible refine mgmtRow_kept ?_ ‹_›
    | with_reducible apply State.onPart_kept
    | with_reducible refine State.loadSlice_kept ?_ ‹_›
    | exact fun _ k => k
    | split
    | dsimp only
    | intro

theorem execMigrateCommit_kept {s t : State} {m : MgmtRun} (e : execMigrateCommit m s = .next t) : Kept s t := by
  have hk := Kept.refl s
  unfold execMigrateCommit migrateCommitEnd migrateCommitBad at e
  (try dsimp only)
  repeat' first
    | with_reducible assumption
    | exact trivial
    | with_reducible apply State.shapes_kept
    | with_reducible apply okWith_kept
    | with_reducible apply failWith_kept
    | with_reducible refine mgmtRow_kept ?_ ‹_›
    | with_reducible apply State.onVd_kept
    | with_reducible apply State.endSession_kept
    | exact fun _ k => k
    | split
    | dsimp only
    | intro

theorem execMigrateCancel_kept {s t : State} {m : MgmtRun} (e : execMigrateCancel m s = .next t) : Kept s t := by
  have hk := Kept.refl s
  unfold execMigrateCancel migrateCancelEnd migrateCancelBad at e
  (try dsimp only)
  repeat' first
    | with_reducible assumption
    | exact trivial
    | with_reducible apply State.shapes_kept
    | with_reducible apply okWith_kept
    | with_reducible apply failWith_kept
    | with_reducible refine mgmtRow_kept ?_ ‹_›
    | with_reducible apply State.endSession_kept
    | with_reducible apply State.onMig_kept
    | exact fun _ k => k
    | split
    | dsimp only
    | intro

theorem execMigrateThaw_kept {s t : State} {m : MgmtRun} (e : execMigrateThaw m s = .next t) : Kept s t := by
  have hk := Kept.refl s
  unfold execMigrateThaw migrateThawEnd migrateThawBad at e
  (try dsimp only)
  repeat' first
    | with_reducible assumption
    | exact trivial
    | with_reducible apply State.shapes_kept
    | with_reducible apply okWith_kept
    | with_reducible apply failWith_kept
    | with_reducible refine mgmtRow_kept ?_ ‹_›
    | with_reducible apply SCtx.run_kept
    | with_reducible apply State.thaw_kept
    | exact fun _ k => k
    | split
    | dsimp only
    | intro

theorem execColdRstNRelease_kept {s t : State} {i : Nat} {b : BootInput} (e : execColdRstNRelease i b s = .next t) : Kept s t := by
  have hk := Kept.refl s
  unfold execColdRstNRelease at e
  cases e
  (try dsimp only)
  repeat' first
    | with_reducible assumption
    | with_reducible apply VCtx.next_kept
    | with_reducible apply State.startSite_kept
    | exact fun _ k => k
    | split
    | dsimp only
    | intro

theorem execColdRstNAssert_kept {s t : State} {i : Nat} (e : execColdRstNAssert i s = .next t) : Kept s t := by
  have hk := Kept.refl s
  unfold execColdRstNAssert at e
  cases e
  (try dsimp only)
  repeat' first
    | with_reducible assumption
    | with_reducible apply VCtx.next_kept
    | with_reducible apply State.coldSite_kept
    | exact fun _ k => k
    | split
    | dsimp only
    | intro

theorem execMembershipSettle_kept {s t : State}  (e : execMembershipSettle s = .next t) : Kept s t := by
  have hk := Kept.refl s
  unfold execMembershipSettle at e
  cases e
  (try dsimp only)
  repeat' first
    | with_reducible assumption
    | with_reducible apply VCtx.next_kept
    | with_reducible apply State.settleMembers_kept
    | exact fun _ k => k
    | split
    | dsimp only
    | intro

theorem execDebugUnlock_kept {s t : State} {i : Nat} {ok : Bool} (e : execDebugUnlock i ok s = .next t) : Kept s t := by
  have hk := Kept.refl s
  unfold execDebugUnlock at e
  cases e
  (try dsimp only)
  repeat' first
    | with_reducible assumption
    | with_reducible apply State.onPins_kept
    | with_reducible apply State.bump_kept
    | with_reducible apply State.draw_kept
    | with_reducible refine State.draw_kept' ?_ ‹_›
    | with_reducible apply VCtx.next_kept
    | with_reducible apply State.unlock_kept
    | with_reducible apply Site.bump_canonical
    | exact fun _ k => k
    | split
    | dsimp only
    | intro

theorem execJtagInstruction_kept {s t : State} {i : Nat} {code : JtagInstr} (e : execJtagInstruction i code s = .next t) : Kept s t := by
  have hk := Kept.refl s
  unfold execJtagInstruction at e
  cases e
  (try dsimp only)
  repeat' first
    | with_reducible assumption
    | with_reducible apply State.onPins_kept
    | with_reducible apply VCtx.next_kept
    | exact fun _ k => k
    | split
    | dsimp only
    | intro

theorem execTapReset_kept {s t : State} {i : Nat} (e : execTapReset i s = .next t) : Kept s t := by
  have hk := Kept.refl s
  unfold execTapReset at e
  cases e
  (try dsimp only)
  repeat' first
    | with_reducible assumption
    | with_reducible apply State.onPins_kept
    | with_reducible apply VCtx.next_kept
    | exact fun _ k => k
    | split
    | dsimp only
    | intro

end Sys2Proof.Machine
end

