-- ==== Sys2Proof/Laws/KeptH.lean ====
section
/-! SUPPORT. The operations of RegAccess, Idle keep what every command keeps. -/

set_option linter.unusedVariables false

namespace Sys2Proof.Machine

theorem nextOf_kept {s₀ s : State} (hk : Kept s₀ s) {o : Host.Outcome State Fault Refusal}
    (h : ∀ t, o = .next t → Kept s t) : Kept s₀ (nextOf o s) := by
  unfold nextOf
  split
  · exact hk.trans (h _ rfl)
  · exact hk

theorem State.shows_kept {s₀ s : State} (hk : Kept s₀ s) {w : W32} :
    Kept s₀ (State.shows s w) := by
  unfold State.shows
  (try dsimp only)
  repeat' first
    | with_reducible assumption
    | with_reducible apply Kept.rd
    | exact fun _ k => k
    | split
    | intro

theorem State.clearRead_kept {s₀ s : State} (hk : Kept s₀ s) {i o : Nat} {r : RegRow} :
    Kept s₀ (State.clearRead s i o r) := by
  unfold State.clearRead
  (try dsimp only)
  repeat' first
    | with_reducible assumption
    | with_reducible apply State.onSite_kept
    | with_reducible apply State.onWatch_kept
    | with_reducible apply State.setFld_kept
    | with_reducible apply Site.setFld_canonical
    | with_reducible apply Site.setReg_canonical
    | exact fun _ k => k
    | split
    | intro

theorem State.readBox_kept {s₀ s : State} (hk : Kept s₀ s) {i o : Nat} {agent : Byte} :
    Kept s₀ (State.readBox s i o agent) := by
  unfold State.readBox
  (try dsimp only)
  repeat' first
    | with_reducible assumption
    | with_reducible apply State.shows_kept
    | with_reducible apply Core.free_canonical
    | exact fun _ k => k
    | split
    | intro

theorem State.readPf_kept {s₀ s : State} (hk : Kept s₀ s) {agent : Byte} {i o : Nat} {r : RegRow} :
    Kept s₀ (State.readPf s agent i o r) := by
  unfold State.readPf
  (try dsimp only)
  repeat' first
    | with_reducible assumption
    | with_reducible apply State.onSite_kept
    | with_reducible apply State.shows_kept
    | with_reducible apply State.clearRead_kept
    | with_reducible apply State.readBox_kept
    | with_reducible refine nextOf_kept ?_ fun _ e => execIrqClaim_kept e
    | with_reducible refine nextOf_kept ?_ fun _ e => execMbxLock_kept e
    | exact fun _ k => k
    | split
    | intro

theorem State.readVf_kept {s₀ s : State} (hk : Kept s₀ s) {v o : Nat} :
    Kept s₀ (State.readVf s v o) := by
  unfold State.readVf
  (try dsimp only)
  repeat' first
    | with_reducible assumption
    | with_reducible apply State.onFe_kept
    | with_reducible apply State.shows_kept
    | exact fun _ k => k
    | split
    | intro

theorem State.readAt_kept {s₀ s : State} (hk : Kept s₀ s) {a : RegAddr} :
    Kept s₀ (State.readAt s a) := by
  unfold State.readAt
  (try dsimp only)
  repeat' first
    | with_reducible assumption
    | with_reducible apply State.shows_kept
    | with_reducible apply State.readPf_kept
    | with_reducible apply State.readVf_kept
    | exact fun _ k => k
    | split
    | intro

theorem State.writeRw_kept {s₀ s : State} (hk : Kept s₀ s) {i o : Nat} {r : RegRow} {value : W32} :
    Kept s₀ (State.writeRw s i o r value) := by
  unfold State.writeRw
  (try dsimp only)
  repeat' first
    | with_reducible assumption
    | with_reducible apply State.onSite_kept
    | with_reducible apply Site.setReg_canonical
    | exact fun _ k => k
    | split
    | intro

theorem State.writeFabCfg_kept {s₀ s : State} (hk : Kept s₀ s) {i : Nat} {r : RegRow} {value : W32} :
    Kept s₀ (State.writeFabCfg s i r value) := by
  unfold State.writeFabCfg
  (try dsimp only)
  repeat' first
    | with_reducible assumption
    | with_reducible apply State.setFld_kept
    | with_reducible apply State.linkOff_kept
    | with_reducible apply State.linkOn_kept
    | with_reducible apply State.writeRw_kept
    | with_reducible apply Kept.foldl
    | with_reducible apply Kept.foldlFst
    | with_reducible apply Site.foldl_canonical
    | with_reducible apply Site.setFld_canonical
    | exact fun _ k => k
    | split
    | intro

theorem State.drive_kept {s₀ s : State} (hk : Kept s₀ s) {i k : Nat} :
    Kept s₀ (State.drive s i k) := by
  unfold State.drive
  (try dsimp only)
  repeat' first
    | with_reducible assumption
    | with_reducible apply State.emit_kept
    | exact fun _ k => k
    | split
    | intro

theorem State.dropSrc_kept {s₀ s : State} (hk : Kept s₀ s) {i n : Nat} :
    Kept s₀ (State.dropSrc s i n) := by
  unfold State.dropSrc
  (try dsimp only)
  repeat' first
    | with_reducible assumption
    | with_reducible apply State.onWatch_kept
    | with_reducible apply State.setFld_kept
    | with_reducible apply Site.setFld_canonical
    | exact fun _ k => k
    | split
    | intro

theorem State.writeSrc_kept {s₀ s : State} (hk : Kept s₀ s) {i n : Nat} {r : RegRow} {value : W32} :
    Kept s₀ (State.writeSrc s i n r value) := by
  unfold State.writeSrc
  (try dsimp only)
  repeat' first
    | with_reducible assumption
    | with_reducible apply State.onWatch_kept
    | with_reducible apply State.setFld_kept
    | with_reducible apply State.deliverSrc_kept
    | with_reducible apply State.writeRw_kept
    | with_reducible apply State.dropSrc_kept
    | with_reducible apply Site.setFld_canonical
    | exact fun _ k => k
    | split
    | intro

theorem State.writeIrq_kept {s₀ s : State} (hk : Kept s₀ s) {agent : Byte} {i o : Nat} {r : RegRow} {value : W32} :
    Kept s₀ (State.writeIrq s agent i o r value) := by
  unfold State.writeIrq
  (try dsimp only)
  repeat' first
    | with_reducible assumption
    | with_reducible apply State.onSite_kept
    | with_reducible apply State.writeRw_kept
    | with_reducible apply State.drive_kept
    | with_reducible apply State.dropSrc_kept
    | with_reducible apply State.writeSrc_kept
    | with_reducible apply Site.setReg_canonical
    | with_reducible refine nextOf_kept ?_ fun _ e => execIrqIpi_kept e
    | exact fun _ k => k
    | split
    | intro

theorem State.writeMr_kept {s₀ s : State} (hk : Kept s₀ s) {o : Nat} {value : W32} : Kept s₀ (s.writeMr o value) := by
  unfold State.writeMr
  dsimp only
  repeat' first
    | with_reducible exact hk
    | with_reducible exact nextOf_kept hk fun _ e => execReqTail_kept e
    | with_reducible exact nextOf_kept hk fun _ e => execRplHead_kept e
    | with_reducible exact nextOf_kept hk fun _ e => execFltHead_kept e
    | with_reducible exact nextOf_kept hk fun _ e => execManagementRingEnable_kept e
    | with_reducible exact nextOf_kept hk fun _ e => execManagementRingDisable_kept e
    | with_reducible exact State.onRings_kept hk
    | with_reducible apply Kept.ite

theorem State.writeMbx_kept {s₀ s : State} (hk : Kept s₀ s) {agent : Byte} {i o : Nat} {value : W32} :
    Kept s₀ (State.writeMbx s agent i o value) := by
  unfold State.writeMbx
  (try dsimp only)
  repeat' first
    | with_reducible assumption
    | with_reducible apply State.writeMr_kept
    | with_reducible refine nextOf_kept ?_ fun _ e => execMbxData_kept e
    | with_reducible refine nextOf_kept ?_ fun _ e => execMbxDoorbell_kept e
    | with_reducible refine nextOf_kept ?_ fun _ e => execMbxFree_kept e
    | exact fun _ k => k
    | split
    | intro

theorem State.writeQuiesce_kept {s₀ s : State} (hk : Kept s₀ s) {i : Nat} {fab : Bool} {value : W32} :
    Kept s₀ (State.writeQuiesce s i fab value) := by
  unfold State.writeQuiesce
  (try dsimp only)
  repeat' first
    | with_reducible assumption
    | with_reducible apply State.setFld_kept
    | with_reducible apply Site.setFld_canonical
    | with_reducible refine nextOf_kept ?_ fun _ e => execDmaQuiesceReq_kept e
    | with_reducible refine nextOf_kept ?_ fun _ e => execFabQuiesceReq_kept e
    | with_reducible refine nextOf_kept ?_ fun _ e => execQuiesceClear_kept e
    | exact fun _ k => k
    | split
    | intro

theorem State.writePf_kept {s₀ s : State} (hk : Kept s₀ s) {agent : Byte} {i o : Nat} {r : RegRow} {value : W32} :
    Kept s₀ (State.writePf s agent i o r value) := by
  unfold State.writePf
  (try dsimp only)
  repeat' first
    | with_reducible assumption
    | with_reducible apply State.onSite_kept
    | with_reducible apply State.writeRw_kept
    | with_reducible apply State.writeFabCfg_kept
    | with_reducible apply State.writeIrq_kept
    | with_reducible apply State.writeMbx_kept
    | with_reducible apply State.writeQuiesce_kept
    | with_reducible refine nextOf_kept ?_ fun _ e => execFabRt_kept e
    | with_reducible refine nextOf_kept ?_ fun _ e => execGo_kept e
    | with_reducible refine nextOf_kept ?_ fun _ e => execSnap_kept e
    | with_reducible refine nextOf_kept ?_ fun _ e => execSnapClear_kept e
    | with_reducible refine nextOf_kept ?_ fun _ e => execStop_kept e
    | exact fun _ k => k
    | split
    | intro

theorem State.writeRing_kept {s₀ s : State} (hk : Kept s₀ s) {v o : Nat} {value : W32} :
    Kept s₀ (s.writeRing v o value) := by
  unfold State.writeRing
  dsimp only
  repeat' first
    | with_reducible exact hk
    | with_reducible exact nextOf_kept hk fun _ e => execFeCqHead_kept e
    | with_reducible exact nextOf_kept hk fun _ e => execFeEqHead_kept e
    | with_reducible exact nextOf_kept hk fun _ e => execFeFqHead_kept e
    | (refine nextOf_kept hk fun t e => ?_
       split at e
       · exact execRingEnable_kept e
       · exact execRingDisable_kept e)
    | with_reducible exact State.onRing_kept hk
    | with_reducible exact State.onFe_kept hk
    | with_reducible apply Kept.ite

theorem State.writeMsix_kept {s₀ s : State} (hk : Kept s₀ s) {v n k : Nat} {value : W32} :
    Kept s₀ (State.writeMsix s v n k value) := by
  unfold State.writeMsix
  (try dsimp only)
  repeat' first
    | with_reducible assumption
    | with_reducible apply State.onFe_kept
    | with_reducible apply VCtx.put_kept
    | with_reducible apply SCtx.put_kept
    | with_reducible refine nextOf_kept ?_ fun _ e => execMsixUnmask_kept e
    | exact fun _ k => k
    | split
    | intro

theorem State.writeVf_kept {s₀ s : State} (hk : Kept s₀ s) {v o : Nat} {value : W32} :
    Kept s₀ (State.writeVf s v o value) := by
  unfold State.writeVf
  (try dsimp only)
  repeat' first
    | with_reducible assumption
    | with_reducible apply State.onFe_kept
    | with_reducible apply State.writeRing_kept
    | with_reducible apply State.writeMsix_kept
    | with_reducible refine nextOf_kept ?_ fun _ e => execFeDoorbell_kept e
    | with_reducible refine nextOf_kept ?_ fun _ e => execFeStreamResume_kept e
    | exact fun _ k => k
    | split
    | intro

theorem State.writeNoel_kept {s₀ s : State} (hk : Kept s₀ s) {v o : Nat} {value : W32} :
    Kept s₀ (State.writeNoel s v o value) := by
  unfold State.writeNoel
  (try dsimp only)
  repeat' first
    | with_reducible assumption
    | with_reducible refine nextOf_kept ?_ fun _ e => execFeNoelCqHead_kept e
    | with_reducible refine nextOf_kept ?_ fun _ e => execFeNoelDb_kept e
    | exact fun _ k => k
    | split
    | intro

theorem idle_kept {s₀ s : State} (hk : Kept s₀ s) : Kept s₀ (idle s) :=
  hk.mapSites fun t k => by
    split
    · exact Site.sameMemories k rfl rfl rfl rfl
    · exact k

end Sys2Proof.Machine
end

