-- ==== Sys2Proof/Laws/KeptX3.lean ====
section
/-! SUPPORT. The commands of RegAccess, Idle keep what every command keeps. -/

set_option linter.unusedVariables false

namespace Sys2Proof.Machine

theorem execLowWordRead_kept {s t : State} {a : RegAddr} (e : execLowWordRead a s = .next t) : Kept s t := by
  have hk := Kept.refl s
  unfold execLowWordRead at e
  cases e
  (try dsimp only)
  repeat' first
    | with_reducible assumption
    | with_reducible apply VCtx.next_kept
    | with_reducible apply State.readAt_kept
    | exact fun _ k => k
    | split
    | dsimp only
    | intro

theorem execHighWordRead_kept {s t : State} {a : RegAddr} (e : execHighWordRead a s = .next t) : Kept s t := by
  have hk := Kept.refl s
  unfold execHighWordRead at e
  cases e
  (try dsimp only)
  repeat' first
    | with_reducible assumption
    | with_reducible apply VCtx.next_kept
    | with_reducible apply State.readAt_kept
    | exact fun _ k => k
    | split
    | dsimp only
    | intro

theorem execRcRead_kept {s t : State} {a : RegAddr} (e : execRcRead a s = .next t) : Kept s t := by
  have hk := Kept.refl s
  unfold execRcRead at e
  cases e
  (try dsimp only)
  repeat' first
    | with_reducible assumption
    | with_reducible apply VCtx.next_kept
    | with_reducible apply State.readAt_kept
    | exact fun _ k => k
    | split
    | dsimp only
    | intro

theorem execRegisterWrite_kept {s t : State} {a : RegAddr} {value : W32} (e : execRegisterWrite a value s = .next t) : Kept s t := by
  have hk := Kept.refl s
  unfold execRegisterWrite at e
  cases e
  (try dsimp only)
  repeat' first
    | with_reducible assumption
    | with_reducible apply VCtx.next_kept
    | with_reducible apply State.writePf_kept
    | with_reducible apply State.writeVf_kept
    | with_reducible apply State.writeNoel_kept
    | exact fun _ k => k
    | split
    | dsimp only
    | intro

end Sys2Proof.Machine
end

