-- ==== Sys2Proof/Laws/State.lean ====
section
/-! SUPPORT. What each update of the state leaves alone, field by field, and what a read of the updated part gives: later
proofs rewrite with these and unfold no record update. -/

namespace Sys2Proof.Machine

/-! The fields of the state -/

@[simp] theorem State.onSite_vds (s : State) (i : Nat) (f : Site → Site) : (s.onSite i f).vds = s.vds := rfl
@[simp] theorem State.onSite_part (s : State) (i : Nat) (f : Site → Site) : (s.onSite i f).part = s.part := rfl
@[simp] theorem State.onSite_out (s : State) (i : Nat) (f : Site → Site) : (s.onSite i f).out = s.out := rfl
@[simp] theorem State.onSite_rd (s : State) (i : Nat) (f : Site → Site) : (s.onSite i f).rd = s.rd := rfl
@[simp] theorem State.onSite_free (s : State) (i : Nat) (f : Site → Site) : (s.onSite i f).free = s.free := rfl
@[simp] theorem State.onSite_pending (s : State) (i : Nat) (f : Site → Site) :
    (s.onSite i f).pending = s.pending := rfl
@[simp] theorem State.onSite_vd (s : State) (i : Nat) (f : Site → Site) (w : Nat) :
    (s.onSite i f).vd w = s.vd w := rfl
@[simp] theorem State.onCore_vds (s : State) (i p : Nat) (f : Core → Core) : (s.onCore i p f).vds = s.vds := rfl
@[simp] theorem State.onCore_part (s : State) (i p : Nat) (f : Core → Core) : (s.onCore i p f).part = s.part := rfl
@[simp] theorem State.onCore_out (s : State) (i p : Nat) (f : Core → Core) : (s.onCore i p f).out = s.out := rfl
@[simp] theorem State.onCore_rd (s : State) (i p : Nat) (f : Core → Core) : (s.onCore i p f).rd = s.rd := rfl
@[simp] theorem State.onCore_free (s : State) (i p : Nat) (f : Core → Core) : (s.onCore i p f).free = s.free := rfl
@[simp] theorem State.onCore_pending (s : State) (i p : Nat) (f : Core → Core) :
    (s.onCore i p f).pending = s.pending := rfl
@[simp] theorem State.onCore_vd (s : State) (i p : Nat) (f : Core → Core) (w : Nat) :
    (s.onCore i p f).vd w = s.vd w := rfl
@[simp] theorem State.onNet_vds (s : State) (i : Nat) (f : Transport → Transport) : (s.onNet i f).vds = s.vds := rfl
@[simp] theorem State.onNet_part (s : State) (i : Nat) (f : Transport → Transport) :
    (s.onNet i f).part = s.part := rfl
@[simp] theorem State.onNet_out (s : State) (i : Nat) (f : Transport → Transport) : (s.onNet i f).out = s.out := rfl
@[simp] theorem State.onNet_rd (s : State) (i : Nat) (f : Transport → Transport) : (s.onNet i f).rd = s.rd := rfl
@[simp] theorem State.onNet_free (s : State) (i : Nat) (f : Transport → Transport) :
    (s.onNet i f).free = s.free := rfl
@[simp] theorem State.onNet_pending (s : State) (i : Nat) (f : Transport → Transport) :
    (s.onNet i f).pending = s.pending := rfl
@[simp] theorem State.onNet_vd (s : State) (i : Nat) (f : Transport → Transport) (w : Nat) :
    (s.onNet i f).vd w = s.vd w := rfl
@[simp] theorem State.onWatch_vds (s : State) (i : Nat) (f : Watch → Watch) : (s.onWatch i f).vds = s.vds := rfl
@[simp] theorem State.onWatch_part (s : State) (i : Nat) (f : Watch → Watch) : (s.onWatch i f).part = s.part := rfl
@[simp] theorem State.onWatch_out (s : State) (i : Nat) (f : Watch → Watch) : (s.onWatch i f).out = s.out := rfl
@[simp] theorem State.onWatch_rd (s : State) (i : Nat) (f : Watch → Watch) : (s.onWatch i f).rd = s.rd := rfl
@[simp] theorem State.onWatch_free (s : State) (i : Nat) (f : Watch → Watch) : (s.onWatch i f).free = s.free := rfl
@[simp] theorem State.onWatch_pending (s : State) (i : Nat) (f : Watch → Watch) :
    (s.onWatch i f).pending = s.pending := rfl
@[simp] theorem State.onWatch_vd (s : State) (i : Nat) (f : Watch → Watch) (w : Nat) :
    (s.onWatch i f).vd w = s.vd w := rfl
@[simp] theorem State.onPins_vds (s : State) (i : Nat) (f : Pins → Pins) : (s.onPins i f).vds = s.vds := rfl
@[simp] theorem State.onPins_part (s : State) (i : Nat) (f : Pins → Pins) : (s.onPins i f).part = s.part := rfl
@[simp] theorem State.onPins_out (s : State) (i : Nat) (f : Pins → Pins) : (s.onPins i f).out = s.out := rfl
@[simp] theorem State.onPins_rd (s : State) (i : Nat) (f : Pins → Pins) : (s.onPins i f).rd = s.rd := rfl
@[simp] theorem State.onPins_free (s : State) (i : Nat) (f : Pins → Pins) : (s.onPins i f).free = s.free := rfl
@[simp] theorem State.onPins_pending (s : State) (i : Nat) (f : Pins → Pins) :
    (s.onPins i f).pending = s.pending := rfl
@[simp] theorem State.onPins_vd (s : State) (i : Nat) (f : Pins → Pins) (w : Nat) :
    (s.onPins i f).vd w = s.vd w := rfl
@[simp] theorem State.setFld_vds (s : State) (i off : Nat) (x : Nat × Nat) (v : Nat) :
    (s.setFld i off x v).vds = s.vds := rfl
@[simp] theorem State.setFld_part (s : State) (i off : Nat) (x : Nat × Nat) (v : Nat) :
    (s.setFld i off x v).part = s.part := rfl
@[simp] theorem State.setFld_out (s : State) (i off : Nat) (x : Nat × Nat) (v : Nat) :
    (s.setFld i off x v).out = s.out := rfl
@[simp] theorem State.setFld_rd (s : State) (i off : Nat) (x : Nat × Nat) (v : Nat) :
    (s.setFld i off x v).rd = s.rd := rfl
@[simp] theorem State.setFld_free (s : State) (i off : Nat) (x : Nat × Nat) (v : Nat) :
    (s.setFld i off x v).free = s.free := rfl
@[simp] theorem State.setFld_pending (s : State) (i off : Nat) (x : Nat × Nat) (v : Nat) :
    (s.setFld i off x v).pending = s.pending := rfl
@[simp] theorem State.setFld_vd (s : State) (i off : Nat) (x : Nat × Nat) (v : Nat) (w : Nat) :
    (s.setFld i off x v).vd w = s.vd w := rfl
@[simp] theorem State.bump_vds (s : State) (i off : Nat) (x : Nat × Nat) (n : Nat) :
    (s.bump i off x n).vds = s.vds := rfl
@[simp] theorem State.bump_part (s : State) (i off : Nat) (x : Nat × Nat) (n : Nat) :
    (s.bump i off x n).part = s.part := rfl
@[simp] theorem State.bump_out (s : State) (i off : Nat) (x : Nat × Nat) (n : Nat) :
    (s.bump i off x n).out = s.out := rfl
@[simp] theorem State.bump_rd (s : State) (i off : Nat) (x : Nat × Nat) (n : Nat) :
    (s.bump i off x n).rd = s.rd := rfl
@[simp] theorem State.bump_free (s : State) (i off : Nat) (x : Nat × Nat) (n : Nat) :
    (s.bump i off x n).free = s.free := rfl
@[simp] theorem State.bump_pending (s : State) (i off : Nat) (x : Nat × Nat) (n : Nat) :
    (s.bump i off x n).pending = s.pending := rfl
@[simp] theorem State.bump_vd (s : State) (i off : Nat) (x : Nat × Nat) (n : Nat) (w : Nat) :
    (s.bump i off x n).vd w = s.vd w := rfl
@[simp] theorem State.onVd_sites (s : State) (v : Nat) (f : Vd → Vd) : (s.onVd v f).sites = s.sites := rfl
@[simp] theorem State.onVd_part (s : State) (v : Nat) (f : Vd → Vd) : (s.onVd v f).part = s.part := rfl
@[simp] theorem State.onVd_out (s : State) (v : Nat) (f : Vd → Vd) : (s.onVd v f).out = s.out := rfl
@[simp] theorem State.onVd_rd (s : State) (v : Nat) (f : Vd → Vd) : (s.onVd v f).rd = s.rd := rfl
@[simp] theorem State.onVd_free (s : State) (v : Nat) (f : Vd → Vd) : (s.onVd v f).free = s.free := rfl
@[simp] theorem State.onVd_pending (s : State) (v : Nat) (f : Vd → Vd) : (s.onVd v f).pending = s.pending := rfl
@[simp] theorem State.onVd_site (s : State) (v : Nat) (f : Vd → Vd) (j : Nat) : (s.onVd v f).site j = s.site j := rfl
@[simp] theorem State.onVd_core (s : State) (v : Nat) (f : Vd → Vd) (j q : Nat) :
    (s.onVd v f).core j q = s.core j q := rfl
@[simp] theorem State.onFe_sites (s : State) (v : Nat) (f : FrontEnd → FrontEnd) : (s.onFe v f).sites = s.sites := rfl
@[simp] theorem State.onFe_part (s : State) (v : Nat) (f : FrontEnd → FrontEnd) : (s.onFe v f).part = s.part := rfl
@[simp] theorem State.onFe_out (s : State) (v : Nat) (f : FrontEnd → FrontEnd) : (s.onFe v f).out = s.out := rfl
@[simp] theorem State.onFe_rd (s : State) (v : Nat) (f : FrontEnd → FrontEnd) : (s.onFe v f).rd = s.rd := rfl
@[simp] theorem State.onFe_free (s : State) (v : Nat) (f : FrontEnd → FrontEnd) : (s.onFe v f).free = s.free := rfl
@[simp] theorem State.onFe_pending (s : State) (v : Nat) (f : FrontEnd → FrontEnd) :
    (s.onFe v f).pending = s.pending := rfl
@[simp] theorem State.onFe_site (s : State) (v : Nat) (f : FrontEnd → FrontEnd) (j : Nat) :
    (s.onFe v f).site j = s.site j := rfl
@[simp] theorem State.onFe_core (s : State) (v : Nat) (f : FrontEnd → FrontEnd) (j q : Nat) :
    (s.onFe v f).core j q = s.core j q := rfl
@[simp] theorem State.onSp_sites (s : State) (v : Nat) (f : Space → Space) : (s.onSp v f).sites = s.sites := rfl
@[simp] theorem State.onSp_part (s : State) (v : Nat) (f : Space → Space) : (s.onSp v f).part = s.part := rfl
@[simp] theorem State.onSp_out (s : State) (v : Nat) (f : Space → Space) : (s.onSp v f).out = s.out := rfl
@[simp] theorem State.onSp_rd (s : State) (v : Nat) (f : Space → Space) : (s.onSp v f).rd = s.rd := rfl
@[simp] theorem State.onSp_free (s : State) (v : Nat) (f : Space → Space) : (s.onSp v f).free = s.free := rfl
@[simp] theorem State.onSp_pending (s : State) (v : Nat) (f : Space → Space) : (s.onSp v f).pending = s.pending := rfl
@[simp] theorem State.onSp_site (s : State) (v : Nat) (f : Space → Space) (j : Nat) :
    (s.onSp v f).site j = s.site j := rfl
@[simp] theorem State.onSp_core (s : State) (v : Nat) (f : Space → Space) (j q : Nat) :
    (s.onSp v f).core j q = s.core j q := rfl
@[simp] theorem State.onHold_sites (s : State) (v : Nat) (f : Holdings → Holdings) :
    (s.onHold v f).sites = s.sites := rfl
@[simp] theorem State.onHold_part (s : State) (v : Nat) (f : Holdings → Holdings) :
    (s.onHold v f).part = s.part := rfl
@[simp] theorem State.onHold_out (s : State) (v : Nat) (f : Holdings → Holdings) : (s.onHold v f).out = s.out := rfl
@[simp] theorem State.onHold_rd (s : State) (v : Nat) (f : Holdings → Holdings) : (s.onHold v f).rd = s.rd := rfl
@[simp] theorem State.onHold_free (s : State) (v : Nat) (f : Holdings → Holdings) :
    (s.onHold v f).free = s.free := rfl
@[simp] theorem State.onHold_pending (s : State) (v : Nat) (f : Holdings → Holdings) :
    (s.onHold v f).pending = s.pending := rfl
@[simp] theorem State.onHold_site (s : State) (v : Nat) (f : Holdings → Holdings) (j : Nat) :
    (s.onHold v f).site j = s.site j := rfl
@[simp] theorem State.onHold_core (s : State) (v : Nat) (f : Holdings → Holdings) (j q : Nat) :
    (s.onHold v f).core j q = s.core j q := rfl
@[simp] theorem State.onStream_sites (s : State) (v n : Nat) (f : Stream → Stream) :
    (s.onStream v n f).sites = s.sites := rfl
@[simp] theorem State.onStream_part (s : State) (v n : Nat) (f : Stream → Stream) :
    (s.onStream v n f).part = s.part := rfl
@[simp] theorem State.onStream_out (s : State) (v n : Nat) (f : Stream → Stream) :
    (s.onStream v n f).out = s.out := rfl
@[simp] theorem State.onStream_rd (s : State) (v n : Nat) (f : Stream → Stream) : (s.onStream v n f).rd = s.rd := rfl
@[simp] theorem State.onStream_free (s : State) (v n : Nat) (f : Stream → Stream) :
    (s.onStream v n f).free = s.free := rfl
@[simp] theorem State.onStream_pending (s : State) (v n : Nat) (f : Stream → Stream) :
    (s.onStream v n f).pending = s.pending := rfl
@[simp] theorem State.onStream_site (s : State) (v n : Nat) (f : Stream → Stream) (j : Nat) :
    (s.onStream v n f).site j = s.site j := rfl
@[simp] theorem State.onStream_core (s : State) (v n : Nat) (f : Stream → Stream) (j q : Nat) :
    (s.onStream v n f).core j q = s.core j q := rfl
@[simp] theorem State.onRing_sites (s : State) (v r : Nat) (f : Ring → Ring) : (s.onRing v r f).sites = s.sites := rfl
@[simp] theorem State.onRing_part (s : State) (v r : Nat) (f : Ring → Ring) : (s.onRing v r f).part = s.part := rfl
@[simp] theorem State.onRing_out (s : State) (v r : Nat) (f : Ring → Ring) : (s.onRing v r f).out = s.out := rfl
@[simp] theorem State.onRing_rd (s : State) (v r : Nat) (f : Ring → Ring) : (s.onRing v r f).rd = s.rd := rfl
@[simp] theorem State.onRing_free (s : State) (v r : Nat) (f : Ring → Ring) : (s.onRing v r f).free = s.free := rfl
@[simp] theorem State.onRing_pending (s : State) (v r : Nat) (f : Ring → Ring) :
    (s.onRing v r f).pending = s.pending := rfl
@[simp] theorem State.onRing_site (s : State) (v r : Nat) (f : Ring → Ring) (j : Nat) :
    (s.onRing v r f).site j = s.site j := rfl
@[simp] theorem State.onRing_core (s : State) (v r : Nat) (f : Ring → Ring) (j q : Nat) :
    (s.onRing v r f).core j q = s.core j q := rfl
@[simp] theorem State.onCmd_sites (s : State) (c : CmdRef) (f : Cmd → Cmd) : (s.onCmd c f).sites = s.sites := rfl
@[simp] theorem State.onCmd_part (s : State) (c : CmdRef) (f : Cmd → Cmd) : (s.onCmd c f).part = s.part := rfl
@[simp] theorem State.onCmd_out (s : State) (c : CmdRef) (f : Cmd → Cmd) : (s.onCmd c f).out = s.out := rfl
@[simp] theorem State.onCmd_rd (s : State) (c : CmdRef) (f : Cmd → Cmd) : (s.onCmd c f).rd = s.rd := rfl
@[simp] theorem State.onCmd_free (s : State) (c : CmdRef) (f : Cmd → Cmd) : (s.onCmd c f).free = s.free := rfl
@[simp] theorem State.onCmd_pending (s : State) (c : CmdRef) (f : Cmd → Cmd) :
    (s.onCmd c f).pending = s.pending := rfl
@[simp] theorem State.onCmd_site (s : State) (c : CmdRef) (f : Cmd → Cmd) (j : Nat) :
    (s.onCmd c f).site j = s.site j := rfl
@[simp] theorem State.onCmd_core (s : State) (c : CmdRef) (f : Cmd → Cmd) (j q : Nat) :
    (s.onCmd c f).core j q = s.core j q := rfl
@[simp] theorem State.onPart_sites (s : State) (f : Part → Part) : (s.onPart f).sites = s.sites := rfl
@[simp] theorem State.onPart_vds (s : State) (f : Part → Part) : (s.onPart f).vds = s.vds := rfl
@[simp] theorem State.onPart_out (s : State) (f : Part → Part) : (s.onPart f).out = s.out := rfl
@[simp] theorem State.onPart_rd (s : State) (f : Part → Part) : (s.onPart f).rd = s.rd := rfl
@[simp] theorem State.onPart_free (s : State) (f : Part → Part) : (s.onPart f).free = s.free := rfl
@[simp] theorem State.onPart_pending (s : State) (f : Part → Part) : (s.onPart f).pending = s.pending := rfl
@[simp] theorem State.onPart_site (s : State) (f : Part → Part) (j : Nat) : (s.onPart f).site j = s.site j := rfl
@[simp] theorem State.onPart_core (s : State) (f : Part → Part) (j q : Nat) :
    (s.onPart f).core j q = s.core j q := rfl
@[simp] theorem State.onPart_vd (s : State) (f : Part → Part) (w : Nat) : (s.onPart f).vd w = s.vd w := rfl
@[simp] theorem State.emit_sites (s : State) (m : Msg) : (s.emit m).sites = s.sites := rfl
@[simp] theorem State.emit_vds (s : State) (m : Msg) : (s.emit m).vds = s.vds := rfl
@[simp] theorem State.emit_part (s : State) (m : Msg) : (s.emit m).part = s.part := rfl
@[simp] theorem State.emit_rd (s : State) (m : Msg) : (s.emit m).rd = s.rd := rfl
@[simp] theorem State.emit_free (s : State) (m : Msg) : (s.emit m).free = s.free := rfl
@[simp] theorem State.emit_pending (s : State) (m : Msg) : (s.emit m).pending = s.pending := rfl
@[simp] theorem State.emit_site (s : State) (m : Msg) (j : Nat) : (s.emit m).site j = s.site j := rfl
@[simp] theorem State.emit_core (s : State) (m : Msg) (j q : Nat) : (s.emit m).core j q = s.core j q := rfl
@[simp] theorem State.emit_vd (s : State) (m : Msg) (w : Nat) : (s.emit m).vd w = s.vd w := rfl
@[simp] theorem State.onPart_part (s : State) (f : Part → Part) : (s.onPart f).part = f s.part := rfl
@[simp] theorem State.emit_out (s : State) (m : Msg) : (s.emit m).out = s.out ++ [m] := rfl
@[simp] theorem State.draw_fst (s : State) : s.draw.1 = Config.freeWord s.free := rfl
@[simp] theorem State.draw_sites (s : State) : s.draw.2.sites = s.sites := rfl
@[simp] theorem State.draw_vds (s : State) : s.draw.2.vds = s.vds := rfl
@[simp] theorem State.draw_part (s : State) : s.draw.2.part = s.part := rfl
@[simp] theorem State.draw_out (s : State) : s.draw.2.out = s.out := rfl
@[simp] theorem State.draw_rd (s : State) : s.draw.2.rd = s.rd := rfl
@[simp] theorem State.draw_free (s : State) : s.draw.2.free = s.free + 1 := rfl
@[simp] theorem State.draw_pending (s : State) : s.draw.2.pending = s.pending := rfl

/-! The site and the virtual device that an update names, and the others -/

theorem getD_modify {α : Type} (l : List α) (i : Nat) (f : α → α) (d : α) (h : i < l.length) :
    (l.modify i f).getD i d = f (l.getD i d) := by
  simp [List.getD_eq_getElem?_getD, h]

theorem getD_modify_other {α : Type} (l : List α) (i j : Nat) (f : α → α) (d : α) (h : i ≠ j) :
    (l.modify i f).getD j d = l.getD j d := by
  simp [List.getD_eq_getElem?_getD, List.getElem?_modify, h]

theorem State.site_onSite (s : State) (i : Nat) (f : Site → Site) (h : i < s.sites.length) :
    (s.onSite i f).site i = f (s.site i) := getD_modify _ _ _ _ h

theorem State.site_onSite_other (s : State) (i j : Nat) (f : Site → Site) (h : i ≠ j) :
    (s.onSite i f).site j = s.site j := getD_modify_other _ _ _ _ _ h

theorem State.vd_onVd (s : State) (v : Nat) (f : Vd → Vd) (h : v < s.vds.length) : (s.onVd v f).vd v = f (s.vd v) :=
  getD_modify _ _ _ _ h

theorem State.vd_onVd_other (s : State) (v w : Nat) (f : Vd → Vd) (h : v ≠ w) : (s.onVd v f).vd w = s.vd w :=
  getD_modify_other _ _ _ _ _ h

theorem Site.core_onCore (t : Site) (p : Nat) (f : Core → Core) (h : p < t.cores.length) :
    (t.onCore p f).core p = f (t.core p) := getD_modify _ _ _ _ h

theorem Site.core_onCore_other (t : Site) (p q : Nat) (f : Core → Core) (h : p ≠ q) : (t.onCore p f).core q = t.core q :=
  getD_modify_other _ _ _ _ _ h

/-! The fields of a site -/

@[simp] theorem Site.setReg_id (t : Site) (off : Nat) (v : W32) : (t.setReg off v).id = t.id := rfl
@[simp] theorem Site.setReg_pins (t : Site) (off : Nat) (v : W32) : (t.setReg off v).pins = t.pins := rfl
@[simp] theorem Site.setReg_out (t : Site) (off : Nat) (v : W32) : (t.setReg off v).out = t.out := rfl
@[simp] theorem Site.setReg_absent (t : Site) (off : Nat) (v : W32) : (t.setReg off v).absent = t.absent := rfl
@[simp] theorem Site.setReg_time (t : Site) (off : Nat) (v : W32) : (t.setReg off v).time = t.time := rfl
@[simp] theorem Site.setReg_latch (t : Site) (off : Nat) (v : W32) : (t.setReg off v).latch = t.latch := rfl
@[simp] theorem Site.setReg_cores (t : Site) (off : Nat) (v : W32) : (t.setReg off v).cores = t.cores := rfl
@[simp] theorem Site.setReg_clusters (t : Site) (off : Nat) (v : W32) : (t.setReg off v).clusters = t.clusters := rfl
@[simp] theorem Site.setReg_fast (t : Site) (off : Nat) (v : W32) : (t.setReg off v).fast = t.fast := rfl
@[simp] theorem Site.setReg_slow (t : Site) (off : Nat) (v : W32) : (t.setReg off v).slow = t.slow := rfl
@[simp] theorem Site.setReg_roots (t : Site) (off : Nat) (v : W32) : (t.setReg off v).roots = t.roots := rfl
@[simp] theorem Site.setReg_failedMeta (t : Site) (off : Nat) (v : W32) :
    (t.setReg off v).failedMeta = t.failedMeta := rfl
@[simp] theorem Site.setReg_moves (t : Site) (off : Nat) (v : W32) : (t.setReg off v).moves = t.moves := rfl
@[simp] theorem Site.setReg_moveQueue (t : Site) (off : Nat) (v : W32) :
    (t.setReg off v).moveQueue = t.moveQueue := rfl
@[simp] theorem Site.setReg_weightAllot (t : Site) (off : Nat) (v : W32) :
    (t.setReg off v).weightAllot = t.weightAllot := rfl
@[simp] theorem Site.setReg_dma (t : Site) (off : Nat) (v : W32) : (t.setReg off v).dma = t.dma := rfl
@[simp] theorem Site.setReg_links (t : Site) (off : Nat) (v : W32) : (t.setReg off v).links = t.links := rfl
@[simp] theorem Site.setReg_net (t : Site) (off : Nat) (v : W32) : (t.setReg off v).net = t.net := rfl
@[simp] theorem Site.setReg_slots (t : Site) (off : Nat) (v : W32) : (t.setReg off v).slots = t.slots := rfl
@[simp] theorem Site.setReg_blockKeys (t : Site) (off : Nat) (v : W32) :
    (t.setReg off v).blockKeys = t.blockKeys := rfl
@[simp] theorem Site.setReg_idKey (t : Site) (off : Nat) (v : W32) : (t.setReg off v).idKey = t.idKey := rfl
@[simp] theorem Site.setReg_ide (t : Site) (off : Nat) (v : W32) : (t.setReg off v).ide = t.ide := rfl
@[simp] theorem Site.setReg_watch (t : Site) (off : Nat) (v : W32) : (t.setReg off v).watch = t.watch := rfl
@[simp] theorem Site.setReg_flash (t : Site) (off : Nat) (v : W32) : (t.setReg off v).flash = t.flash := rfl
@[simp] theorem Site.setReg_atomicOps (t : Site) (off : Nat) (v : W32) :
    (t.setReg off v).atomicOps = t.atomicOps := rfl
@[simp] theorem Site.setFld_id (t : Site) (off : Nat) (x : Nat × Nat) (v : Nat) : (t.setFld off x v).id = t.id := rfl
@[simp] theorem Site.setFld_pins (t : Site) (off : Nat) (x : Nat × Nat) (v : Nat) :
    (t.setFld off x v).pins = t.pins := rfl
@[simp] theorem Site.setFld_out (t : Site) (off : Nat) (x : Nat × Nat) (v : Nat) :
    (t.setFld off x v).out = t.out := rfl
@[simp] theorem Site.setFld_absent (t : Site) (off : Nat) (x : Nat × Nat) (v : Nat) :
    (t.setFld off x v).absent = t.absent := rfl
@[simp] theorem Site.setFld_time (t : Site) (off : Nat) (x : Nat × Nat) (v : Nat) :
    (t.setFld off x v).time = t.time := rfl
@[simp] theorem Site.setFld_latch (t : Site) (off : Nat) (x : Nat × Nat) (v : Nat) :
    (t.setFld off x v).latch = t.latch := rfl
@[simp] theorem Site.setFld_cores (t : Site) (off : Nat) (x : Nat × Nat) (v : Nat) :
    (t.setFld off x v).cores = t.cores := rfl
@[simp] theorem Site.setFld_clusters (t : Site) (off : Nat) (x : Nat × Nat) (v : Nat) :
    (t.setFld off x v).clusters = t.clusters := rfl
@[simp] theorem Site.setFld_fast (t : Site) (off : Nat) (x : Nat × Nat) (v : Nat) :
    (t.setFld off x v).fast = t.fast := rfl
@[simp] theorem Site.setFld_slow (t : Site) (off : Nat) (x : Nat × Nat) (v : Nat) :
    (t.setFld off x v).slow = t.slow := rfl
@[simp] theorem Site.setFld_roots (t : Site) (off : Nat) (x : Nat × Nat) (v : Nat) :
    (t.setFld off x v).roots = t.roots := rfl
@[simp] theorem Site.setFld_failedMeta (t : Site) (off : Nat) (x : Nat × Nat) (v : Nat) :
    (t.setFld off x v).failedMeta = t.failedMeta := rfl
@[simp] theorem Site.setFld_moves (t : Site) (off : Nat) (x : Nat × Nat) (v : Nat) :
    (t.setFld off x v).moves = t.moves := rfl
@[simp] theorem Site.setFld_moveQueue (t : Site) (off : Nat) (x : Nat × Nat) (v : Nat) :
    (t.setFld off x v).moveQueue = t.moveQueue := rfl
@[simp] theorem Site.setFld_weightAllot (t : Site) (off : Nat) (x : Nat × Nat) (v : Nat) :
    (t.setFld off x v).weightAllot = t.weightAllot := rfl
@[simp] theorem Site.setFld_dma (t : Site) (off : Nat) (x : Nat × Nat) (v : Nat) :
    (t.setFld off x v).dma = t.dma := rfl
@[simp] theorem Site.setFld_links (t : Site) (off : Nat) (x : Nat × Nat) (v : Nat) :
    (t.setFld off x v).links = t.links := rfl
@[simp] theorem Site.setFld_net (t : Site) (off : Nat) (x : Nat × Nat) (v : Nat) :
    (t.setFld off x v).net = t.net := rfl
@[simp] theorem Site.setFld_slots (t : Site) (off : Nat) (x : Nat × Nat) (v : Nat) :
    (t.setFld off x v).slots = t.slots := rfl
@[simp] theorem Site.setFld_blockKeys (t : Site) (off : Nat) (x : Nat × Nat) (v : Nat) :
    (t.setFld off x v).blockKeys = t.blockKeys := rfl
@[simp] theorem Site.setFld_idKey (t : Site) (off : Nat) (x : Nat × Nat) (v : Nat) :
    (t.setFld off x v).idKey = t.idKey := rfl
@[simp] theorem Site.setFld_ide (t : Site) (off : Nat) (x : Nat × Nat) (v : Nat) :
    (t.setFld off x v).ide = t.ide := rfl
@[simp] theorem Site.setFld_watch (t : Site) (off : Nat) (x : Nat × Nat) (v : Nat) :
    (t.setFld off x v).watch = t.watch := rfl
@[simp] theorem Site.setFld_flash (t : Site) (off : Nat) (x : Nat × Nat) (v : Nat) :
    (t.setFld off x v).flash = t.flash := rfl
@[simp] theorem Site.setFld_atomicOps (t : Site) (off : Nat) (x : Nat × Nat) (v : Nat) :
    (t.setFld off x v).atomicOps = t.atomicOps := rfl
@[simp] theorem Site.bump_id (t : Site) (off : Nat) (x : Nat × Nat) (n : Nat) : (t.bump off x n).id = t.id := rfl
@[simp] theorem Site.bump_pins (t : Site) (off : Nat) (x : Nat × Nat) (n : Nat) :
    (t.bump off x n).pins = t.pins := rfl
@[simp] theorem Site.bump_out (t : Site) (off : Nat) (x : Nat × Nat) (n : Nat) : (t.bump off x n).out = t.out := rfl
@[simp] theorem Site.bump_absent (t : Site) (off : Nat) (x : Nat × Nat) (n : Nat) :
    (t.bump off x n).absent = t.absent := rfl
@[simp] theorem Site.bump_time (t : Site) (off : Nat) (x : Nat × Nat) (n : Nat) :
    (t.bump off x n).time = t.time := rfl
@[simp] theorem Site.bump_latch (t : Site) (off : Nat) (x : Nat × Nat) (n : Nat) :
    (t.bump off x n).latch = t.latch := rfl
@[simp] theorem Site.bump_cores (t : Site) (off : Nat) (x : Nat × Nat) (n : Nat) :
    (t.bump off x n).cores = t.cores := rfl
@[simp] theorem Site.bump_clusters (t : Site) (off : Nat) (x : Nat × Nat) (n : Nat) :
    (t.bump off x n).clusters = t.clusters := rfl
@[simp] theorem Site.bump_fast (t : Site) (off : Nat) (x : Nat × Nat) (n : Nat) :
    (t.bump off x n).fast = t.fast := rfl
@[simp] theorem Site.bump_slow (t : Site) (off : Nat) (x : Nat × Nat) (n : Nat) :
    (t.bump off x n).slow = t.slow := rfl
@[simp] theorem Site.bump_roots (t : Site) (off : Nat) (x : Nat × Nat) (n : Nat) :
    (t.bump off x n).roots = t.roots := rfl
@[simp] theorem Site.bump_failedMeta (t : Site) (off : Nat) (x : Nat × Nat) (n : Nat) :
    (t.bump off x n).failedMeta = t.failedMeta := rfl
@[simp] theorem Site.bump_moves (t : Site) (off : Nat) (x : Nat × Nat) (n : Nat) :
    (t.bump off x n).moves = t.moves := rfl
@[simp] theorem Site.bump_moveQueue (t : Site) (off : Nat) (x : Nat × Nat) (n : Nat) :
    (t.bump off x n).moveQueue = t.moveQueue := rfl
@[simp] theorem Site.bump_weightAllot (t : Site) (off : Nat) (x : Nat × Nat) (n : Nat) :
    (t.bump off x n).weightAllot = t.weightAllot := rfl
@[simp] theorem Site.bump_dma (t : Site) (off : Nat) (x : Nat × Nat) (n : Nat) : (t.bump off x n).dma = t.dma := rfl
@[simp] theorem Site.bump_links (t : Site) (off : Nat) (x : Nat × Nat) (n : Nat) :
    (t.bump off x n).links = t.links := rfl
@[simp] theorem Site.bump_net (t : Site) (off : Nat) (x : Nat × Nat) (n : Nat) : (t.bump off x n).net = t.net := rfl
@[simp] theorem Site.bump_slots (t : Site) (off : Nat) (x : Nat × Nat) (n : Nat) :
    (t.bump off x n).slots = t.slots := rfl
@[simp] theorem Site.bump_blockKeys (t : Site) (off : Nat) (x : Nat × Nat) (n : Nat) :
    (t.bump off x n).blockKeys = t.blockKeys := rfl
@[simp] theorem Site.bump_idKey (t : Site) (off : Nat) (x : Nat × Nat) (n : Nat) :
    (t.bump off x n).idKey = t.idKey := rfl
@[simp] theorem Site.bump_ide (t : Site) (off : Nat) (x : Nat × Nat) (n : Nat) : (t.bump off x n).ide = t.ide := rfl
@[simp] theorem Site.bump_watch (t : Site) (off : Nat) (x : Nat × Nat) (n : Nat) :
    (t.bump off x n).watch = t.watch := rfl
@[simp] theorem Site.bump_flash (t : Site) (off : Nat) (x : Nat × Nat) (n : Nat) :
    (t.bump off x n).flash = t.flash := rfl
@[simp] theorem Site.bump_atomicOps (t : Site) (off : Nat) (x : Nat × Nat) (n : Nat) :
    (t.bump off x n).atomicOps = t.atomicOps := rfl
@[simp] theorem Site.onCore_id (t : Site) (p : Nat) (f : Core → Core) : (t.onCore p f).id = t.id := rfl
@[simp] theorem Site.onCore_pins (t : Site) (p : Nat) (f : Core → Core) : (t.onCore p f).pins = t.pins := rfl
@[simp] theorem Site.onCore_out (t : Site) (p : Nat) (f : Core → Core) : (t.onCore p f).out = t.out := rfl
@[simp] theorem Site.onCore_absent (t : Site) (p : Nat) (f : Core → Core) : (t.onCore p f).absent = t.absent := rfl
@[simp] theorem Site.onCore_time (t : Site) (p : Nat) (f : Core → Core) : (t.onCore p f).time = t.time := rfl
@[simp] theorem Site.onCore_regs (t : Site) (p : Nat) (f : Core → Core) : (t.onCore p f).regs = t.regs := rfl
@[simp] theorem Site.onCore_latch (t : Site) (p : Nat) (f : Core → Core) : (t.onCore p f).latch = t.latch := rfl
@[simp] theorem Site.onCore_clusters (t : Site) (p : Nat) (f : Core → Core) :
    (t.onCore p f).clusters = t.clusters := rfl
@[simp] theorem Site.onCore_fast (t : Site) (p : Nat) (f : Core → Core) : (t.onCore p f).fast = t.fast := rfl
@[simp] theorem Site.onCore_slow (t : Site) (p : Nat) (f : Core → Core) : (t.onCore p f).slow = t.slow := rfl
@[simp] theorem Site.onCore_roots (t : Site) (p : Nat) (f : Core → Core) : (t.onCore p f).roots = t.roots := rfl
@[simp] theorem Site.onCore_failedMeta (t : Site) (p : Nat) (f : Core → Core) :
    (t.onCore p f).failedMeta = t.failedMeta := rfl
@[simp] theorem Site.onCore_moves (t : Site) (p : Nat) (f : Core → Core) : (t.onCore p f).moves = t.moves := rfl
@[simp] theorem Site.onCore_moveQueue (t : Site) (p : Nat) (f : Core → Core) :
    (t.onCore p f).moveQueue = t.moveQueue := rfl
@[simp] theorem Site.onCore_weightAllot (t : Site) (p : Nat) (f : Core → Core) :
    (t.onCore p f).weightAllot = t.weightAllot := rfl
@[simp] theorem Site.onCore_dma (t : Site) (p : Nat) (f : Core → Core) : (t.onCore p f).dma = t.dma := rfl
@[simp] theorem Site.onCore_links (t : Site) (p : Nat) (f : Core → Core) : (t.onCore p f).links = t.links := rfl
@[simp] theorem Site.onCore_net (t : Site) (p : Nat) (f : Core → Core) : (t.onCore p f).net = t.net := rfl
@[simp] theorem Site.onCore_slots (t : Site) (p : Nat) (f : Core → Core) : (t.onCore p f).slots = t.slots := rfl
@[simp] theorem Site.onCore_blockKeys (t : Site) (p : Nat) (f : Core → Core) :
    (t.onCore p f).blockKeys = t.blockKeys := rfl
@[simp] theorem Site.onCore_idKey (t : Site) (p : Nat) (f : Core → Core) : (t.onCore p f).idKey = t.idKey := rfl
@[simp] theorem Site.onCore_ide (t : Site) (p : Nat) (f : Core → Core) : (t.onCore p f).ide = t.ide := rfl
@[simp] theorem Site.onCore_watch (t : Site) (p : Nat) (f : Core → Core) : (t.onCore p f).watch = t.watch := rfl
@[simp] theorem Site.onCore_flash (t : Site) (p : Nat) (f : Core → Core) : (t.onCore p f).flash = t.flash := rfl
@[simp] theorem Site.onCore_atomicOps (t : Site) (p : Nat) (f : Core → Core) :
    (t.onCore p f).atomicOps = t.atomicOps := rfl
@[simp] theorem Site.onCluster_id (t : Site) (c : Nat) (f : Cluster → Cluster) : (t.onCluster c f).id = t.id := rfl
@[simp] theorem Site.onCluster_pins (t : Site) (c : Nat) (f : Cluster → Cluster) :
    (t.onCluster c f).pins = t.pins := rfl
@[simp] theorem Site.onCluster_out (t : Site) (c : Nat) (f : Cluster → Cluster) : (t.onCluster c f).out = t.out := rfl
@[simp] theorem Site.onCluster_absent (t : Site) (c : Nat) (f : Cluster → Cluster) :
    (t.onCluster c f).absent = t.absent := rfl
@[simp] theorem Site.onCluster_time (t : Site) (c : Nat) (f : Cluster → Cluster) :
    (t.onCluster c f).time = t.time := rfl
@[simp] theorem Site.onCluster_regs (t : Site) (c : Nat) (f : Cluster → Cluster) :
    (t.onCluster c f).regs = t.regs := rfl
@[simp] theorem Site.onCluster_latch (t : Site) (c : Nat) (f : Cluster → Cluster) :
    (t.onCluster c f).latch = t.latch := rfl
@[simp] theorem Site.onCluster_cores (t : Site) (c : Nat) (f : Cluster → Cluster) :
    (t.onCluster c f).cores = t.cores := rfl
@[simp] theorem Site.onCluster_fast (t : Site) (c : Nat) (f : Cluster → Cluster) :
    (t.onCluster c f).fast = t.fast := rfl
@[simp] theorem Site.onCluster_slow (t : Site) (c : Nat) (f : Cluster → Cluster) :
    (t.onCluster c f).slow = t.slow := rfl
@[simp] theorem Site.onCluster_roots (t : Site) (c : Nat) (f : Cluster → Cluster) :
    (t.onCluster c f).roots = t.roots := rfl
@[simp] theorem Site.onCluster_failedMeta (t : Site) (c : Nat) (f : Cluster → Cluster) :
    (t.onCluster c f).failedMeta = t.failedMeta := rfl
@[simp] theorem Site.onCluster_moves (t : Site) (c : Nat) (f : Cluster → Cluster) :
    (t.onCluster c f).moves = t.moves := rfl
@[simp] theorem Site.onCluster_moveQueue (t : Site) (c : Nat) (f : Cluster → Cluster) :
    (t.onCluster c f).moveQueue = t.moveQueue := rfl
@[simp] theorem Site.onCluster_weightAllot (t : Site) (c : Nat) (f : Cluster → Cluster) :
    (t.onCluster c f).weightAllot = t.weightAllot := rfl
@[simp] theorem Site.onCluster_dma (t : Site) (c : Nat) (f : Cluster → Cluster) : (t.onCluster c f).dma = t.dma := rfl
@[simp] theorem Site.onCluster_links (t : Site) (c : Nat) (f : Cluster → Cluster) :
    (t.onCluster c f).links = t.links := rfl
@[simp] theorem Site.onCluster_net (t : Site) (c : Nat) (f : Cluster → Cluster) : (t.onCluster c f).net = t.net := rfl
@[simp] theorem Site.onCluster_slots (t : Site) (c : Nat) (f : Cluster → Cluster) :
    (t.onCluster c f).slots = t.slots := rfl
@[simp] theorem Site.onCluster_blockKeys (t : Site) (c : Nat) (f : Cluster → Cluster) :
    (t.onCluster c f).blockKeys = t.blockKeys := rfl
@[simp] theorem Site.onCluster_idKey (t : Site) (c : Nat) (f : Cluster → Cluster) :
    (t.onCluster c f).idKey = t.idKey := rfl
@[simp] theorem Site.onCluster_ide (t : Site) (c : Nat) (f : Cluster → Cluster) : (t.onCluster c f).ide = t.ide := rfl
@[simp] theorem Site.onCluster_watch (t : Site) (c : Nat) (f : Cluster → Cluster) :
    (t.onCluster c f).watch = t.watch := rfl
@[simp] theorem Site.onCluster_flash (t : Site) (c : Nat) (f : Cluster → Cluster) :
    (t.onCluster c f).flash = t.flash := rfl
@[simp] theorem Site.onCluster_atomicOps (t : Site) (c : Nat) (f : Cluster → Cluster) :
    (t.onCluster c f).atomicOps = t.atomicOps := rfl

/-- A stored register reads back. -/
theorem Site.reg_setReg (t : Site) (off : Nat) (v : W32) : (t.setReg off v).reg off = v := by
  simp [Site.reg, Site.setReg, keep, lookupD]

/-! The fields of a vector engine -/

@[simp] theorem Ve.setVreg_p (v : Ve) (k x : Nat) : (v.setVreg k x).p = v.p := rfl
@[simp] theorem Ve.setVreg_a (v : Ve) (k x : Nat) : (v.setVreg k x).a = v.a := rfl
@[simp] theorem Ve.setVreg_vl (v : Ve) (k x : Nat) : (v.setVreg k x).vl = v.vl := rfl
@[simp] theorem Ve.setVreg_flags (v : Ve) (k x : Nat) : (v.setVreg k x).flags = v.flags := rfl
@[simp] theorem Ve.setVreg_rc (v : Ve) (k x : Nat) : (v.setVreg k x).rc = v.rc := rfl
@[simp] theorem Ve.setVreg_pc (v : Ve) (k x : Nat) : (v.setVreg k x).pc = v.pc := rfl
@[simp] theorem Ve.setVreg_busy (v : Ve) (k x : Nat) : (v.setVreg k x).busy = v.busy := rfl
@[simp] theorem Ve.setVreg_waiting (v : Ve) (k x : Nat) : (v.setVreg k x).waiting = v.waiting := rfl
@[simp] theorem Ve.setVreg_offline (v : Ve) (k x : Nat) : (v.setVreg k x).offline = v.offline := rfl
@[simp] theorem Ve.setVreg_faultCode (v : Ve) (k x : Nat) : (v.setVreg k x).faultCode = v.faultCode := rfl
@[simp] theorem Ve.setVreg_ticket (v : Ve) (k x : Nat) : (v.setVreg k x).ticket = v.ticket := rfl
@[simp] theorem Ve.setVreg_launcher (v : Ve) (k x : Nat) : (v.setVreg k x).launcher = v.launcher := rfl
@[simp] theorem Ve.setVreg_seed (v : Ve) (k x : Nat) : (v.setVreg k x).seed = v.seed := rfl
@[simp] theorem Ve.setVreg_code (v : Ve) (k x : Nat) : (v.setVreg k x).code = v.code := rfl
@[simp] theorem Ve.setVreg_badRegs (v : Ve) (k x : Nat) : (v.setVreg k x).badRegs = v.badRegs := rfl
@[simp] theorem Ve.raise_v (v : Ve) (x : FpFlags) : (v.raise x).v = v.v := rfl
@[simp] theorem Ve.raise_p (v : Ve) (x : FpFlags) : (v.raise x).p = v.p := rfl
@[simp] theorem Ve.raise_a (v : Ve) (x : FpFlags) : (v.raise x).a = v.a := rfl
@[simp] theorem Ve.raise_vl (v : Ve) (x : FpFlags) : (v.raise x).vl = v.vl := rfl
@[simp] theorem Ve.raise_rc (v : Ve) (x : FpFlags) : (v.raise x).rc = v.rc := rfl
@[simp] theorem Ve.raise_pc (v : Ve) (x : FpFlags) : (v.raise x).pc = v.pc := rfl
@[simp] theorem Ve.raise_busy (v : Ve) (x : FpFlags) : (v.raise x).busy = v.busy := rfl
@[simp] theorem Ve.raise_waiting (v : Ve) (x : FpFlags) : (v.raise x).waiting = v.waiting := rfl
@[simp] theorem Ve.raise_offline (v : Ve) (x : FpFlags) : (v.raise x).offline = v.offline := rfl
@[simp] theorem Ve.raise_faultCode (v : Ve) (x : FpFlags) : (v.raise x).faultCode = v.faultCode := rfl
@[simp] theorem Ve.raise_ticket (v : Ve) (x : FpFlags) : (v.raise x).ticket = v.ticket := rfl
@[simp] theorem Ve.raise_launcher (v : Ve) (x : FpFlags) : (v.raise x).launcher = v.launcher := rfl
@[simp] theorem Ve.raise_seed (v : Ve) (x : FpFlags) : (v.raise x).seed = v.seed := rfl
@[simp] theorem Ve.raise_code (v : Ve) (x : FpFlags) : (v.raise x).code = v.code := rfl
@[simp] theorem Ve.raise_badRegs (v : Ve) (x : FpFlags) : (v.raise x).badRegs = v.badRegs := rfl

end Sys2Proof.Machine
end

