-- ==== Sys2Proof/Laws/Step.lean ====
section
/-! SUPPORT. What one command and one step can do: the queue stays, messages are only added, free values are only drawn
onwards, and the invariant is kept. -/

namespace Sys2Proof.Machine

/-- Whatever a command does, it keeps what every command keeps. -/
theorem exec_kept {s t : State} {c : Instr} (e : exec c s = .next t) : Kept s t := by
  cases c with
  | nop => exact execNop_kept (exec_nop.symm.trans e)
  | streamCreate => exact execStreamCreate_kept (exec_streamCreate.symm.trans e)
  | streamDestroy => exact execStreamDestroy_kept (exec_streamDestroy.symm.trans e)
  | streamAbort => exact execStreamAbort_kept (exec_streamAbort.symm.trans e)
  | sliceInfo => exact execSliceInfo_kept (exec_sliceInfo.symm.trans e)
  | noelRingSet => exact execNoelRingSet_kept (exec_noelRingSet.symm.trans e)
  | aspaceCreate => exact execAspaceCreate_kept (exec_aspaceCreate.symm.trans e)
  | aspaceDestroy => exact execAspaceDestroy_kept (exec_aspaceDestroy.symm.trans e)
  | objCreate => exact execObjCreate_kept (exec_objCreate.symm.trans e)
  | objFree => exact execObjFree_kept (exec_objFree.symm.trans e)
  | map => exact execMap_kept (exec_map.symm.trans e)
  | unmap => exact execUnmap_kept (exec_unmap.symm.trans e)
  | faultResolve => exact execFaultResolve_kept (exec_faultResolve.symm.trans e)
  | tensorTile => exact execTensorTile_kept (exec_tensorTile.symm.trans e)
  | attention => exact execAttention_kept (exec_attention.symm.trans e)
  | scalarRun => exact execScalarRun_kept (exec_scalarRun.symm.trans e)
  | select => exact execSelect_kept (exec_select.symm.trans e)
  | gatherScatter => exact execGatherScatter_kept (exec_gatherScatter.symm.trans e)
  | layout => exact execLayout_kept (exec_layout.symm.trans e)
  | codec => exact execCodec_kept (exec_codec.symm.trans e)
  | route => exact execRoute_kept (exec_route.symm.trans e)
  | reduce => exact execReduce_kept (exec_reduce.symm.trans e)
  | reduceArm => exact execReduceArm_kept (exec_reduceArm.symm.trans e)
  | dmaCopy => exact execDmaCopy_kept (exec_dmaCopy.symm.trans e)
  | dmaFill => exact execDmaFill_kept (exec_dmaFill.symm.trans e)
  | fabAtomic => exact execFabAtomic_kept (exec_fabAtomic.symm.trans e)
  | loftAcquire => exact execLoftAcquire_kept (exec_loftAcquire.symm.trans e)
  | loftRelease => exact execLoftRelease_kept (exec_loftRelease.symm.trans e)
  | mcastGroupSet => exact execMcastGroupSet_kept (exec_mcastGroupSet.symm.trans e)
  | mcastWrite => exact execMcastWrite_kept (exec_mcastWrite.symm.trans e)
  | collective => exact execCollective_kept (exec_collective.symm.trans e)
  | feDoorbell => exact execFeDoorbell_kept (exec_feDoorbell.symm.trans e)
  | submissionRead => exact execSubmissionRead_kept (exec_submissionRead.symm.trans e)
  | fetchLost => exact execFetchLost_kept (exec_fetchLost.symm.trans e)
  | descriptorPlace => exact execDescriptorPlace_kept (exec_descriptorPlace.symm.trans e)
  | feNoelDb => exact execFeNoelDb_kept (exec_feNoelDb.symm.trans e)
  | commandReady => exact execCommandReady_kept (exec_commandReady.symm.trans e)
  | commandIssue => exact execCommandIssue_kept (exec_commandIssue.symm.trans e)
  | commandEnd => exact execCommandEnd_kept (exec_commandEnd.symm.trans e)
  | commandTimeout => exact execCommandTimeout_kept (exec_commandTimeout.symm.trans e)
  | fenceSignal => exact execFenceSignal_kept (exec_fenceSignal.symm.trans e)
  | fenceReevaluate => exact execFenceReevaluate_kept (exec_fenceReevaluate.symm.trans e)
  | completionRecordWrite => exact execCompletionRecordWrite_kept (exec_completionRecordWrite.symm.trans e)
  | msixCoalesceExpiry => exact execMsixCoalesceExpiry_kept (exec_msixCoalesceExpiry.symm.trans e)
  | msixUnmask => exact execMsixUnmask_kept (exec_msixUnmask.symm.trans e)
  | streamFreed => exact execStreamFreed_kept (exec_streamFreed.symm.trans e)
  | feCqHead => exact execFeCqHead_kept (exec_feCqHead.symm.trans e)
  | feEqHead => exact execFeEqHead_kept (exec_feEqHead.symm.trans e)
  | feFqHead => exact execFeFqHead_kept (exec_feFqHead.symm.trans e)
  | feNoelCqHead => exact execFeNoelCqHead_kept (exec_feNoelCqHead.symm.trans e)
  | ringEnable => exact execRingEnable_kept (exec_ringEnable.symm.trans e)
  | ringDisable => exact execRingDisable_kept (exec_ringDisable.symm.trans e)
  | feStreamResume => exact execFeStreamResume_kept (exec_feStreamResume.symm.trans e)
  | dvaFault => exact execDvaFault_kept (exec_dvaFault.symm.trans e)
  | faultBatchWrite => exact execFaultBatchWrite_kept (exec_faultBatchWrite.symm.trans e)
  | faultRingFullExpiry => exact execFaultRingFullExpiry_kept (exec_faultRingFullExpiry.symm.trans e)
  | faultEntryExpiry => exact execFaultEntryExpiry_kept (exec_faultEntryExpiry.symm.trans e)
  | invalidationAck => exact execInvalidationAck_kept (exec_invalidationAck.symm.trans e)
  | invalidationDrain => exact execInvalidationDrain_kept (exec_invalidationDrain.symm.trans e)
  | atsInvalidation => exact execAtsInvalidation_kept (exec_atsInvalidation.symm.trans e)
  | pageRequestResponse => exact execPageRequestResponse_kept (exec_pageRequestResponse.symm.trans e)
  | hostCompletion => exact execHostCompletion_kept (exec_hostCompletion.symm.trans e)
  | release => exact execRelease_kept (exec_release.symm.trans e)
  | tileBoundary => exact execTileBoundary_kept (exec_tileBoundary.symm.trans e)
  | quantumExpiry => exact execQuantumExpiry_kept (exec_quantumExpiry.symm.trans e)
  | reelIdleYield => exact execReelIdleYield_kept (exec_reelIdleYield.symm.trans e)
  | switchWindow => exact execSwitchWindow_kept (exec_switchWindow.symm.trans e)
  | zeroingDone => exact execZeroingDone_kept (exec_zeroingDone.symm.trans e)
  | budgetWindowEnd => exact execBudgetWindowEnd_kept (exec_budgetWindowEnd.symm.trans e)
  | memoryRead => exact execMemoryRead_kept (exec_memoryRead.symm.trans e)
  | memoryWrite => exact execMemoryWrite_kept (exec_memoryWrite.symm.trans e)
  | refresh => exact execRefresh_kept (exec_refresh.symm.trans e)
  | phyMasterRequest => exact execPhyMasterRequest_kept (exec_phyMasterRequest.symm.trans e)
  | memoryPortTraining => exact execMemoryPortTraining_kept (exec_memoryPortTraining.symm.trans e)
  | phyReadyTimeout => exact execPhyReadyTimeout_kept (exec_phyReadyTimeout.symm.trans e)
  | sweep => exact execSweep_kept (exec_sweep.symm.trans e)
  | claim => exact execClaim_kept (exec_claim.symm.trans e)
  | copy => exact execCopy_kept (exec_copy.symm.trans e)
  | reCopy => exact execReCopy_kept (exec_reCopy.symm.trans e)
  | switch => exact execSwitch_kept (exec_switch.symm.trans e)
  | tgPatternDone => exact execTgPatternDone_kept (exec_tgPatternDone.symm.trans e)
  | readReq => exact execReadReq_kept (exec_readReq.symm.trans e)
  | readRsp => exact execReadRsp_kept (exec_readRsp.symm.trans e)
  | write => exact execWrite_kept (exec_write.symm.trans e)
  | writeAck => exact execWriteAck_kept (exec_writeAck.symm.trans e)
  | atomic => exact execAtomic_kept (exec_atomic.symm.trans e)
  | atomicRsp => exact execAtomicRsp_kept (exec_atomicRsp.symm.trans e)
  | fenceSig => exact execFenceSig_kept (exec_fenceSig.symm.trans e)
  | fenceAck => exact execFenceAck_kept (exec_fenceAck.symm.trans e)
  | contrib => exact execContrib_kept (exec_contrib.symm.trans e)
  | contribAck => exact execContribAck_kept (exec_contribAck.symm.trans e)
  | control => exact execControl_kept (exec_control.symm.trans e)
  | controlAck => exact execControlAck_kept (exec_controlAck.symm.trans e)
  | linkFrame => exact execLinkFrame_kept (exec_linkFrame.symm.trans e)
  | acknowledgement => exact execAcknowledgement_kept (exec_acknowledgement.symm.trans e)
  | negativeAcknowledgement => exact execNegativeAcknowledgement_kept (exec_negativeAcknowledgement.symm.trans e)
  | creditReturn => exact execCreditReturn_kept (exec_creditReturn.symm.trans e)
  | detect => exact execDetect_kept (exec_detect.symm.trans e)
  | linkMap => exact execLinkMap_kept (exec_linkMap.symm.trans e)
  | equalise => exact execEqualise_kept (exec_equalise.symm.trans e)
  | align => exact execAlign_kept (exec_align.symm.trans e)
  | credit => exact execCredit_kept (exec_credit.symm.trans e)
  | laneLoss => exact execLaneLoss_kept (exec_laneLoss.symm.trans e)
  | linkRetry => exact execLinkRetry_kept (exec_linkRetry.symm.trans e)
  | transportTimeout => exact execTransportTimeout_kept (exec_transportTimeout.symm.trans e)
  | forwardTimeout => exact execForwardTimeout_kept (exec_forwardTimeout.symm.trans e)
  | holdTimeExpiry => exact execHoldTimeExpiry_kept (exec_holdTimeExpiry.symm.trans e)
  | fabRt => exact execFabRt_kept (exec_fabRt.symm.trans e)
  | fabQuiesceReq => exact execFabQuiesceReq_kept (exec_fabQuiesceReq.symm.trans e)
  | fabQuiesceDone => exact execFabQuiesceDone_kept (exec_fabQuiesceDone.symm.trans e)
  | dmaQuiesceReq => exact execDmaQuiesceReq_kept (exec_dmaQuiesceReq.symm.trans e)
  | quiesceClear => exact execQuiesceClear_kept (exec_quiesceClear.symm.trans e)
  | d2dTraining => exact execD2dTraining_kept (exec_d2dTraining.symm.trans e)
  | d2dPortDown => exact execD2dPortDown_kept (exec_d2dPortDown.symm.trans e)
  | keyCreate => exact execKeyCreate_kept (exec_keyCreate.symm.trans e)
  | keyInstall => exact execKeyInstall_kept (exec_keyInstall.symm.trans e)
  | keyWrap => exact execKeyWrap_kept (exec_keyWrap.symm.trans e)
  | keyDrain => exact execKeyDrain_kept (exec_keyDrain.symm.trans e)
  | keyDestroy => exact execKeyDestroy_kept (exec_keyDestroy.symm.trans e)
  | removalStep => exact execRemovalStep_kept (exec_removalStep.symm.trans e)
  | getMeasurements => exact execGetMeasurements_kept (exec_getMeasurements.symm.trans e)
  | sliceReport => exact execSliceReport_kept (exec_sliceReport.symm.trans e)
  | spdmRequest => exact execSpdmRequest_kept (exec_spdmRequest.symm.trans e)
  | ideKm => exact execIdeKm_kept (exec_ideKm.symm.trans e)
  | ideStreamLoss => exact execIdeStreamLoss_kept (exec_ideStreamLoss.symm.trans e)
  | getTdispVersion => exact execGetTdispVersion_kept (exec_getTdispVersion.symm.trans e)
  | getTdispCapabilities => exact execGetTdispCapabilities_kept (exec_getTdispCapabilities.symm.trans e)
  | lockInterfaceRequest => exact execLockInterfaceRequest_kept (exec_lockInterfaceRequest.symm.trans e)
  | getDeviceInterfaceReport => exact execGetDeviceInterfaceReport_kept (exec_getDeviceInterfaceReport.symm.trans e)
  | getDeviceInterfaceState => exact execGetDeviceInterfaceState_kept (exec_getDeviceInterfaceState.symm.trans e)
  | startInterfaceRequest => exact execStartInterfaceRequest_kept (exec_startInterfaceRequest.symm.trans e)
  | stopInterfaceRequest => exact execStopInterfaceRequest_kept (exec_stopInterfaceRequest.symm.trans e)
  | configurationRequest => exact execConfigurationRequest_kept (exec_configurationRequest.symm.trans e)
  | functionLevelReset => exact execFunctionLevelReset_kept (exec_functionLevelReset.symm.trans e)
  | hipPerstN => exact execHipPerstN_kept (exec_hipPerstN.symm.trans e)
  | reqTail => exact execReqTail_kept (exec_reqTail.symm.trans e)
  | requestTake => exact execRequestTake_kept (exec_requestTake.symm.trans e)
  | managementRingEnable => exact execManagementRingEnable_kept (exec_managementRingEnable.symm.trans e)
  | managementRingDisable => exact execManagementRingDisable_kept (exec_managementRingDisable.symm.trans e)
  | rplHead => exact execRplHead_kept (exec_rplHead.symm.trans e)
  | fltHead => exact execFltHead_kept (exec_fltHead.symm.trans e)
  | faultRecordWrite => exact execFaultRecordWrite_kept (exec_faultRecordWrite.symm.trans e)
  | lossSummary => exact execLossSummary_kept (exec_lossSummary.symm.trans e)
  | sliceCreate => exact execSliceCreate_kept (exec_sliceCreate.symm.trans e)
  | sliceDestroy => exact execSliceDestroy_kept (exec_sliceDestroy.symm.trans e)
  | unitBind => exact execUnitBind_kept (exec_unitBind.symm.trans e)
  | unitUnbind => exact execUnitUnbind_kept (exec_unitUnbind.symm.trans e)
  | unitMove => exact execUnitMove_kept (exec_unitMove.symm.trans e)
  | allotSet => exact execAllotSet_kept (exec_allotSet.symm.trans e)
  | schedSet => exact execSchedSet_kept (exec_schedSet.symm.trans e)
  | coreMode => exact execCoreMode_kept (exec_coreMode.symm.trans e)
  | labelSet => exact execLabelSet_kept (exec_labelSet.symm.trans e)
  | shareSet => exact execShareSet_kept (exec_shareSet.symm.trans e)
  | guardSet => exact execGuardSet_kept (exec_guardSet.symm.trans e)
  | mcastRange => exact execMcastRange_kept (exec_mcastRange.symm.trans e)
  | loftBudget => exact execLoftBudget_kept (exec_loftBudget.symm.trans e)
  | lendSet => exact execLendSet_kept (exec_lendSet.symm.trans e)
  | coreState => exact execCoreState_kept (exec_coreState.symm.trans e)
  | memportState => exact execMemportState_kept (exec_memportState.symm.trans e)
  | linkState => exact execLinkState_kept (exec_linkState.symm.trans e)
  | reset => exact execReset_kept (exec_reset.symm.trans e)
  | escalateSet => exact execEscalateSet_kept (exec_escalateSet.symm.trans e)
  | healthGet => exact execHealthGet_kept (exec_healthGet.symm.trans e)
  | fwStage => exact execFwStage_kept (exec_fwStage.symm.trans e)
  | fwActivate => exact execFwActivate_kept (exec_fwActivate.symm.trans e)
  | fwCommit => exact execFwCommit_kept (exec_fwCommit.symm.trans e)
  | fwDiscard => exact execFwDiscard_kept (exec_fwDiscard.symm.trans e)
  | fwInfo => exact execFwInfo_kept (exec_fwInfo.symm.trans e)
  | attState => exact execAttState_kept (exec_attState.symm.trans e)
  | attMeasure => exact execAttMeasure_kept (exec_attMeasure.symm.trans e)
  | attReport => exact execAttReport_kept (exec_attReport.symm.trans e)
  | policySet => exact execPolicySet_kept (exec_policySet.symm.trans e)
  | pageRetire => exact execPageRetire_kept (exec_pageRetire.symm.trans e)
  | chEvacuate => exact execChEvacuate_kept (exec_chEvacuate.symm.trans e)
  | chReturn => exact execChReturn_kept (exec_chReturn.symm.trans e)
  | weightAllot => exact execWeightAllot_kept (exec_weightAllot.symm.trans e)
  | weightLoad => exact execWeightLoad_kept (exec_weightLoad.symm.trans e)
  | weightCopy => exact execWeightCopy_kept (exec_weightCopy.symm.trans e)
  | weightGrant => exact execWeightGrant_kept (exec_weightGrant.symm.trans e)
  | weightRevoke => exact execWeightRevoke_kept (exec_weightRevoke.symm.trans e)
  | weightFree => exact execWeightFree_kept (exec_weightFree.symm.trans e)
  | linkEnable => exact execLinkEnable_kept (exec_linkEnable.symm.trans e)
  | portgroupReset => exact execPortgroupReset_kept (exec_portgroupReset.symm.trans e)
  | chTest => exact execChTest_kept (exec_chTest.symm.trans e)
  | logLevel => exact execLogLevel_kept (exec_logLevel.symm.trans e)
  | migrateFreeze => exact execMigrateFreeze_kept (exec_migrateFreeze.symm.trans e)
  | migratePeer => exact execMigratePeer_kept (exec_migratePeer.symm.trans e)
  | migrateSave => exact execMigrateSave_kept (exec_migrateSave.symm.trans e)
  | migrateRestore => exact execMigrateRestore_kept (exec_migrateRestore.symm.trans e)
  | migrateCommit => exact execMigrateCommit_kept (exec_migrateCommit.symm.trans e)
  | migrateCancel => exact execMigrateCancel_kept (exec_migrateCancel.symm.trans e)
  | migrateThaw => exact execMigrateThaw_kept (exec_migrateThaw.symm.trans e)
  | spareIn => exact execSpareIn_kept (exec_spareIn.symm.trans e)
  | healthCheck => exact execHealthCheck_kept (exec_healthCheck.symm.trans e)
  | spareGet => exact execSpareGet_kept (exec_spareGet.symm.trans e)
  | mbxLock => exact execMbxLock_kept (exec_mbxLock.symm.trans e)
  | mbxData => exact execMbxData_kept (exec_mbxData.symm.trans e)
  | mbxDoorbell => exact execMbxDoorbell_kept (exec_mbxDoorbell.symm.trans e)
  | mbxFree => exact execMbxFree_kept (exec_mbxFree.symm.trans e)
  | sourceEdge => exact execSourceEdge_kept (exec_sourceEdge.symm.trans e)
  | irqCoalesceExpiry => exact execIrqCoalesceExpiry_kept (exec_irqCoalesceExpiry.symm.trans e)
  | irqClaim => exact execIrqClaim_kept (exec_irqClaim.symm.trans e)
  | irqIpi => exact execIrqIpi_kept (exec_irqIpi.symm.trans e)
  | domainReset => exact execDomainReset_kept (exec_domainReset.symm.trans e)
  | resetRelease => exact execResetRelease_kept (exec_resetRelease.symm.trans e)
  | domainUp => exact execDomainUp_kept (exec_domainUp.symm.trans e)
  | spareBringIn => exact execSpareBringIn_kept (exec_spareBringIn.symm.trans e)
  | hang => exact execHang_kept (exec_hang.symm.trans e)
  | sequencerReportMiss => exact execSequencerReportMiss_kept (exec_sequencerReportMiss.symm.trans e)
  | heartbeatMiss => exact execHeartbeatMiss_kept (exec_heartbeatMiss.symm.trans e)
  | watchdogExpiry => exact execWatchdogExpiry_kept (exec_watchdogExpiry.symm.trans e)
  | siblingHeartbeatMiss => exact execSiblingHeartbeatMiss_kept (exec_siblingHeartbeatMiss.symm.trans e)
  | drainFailure => exact execDrainFailure_kept (exec_drainFailure.symm.trans e)
  | coldRstNRelease => exact execColdRstNRelease_kept (exec_coldRstNRelease.symm.trans e)
  | coldRstNAssert => exact execColdRstNAssert_kept (exec_coldRstNAssert.symm.trans e)
  | membershipSettle => exact execMembershipSettle_kept (exec_membershipSettle.symm.trans e)
  | resetReq => exact execResetReq_kept (exec_resetReq.symm.trans e)
  | faultIn => exact execFaultIn_kept (exec_faultIn.symm.trans e)
  | thermAlert => exact execThermAlert_kept (exec_thermAlert.symm.trans e)
  | hspCattrip => exact execHspCattrip_kept (exec_hspCattrip.symm.trans e)
  | temperatureSample => exact execTemperatureSample_kept (exec_temperatureSample.symm.trans e)
  | lossOfLock => exact execLossOfLock_kept (exec_lossOfLock.symm.trans e)
  | relock => exact execRelock_kept (exec_relock.symm.trans e)
  | powerTransition => exact execPowerTransition_kept (exec_powerTransition.symm.trans e)
  | pswAck => exact execPswAck_kept (exec_pswAck.symm.trans e)
  | pswAckTimeout => exact execPswAckTimeout_kept (exec_pswAckTimeout.symm.trans e)
  | debugUnlock => exact execDebugUnlock_kept (exec_debugUnlock.symm.trans e)
  | jtagInstruction => exact execJtagInstruction_kept (exec_jtagInstruction.symm.trans e)
  | tapReset => exact execTapReset_kept (exec_tapReset.symm.trans e)
  | entdaa => exact execEntdaa_kept (exec_entdaa.symm.trans e)
  | setdasa => exact execSetdasa_kept (exec_setdasa.symm.trans e)
  | targetReset => exact execTargetReset_kept (exec_targetReset.symm.trans e)
  | go => exact execGo_kept (exec_go.symm.trans e)
  | stop => exact execStop_kept (exec_stop.symm.trans e)
  | snap => exact execSnap_kept (exec_snap.symm.trans e)
  | snapClear => exact execSnapClear_kept (exec_snapClear.symm.trans e)
  | lowWordRead => exact execLowWordRead_kept (exec_lowWordRead.symm.trans e)
  | highWordRead => exact execHighWordRead_kept (exec_highWordRead.symm.trans e)
  | rcRead => exact execRcRead_kept (exec_rcRead.symm.trans e)
  | registerWrite => exact execRegisterWrite_kept (exec_registerWrite.symm.trans e)
  | chainRow => exact execChainRow_kept (exec_chainRow.symm.trans e)
  | ticketEnd => exact execTicketEnd_kept (exec_ticketEnd.symm.trans e)
  | moveEnd => exact execMoveEnd_kept (exec_moveEnd.symm.trans e)
  | evwaitExpiry => exact execEvwaitExpiry_kept (exec_evwaitExpiry.symm.trans e)
  | scalarInstruction => exact execScalarInstruction_kept (exec_scalarInstruction.symm.trans e)
  | wfi => exact execWfi_kept (exec_wfi.symm.trans e)
  | vlaunch => exact execVlaunch_kept (exec_vlaunch.symm.trans e)
  | vwait => exact execVwait_kept (exec_vwait.symm.trans e)
  | vpoll => exact execVpoll_kept (exec_vpoll.symm.trans e)
  | cmcopy => exact execCmcopy_kept (exec_cmcopy.symm.trans e)
  | mwait => exact execMwait_kept (exec_mwait.symm.trans e)
  | evwait => exact execEvwait_kept (exec_evwait.symm.trans e)
  | evset => exact execEvset_kept (exec_evset.symm.trans e)
  | sehalt => exact execSehalt_kept (exec_sehalt.symm.trans e)
  | charm => exact execCharm_kept (exec_charm.symm.trans e)
  | vabort => exact execVabort_kept (exec_vabort.symm.trans e)
  | vadd => exact execVadd_kept (exec_vadd.symm.trans e)
  | vsub => exact execVsub_kept (exec_vsub.symm.trans e)
  | vmul => exact execVmul_kept (exec_vmul.symm.trans e)
  | vfma => exact execVfma_kept (exec_vfma.symm.trans e)
  | vfms => exact execVfms_kept (exec_vfms.symm.trans e)
  | vmax => exact execVmax_kept (exec_vmax.symm.trans e)
  | vmin => exact execVmin_kept (exec_vmin.symm.trans e)
  | vabs => exact execVabs_kept (exec_vabs.symm.trans e)
  | vneg => exact execVneg_kept (exec_vneg.symm.trans e)
  | vand => exact execVand_kept (exec_vand.symm.trans e)
  | vor => exact execVor_kept (exec_vor.symm.trans e)
  | vxor => exact execVxor_kept (exec_vxor.symm.trans e)
  | vshl => exact execVshl_kept (exec_vshl.symm.trans e)
  | vsra => exact execVsra_kept (exec_vsra.symm.trans e)
  | vsrl => exact execVsrl_kept (exec_vsrl.symm.trans e)
  | vsel => exact execVsel_kept (exec_vsel.symm.trans e)
  | vmov => exact execVmov_kept (exec_vmov.symm.trans e)
  | vperm => exact execVperm_kept (exec_vperm.symm.trans e)
  | vcmpeq => exact execVcmpeq_kept (exec_vcmpeq.symm.trans e)
  | vcmpne => exact execVcmpne_kept (exec_vcmpne.symm.trans e)
  | vcmplt => exact execVcmplt_kept (exec_vcmplt.symm.trans e)
  | vcmple => exact execVcmple_kept (exec_vcmple.symm.trans e)
  | vcmpuo => exact execVcmpuo_kept (exec_vcmpuo.symm.trans e)
  | vrsum => exact execVrsum_kept (exec_vrsum.symm.trans e)
  | vrmax => exact execVrmax_kept (exec_vrmax.symm.trans e)
  | vrmin => exact execVrmin_kept (exec_vrmin.symm.trans e)
  | vadds => exact execVadds_kept (exec_vadds.symm.trans e)
  | vsubs => exact execVsubs_kept (exec_vsubs.symm.trans e)
  | vrsubs => exact execVrsubs_kept (exec_vrsubs.symm.trans e)
  | vmuls => exact execVmuls_kept (exec_vmuls.symm.trans e)
  | vfmas => exact execVfmas_kept (exec_vfmas.symm.trans e)
  | vmaxs => exact execVmaxs_kept (exec_vmaxs.symm.trans e)
  | vmins => exact execVmins_kept (exec_vmins.symm.trans e)
  | vands => exact execVands_kept (exec_vands.symm.trans e)
  | vors => exact execVors_kept (exec_vors.symm.trans e)
  | vxors => exact execVxors_kept (exec_vxors.symm.trans e)
  | vshls => exact execVshls_kept (exec_vshls.symm.trans e)
  | vsras => exact execVsras_kept (exec_vsras.symm.trans e)
  | vsrls => exact execVsrls_kept (exec_vsrls.symm.trans e)
  | vsplat => exact execVsplat_kept (exec_vsplat.symm.trans e)
  | viota => exact execViota_kept (exec_viota.symm.trans e)
  | vexta => exact execVexta_kept (exec_vexta.symm.trans e)
  | vcmpeqs => exact execVcmpeqs_kept (exec_vcmpeqs.symm.trans e)
  | vcmpnes => exact execVcmpnes_kept (exec_vcmpnes.symm.trans e)
  | vcmplts => exact execVcmplts_kept (exec_vcmplts.symm.trans e)
  | vcmples => exact execVcmples_kept (exec_vcmples.symm.trans e)
  | vcmpgts => exact execVcmpgts_kept (exec_vcmpgts.symm.trans e)
  | vcmpges => exact execVcmpges_kept (exec_vcmpges.symm.trans e)
  | vld => exact execVld_kept (exec_vld.symm.trans e)
  | vst => exact execVst_kept (exec_vst.symm.trans e)
  | pld => exact execPld_kept (exec_pld.symm.trans e)
  | pst => exact execPst_kept (exec_pst.symm.trans e)
  | chpop => exact execChpop_kept (exec_chpop.symm.trans e)
  | vcvt => exact execVcvt_kept (exec_vcvt.symm.trans e)
  | vexp => exact execVexp_kept (exec_vexp.symm.trans e)
  | vlog => exact execVlog_kept (exec_vlog.symm.trans e)
  | vrsqrt => exact execVrsqrt_kept (exec_vrsqrt.symm.trans e)
  | vrcp => exact execVrcp_kept (exec_vrcp.symm.trans e)
  | vtanh => exact execVtanh_kept (exec_vtanh.symm.trans e)
  | verf => exact execVerf_kept (exec_verf.symm.trans e)
  | vcNop => exact execVcNop_kept (exec_vcNop.symm.trans e)
  | halt => exact execHalt_kept (exec_halt.symm.trans e)
  | br => exact execBr_kept (exec_br.symm.trans e)
  | bz => exact execBz_kept (exec_bz.symm.trans e)
  | bnz => exact execBnz_kept (exec_bnz.symm.trans e)
  | loop => exact execLoop_kept (exec_loop.symm.trans e)
  | pany => exact execPany_kept (exec_pany.symm.trans e)
  | pnone => exact execPnone_kept (exec_pnone.symm.trans e)
  | ali => exact execAli_kept (exec_ali.symm.trans e)
  | alui => exact execAlui_kept (exec_alui.symm.trans e)
  | aaddi => exact execAaddi_kept (exec_aaddi.symm.trans e)
  | aadd => exact execAadd_kept (exec_aadd.symm.trans e)
  | asub => exact execAsub_kept (exec_asub.symm.trans e)
  | amul => exact execAmul_kept (exec_amul.symm.trans e)
  | ashli => exact execAshli_kept (exec_ashli.symm.trans e)
  | ashri => exact execAshri_kept (exec_ashri.symm.trans e)
  | pand => exact execPand_kept (exec_pand.symm.trans e)
  | por => exact execPor_kept (exec_por.symm.trans e)
  | pxor => exact execPxor_kept (exec_pxor.symm.trans e)
  | pnot => exact execPnot_kept (exec_pnot.symm.trans e)
  | setvl => exact execSetvl_kept (exec_setvl.symm.trans e)
  | flgrd => exact execFlgrd_kept (exec_flgrd.symm.trans e)
  | srseed => exact execSrseed_kept (exec_srseed.symm.trans e)
  | fence => exact execFence_kept (exec_fence.symm.trans e)
  | evsig => exact execEvsig_kept (exec_evsig.symm.trans e)
  | hotReset => exact execHotReset_kept (exec_hotReset.symm.trans e)
  | hostCompletionTimeout => exact execHostCompletionTimeout_kept (exec_hostCompletionTimeout.symm.trans e)
  | workUnitBoundary => exact execWorkUnitBoundary_kept (exec_workUnitBoundary.symm.trans e)
  | moduleLeavesPort => exact execModuleLeavesPort_kept (exec_moduleLeavesPort.symm.trans e)
  | releaseWaitExpiry => exact execReleaseWaitExpiry_kept (exec_releaseWaitExpiry.symm.trans e)

end Sys2Proof.Machine
end

