-- ==== Sys2Proof/Tests/Slice0.lean ====
section
/-! SUPPORT. The model's own tests: an ill-formed command for each check of WellFormed, the worked examples of the spec,
and for each obligation concrete states and operands that meet its hypotheses, clause by clause. Each is one command on a
small state. -/

namespace Sys2Proof.Tests

open Sys2Proof Sys2Proof.Machine

set_option maxRecDepth 20000
set_option Elab.async false

/-- An option that holds something with a property. -/
theorem exOf {α : Type} {o : Option α} {p : α → Prop} [DecidablePred p] (h : o.any (fun x => decide (p x)) = true) :
    ∃ x, o = some x ∧ p x := by
  cases o with
  | none => simp at h
  | some x => exact ⟨x, rfl, of_decide_eq_true h⟩

/-! WellFormed refuses -/

/-- The vector word with this CLASS and OP, DT `dt` and every other bit zero (R95). -/
def vw (k : Nat × Nat) (dt : Nat := 0) : W64 := BitVec.ofNat 64 (k.1 * 2 ^ 61 + k.2 * 2 ^ 54 + dt * 2 ^ 51)
/-- The Xhsk word with this funct7, funct3, rs2, rs1 and rd (R116). -/
def xw (f7 f3 rs2 rs1 rd : Nat) : W32 :=
  BitVec.ofNat 32 (f7 * 2 ^ 25 + rs2 * 2 ^ 20 + rs1 * 2 ^ 15 + f3 * 2 ^ 12 + rd * 2 ^ 7 + 0x0B)
def ve : VeRef := ⟨0, 0, 0⟩
def se : SeRef := ⟨0, 0, 0⟩
/-- A command of stream 0 and one of stream 1 of virtual device 0. -/
def c0 : CmdRef := ⟨0, 0, 1⟩
def c1 : CmdRef := ⟨0, 1, 1⟩
def pkt0 : Pkt := ⟨0, 0, [], true⟩
def noMeasure : WindowMeasure := ⟨0, 0, 0, 0⟩
def noTrain : TrainReport := ⟨true, 16, [], []⟩
def noTg : TgReport := ⟨0, 0, 0, 0⟩
def noGrant : CreditGrant := ⟨0, 0, 0, 0, 0⟩
def noReq : MemReq := ⟨0, 4, 0, 0, true, 0, 0, false, 20, 0, none⟩
def noPeer : PeerReport := ⟨0, true, true, 0, true, false⟩
def noMgmt : MgmtRun := ⟨0, [], false, true, 5, true, noPeer, []⟩
def noD2d : D2dReport := ⟨1, false, 0xF, false, false⟩

theorem test_wf_refuses_references :
    ([.nop ⟨256, 0, 1⟩, .tensorTile ⟨0, 256, 1⟩, .feDoorbell 256 0, .sliceReport 256 [], .vadd ⟨8, 0, 0⟩ (vw (0, 0)),
      .vadd ⟨0, 6, 0⟩ (vw (0, 0)), .vadd ⟨0, 0, 13⟩ (vw (0, 0)), .vlaunch ⟨8, 0, 0⟩ (xw 0 0 0 0 0),
      .sehalt ⟨0, 0, 8⟩ (xw 0 7 0 0 0), .rcRead ⟨1, .pf, 2⟩, .rcRead ⟨1, .pf, 0x10000000⟩, .rcRead ⟨1, .vf0 0, 0x10000⟩,
      .rcRead ⟨1, .vf2 0, 0x40000⟩, .registerWrite ⟨1, .vf2 256, 0⟩ 0,
      .readReq 0 { pkt0 with payload := List.replicate 4097 0 }, .dvaFault c1 (2 ^ 57) 1 0] : List Instr).all
      (fun c => !c.wf) = true := by decide +kernel

theorem test_wf_refuses_numbers :
    ([.refresh 8 0, .refresh 0 80, .tileBoundary 0 6 0, .tileBoundary 0 0 4, .submissionRead 0 64 [], .msixUnmask 0 32,
      .streamFreed 0 256, .budgetWindowEnd 0 0 0 12 noMeasure, .memoryPortTraining 0 6 noTrain, .claim 0 4,
      .acknowledgement 0 8 0, .laneLoss 0 0 5, .fabRt 0 16384 0, .keyDrain 0 1024, .d2dPortDown 0 4, .ideStreamLoss 0 16,
      .ideKm 0 0 2 true, .functionLevelReset 0 257, .mbxLock 0 1 16, .mbxData 0 1 0 16 0, .sourceEdge 0 4 0,
      .sourceEdge 0 0 0xFFF, .domainReset 0 21 0, .domainReset 0 0 16, .sequencerReportMiss 0 2, .hspCattrip 0 2,
      .temperatureSample 0 8 0, .relock 0 10, .pswAck 0 14 true, .chainRow 0 0 4, .moduleLeavesPort 0 0 4, .memoryRead 8 noReq .clean,
      .tgPatternDone 0 80 noTg, .creditReturn 0 8 noGrant, .keyWrap 0 1024 noPeer, .d2dTraining 0 4 noD2d] :
      List Instr).all (fun c => !c.wf) = true := by decide +kernel

theorem test_wf_refuses_other_words :
    ([.vadd ve (vw (0, 1)), .vadds ve (vw (0, 0)), .evsig ve (vw (4, 0x1C)), .vlaunch se (xw 0 1 0 0 0),
      .vabort se (xw 0 7 0 0 0), .charm se (xw 1 0 0 0 0), .mwait se 0x13, .wfi se 0x13, .scalarInstruction se 0x10500073] :
      List Instr).all (fun c => !c.wf) = true := by decide +kernel

theorem test_wf_accepts :
    ([.nop c0, .vadd ve (vw (0, 0)), .evsig ve (vw (4, 0x1D)), .vabort se (xw 2 7 0 5 0), .wfi se 0x10500073,
      .scalarInstruction se 0x13, .refresh 7 79, .fabRt 0 16383 0, .rcRead ⟨1, .pf, 0xFFFFFFC⟩, .sliceCreate noMgmt] :
      List Instr).all (fun c => c.wf) = true := by decide +kernel

/-! A working instance -/

/-- Instance 0 out of cold reset with its host port out of PCIe reset and linked, and core 0 on with its engine map
written. -/
def site0 : Site :=
  ((({ pins := { coldRstN := true, perstN := true } } : Site).setFld (rVeMapHi 0) Fld.veMapHiValid 1).setFld (rPwrCore 0)
    Fld.pwrCoreState 0).setFld rHifLink Fld.hifLinkState 3

/-- A settled part of that one instance, which leads. -/
def base : State :=
  { State.reset with
    sites := State.reset.sites.set 0 site0
    part := { lead := some 0, settledOnce := true, members := [0] } }

theorem test_base : (base.site 0).up = true ∧ (base.site 0).managed = true ∧ (base.site 0).coreRuns 0 = true ∧
    base.answers = true := by decide +kernel

theorem inv_of (s : State) (h : s.sites.length = 8 ∧ s.vds.length = 256 ∧ (s.sites.all fun t =>
    decide (t.cores.length = 6 ∧ t.clusters.length = 2) && (t.cores.all fun c => c.cmem.wf && c.acc.wf &&
      c.units.all fun u => u.images.all fun x => x.cmem.wf && x.acc.wf) && (t.clusters.all fun c => c.clm.wf) &&
    t.fast.data.wf && t.slow.data.wf) = true) : s.Inv := by
  refine ⟨h.1, h.2.1, fun t ht => ?_⟩
  have := List.all_eq_true.mp h.2.2 t ht
  simp only [Bool.and_eq_true, decide_eq_true_eq, List.all_eq_true] at this
  obtain ⟨⟨⟨⟨h1, h2⟩, h3⟩, h4⟩, h5⟩ := this
  exact ⟨h1.1, h1.2, fun c hc => ⟨(h2 c hc).1.1, (h2 c hc).1.2, fun u hu x hx => (h2 c hc).2 u hu x hx⟩, h3, h4, h5⟩

/-! The machine as a whole -/

theorem witness_EmptyQueueIdles : State.reset.pending = [] ∧ base.pending = [] := ⟨rfl, rfl⟩

theorem witness_StepKeepsInvariant : base.Inv ∧ step { base with pending := [.refresh 0 0] } = .next base :=
  ⟨inv_of _ (by decide +kernel), rfl⟩

theorem witness_CommandsOnlyAdd : exec (.refresh 0 0) base = .next base := rfl

/-! Vector engines -/

/-- Vector engine 0 of core 0 runs a program whose next word is `w`, at 64; its element count is 4. -/
def vecState (w : W64) : State :=
  (base.onVe 0 0 0 fun v => { v with busy := true, pc := 64, vl := 4 }).onCore 0 0 fun c => c.writeCm none 64 (leBytes 8 w.toNat)

/-- The word of an opcode, at a data type it admits. -/
def vwOf (k : Nat × Nat) (d : DtSet) : W64 := vw k (if d.has 0 then 0 else 5)

/-- Every vector opcode is ready to run on such a state: the hypotheses of VectorElementwise, VectorControl and, with
those shown below, VectorMemory. -/
theorem witness_VectorElementwise : ∀ x ∈ vecOps, ∃ c, VecReady x.1 ve (vwOf x.1 x.2) (vecState (vwOf x.1 x.2)) c := by
  have h : (vecOps.all fun x => (vecAt ve (vecState (vwOf x.1 x.2))).any fun c => decide (
      c.ve.pc < bindingSize c.q ∧ c.core.poisonedAt c.q c.ve.pc 8 = false ∧
        fetchable c.core c.ve.code c.q c.ve.pc 8 (vwOf x.1 x.2).toNat = true ∧ vecLegal (vwOf x.1 x.2) = true ∧
        vecKey (vwOf x.1 x.2) = x.1 ∧ (vecReads (vwOf x.1 x.2)).any c.ve.badRegs.contains = false)) = true := by
    decide +kernel
  exact fun x hx => exOf (List.all_eq_true.mp h x hx)

theorem witness_VectorElementwise_convert : ((vecAt ve (vecState (vw (3, 0)))).any fun c => decide
    ((c.ve.cvtSources (vw (3, 0))).any c.ve.badRegs.contains = false)) = true := by
  decide +kernel

theorem witness_VectorControl (x : (Nat × Nat) × DtSet) (h : x ∈ vecOps) :
    ∃ c, VecReady x.1 ve (vwOf x.1 x.2) (vecState (vwOf x.1 x.2)) c := witness_VectorElementwise x h

/-- `exOf` for the engines' readiness. -/
theorem exVec {k : Nat × Nat} {e : VeRef} {w : W64} {s : State} {p : VCtx → Prop} [DecidablePred p]
    (h : (vecAt e s).any (fun c => decide ((c.ve.pc < bindingSize c.q ∧ c.core.poisonedAt c.q c.ve.pc 8 = false ∧
      fetchable c.core c.ve.code c.q c.ve.pc 8 w.toNat = true ∧ vecLegal w = true ∧ vecKey w = k ∧
      (vecReads w).any c.ve.badRegs.contains = false) ∧ p c)) = true) : ∃ c, VecReady k e w s c ∧ p c := by
  obtain ⟨c, hc, h, hp⟩ := exOf h
  exact ⟨c, ⟨hc, h⟩, hp⟩

theorem exSe {n w : Nat} {e : SeRef} {s : State} {p : SCtx → Prop} [DecidablePred p]
    (h : (seAt e s).any (fun c => decide ((c.region c.se.pc.toNat n ≠ .none ∧ c.fetches n w = true ∧
      (c.region c.se.pc.toNat n = .core → c.core.poisonedAt c.q c.se.pc.toNat n = false)) ∧ p c)) = true) :
    ∃ c, SeReady n w e s c ∧ p c := by
  obtain ⟨c, hc, h, hp⟩ := exOf h
  exact ⟨c, ⟨hc, h⟩, hp⟩

theorem exX {f7 f3 : Nat} {e : SeRef} {w : W32} {s : State} {p : SCtx → Prop} [DecidablePred p]
    (h : (seAt e s).any (fun c => decide ((c.region c.se.pc.toNat 4 ≠ .none ∧ c.fetches 4 w.toNat = true ∧
      (c.region c.se.pc.toNat 4 = .core → c.core.poisonedAt c.q c.se.pc.toNat 4 = false)) ∧
      xhskWord w f7 f3 = true ∧ p c)) = true) : ∃ c, XReady f7 f3 e w s c ∧ p c := by
  obtain ⟨c, hc, h, hp⟩ := exSe h
  exact ⟨c, ⟨hc, h⟩, hp⟩

/-- VST and VLD of four FP32 elements at a[0], PLD and PST at a[0], CHPOP of half 0 into a[1]. -/
def ldState (w : W64) (x : Half := {}) : State :=
  (vecState w).onCore 0 0 fun c => { c with halves := c.halves.set 0 x }

theorem witness_VectorMemory :
    (∃ c, VecReady (2, 0) ve (vw (2, 0)) (ldState (vw (2, 0))) c ∧ vmCheck c (vw (2, 0)) 0 = none ∧
      c.loadWhole (vw (2, 0)) 0 = true) ∧
    (∃ c, VecReady (2, 1) ve (vw (2, 1)) (ldState (vw (2, 1))) c ∧ vmCheck c (vw (2, 1)) 0 = none) ∧
    (∃ c, VecReady (2, 2) ve (vw (2, 2)) (ldState (vw (2, 2))) c ∧ predAddr c (vw (2, 2)) = (0, none) ∧
      c.core.poisonedAt c.q 0 256 = false) ∧
    (∃ c, VecReady (2, 3) ve (vw (2, 3)) (ldState (vw (2, 3))) c ∧ predAddr c (vw (2, 3)) = (0, none)) ∧
    (∃ c, VecReady (2, 4) ve (vw (2, 4)) (ldState (vw (2, 4)) { state := .active, fifo := [(7, [1])] }) c ∧
      chainHalf c.q 0 = some 0 ∧ (c.core.halves.getD 0 {}).fifo = [(7, [1])]) ∧
    ∃ c, VecReady (2, 4) ve (vw (2, 4)) (ldState (vw (2, 4)) { state := .ended }) c ∧ chainHalf c.q 0 = some 0 ∧
      (c.core.halves.getD 0 {}).fifo = [] ∧ (c.core.halves.getD 0 {}).state = .ended :=
  ⟨exVec (by decide +kernel), exVec (by decide +kernel), exVec (by decide +kernel), exVec (by decide +kernel),
    exVec (by decide +kernel), exVec (by decide +kernel)⟩

theorem witness_VectorProgramFaults :
    (∃ c, vecAt ve ((vecState 0).onVe 0 0 0 fun v => { v with pc := 0x6000000 }) = some c ∧ bindingSize c.q ≤ c.ve.pc) ∧
    ∃ c, vecAt ve (vecState (vw (5, 0))) = some c ∧ c.ve.pc < bindingSize c.q ∧ c.core.poisonedAt c.q c.ve.pc 8 = false ∧
      fetchable c.core c.ve.code c.q c.ve.pc 8 (vw (5, 0)).toNat = true ∧ vecLegal (vw (5, 0)) = false :=
  ⟨exOf (by decide +kernel), exOf (by decide +kernel)⟩

/-- The engine of `vecState` after an ALI, and the core memory after a VST: the frame statements' steps answer. -/
theorem witness_VectorFrame : (∃ t, exec (.ali ve (vw (4, 8))) (vecState (vw (4, 8))) = .next t) ∧
    (∃ t, exec (.vst ve (vw (2, 1))) (vecState (vw (2, 1))) = .next t) ∧
    ∃ t, exec (.pst ve (vw (2, 3))) (vecState (vw (2, 3))) = .next t := ⟨⟨_, rfl⟩, ⟨_, rfl⟩, ⟨_, rfl⟩⟩

theorem witness_VectorStoreFrame : (vecState (vw (2, 1))).Inv ∧
    ∃ c, vecAt ve (vecState (vw (2, 1))) = some c ∧ 4 < bindingSize c.q ∧ c.ve.count 0 = 4 ∧
      c.ve.active (vw (2, 1)) 3 = true ∧ vmAddr c.ve (vw (2, 1)) 0 3 = 12 :=
  ⟨inv_of _ (by decide +kernel), exOf (by decide +kernel)⟩

/-- Of two results that differ beyond the four active elements only, the premise holds. -/
theorem witness_VectorInactiveElements :
    ∀ i, i < ({ vl := 4 } : Ve).count 0 → ({ vl := 4 } : Ve).active (vw (0, 0)) i = true →
      (fun j => (if j < 4 then j else 0, ({} : FpFlags))) i = (fun j => (j, ({} : FpFlags))) i := by
  intro i h _
  have : i < 4 := Nat.lt_of_lt_of_le h (Nat.min_le_left _ _)
  simp [this]

theorem witness_VectorScalarOperandRule : vDt (vw (1, 0) 0) = 0 ∧ (vDt (vw (1, 0) 1) ≠ 0 ∧ dtFloat (vDt (vw (1, 0) 1)) = true) ∧
    dtFloat (vDt (vw (1, 0) 7)) = false := by decide +kernel

theorem witness_CoreMemoryReadAfterWrite : ({} : Core).canonical ∧ 0x17FFFFF + [(1 : Byte)].length ≤ bindingSize (some 3) ∧
    0x5FFFFFF + [(1 : Byte)].length ≤ bindingSize none :=
  ⟨⟨rfl, rfl, fun u hu x hx => by simp_all⟩, by decide, by decide⟩

/-! Scalar engines -/

/-- Scalar engine 0 of core 0 stands at `w`, at 64; x5 to x7 hold `a`, `b` and 0x1000. -/
def seState (w : W32) (a b : W64 := 0) (f : Se → Se := id) (g : Core → Core := id) : State :=
  (base.onSe 0 0 0 fun e => f (((({ e with mode := .running, pc := 64, veMask := 0xFFF }).setReg 5 a).setReg 6 b).setReg 7
    0x1000)).onCore 0 0 fun c => g (c.writeCm none 64 (leBytes 4 w.toNat))

def tk (run : List Nat) : Ticket := ⟨1, run, [], none, 0⟩
def mv (r : Option Nat) : Move := ⟨1, 0, 0x100, 0, 16, 0, r, some c1, 0⟩

theorem witness_XhskInstructions_launches :
    (∃ c, XReady 0 0 se (xw 0 0 6 5 8) (seState (xw 0 0 6 5 8) 0x1000 1) c ∧ c.maskOk (xw 0 0 6 5 8) = true ∧
      c.launchHeld (seState (xw 0 0 6 5 8) 0x1000 1) (xw 0 0 6 5 8) = false ∧
      (c.block (c.rs1 (xw 0 0 6 5 8)).toNat 64 64).isOk = true) ∧
    (∃ c, XReady 0 0 se (xw 0 0 6 5 8) (seState (xw 0 0 6 5 8) 0x1000 0) c ∧ c.maskOk (xw 0 0 6 5 8) = true ∧
      c.launchHeld (seState (xw 0 0 6 5 8) 0x1000 0) (xw 0 0 6 5 8) = true) ∧
    (∃ c, XReady 0 1 se (xw 0 1 0 5 8) (seState (xw 0 1 0 5 8) 1) c ∧ c.ticket? (c.rs1 (xw 0 1 0 5 8)).toNat = none) ∧
    (∃ c, XReady 0 1 se (xw 0 1 0 5 8) (seState (xw 0 1 0 5 8) 1 0 id fun k => { k with tickets := [tk []] }) c ∧
      c.ticket? (c.rs1 (xw 0 1 0 5 8)).toNat = some (tk []) ∧ (tk []).running = []) ∧
    (∃ c, XReady 0 1 se (xw 0 1 0 5 8) (seState (xw 0 1 0 5 8) 1 0 id fun k => { k with tickets := [tk [2]] }) c ∧
      c.ticket? (c.rs1 (xw 0 1 0 5 8)).toNat = some (tk [2]) ∧ (tk [2]).running ≠ []) ∧
    (∃ c, XReady 0 2 se (xw 0 2 0 5 8) (seState (xw 0 2 0 5 8) 1) c ∧ c.ticket? (c.rs1 (xw 0 2 0 5 8)).toNat = none) ∧
    (∃ c, XReady 0 2 se (xw 0 2 0 5 8) (seState (xw 0 2 0 5 8) 1 0 id fun k => { k with tickets := [tk [2]] }) c ∧
      c.ticket? (c.rs1 (xw 0 2 0 5 8)).toNat = some (tk [2])) ∧
    ∃ c, XReady 2 7 se (xw 2 7 0 5 0) (seState (xw 2 7 0 5 0) 1 0 id fun k => { k with tickets := [tk [2]] }) c ∧
      c.ticket? (c.rs1 (xw 2 7 0 5 0)).toNat = some (tk [2]) :=
  ⟨exX (by decide +kernel), exX (by decide +kernel), exX (by decide +kernel), exX (by decide +kernel),
    exX (by decide +kernel), exX (by decide +kernel), exX (by decide +kernel), exX (by decide +kernel)⟩

theorem witness_XhskInstructions_moves_and_events :
    (∃ c, XReady 0 3 se (xw 0 3 0 5 8) (seState (xw 0 3 0 5 8) 0x1000) c ∧
      (c.block (c.rs1 (xw 0 3 0 5 8)).toNat 32 8).isOk = true ∧ c.movesOpen < 4) ∧
    (∃ c, XReady 0 3 se (xw 0 3 0 5 8) (seState (xw 0 3 0 5 8) 0x1000 0 id fun k =>
        { k with moves := List.replicate 4 (mv none) }) c ∧
      (c.block (c.rs1 (xw 0 3 0 5 8)).toNat 32 8).isOk = true ∧ 4 ≤ c.movesOpen) ∧
    (∃ c, XReady 0 4 se (xw 0 4 0 5 8) (seState (xw 0 4 0 5 8) 1 0 id fun k => { k with moves := [mv (some 0)] }) c ∧
      c.core.moves.find? (fun m => decide (m.id = (c.rs1 (xw 0 4 0 5 8)).toNat) && decide (m.quarter = c.q.getD 0)) =
        some (mv (some 0))) ∧
    (∃ c, XReady 0 4 se (xw 0 4 0 5 8) (seState (xw 0 4 0 5 8) 1 0 id fun k => { k with moves := [mv none] }) c ∧
      c.core.moves.find? (fun m => decide (m.id = (c.rs1 (xw 0 4 0 5 8)).toNat) && decide (m.quarter = c.q.getD 0)) =
        some (mv none)) ∧
    (∃ c, XReady 0 4 se (xw 0 4 0 5 8) (seState (xw 0 4 0 5 8) 1) c ∧
      c.core.moves.find? (fun m => decide (m.id = (c.rs1 (xw 0 4 0 5 8)).toNat) && decide (m.quarter = c.q.getD 0)) = none) ∧
    (∃ c, XReady 0 5 se (xw 0 5 6 5 8) (seState (xw 0 5 6 5 8) 0xFFFF 9 fun e => { e with events := 0x8000 }) c ∧
      c.se.events &&& (c.rs1 (xw 0 5 6 5 8)).setWidth 16 ≠ 0) ∧
    (∃ c, XReady 0 5 se (xw 0 5 6 5 8) (seState (xw 0 5 6 5 8) 0x7FFF 9 fun e => { e with events := 0x8000 }) c ∧
      c.se.events &&& (c.rs1 (xw 0 5 6 5 8)).setWidth 16 = 0) ∧
    (∃ c, XReady 0 6 se (xw 0 6 6 5 0) (seState (xw 0 6 6 5 0) 7 1) c ∧ (c.rs1 (xw 0 6 6 5 0)).toNat < (seSpan c.q).2) ∧
    (∃ c, XReady 0 7 se (xw 0 7 0 5 0) (seState (xw 0 7 0 5 0) 3) c ∧ c.rs1 (xw 0 7 0 5 0) = 3) ∧
    (∃ c, XReady 1 7 se (xw 1 7 0 5 8) (seState (xw 1 7 0 5 8) 3) c ∧ c.half? (c.rs1 (xw 1 7 0 5 8)).toNat = some 3 ∧
      (c.core.halves.getD 3 {}).state ≠ .active ∧ (c.core.halves.getD 3 {}).fifo = []) ∧
    (∃ c, XReady 1 7 se (xw 1 7 0 5 8) (seState (xw 1 7 0 5 8) 0 0 id fun k =>
        { k with halves := k.halves.set 0 { state := .active } }) c ∧
      c.half? (c.rs1 (xw 1 7 0 5 8)).toNat = some 0 ∧ (c.core.halves.getD 0 {}).state = .active) ∧
    (∃ c, SeReady 4 0x10500073 se (seState 0x10500073 0 0 fun e => { e with events := 1 }) c ∧ c.se.events ≠ 0) ∧
    ∃ c, SeReady 4 0x10500073 se (seState 0x10500073) c ∧ c.se.events = 0 :=
  ⟨exX (by decide +kernel), exX (by decide +kernel), exX (by decide +kernel), exX (by decide +kernel),
    exX (by decide +kernel), exX (by decide +kernel), exX (by decide +kernel), exX (by decide +kernel),
    exX (by decide +kernel), exX (by decide +kernel), exX (by decide +kernel), exSe (by decide +kernel),
    exSe (by decide +kernel)⟩

theorem witness_ScalarWaitsEnd :
    (let s := base.onCore 0 0 fun k => { k with
        tickets := [tk []], ses := k.ses.set 0 { mode := .waiting, wait := .ticket 8 1 } };
      (s.core 0 0).tickets.find? (fun k => decide (k.id = 1)) = some (tk []) ∧ (tk []).running = [] ∧
        (s.core 0 0).ses.any (·.waitsTicket 1) = true) ∧
    (let s := base.onCore 0 0 fun k => { k with moves := [mv none] };
      (s.core 0 0).moves.find? (fun m => decide (m.id = 1) && m.result.isNone) = some (mv none) ∧
        (s.site 0).coreRuns 0 = true ∧ (s.core 0 0).unitRuns (if (s.core 0 0).quad then some 0 else none) = true ∧
        s.moveBad 0 0 (mv none) = false) ∧
    (let s := base.onSe 0 0 0 fun e => { e with mode := .waiting, wait := .event 8 0xFFFF 1 };
      ((s.core 0 0).ses.getD 0 {}).wait = .event 8 0xFFFF 1 ∧ ((s.core 0 0).ses.getD 0 {}).mode = .waiting) ∧
    let k : Cmd := { id := 1, desc := [], chainRows := [(1, [7])] };
    let s := (base.onStream 0 1 fun t => { t with queue := [k] }).onCore 0 0 fun x => { x with
      halves := x.halves.set 3 { state := .active, fifo := List.replicate 15 (1, [0]), cmd := some c1 } };
    ((s.core 0 0).halves.getD 3 {}).cmd = some c1 ∧ s.cmd? c1 = some k ∧ (s.site 0).coreRuns 0 = true ∧
      ((s.core 0 0).halves.getD 3 {}).state ≠ .ended ∧ ((s.core 0 0).halves.getD 3 {}).fifo.length < 16 := by
  decide +kernel

/-- An instruction word by its fields: the top 12 bits, rs1, funct3, rd and the opcode. -/
def rvI (imm rs1 f3 rd op : Nat) : W32 :=
  BitVec.ofNat 32 (imm * 2 ^ 20 + rs1 * 2 ^ 15 + f3 * 2 ^ 12 + rd * 2 ^ 7 + op)

/-- LUI, AUIPC, ADD, SUB, MUL, ADDI, JAL, JALR, BEQ, LD, SD, FENCE and FENCE.I. -/
theorem witness_ScalarInstructions : ∀ w ∈ [rvI 0x123 0 0 8 0x37, rvI 0x123 0 0 8 0x17, rvI 6 5 0 8 0x33,
      rvI 0x406 5 0 8 0x33, rvI 0x026 5 0 8 0x33, rvI 0xFFF 5 0 8 0x13, rvI 4 0 0 1 0x6F, rvI 4 7 0 1 0x67,
      rvI 6 5 0 8 0x63, rvI 8 7 3 8 0x03, rvI 6 7 3 0 0x23, rvI 0 0 0 0 0x0F, rvI 0 0 1 0 0x0F],
    ∃ c, SeReady 4 w.toNat se (seState w 3 3) c ∧ w.toNat % 4 = 3 ∧ ownRow w = false ∧ c.rs1 (rvI 6 5 0 8 0x63) = 3 ∧
      c.rs2 (rvI 6 5 0 8 0x63) = 3 ∧ (c.load 0x1008 8).isOk = true ∧ c.storeFault 0x1000 8 = none := by
  have h : ([rvI 0x123 0 0 8 0x37, rvI 0x123 0 0 8 0x17, rvI 6 5 0 8 0x33,
      rvI 0x406 5 0 8 0x33, rvI 0x026 5 0 8 0x33, rvI 0xFFF 5 0 8 0x13, rvI 4 0 0 1 0x6F, rvI 4 7 0 1 0x67,
      rvI 6 5 0 8 0x63, rvI 8 7 3 8 0x03, rvI 6 7 3 0 0x23, rvI 0 0 0 0 0x0F, rvI 0 0 1 0 0x0F].all fun w =>
        (seAt se (seState w 3 3)).any fun c => decide (
          (c.region c.se.pc.toNat 4 ≠ .none ∧ c.fetches 4 w.toNat = true ∧
            (c.region c.se.pc.toNat 4 = .core → c.core.poisonedAt c.q c.se.pc.toNat 4 = false)) ∧
          w.toNat % 4 = 3 ∧ ownRow w = false ∧ c.rs1 (rvI 6 5 0 8 0x63) = 3 ∧
          c.rs2 (rvI 6 5 0 8 0x63) = 3 ∧ (c.load 0x1008 8).isOk = true ∧ c.storeFault 0x1000 8 = none)) = true := by
    decide +kernel
  exact fun w hw => exSe (List.all_eq_true.mp h w hw)

/-- C.LI x8, 1 expands; the halfword 0 expands to nothing; a BEQ of 3 and 4 is not taken. -/
theorem witness_ScalarInstructions_compressed :
    (∃ c, SeReady 2 (0x4405 % 2 ^ 16) se (seState 0x4405) c ∧ 0x4405 % 4 ≠ 3 ∧ (expand 0x4405).isSome = true) ∧
    (∃ c, SeReady 2 (0 % 2 ^ 16) se (seState 0) c ∧ expand 0 = none) ∧
    ∃ c, SeReady 4 (rvI 6 5 0 8 0x63).toNat se (seState (rvI 6 5 0 8 0x63) 3 4) c ∧
      c.rs1 (rvI 6 5 0 8 0x63) ≠ c.rs2 (rvI 6 5 0 8 0x63) :=
  ⟨exSe (by decide +kernel), exSe (by decide +kernel), exSe (by decide +kernel)⟩

theorem witness_ScalarTrap : ({} : Csrs).mtvec = 0 ∧ ({ mtvec := 0x100 } : Csrs).mtvec ≠ 0 := by decide

theorem witness_ScalarStoreFrame : ∃ c, seAt se (seState 0x13) = some c ∧ c.i < 8 ∧ c.p < 6 ∧
    0x5FFFFFF + [(1 : Byte)].length ≤ bindingSize c.q := exOf (by decide +kernel)

/-- The spec's own addition: x8 = x5 + x6 with the RISC-V encoding of ADD (R113). -/
theorem test_add : (match exec (.scalarInstruction se 0x00628433) (seState 0x00628433 0xFFFFFFFFFFFFFFFF 2) with
    | .next t => ((t.core 0 0).ses.getD 0 {}).reg 8 | _ => 0) = 1 := by decide +kernel

/-! A tenant -/

/-- `site0` with a fast-tier page in service, an active key slot of slice 0, and the slice in unit 0's group. -/
def site1 : Site :=
  { ((site0.setFld (rMpPort 0) Fld.mpPortState 2).setFld (rMpCh 0) Fld.mpChState 2).onCore 0 fun k => { k with
      units := k.units.set 0 { group := [0] } } with
    atomicOps := true
    slots := [{ num := 1, state := .active, slice := 0 }]
    fast := { channels := [0], used := [0], map := [⟨0, 0, false, 0, 0, 0, false, 0⟩] } }

/-- Virtual device 0, homed here: one whole-core unit, streams 0 and 1 active, its native rings on; object 1 is a private
page, 2 a host object, 3 a page of part 1; each is mapped at 0x10000 times its index, 2 as the rings too. -/
def vd0 : Vd :=
  { live := true, slot := 1
    fe := {
      rings := (List.replicate 64 ({} : Ring)).set 0
        { on := true, sqBase := 0x400000, cqBase := 0x440000, cqLog2 := 8, tail := 2 }
      eq := { base := 0x448000, log2 := 8 }, fq := { base := 0x44A000, log2 := 6 }
      streams := ((List.replicate 256 ({} : Stream)).set 0 { state := .active }).set 1 { state := .active }
      nextId := 9 }
    sp := {
      objs := [{ index := 1, size := 0x10000 }, { index := 2, cls := .host, size := 0x100000, bus := 0x1000000 },
        { index := 3, home := 8, size := 0x10000 }]
      maps := [⟨0, 0x10000, 0x10000, 0, 7, 1, 0⟩, ⟨0, 0x20000, 0x10000, 0, 7, 2, 0⟩, ⟨0, 0x30000, 0x10000, 0, 7, 3, 0⟩,
        ⟨0, 0x400000, 0x100000, 0, 7, 2, 0⟩] }
    hold := {
      units := [⟨0, 0, 0, 0, none, false, 0, []⟩], parts := [0]
      allots := [⟨1, 0, 0, 0, 4⟩, ⟨3, 0, 0, 0, 1⟩] } }

def tenant : State := { base with sites := base.sites.set 0 site1, vds := base.vds.set 0 vd0 }

/-- A descriptor of this opcode on stream `n`, with these fields: offset, bytes, value (R339). -/
def desc (op n : Nat) (fs : List (Nat × Nat × Nat) := []) : Bytes :=
  fs.foldl (fun b f => b.take f.1 ++ leBytes f.2.1 f.2.2 ++ b.drop (f.1 + f.2.1))
    (leBytes 2 op ++ leBytes 1 n ++ zeros 61)

/-- `tenant` with this command alone on its stream. -/
def withCmd (c : CmdRef) (k : Cmd) (s : State := tenant) : State := s.onStream c.vd c.stream fun t => { t with queue := [k] }

def placed (d : Bytes) (ext : Bytes := []) : Cmd := { id := 1, desc := d, ext := ext }

theorem witness_RingCommands :
    (let d := tenant.vd 0; d.live = true ∧ d.ringsOn = true ∧ d.fe.frozen = false ∧ tenant.frontUp 0 = true) ∧
    (let d := (tenant.onVd 0 fun d => { d with noelaver := true, fe := { d.fe with rings := d.fe.rings.set 63 { on := true } } }).vd 0;
      d.procRing 63 = true) ∧
    (let d := (tenant.onRing 0 0 fun r => { r with on := false }).vd 0;
      d.ringsOn = false ∧ d.fe.ringsOk = true ∧ d.hostOpen = true) ∧
    (let d := (tenant.onRing 0 0 fun r => { r with on := false, cqLog2 := 17 }).vd 0;
      d.ringsOn = false ∧ d.fe.ringsOk = false) ∧
    (let d := (tenant.onStream 0 1 fun _ => {}).vd 0; d.ringsOn = true ∧ d.mayDisable = true) ∧
    (let d := (tenant.onFe 0 fun e => { e with vectors := e.vectors.set 31 { acc := 1 } }).vd 0;
      0 < (d.fe.vectors.getD 31 {}).acc ∧ (d.fe.vectors.getD 31 {}).masked = true) ∧
    let s := tenant.onStream 0 255 fun t => { t with state := .draining };
    s.frontUp 0 = true ∧ ((s.vd 0).stream 255).state = .draining ∧ ((s.vd 0).stream 255).queue = [] ∧
      (s.vd 0).fe.frozen = false := by
  decide +kernel

/-- A ring with two posted slots; one whose page is not mapped; a fetched NOP on stream 1, and one on a free stream. -/
theorem witness_SubmissionAndPlacement :
    RingOpen tenant 0 0 ∧
    ([zeros 64, zeros 64].length ≤ 64 ∧ [zeros 64, zeros 64].length ≤ ((tenant.vd 0).ring 0).unreadSlots ∧
      (tenant.ringAddr 0 0 (0x400000 + 64 * 0) 1).isOk = true) ∧
    (let s := tenant.onRing 0 0 fun r => { r with sqBase := 0x800000 };
      0 < ((s.vd 0).ring 0).unreadSlots ∧ (s.ringAddr 0 0 (0x800000 + 64 * 0) 1).isOk = false) ∧
    (let r := ((tenant.onRing 0 0 fun r => { r with fetched := [(0, desc 0 2)] }).vd 0).ring 0;
      r.canReserve = true ∧ bitsAt (desc 0 2) 4 0 0 = 0 ∧ (tenant.vd 0).header 0 (desc 0 2) [] false = .refuse stBadStream) ∧
    ((tenant.vd 0).header 0 (desc 0 1) [] false = .good ∧ ((tenant.vd 0).stream 1).queue.length < 64) :=
  ⟨by unfold RingOpen; decide +kernel, by decide +kernel⟩

theorem exJob {c : CmdRef} {s : State} {p : Job → Prop} [DecidablePred p]
    (h : (s.job? c).any (fun j => decide (p j)) = true) : ∃ j, s.job? c = some j ∧ p j := exOf h

/-- The extension of a command whose fence word is at `dva`, with the value to signal. -/
def sigExt (dva v : Nat) : Bytes := zeros 32 ++ leBytes 8 dva ++ leBytes 8 v ++ leBytes 1 4 ++ zeros 15

theorem witness_CommandLife :
    (let s := withCmd c1 (placed (desc 0x200 1));
      ∃ j, s.job? c1 = some j ∧ j.k.phase = .placed ∧ ((s.vd 0).stream 1).starts = true ∧
        ((s.vd 0).stream 1).next 1 j.k = true ∧ (j.k.asks = [] ∧ j.k.hold = none ∧ j.k.fault = none) ∧
        (s.vd 0).fe.frozen = false ∧ (s.site j.i).up = true ∧ j.k.waits = []) ∧
    (let s := withCmd c1 { placed (desc 0x200 1) with phase := .ready };
      ∃ j, s.job? c1 = some j ∧ j.k.phase = .ready ∧ j.issuable s = true ∧ s.outranked j c1 = false) ∧
    (let s := withCmd c1 { placed (desc 0x200 1) with phase := .issued, ran := true };
      ∃ j, s.job? c1 = some j ∧ j.k.phase = .issued ∧ j.k.forwarded = false ∧ s.workOver j c1 = true ∧
        (s.site j.i).up = true ∧ j.k.saved = false ∧ j.k.finalWr = false ∧ s.pausedAt j = false) ∧
    (let s := withCmd c1 (placed (desc 0x200 1) (leBytes 8 0x10000 ++ zeros 40 ++ leBytes 1 1 ++ zeros 15));
      ∃ k, s.cmd? c1 = some k ∧ k.phase = .placed ∧ k.asks = [] ∧ k.waits ≠ []) ∧
    (let s := withCmd c1 { placed (desc 0x200 1) with phase := .ended };
      ∃ k, s.cmd? c1 = some k ∧ s.recordDue c1 k = true ∧ (s.site (s.homeSite 0)).up = true ∧ k.home = none) ∧
    let s := withCmd c1 { placed (desc 0x102 1) with phase := .issued };
    ∃ j, s.job? c1 = some j ∧ j.k.live 0x102 = true ∧ j.runs s = true :=
  ⟨exJob (by decide +kernel), exJob (by decide +kernel), exJob (by decide +kernel), exOf (by decide +kernel),
    exOf (by decide +kernel), exJob (by decide +kernel)⟩

/-- Whether an access run of a command answers this spot. -/
def foundAt (r : Except Stop Spot × State) (cls : ObjClass) (dst : Nat) : Bool :=
  match r.1 with | .ok p => decide (p.cls = cls) && decide (p.dst = dst) | _ => false

def signals (dva v : Nat) (got : List (Nat × Bytes) := []) : State :=
  withCmd c1 { placed (desc 0x200 1) (sigExt dva v) with phase := .ended, sig := .waiting, got := got }

theorem witness_FenceSignalRaises :
    (∃ j, (signals 0x10000 5).job? c1 = some j ∧ j.k.phase = .ended ∧ j.k.sig = .waiting ∧
      ((signals 0x10000 5).vd 0).fe.frozen = false ∧ ((signals 0x10000 5).site j.i).up = true ∧
      foundAt ((({ j with kind := .frontEnd } : Job).find (fieldAt j.k.ext 32 8) 4).run (signals 0x10000 5)) .priv 0 = true ∧
      (signals 0x10000 5).here? 0 = some 0 ∧ (signals 0x10000 5).joined j.i 0 = true ∧
      ((signals 0x10000 5).raiseWord 0 0 j.slot (fieldAt j.k.ext 40 8)).any (fun r => r.1.isOk) = true) ∧
    (∃ j, (signals 0x20000 5 [(0x1000000, leBytes 8 5)]).job? c1 = some j ∧
      foundAt ((({ j with kind := .frontEnd } : Job).find (fieldAt j.k.ext 32 8) 4).run (signals 0x20000 5)) .host 0 = true ∧
      gotRun j.k.got 0x1000000 8 = some (leBytes 8 5)) ∧
    ∃ j, (signals 0x30000 5).job? c1 = some j ∧
      foundAt ((({ j with kind := .frontEnd } : Job).find (fieldAt j.k.ext 32 8) 4).run (signals 0x30000 5)) .priv 8 = true ∧
      (signals 0x30000 5).here? 8 = none :=
  ⟨exJob (by decide +kernel), exJob (by decide +kernel), exJob (by decide +kernel)⟩

/-! Control commands -/

/-- A control command with this descriptor that is ready on stream 0. -/
def ctlState (d : Bytes) (s : State := tenant) : State := withCmd c0 { placed d with phase := .ready } s

/-- How a control command's body ends: with a status and DETAIL, or waiting. -/
def ctlEnds (r : Except Stop CtlEnd × State) : Option (W16 × Nat) :=
  match r.1 with | .ok (.done st d) => some (st, d) | _ => none
def ctlWaits (r : Except Stop CtlEnd × State) : Bool := match r.1 with | .ok .waits => true | _ => false

/-- A ready control command, what its body makes of it, and nothing left open. -/
theorem ctlDone {op : Nat} {s : State} {body : Job → Run CtlEnd} (h : (s.job? c0).any (fun j => decide (
      (j.k.op = op ∧ j.k.phase = .ready ∧ (j.k.asks = [] ∧ j.k.hold = none ∧ j.k.fault = none) ∧
        (s.vd 0).fe.frozen = false ∧ (s.site j.i).up = true) ∧
      (ctlEnds ((body j).run s)).isSome = true ∧ (j.now ((body j).run s).2).unsent = [] ∧
      (((body j).run s).2.site j.i).openTxns c0 = 0)) = true) :
    ∃ j st d t, CtlReady c0 op s j ∧ (body j).run s = (.ok (.done st d), t) ∧ NothingOpen j c0 t := by
  obtain ⟨j, hj, h, he, hn⟩ := exOf h
  generalize hr : (body j).run s = r at he hn
  obtain ⟨r, t⟩ := r
  rcases r with _ | ⟨st, d⟩ | _
  · simp [ctlEnds] at he
  · exact ⟨j, st, d, t, ⟨hj, h⟩, hr, hn⟩
  · simp [ctlEnds] at he

theorem ctlWait {op : Nat} {s : State} {body : Job → Run CtlEnd} (h : (s.job? c0).any (fun j => decide (
      (j.k.op = op ∧ j.k.phase = .ready ∧ (j.k.asks = [] ∧ j.k.hold = none ∧ j.k.fault = none) ∧
        (s.vd 0).fe.frozen = false ∧ (s.site j.i).up = true) ∧ ctlWaits ((body j).run s) = true)) = true) :
    ∃ j t, CtlReady c0 op s j ∧ (body j).run s = (.ok .waits, t) := by
  obtain ⟨j, hj, h, he⟩ := exOf h
  refine ⟨j, ((body j).run s).2, ⟨hj, h⟩, ?_⟩
  generalize (body j).run s = r at he
  obtain ⟨r, t⟩ := r
  rcases r with _ | ⟨st, d⟩ | _ <;> simp_all [ctlWaits]

def nopD := desc 0 0
def streamCreateD := desc 1 0 [(16, 1, 255)]
def streamDestroyD := desc 2 0 [(16, 1, 1)]
def streamAbortD := desc 3 0 [(16, 1, 1), (17, 1, 1)]
def sliceInfoD := desc 4 0 [(16, 8, 0x10000)]
def noelRingSetD := desc 5 0 [(16, 1, 63), (17, 1, 12), (24, 8, 0x40000), (32, 8, 0x80000)]
def aspaceCreateD := desc 0x10 0 [(16, 1, 63)]
def aspaceDestroyD := desc 0x11 0 [(16, 1, 63)]
def objCreateD := desc 0x12 0 [(16, 1, 2), (24, 8, 0x1000), (32, 8, 0x1000)]
def objFreeD := desc 0x13 0 [(16, 4, 0x10001)]
def mapD := desc 0x14 0 [(16, 8, 0x80000), (24, 8, 0x1000), (40, 4, 0x10001), (44, 1, 1)]
def unmapD := desc 0x15 0 [(16, 8, 0x10000), (24, 8, 0x10000)]
def faultResolveD := desc 0x16 0 [(16, 4, 7)]
/-- An UNMAP of a range with nothing mapped, and a MAP over a mapping, which withdraws it. -/
def unmapNoneD := desc 0x15 0 [(16, 8, 0x100000), (24, 8, 0x10000)]
def mapOverD := desc 0x14 0 [(16, 8, 0x10000), (24, 8, 0x1000), (40, 4, 0x10002), (44, 1, 1)]
def noelTenant : State := tenant.onVd 0 fun d => { d with noelaver := true }
def twoSpaces : State := tenant.onVd 0 fun d => { d with refcount := true, sp := { d.sp with asids := [0, 63] } }
/-- Address space 63 with a mapping of its own. -/
def mappedSpace : State := twoSpaces.onVd 0 fun d => { d with
  sp := { d.sp with maps := ⟨63, 0x10000, 0x1000, 0, 1, 1, 0⟩ :: d.sp.maps } }

theorem witness_ControlCommands :
    (∃ j st d t, CtlReady c0 0x0 (ctlState nopD) j ∧
      (nopRun j).run (ctlState nopD) = (.ok (.done st d), t) ∧ NothingOpen j c0 t) ∧
    (∃ j st d t, CtlReady c0 0x1 (ctlState streamCreateD) j ∧
      (streamCreateRun j).run (ctlState streamCreateD) = (.ok (.done st d), t) ∧ NothingOpen j c0 t) ∧
    (∃ j st d t, CtlReady c0 0x2 (ctlState streamDestroyD twoSpaces) j ∧
      (streamDestroyRun j).run (ctlState streamDestroyD twoSpaces) = (.ok (.done st d), t) ∧ NothingOpen j c0 t) ∧
    (∃ j st d t, CtlReady c0 0x3 (ctlState streamAbortD) j ∧
      (streamAbortRun j).run (ctlState streamAbortD) = (.ok (.done st d), t) ∧ NothingOpen j c0 t) ∧
    (∃ j st d t, CtlReady c0 0x4 (ctlState sliceInfoD) j ∧
      (sliceInfoRun j).run (ctlState sliceInfoD) = (.ok (.done st d), t) ∧ NothingOpen j c0 t) ∧
    (∃ j st d t, CtlReady c0 0x5 (ctlState noelRingSetD noelTenant) j ∧
      (noelRingSetRun j).run (ctlState noelRingSetD noelTenant) = (.ok (.done st d), t) ∧ NothingOpen j c0 t) ∧
    (∃ j st d t, CtlReady c0 0x10 (ctlState aspaceCreateD) j ∧
      (aspaceCreateRun j).run (ctlState aspaceCreateD) = (.ok (.done st d), t) ∧ NothingOpen j c0 t) ∧
    (∃ j st d t, CtlReady c0 0x11 (ctlState aspaceDestroyD twoSpaces) j ∧
      (aspaceDestroyRun j).run (ctlState aspaceDestroyD twoSpaces) = (.ok (.done st d), t) ∧ NothingOpen j c0 t) ∧
    (∃ j st d t, CtlReady c0 0x12 (ctlState objCreateD) j ∧
      (objCreateRun j).run (ctlState objCreateD) = (.ok (.done st d), t) ∧ NothingOpen j c0 t) ∧
    (∃ j st d t, CtlReady c0 0x13 (ctlState objFreeD twoSpaces) j ∧
      (objFreeRun j).run (ctlState objFreeD twoSpaces) = (.ok (.done st d), t) ∧ NothingOpen j c0 t) ∧
    (∃ j st d t, CtlReady c0 0x14 (ctlState mapD) j ∧
      (mapRun j).run (ctlState mapD) = (.ok (.done st d), t) ∧ NothingOpen j c0 t) ∧
    (∃ j st d t, CtlReady c0 0x15 (ctlState unmapNoneD) j ∧
      (unmapRun j).run (ctlState unmapNoneD) = (.ok (.done st d), t) ∧ NothingOpen j c0 t) ∧
    (∃ j st d t, CtlReady c0 0x16 (ctlState faultResolveD) j ∧
      (faultResolveRun j).run (ctlState faultResolveD) = (.ok (.done st d), t) ∧ NothingOpen j c0 t) :=
  ⟨ctlDone (by decide +kernel), ctlDone (by decide +kernel), ctlDone (by decide +kernel), ctlDone (by decide +kernel), ctlDone (by decide +kernel), ctlDone (by decide +kernel), ctlDone (by decide +kernel), ctlDone (by decide +kernel), ctlDone (by decide +kernel), ctlDone (by decide +kernel), ctlDone (by decide +kernel), ctlDone
    (by decide +kernel), ctlDone (by decide +kernel)⟩

theorem witness_ControlCommands_waits :
    (∃ j t, CtlReady c0 0x2 (ctlState streamDestroyD) j ∧
      (streamDestroyRun j).run (ctlState streamDestroyD) = (.ok .waits, t)) ∧
    (∃ j t, CtlReady c0 0x11 (ctlState aspaceDestroyD mappedSpace) j ∧
      (aspaceDestroyRun j).run (ctlState aspaceDestroyD mappedSpace) = (.ok .waits, t)) ∧
    (∃ j t, CtlReady c0 0x13 (ctlState objFreeD) j ∧ (objFreeRun j).run (ctlState objFreeD) = (.ok .waits, t)) ∧
    (∃ j t, CtlReady c0 0x14 (ctlState mapOverD) j ∧ (mapRun j).run (ctlState mapOverD) = (.ok .waits, t)) ∧
    (∃ j t, CtlReady c0 0x15 (ctlState unmapD) j ∧ (unmapRun j).run (ctlState unmapD) = (.ok .waits, t)) :=
  ⟨ctlWait (by decide +kernel), ctlWait (by decide +kernel), ctlWait (by decide +kernel),
    ctlWait (by decide +kernel), ctlWait (by decide +kernel)⟩

/-- A ready NOP, and one whose lowest reserved byte set is byte 16, or byte 63. -/
theorem witness_NopResult :
    (∃ j, (ctlState nopD).job? c0 = some j ∧ j.k.op = 0 ∧ j.k.phase = .ready ∧ j.k.unsent = [] ∧
      ((ctlState nopD).site j.i).openTxns c0 = 0 ∧ anySet (j.k.desc.drop 16 |>.take 48) = false) ∧
    firstBad (reservedSet (desc 0 0 [(16, 1, 1), (63, 1, 1)]) [(16, 48)]) = some 16 ∧
    firstBad (reservedSet (desc 0 0 [(63, 1, 1)]) [(16, 48)]) = some 63 :=
  ⟨exJob (by decide +kernel), by decide +kernel⟩

/-- Two slots are posted from head 0: a tail of 2 is taken, a tail of 1 would lower the count, one of 4,095 is taken. -/
theorem witness_DoorbellAccepted : (tenant.vd 0).live = true ∧ ((tenant.vd 0).ring 0).on = true ∧
    (((tenant.vd 0).ring 0).tail + 4096 - ((tenant.vd 0).ring 0).sqHead) % 4096 = (2 + 4096 - 0) % 4096 ∧
    (1 + 4096 - 0) % 4096 < (((tenant.vd 0).ring 0).tail + 4096 - ((tenant.vd 0).ring 0).sqHead) % 4096 ∧
    (((tenant.vd 0).ring 0).tail + 4096 - ((tenant.vd 0).ring 0).sqHead) % 4096 ≤ (4095 + 4096 - 0) % 4096 := by
  decide +kernel

/-! Translation, host answers and memory -/

def fault1 : FaultEntry := ⟨1, 0, 0x90000, 0x90000, false, 1, 0, [(1, 1)], 0, 0, 1, 0, 0, false⟩
def onSpace (f : Space → Space) : State := tenant.onVd 0 fun d => { d with sp := f d.sp }
def inval1 : Inval := ⟨0, 1, none, none, none, none⟩
/-- A DMA command of stream 1 that has a read outstanding, or holds at an access. -/
def reading (k : Cmd → Cmd := id) : State :=
  withCmd c1 (k { placed (desc 0x200 1) with phase := .issued, asks := [⟨0x1000000, 8, 0⟩] })

theorem witness_TranslationEvents_faults :
    (∃ j, (reading fun k => { k with hold := some (0x90000, 1) }).job? c1 = some j ∧
      j.k.hold = some (0x90000, (1 : BitVec 3).toNat) ∧ j.k.fault = none ∧
      (tenant.vd 0).sp.translate j.asid 0x90000 (1 : BitVec 3).toNat 1 = .fault false) ∧
    (let s := (onSpace fun p => { p with faults := [fault1] });
      s.frontUp 0 = true ∧ (s.vd 0).fe.frozen = false ∧ ((s.vd 0).sp.faults.filter fun f => !f.written) = [fault1] ∧
      (s.vd 0).ringsOn = true ∧ (writeBatch 0 [fault1] s).isOk = true ∧
      ((s.onRing 0 0 fun r => { r with on := false }).vd 0).ringsOn = false ∧
      ((s.onFe 0 fun e => { e with fqFull := some 0 }).vd 0).fe.fqFull.isSome = true) ∧
    let s := (onSpace fun p => { p with faults := [{ fault1 with written := true }] });
    (s.vd 0).sp.faults.find? (fun f => decide (f.fid = 1)) = some { fault1 with written := true } ∧ s.frontUp 0 = true :=
  ⟨exJob (by decide +kernel), by decide +kernel, by decide +kernel⟩

theorem witness_TranslationEvents_invalidations :
    (let s := (onSpace fun p => { p with invals := [inval1] });
      (s.vd 0).sp.invals.find? (fun x => decide (x.k = 0)) = some inval1 ∧ s.oldTransfers 0 inval1.epoch = false ∧
        inval1.cmd = none) ∧
    (let s := (reading.onVd 0 fun d => { d with sp := { d.sp with invals := [inval1] } });
      (s.vd 0).sp.invals.find? (fun x => decide (x.k = 0)) = some inval1 ∧ s.oldTransfers 0 inval1.epoch = true) ∧
    (let d := { vd0 with ats := true, sp := { vd0.sp with invals := [inval1, inval1, inval1] } };
      d.live = true ∧ d.ats = true ∧ d.sp.invals.length < 4) ∧
    (let o : Obj := { index := 5, state := .freeing };
      let s := (onSpace fun p => { p with objs := [o] });
      (s.vd 0).sp.obj? 5 = some o ∧ s.frontUp 0 = true ∧ o.withdrawn = false ∧ (s.vd 0).mayRelease o = true ∧
        (s.vd 0).fe.frozen = false) ∧
    let o : Obj := { index := 5, state := .freeing, withdrawn := true, waitTe := true };
    let s := (onSpace fun p => { p with objs := [o] });
    (s.vd 0).sp.obj? 5 = some o ∧ s.frontUp 0 = true ∧
      ((s.vd 0).sp.invals.any fun x => decide (x.obj = some 5)) = false := by
  decide +kernel

theorem witness_HostAnswers :
    (∃ k, reading.cmd? c1 = some k ∧
      k.asks.find? (fun a => decide (a.key = 0x1000000) && decide (0x1000000 < 2 ^ 64)) = some ⟨0x1000000, 8, 0⟩ ∧
      (zeros 8).length = 8 ∧ hostStatus .poisoned = some stUncorrectable ∧
      (k.asks.any fun a => decide (a.key < 2 ^ 64)) = true) ∧
    ∃ j, ((reading fun k => { k with hold := some (0x20000, 1) }).onVd 0 fun d => { d with pri := true }).job? c1 = some j ∧
      j.k.hold = some (0x20000, 1) ∧ j.k.fault = none ∧
      (((reading fun k => { k with hold := some (0x20000, 1) }).onVd 0 fun d => { d with pri := true }).hostAt j 0x20000
        1).isSome = true :=
  ⟨exOf (by decide +kernel), exJob (by decide +kernel)⟩

/-- Eight bytes at the start of tenant page 0. -/
def req1 : MemReq := ⟨0, 8, 1, 0, true, 0, 0, true, 20, 0, none⟩
/-- `tenant` with its page written once. -/
def written : State := tenant.onSite 0 (·.writeSub false 0 0 (leBytes 8 7) 1 true)
def move1 (step : Nat) (dirty : BitVec 16 := 0) (rounds : Nat := 0) : TierMove :=
  ⟨0, 0, false, 0, false, 3, step, rounds, dirty, 0, [], 1, 1, 0⟩

theorem witness_TierAccesses :
    ((tenant.site 0).portOfAddr 0 = some 0 ∧ (tenant.site 0).takesReq req1 0 = true ∧ splitAddr 0 = (0, 0, 0) ∧
      ((tenant.site 0).entry? 0 0).isSome = true ∧
      ((tenant.countStale 0 req1).tierRead 0 0 8 1 true true).1.isOk = true ∧
      (((tenant.site 0).tier false).sub (0 * 16 + 0 / 4096)).version = 0) ∧
    (((written.countStale 0 req1).tierRead 0 0 8 1 true true).1.isOk = true ∧
      (((written.site 0).tier false).sub (0 * 16 + 0 / 4096)).version ≠ 0) ∧
    ((tenant.countStale 0 req1).tierWrite 0 0 (zeros 8) 1 true true none).any (fun r => r.1.isOk) = true ∧
    let s := (tenant.onSite 0 fun t => { t with moves := t.moves.set 0 (some (move1 4)) });
    ((s.countStale 0 req1).tierWrite 0 0 (zeros 8) 1 true true none).isNone = true ∧
      (s.site 0).moveOf 0 0 = some (0, move1 4) := by
  decide +kernel

def moving (m : TierMove) : State := tenant.onSite 0 fun t => { t with moves := t.moves.set 3 (some m) }
def queued (m : TierMove) : State := tenant.onSite 0 fun t => { t with moveQueue := [m] }

theorem witness_TierMoves :
    ((queued (move1 0)).site 0).moveQueue = [move1 0] ∧ ((queued (move1 0)).site 0).up = true ∧
    ((queued (move1 0)).site 0).moves.getD 3 none = none ∧ ((queued (move1 0)).site 0).moveValid (move1 0) = true ∧
    (((queued (move1 0)).site 0).destination (move1 0)).isSome = true ∧
    ((tenant.onSite 0 fun t => { t with fast := { t.fast with channels := [] } }).site 0).destination (move1 0) = none ∧
    ((moving (move1 1)).site 0).moveAt 3 1 = some (move1 1) ∧
    ((((moving (move1 1)).site 0).entry? 0 0).map (·.poison)).getD 0 = 0 ∧
    ((moving (move1 2 0xF)).site 0).moveAt 3 2 = some (move1 2 0xF) ∧ dirtyCount (move1 2 0xF).dirty ≤ 4 ∧
    ((moving (move1 2 0x1F 6)).site 0).moveAt 3 2 = some (move1 2 0x1F 6) ∧ 4 < dirtyCount (move1 2 0x1F 6).dirty ∧
    (move1 2 0x1F 6).rounds + 1 < 8 ∧ ((moving (move1 4)).site 0).moveAt 3 4 = some (move1 4) := by
  decide +kernel

/-- Port 5 trains its four channels, or none was wired; a channel under test, 79. -/
theorem witness_MemoryPorts :
    (let s := base.setFld 0 (rMpPort 5) Fld.mpPortState 1;
      (s.site 0).pins.coldRstN = true ∧ (s.site 0).fld (rMpPort 5) Fld.mpPortState = 1 ∧
      (List.replicate 4 ChannelOutcome.clean).length = (portChannels 5).2 ∧ (s.site 0).domState (domPort 5) ≠ 2 ∧
      (s.site 0).fld rPwrBoot Fld.pwrBootStep < 8) ∧
    (let s := (base.setFld 0 (rMpPort 1) Fld.mpPortState 1);
      (List.replicate 32 ChannelOutcome.clean).length = (portChannels 1).2 ∧
      (s.site 0).fld (rMpPort 1) Fld.mpPortState = 1) ∧
    ((base.site 0).pins.coldRstN = true ∧ (base.site 0).chState 79 ≠ 5 ∧ bitOf (0x80000000 : W32) 31 = true) ∧
    (let s := base.setFld 0 (rMpCh 79) Fld.mpChState 5;
      (s.site 0).chState 79 = 5 ∧ bitsOf (0x80000005 : W32) 2 0 < 6 ∧ 6 ≤ bitsOf (0x80000006 : W32) 2 0) ∧
    let s := base.setFld 0 (rMpTgCtrl 79) Fld.mpTgCtrlBusy 1;
    (s.site 0).fld (rMpTgCtrl 79) Fld.mpTgCtrlBusy ≠ 0 := by
  decide +kernel

/-- The first page drawn of a tier of one channel whose page 0 is used is page 1. -/
theorem witness_PageChoice : 0 < (site1.tier false).channels.length ∧
    (site1.tier false).lastCh < (site1.tier false).channels.length ∧ site1.drawPage false = some 1 ∧
    site1.pageFree false 1 = true ∧ site1.drawPage true = none := by
  decide +kernel

theorem witness_TierReadAfterWrite : Mem.wf [] = true ∧ (Mem.write [] 65535 [1, 2]).read 65535 2 = [1, 2] := by
  decide +kernel

/-! Commands on their engines -/

/-- `tenant` with cluster scratch, a multicast range and group, a landing window 0, a LAYOUT
block of one element at 0x4000, and this command issued to its
engine. -/
def engState (d : Bytes) (f : Cmd → Cmd := id) : State :=
  (withCmd c1 (f { placed d with phase := .issued })
    ((tenant.onSite 0 fun t => { (t.onCluster 0 fun k => { k with
        alloc := k.alloc.set 0 (.scratch 0), windows := [⟨0, 0, c1, 0, 0, 1, 1, 0, [], false, false⟩] }) with
        net := { t.net with groups := [⟨5, 0, 0, [0x10100]⟩] }
        dma := t.dma.set 15 (some c1) }).onVd 0 fun d => { d with
      hold := { d.hold with mcRanges := [(0, 5, 1)] }
      sp := { d.sp with maps := ⟨0, 0, 0x10000, 0, 7, 1, 0⟩ :: d.sp.maps } })).onCore 0 0 fun k =>
    k.writeCm none 0x4000 (leBytes 4 1 ++ zeros 20 ++ leBytes 4 1)

/-- Whether a run ends with status OK. -/
def runsOk (r : Except Stop (W16 × W16 × Nat) × State) : Bool :=
  match r.1 with | .ok (st, _, _) => decide (st = stOk) | _ => false

theorem runOk {op : Nat} {s : State} {body : Job → Run (W16 × W16 × Nat)} (h : (s.job? c1).any (fun j => decide (
      (j.k.live op = true ∧ j.runs s = true) ∧ runsOk ((body j).run s) = true)) = true) :
    ∃ j eng d t, RunReady c1 op s j ∧ (body j).run s = (.ok (stOk, eng, d), t) := by
  obtain ⟨j, hj, h, he⟩ := exOf h
  generalize hr : (body j).run s = r at he
  obtain ⟨r, t⟩ := r
  rcases r with _ | ⟨st, eng, d⟩
  · simp [runsOk] at he
  · refine ⟨j, eng, d, t, ⟨hj, h⟩, ?_⟩
    simp only [runsOk, decide_eq_true_eq] at he
    rw [hr, he]

def cm (a : Nat) : Nat := 2 ^ 62 + a
def clm (a : Nat) : Nat := 2 ^ 63 + a
def tileD := desc 0x100 1 [(16, 4, 0x1000), (20, 4, 0x2000), (36, 4, 0x3000), (44, 2, 1), (46, 2, 1), (48, 2, 1),
  (50, 2, 1), (52, 2, 1), (54, 2, 1), (56, 1, 2), (57, 1, 2), (60, 2, 0x1000)]
def attentionD := desc 0x101 1 [(16, 4, 0x1000), (20, 4, 0x2000), (24, 4, 0x10000), (32, 8, 0x10000), (40, 4, 1),
  (48, 4, 0x3F800000), (54, 2, 1), (56, 1, 1), (57, 1, 2)]
def selectD := desc 0x103 1 [(16, 8, cm 0x1000), (32, 8, cm 0x2000), (40, 8, cm 0x3000), (48, 4, 1), (52, 2, 1), (54, 2, 1)]
def gatherD := desc 0x104 1 [(16, 8, cm 0x1000), (24, 8, cm 0x2000), (32, 8, cm 0x3000), (40, 4, 1), (44, 4, 4), (48, 8, 1)]
def layoutD := desc 0x105 1 [(16, 8, cm 0x1000), (24, 8, cm 0x2000), (32, 8, cm 0x4000), (40, 1, 1), (43, 1, 2)]
def codecD := desc 0x106 1 [(16, 8, cm 0x1000), (24, 8, cm 0x2000), (32, 8, cm 0x3000), (40, 4, 1), (44, 4, 32),
  (48, 1, 0x30), (49, 1, 0x10)]
def routeD := desc 0x110 1 [(16, 8, cm 0x1000), (32, 8, cm 0x2000), (40, 8, cm 0x3000), (48, 4, 1), (52, 2, 1), (54, 2, 1),
  (60, 1, 1)]
def reduceD := desc 0x111 1 [(16, 8, cm 0x1000), (24, 8, cm 0x2000), (32, 4, 1), (36, 1, 0x20)]
def reduceArmD := desc 0x112 1 [(16, 8, cm 0x1000), (24, 8, clm 0), (32, 4, 1), (40, 8, 0x10000), (48, 8, 1), (56, 2, 1)]
def dmaCopyD := desc 0x200 1 [(16, 8, 0x10000), (24, 8, 0x10040), (32, 4, 64), (36, 4, 1)]
def dmaFillD := desc 0x201 1 [(16, 8, 0x1122334455667788), (24, 8, 0x10040), (32, 4, 64), (36, 4, 1)]
def fabAtomicD := desc 0x300 1 [(16, 8, 0x10000), (24, 8, 3), (48, 2, 1), (50, 1, 0), (51, 1, 1)]
def loftAcquireD := desc 0x301 1 [(16, 8, 0x10000), (24, 8, 0x10000)]
def loftReleaseD := desc 0x302 1 [(16, 8, 0x10000), (24, 8, 0x10000)]
def mcastGroupSetD := desc 0x303 1 [(16, 8, 0x10000), (24, 2, 5), (26, 1, 1)]
def mcastWriteD := desc 0x304 1 [(16, 8, 0x10000), (32, 8, 0x10040), (40, 4, 64), (44, 2, 5)]
def collectiveD := desc 0x305 1 [(16, 8, cm 0x1000), (40, 4, 1)]

/-- The second half of a command that runs in two. -/
def half2 (k : Cmd) : Cmd := { k with progress := 1 }

theorem witness_EngineCommands_core :
    (∃ j eng d t, RunReady c1 0x100 (engState tileD) j ∧
      (tensorTileRun j).run (engState tileD) = (.ok (stOk, eng, d), t)) ∧
    (∃ j eng d t, RunReady c1 0x101 (engState attentionD) j ∧
      (attentionRun j).run (engState attentionD) = (.ok (stOk, eng, d), t)) ∧
    (∃ j eng d t, RunReady c1 0x103 (engState selectD) j ∧
      (selectRun j).run (engState selectD) = (.ok (stOk, eng, d), t)) ∧
    (∃ j eng d t, RunReady c1 0x104 (engState gatherD) j ∧
      (gatherScatterRun j).run (engState gatherD) = (.ok (stOk, eng, d), t)) ∧
    (∃ j eng d t, RunReady c1 0x105 (engState layoutD) j ∧
      (layoutRun j).run (engState layoutD) = (.ok (stOk, eng, d), t)) ∧
    (∃ j eng d t, RunReady c1 0x106 (engState codecD) j ∧ (codecRun j).run (engState codecD) = (.ok (stOk, eng, d), t)) :=
  ⟨runOk (by decide +kernel), runOk (by decide +kernel), runOk (by decide +kernel), runOk (by decide +kernel),
    runOk (by decide +kernel), runOk (by decide +kernel)⟩

theorem witness_EngineCommands_cluster_and_block :
    (∃ j eng d t, RunReady c1 0x110 (engState routeD) j ∧ (routeRun j).run (engState routeD) = (.ok (stOk, eng, d), t)) ∧
    (∃ j eng d t, RunReady c1 0x111 (engState reduceD) j ∧
      (reduceRun j).run (engState reduceD) = (.ok (stOk, eng, d), t)) ∧
    (∃ j eng d t, RunReady c1 0x112 (engState reduceArmD half2) j ∧
      (Job.armBody j).run (engState reduceArmD half2) = (.ok (stOk, eng, d), t)) ∧
    (∃ j eng d t, RunReady c1 0x200 (engState dmaCopyD) j ∧
      (dmaCopyRun j).run (engState dmaCopyD) = (.ok (stOk, eng, d), t)) ∧
    (∃ j eng d t, RunReady c1 0x201 (engState dmaFillD) j ∧
      (dmaFillRun j).run (engState dmaFillD) = (.ok (stOk, eng, d), t)) ∧
    (∃ j eng d t, RunReady c1 0x300 (engState fabAtomicD) j ∧
      (fabAtomicRun j).run (engState fabAtomicD) = (.ok (stOk, eng, d), t)) ∧
    (∃ j eng d t, RunReady c1 0x301 (engState loftAcquireD) j ∧
      (loftAcquireRun j).run (engState loftAcquireD) = (.ok (stOk, eng, d), t)) ∧
    (∃ j eng d t, RunReady c1 0x302 (engState loftReleaseD half2) j ∧
      (loftReleaseRun j).run (engState loftReleaseD half2) = (.ok (stOk, eng, d), t)) ∧
    (∃ j eng d t, RunReady c1 0x303 (engState mcastGroupSetD) j ∧
      (mcastGroupSetRun j).run (engState mcastGroupSetD) = (.ok (stOk, eng, d), t)) ∧
    (∃ j eng d t, RunReady c1 0x304 (engState mcastWriteD half2) j ∧
      (mcastWriteRun j).run (engState mcastWriteD half2) = (.ok (stOk, eng, d), t)) ∧
    (∃ j eng d t, RunReady c1 0x305 (engState collectiveD) j ∧
      (collectiveRun j).run (engState collectiveD) = (.ok (stOk, eng, d), t)) :=
  ⟨runOk (by decide +kernel), runOk (by decide +kernel), runOk (by decide +kernel), runOk (by decide +kernel),
    runOk (by decide +kernel), runOk (by decide +kernel), runOk (by decide +kernel), runOk (by decide +kernel),
    runOk (by decide +kernel), runOk (by decide +kernel), runOk (by decide +kernel)⟩

/-! Scheduling -/

/-- `tenant` with unit 0 of core 0 as `f` makes it, and virtual device 1 with a ready command there. -/
def unitState (f : ReelUnit → ReelUnit) : State :=
  ((tenant.onVd 1 fun _ => { vd0 with slot := 2 }).onStream 1 1 fun t => { t with
    queue := [{ placed (desc 0x100 1) with phase := .ready }] }).onCore 0 0 fun k => { k with units := k.units.modify 0 f }

theorem witness_UnitBoundaries :
    (let s := unitState fun u => { u with preempt := some (5, 1) };
      s.unitRow 0 0 0 = true ∧ ((s.core 0 0).unit (s.unitQ 0 0 0)).preempt = some (5, 1) ∧
        (s.core 0 0).array.getD ((s.unitQ 0 0 0).getD 0) none = none) ∧
    (let s := (tenant.onCore 0 0 fun k => { k with pendQuad := some true });
      s.unitRow 0 0 0 = true ∧ ((s.core 0 0).unit (s.unitQ 0 0 0)).preempt = none ∧ (s.core 0 0).pendQuad = some true ∧
        (s.site 0).fld (rPwrCore 0) Fld.pwrCoreState = 0) ∧
    (let s := unitState fun u => { u with reel := true, group := [0, 1], resident := some 0 };
      let u := (s.core 0 0).unit (s.unitQ 0 0 0);
      u.reel = true ∧ u.resident = some 0 ∧ u.preempt = none ∧ u.switching = none ∧
        u.others.find? (fun v => s.hasReady v 0 0 (s.unitQ 0 0 0)) = some 1 ∧
        s.hasReady 0 0 0 (s.unitQ 0 0 0) = false ∧ s.issuedOn 0 0 0 (s.unitQ 0 0 0) = []) ∧
    (let s := (tenant.onCore 0 0 fun k => { k with
        quad := true, units := k.units.set 3 { reel := true, group := [0, 1], resident := some 1 } });
      let u := (s.core 0 0).unit (s.unitQ 0 0 3);
      s.unitRow 0 0 3 = true ∧ u.reel = true ∧ u.resident.isSome = true ∧
        u.others.find? (fun v => s.hasReady v 0 0 (s.unitQ 0 0 3)) = none) ∧
    (let s := unitState fun u => { u with switching := some 1 };
      ((s.core 0 0).unit (s.unitQ 0 0 0)).switching = some 1) ∧
    (let b : Budget := ⟨0, 0, 11, 1, 1, 0⟩;
      let s := tenant.onSite 0 fun t => { t with watch := { t.watch with budgets := [b] } };
      (s.site 0).up = true ∧ (s.site 0).budget? 0 0 11 = some b) ∧
    bitOf (0xC0000000 : W32) 31 = true ∧ bitOf (0xC0000000 : W32) 30 = true := by
  decide +kernel

/-! The fabric -/

/-- `tenant` listening to part 1, with landing window 0 of cluster 0, and an open transaction 7 of this kind. -/
def fabState (kind : TxnKind := .read) : State :=
  withCmd c1 { placed (desc 0x200 1) with phase := .issued } (tenant.onSite 0 fun t =>
    { (t.onCluster 0 fun k => { k with windows := [⟨0, 0, c1, 0, 0, 4, 1, 0, [], false, false⟩] }) with
      net := { t.net with
        listed := [(1, 8)]
        txns := [⟨7, kind, 8, 1, 0, 20, t.gen 20, 0x100, 8, 0, 1, some c1, 0, none, 0, ⟨kind, 0, 8, 0x100, 8, 1, true, [], 0, none, 0, 0⟩⟩]
        fwd := [⟨3, 8, c1, 0, 9⟩] } })

/-- A packet of this type from part 1, under key slot 1. -/
def pktOf (type : Nat) (payload : Bytes) (op gen txn addr : Nat := 0) : Pkt :=
  ⟨({ type := type, src := 8, keyId := 1, op := op, gen := gen, txn := txn, len := payload.length, addr := addr } : Hdr).bits,
    1, payload, true⟩

/-- The transport after the replay check of a packet. -/
def netOf (s : State) (type : Nat) (p : Pkt) : Option Transport :=
  if isResponse type then some (s.site 0).net
  else (s.site 0).net.accept (Hdr.of p.hdr).keyId (Hdr.of p.hdr).src p.nonce.toNat

theorem exAcc {s : State} {type : Nat} {p : Pkt} {q : Transport → Prop} [DecidablePred q]
    (h : (netOf s type p).any (fun net => decide (((s.site 0).present = true ∧ badHeader p = false ∧
      (Hdr.of p.hdr).type = type ∧ (s.site 0).domState 20 = 0 ∧ (Hdr.of p.hdr).dst = s.addrOf 0 ∧
      ((s.site 0).slot? (Hdr.of p.hdr).keyId).any (fun k => decide (k.state ≠ .free ∧ k.gen = (Hdr.of p.hdr).keyGen)) =
        true ∧ p.icvOk = true) ∧ q net)) = true) :
    ∃ net, Accepted s 0 type p (Hdr.of p.hdr) net ∧ q net := by
  obtain ⟨net, hn, ⟨h1, h2, h3, h4, h5, h6, h7⟩, hq⟩ := exOf h
  exact ⟨net, ⟨rfl, h1, h2, h3, h4, h5, exOf h6, hn, h7⟩, hq⟩

/-- READ_REQ, WRITE, ATOMIC (an addition that asks for the old value), FENCE_SIG, CONTRIB and CONTROL. -/
theorem witness_RequestPackets :
    (∃ net, Accepted fabState 0 1 (pktOf 1 []) (Hdr.of (pktOf 1 []).hdr) net ∧
      ((fabState.onNet 0 fun _ => net).targetOf 0 (Hdr.of (pktOf 1 []).hdr) false).toOption = some true ∧
      ((fabState.onNet 0 fun _ => net).site 0).portHeld 0 = false ∧
      ((fabState.onNet 0 fun _ => net).tierRead 0 0 0 1 true true).1.isOk = true) ∧
    (∃ net, Accepted fabState 0 3 (pktOf 3 (zeros 8)) (Hdr.of (pktOf 3 (zeros 8)).hdr) net ∧
      ((fabState.onNet 0 fun _ => net).targetOf 0 (Hdr.of (pktOf 3 (zeros 8)).hdr) true).toOption = some true ∧
      ((fabState.onNet 0 fun _ => net).tierWrite 0 0 (zeros 8) 1 true true none).any (fun r => r.1.isOk) = true) ∧
    (∃ net, Accepted fabState 0 5 (pktOf 5 (zeros 8) 8) (Hdr.of (pktOf 5 (zeros 8) 8).hdr) net ∧
      ((fabState.onNet 0 fun _ => net).targetOf 0 (Hdr.of (pktOf 5 (zeros 8) 8).hdr) true).toOption = some true ∧
      (atomicPacket 0 (Hdr.of (pktOf 5 (zeros 8) 8).hdr) (zeros 8) 1 0 (fabState.onNet 0 fun _ => net)).any
        (fun r => r.1.isOk) = true) ∧
    (∃ net, Accepted fabState 0 7 (pktOf 7 (leBytes 8 9)) (Hdr.of (pktOf 7 (leBytes 8 9)).hdr) net ∧
      ((fabState.onNet 0 fun _ => net).targetOf 0 (Hdr.of (pktOf 7 (leBytes 8 9)).hdr) true).toOption = some true ∧
      ((fabState.onNet 0 fun _ => net).raiseWord 0 0 1 9).any (fun r => r.1.isOk) = true) ∧
    (∃ net, Accepted fabState 0 9 (pktOf 9 (zeros 16)) (Hdr.of (pktOf 9 (zeros 16)).hdr) net ∧
      (fabState.onNet 0 fun _ => net).sliceOf 1 = some 0 ∧
      ((fabState.onNet 0 fun _ => net).contribute 0 0 0 0 0 0 (zeros 16)).2 = true) ∧
    ∃ net, Accepted fabState 0 0xB (pktOf 0xB (zeros 16)) (Hdr.of (pktOf 0xB (zeros 16)).hdr) net ∧
      (fabState.onNet 0 fun _ => net).sliceOf 1 = some 0 :=
  ⟨exAcc (by decide +kernel), exAcc (by decide +kernel), exAcc (by decide +kernel), exAcc (by decide +kernel),
    exAcc (by decide +kernel), exAcc (by decide +kernel)⟩

/-- A response of this type, transaction number and generation tag. -/
def rspOf (type : Nat) (txn : Nat := 7) (gen : Nat := (tenant.site 0).gen 20) : Pkt := pktOf type (zeros 8) 0 gen txn

theorem witness_ResponsePackets : ∀ x ∈ [(2, [TxnKind.read, .fill], TxnKind.read), (4, [.write], .write),
      (6, [.atomic], .atomic), (8, [.fence], .fence), (0xA, [.contrib], .contrib), (0xC, [.control], .control)],
    ∃ net, Accepted (fabState x.2.2) 0 x.1 (rspOf x.1) (Hdr.of (rspOf x.1).hdr) net ∧
      (((fabState x.2.2).site 0).net.txns.find? fun y => decide (y.num = 7) && decide (y.dst = (Hdr.of (rspOf x.1).hdr).src) &&
        decide (y.slot = 1) && x.2.1.contains y.kind).any (fun y => decide (y.cmd = some c1 ∧
          (Hdr.of (rspOf x.1).hdr).gen = ((fabState x.2.2).site 0).gen y.dom)) = true := by
  intro x hx
  simp only [List.mem_cons, List.not_mem_nil, or_false] at hx
  rcases hx with rfl | rfl | rfl | rfl | rfl | rfl <;> exact exAcc (by decide +kernel)

/-- A response of another generation, and one that matches no open transaction. -/
theorem witness_StaleResponses :
    (∃ net, Accepted fabState 0 2 (rspOf 2 7 200) (Hdr.of (rspOf 2 7 200).hdr) net ∧
      ((fabState.site 0).net.txns.any fun y => decide (y.num = 7) && decide (y.dst = 8) && decide (y.kind = .read) &&
        decide ((Hdr.of (rspOf 2 7 200).hdr).gen ≠ (fabState.site 0).gen y.dom)) = true) ∧
    ∃ net, Accepted fabState 0 4 (rspOf 4 6) (Hdr.of (rspOf 4 6).hdr) net ∧
      ∀ y ∈ (fabState.site 0).net.txns, y.num ≠ (Hdr.of (rspOf 4 6).hdr).txn :=
  ⟨exAcc (by decide +kernel), exAcc (by decide +kernel)⟩

/-- `base` with link 7 in this state, the fabric enabled. -/
def linkState (st : Nat) (k : Link := {}) : State :=
  (((base.setFld 0 (rFabLink 7) Fld.fabLinkState st).setFld 0 rFabCfg Fld.fabCfgEnable 1)).onLink 0 7 fun _ => k

theorem witness_LinkFrames : ((linkState 6).site 0).linkUp 7 = true ∧ 2 ^ 24 % 2 ^ 24 = (((linkState 6).site 0).link 7).rxSeq ∧
    (let s := linkState 6 { rxSeq := 5, laneMap := [0, 4] };
      (s.site 0).linkUp 7 = true ∧ 4 % 2 ^ 24 ≠ ((s.site 0).link 7).rxSeq ∧ seqLe 4 ((s.site 0).link 7).rxSeq = true ∧
      seqLe 6 ((s.site 0).link 7).rxSeq = false ∧ ((s.site 0).link 7).laneMap.contains 4 = true) := by
  decide +kernel

theorem witness_LinkBringUp :
    (((linkState 1).site 0).mayTrain 7 = true ∧ ((linkState 1).site 0).bringUp 7 = 1 ∧
      2 ≤ ((List.range 5).filter (0x11 : BitVec 5).getLsbD).length ∧
      ((List.range 5).filter (0x10 : BitVec 5).getLsbD).length < 2) ∧
    (((linkState 2).site 0).mayTrain 7 = true ∧ ((linkState 2).site 0).bringUp 7 = 2) ∧
    (((linkState 7 { step := 3, laneMap := [0, 4] }).site 0).mayTrain 7 = true ∧
      ((linkState 7 { step := 3, laneMap := [0, 4] }).site 0).bringUp 7 = 3 ∧
      ((linkState 7 { step := 3, laneMap := [0, 4] }).site 0 |>.link 7).laneMap.all (0x11 : BitVec 5).getLsbD = true) ∧
    ((linkState 4).site 0).bringUp 7 = 4 ∧ ((linkState 5).site 0).bringUp 7 = 5 ∧ ((linkState 8).site 0).linkState 7 = 8 ∧
    (base.site 0).pins.coldRstN = true ∧ (base.site 0).d2dUp 3 = false ∧ (base.site 0).domState (domD2d 3) ≠ 2 ∧
    (let s := (base.setFld 0 (rD2dPort 3) Fld.d2dPortState 2).setFld 0 (rD2dPort 3) Fld.d2dPortModules 0xF;
      (s.site 0).d2dUp 3 = true ∧ (BitVec.ofNat 4 ((s.site 0).fld (rD2dPort 3) Fld.d2dPortModules)).getLsbD 3 = true) := by
  decide +kernel

theorem witness_FabricTimeoutsAndSettings :
    ((fabState.site 0).net.txns.find? (fun x => decide (x.num = 7))).any (fun x => decide (¬(x.kind = .control ∧
      x.branch = Ctl.work.code ∧ (fabState.site 0).net.fwd.any (fun f => decide (f.txn = 7)) = true))) = true ∧
    (fabState.site 0).net.fwd.find? (fun f => decide (f.tag = 3)) = some ⟨3, 8, c1, 0, 9⟩ ∧
    (let k : Cmd := { placed mcastWriteD with phase := .issued, unsent := [⟨.write, 0, 8, 0, 64, 1, true, [], 63, some 5, 0, 0⟩] };
      (withCmd c1 k).cmd? c1 = some k ∧ k.op = 0x304 ∧ k.ran = false ∧ (k.unsent.any fun r => decide (r.branch = 63)) = true) ∧
    (base.site 0).pins.coldRstN = true ∧ (base.site 0).domUp 19 = true ∧ 16383 < 2 ^ 14 ∧
    (let s := (base.setFld 0 rFabQuiesce Fld.fabQuiesceReq 1).setFld 0 rFabQuiesce Fld.fabQuiesceKeyId 1023;
      (s.site 0).fld rFabQuiesce Fld.fabQuiesceReq = 1 ∧
      (s.site 0).fabQuiet ((s.site 0).fld rFabQuiesce Fld.fabQuiesceKeyId) = true) := by
  decide +kernel

/-! Tenants -/

/-- `tenant` after some time, its key slot in this state. -/
def slotState (st : SlotState) : State := tenant.onSite 0 fun t =>
  { t with time := 2 ^ 40, slots := [{ num := 1, state := st, slice := 0 }] }
def removing (n : Nat) : State :=
  (slotState (if n < 3 then .active else .draining)).onVd 0 fun d => { d with removal := some ⟨n, 0, none⟩ }

theorem witness_KeysAndRemoval :
    (base.site 0).up = true ∧
    (let s := base.onVd 255 fun _ => { live := true, slot := 959 };
      (s.site 0).up = true ∧ (s.site 0).slotFree 959 = true ∧ s.keysFlow = true ∧ (s.vd 255).live = true ∧
        (s.vd 255).slot = 959 ∧ s.unsettled = false ∧ s.part.debug = false) ∧
    (let s := base.onPart fun p => { p with lends := [⟨0, 0, 1, 0⟩] };
      (s.site 0).slotFree 0 = true ∧ (s.vd 7).live = false ∧ (s.lender 0).isSome = true) ∧
    (((tenant.site 0).slot? 1).any (fun k => decide (k.state = .active)) = true ∧ (tenant.site 0).up = true ∧
      tenant.unsettled = false ∧ tenant.part.debug = false ∧ noPeer.part = tenant.partId ∧
      tenant.accepts { noPeer with part := 1, svn := 63 } = true) ∧
    (((slotState .draining).site 0).slot? 1).any (fun k => decide (k.state = .draining ∧
      (slotState .draining).slotQuiet 0 1 = true ∧ (slotState .draining).homed k.slice = true)) = true ∧
    (∀ n ∈ [0, 1, 2, 3, 4, 5, 6], ((removing n).vd 0).removal = some ⟨n, 0, none⟩ ∧ ((removing n).site 0).up = true) ∧
    ((removing 2).holders 0).all (fun i => (removing 2).slotQuiet i ((removing 2).vd 0).slot) = true := by
  decide +kernel

/-- `tenant` as a confidential slice whose TDI is in this state, with a secure stream 15. -/
def tdiState (x : Tdi) : State :=
  (tenant.onVd 0 fun d => { d with conf := true, tdi := x }).onSite 0 fun t => { t with
    ide := [{ stream := 15, secure := true, rxKeys := 3, txKeys := 3 }] }

theorem witness_TdispAndAttestation :
    (tenant.answers = true ∧ (tenant.blocks 0xFF).length ≠ 0 ∧ (tenant.vd 0).live = true ∧ tenant.homed 0 = true ∧
      (zeros 32).length = 32 ∧ spdmSupported.contains 0x84 = true) ∧
    ((base.site 0).managed = true ∧ (base.site 0).domUp 18 = true ∧ 2 ≤ (base.site 0).fld rHifLink Fld.hifLinkState) ∧
    (((tdiState .unlocked).site 0).ide? 15).any (fun x => x.secure) = true ∧
    ((tdiState .unlocked).vd 0).tdi = .unlocked ∧ ((tdiState .unlocked).vd 0).removal = none ∧
    (tdiState .unlocked).siteOf ((tdiState .unlocked).vd 0).port = 0 ∧
    ((tdiState .locked).vd 0).tdi = .locked ∧ ((tdiState .run).vd 0).tdi = .run := by
  decide +kernel

theorem witness_TdispAndAttestation_conf (x : Tdi) (h : x = .unlocked ∨ x = .locked ∨ x = .run) :
    ∃ t, ∀ run, (tdiState x).tdisp 0 run = run t := by
  have h : (tdiState x).answers = true ∧ ((tdiState x).raiseSrc ((tdiState x).siteOf ((tdiState x).vd 0).port) 0x66 |>.vd 0).live =
      true ∧ ((tdiState x).raiseSrc ((tdiState x).siteOf ((tdiState x).vd 0).port) 0x66 |>.vd 0).conf = true ∧
      ((tdiState x).raiseSrc ((tdiState x).siteOf ((tdiState x).vd 0).port) 0x66).homed 0 = true := by
    rcases h with rfl | rfl | rfl <;> decide +kernel
  exact ⟨_, fun run => by simp only [State.tdisp, h, Bool.not_true, Bool.or_self, Bool.false_eq_true, if_false]; rfl⟩

theorem witness_HostPort :
    ((base.site 0).managed = true ∧ (base.site 0).domUp 18 = true ∧ (base.site 0).pins.perstN = true ∧
      2 < (base.site 0).fld rHifLink Fld.hifLinkState ∧ base.part.lead.isSome = true ∧
      tenant.vdOf 0 (tenant.vd 0).vf = some 0) ∧
    ((base.setFld 0 rHifLink Fld.hifLinkState 2).site 0).fld rHifLink Fld.hifLinkState = 2 ∧
    (let s := tenant.onVd 0 fun d => { d with vf := 256 }; s.vdOf 0 256 = some 0) ∧
    ((base.onPins 0 fun p => { p with perstN := false }).site 0).pins.perstN = false := by
  decide +kernel

/-! The JTAG port and the registers -/

theorem witness_JtagGate : base.Inv ∧ (base.site 0).managed = true ∧ (base.site 0).pins.coldRstN = true ∧
    (base.site 0).pins.jtagOpen = false ∧
    ((base.onPins 7 fun p => { p with jtagOpen := true }).site 7).pins.jtagOpen = true ∧
    ∃ t, exec (.debugUnlock 0 true) base = .next t :=
  ⟨inv_of _ (by decide +kernel), by decide +kernel, by decide +kernel, by decide +kernel, by decide +kernel, _, rfl⟩

theorem witness_RegisterAccess : (base.pfPlace 4).isSome = true ∧ (base.pfPlace rHifLink).isSome = true ∧
    tenant.vfAnswers 0 = true ∧ 0xFFFC % 4 = 0 := by
  decide +kernel

/-! The management path -/

/-- A management packet of this opcode, tag 9, with these fields: offset, bytes, value (R478). -/
def mpkt (op : Nat) (fs : List (Nat × Nat × Nat) := []) : Bytes :=
  fs.foldl (fun b f => b.take f.1 ++ leBytes f.2.1 f.2.2 ++ b.drop (f.1 + f.2.1)) (leBytes 2 op ++ leBytes 2 9 ++ zeros 60)

/-- `tenant` with the rings on, one request posted, and an alarm, a log or lost records. -/
def ringState (f : Watch → Watch) : State :=
  (tenant.onRings fun g => { g with on := true, reqLog2 := 12, rplLog2 := 12, fltLog2 := 6, reqTail := 1 }).onWatch 0 f

def rec0 : Rec := ⟨7, 3, 0, 0, 1, 0, 0, [], []⟩

theorem witness_ManagementIntake :
    (tenant.part.lead.isSome = true ∧ tenant.part.rings.on = false ∧ bitOf (0x800E0C0C : W32) 31 = true ∧
      tenant.part.rings.mayStart (bitsOf (0x800E0C0C : W32) 19 16) (bitsOf (0x800E0C0C : W32) 11 8)
        (bitsOf (0x800E0C0C : W32) 3 0) = true ∧
      tenant.part.rings.mayStart (bitsOf (0x80060403 : W32) 19 16) (bitsOf (0x80060403 : W32) 11 8)
        (bitsOf (0x80060403 : W32) 3 0) = false) ∧
    (let s := ringState id;
      s.part.lead.isSome = true ∧ s.part.rings.on = true ∧ s.part.rings.err = false ∧
      s.part.rings.posted s.part.rings.reqTail ≤ s.part.rings.posted (bitsOf (2 : W32) 11 0 % 2 ^ s.part.rings.reqLog2) ∧
      s.activating = false ∧ s.part.reqs.length < 64 ∧ s.part.replies.length < 64 ∧ (mpkt 0xA03).length = 64 ∧
      s.nextRequest 1 (mpkt 0xA03) = some none ∧ mgmtOp (fieldAt (mpkt 0xA03) 0 2) = true ∧
      fieldAt (mpkt 0xA03) 4 4 = 0 ∧ mgmtOp (fieldAt (mpkt 0xA04) 0 2) = false) ∧
    (let s := tenant.onBox 0 0 fun _ => { state := .delivered, data := [0x90301, 0, 0, 0, 0, 0, 0, 0, 0, 0, 0, 0, 0, 0, 0, 0] };
      s.nextRequest 2 (mpkt 0x301) = some (some (0, 0)) ∧ boardMay (fieldAt (mpkt 0x301) 0 2) = true) ∧
    (let s := ringState fun w => { w with alarms := [rec0] };
      (s.site 0).managed = true ∧ (s.site 0).watch.alarms = [rec0] ∧ 1 + rec0.cont.length ≤ 2 ^ s.part.rings.fltLog2 - 1 -
          (s.part.rings.fltPos + 2 ^ s.part.rings.fltLog2 - s.part.rings.fltHead) % 2 ^ s.part.rings.fltLog2) ∧
    (let s := ringState fun w => { w with logs := [rec0] };
      (s.site 0).watch.alarms = [] ∧ (s.site 0).watch.logs = [rec0] ∧ 9 ≤ 2 ^ s.part.rings.fltLog2 - 1 -
          (s.part.rings.fltPos + 2 ^ s.part.rings.fltLog2 - s.part.rings.fltHead) % 2 ^ s.part.rings.fltLog2) ∧
    (((ringState fun w => { w with losing := true }).site 0).watch.losing = true) := by
  decide +kernel

/-- `base` with mailbox 15 in this state. -/
def boxState (x : BoxState) : State := base.onBox 0 15 fun b => { b with state := x }

theorem witness_Mailboxes :
    (base.site 0).managed = true ∧ ((base.site 0).box 15).state = .free ∧ (15 : Nat) < 16 ∧
    (((boxState (.held 3)).site 0).box 15).state = .held 3 ∧ ((boxState (.held 3)).site 0).boxHolder 15 = 3 ∧
    (((boxState .delivered).site 0).box 15).state = .delivered ∧
    ((boxState .delivered).site 0).boxHolder 15 = boxReceiver 15 ∧ bitOf (1 : W32) 0 = true ∧
    (base.site 0).pins.i3cAddr = none := by
  decide +kernel

/-! Interrupts -/

/-- `base` with private source 30 of processor 3 and shared sources 0x1FF and 0x84 enabled, delivered to processor 3. -/
def irqState : State :=
  let on (s : State) (n : Nat) : State := State.raiseSrc (((s.setFld 0 (rIrqSrc (n - 0x40)) Fld.irqSrcEn 1).setFld 0
    (rIrqSrc (n - 0x40)) Fld.irqSrcTarget 3).setFld 0 (rIrqSrc (n - 0x40)) Fld.irqSrcPrio 2) 0 n
  on (on base 0x1FF) 0x84

def irqPriv : State := (irqState.onSite 0 fun t => t.setReg (rIrqPrivEnLo 3) 0x40000000).raisePriv 0 3 30

theorem witness_InterruptSources :
    (base.site 0).managed = true ∧ srcNamed 3 30 = true ∧ srcNamed 0 0x1FF = true ∧ srcNamed 0 0x84 = true ∧
    (let s := irqState.onWatch 0 fun w => { w with delivered := [] };
      (s.site 0).fld (rIrqSrc (0x1FF - 0x40)) Fld.irqSrcPend ≠ 0 ∧ (s.site 0).fld (rIrqSrc (0x1FF - 0x40)) Fld.irqSrcEn ≠ 0 ∧
        (s.site 0).watch.delivered.contains 0x1FF = false) ∧
    (irqPriv.site 0).claimPriv 3 = some 30 ∧
    (irqState.site 0).claimPriv 3 = none ∧ (irqState.site 0).claimShared 3 = some 0x84 ∧
    (base.site 0).claimPriv 3 = none ∧ (base.site 0).claimShared 3 = none := by
  decide +kernel

theorem witness_ClaimOrder : (irqPriv.site 0).claimPriv 3 = some 30 ∧ (irqState.site 0).claimShared 3 = some 0x84 ∧
    ((base.raisePriv 0 0 3).site 0).claimPriv 0 = some 3 := by
  decide +kernel

/-! Resets, power and pins -/

/-- `tenant` with a domain in this state. -/
def domState (u st : Nat) (s : State := tenant) : State := s.setFld 0 (rHltDom u) Fld.hltDomState st

theorem witness_ResetAndHealth :
    (let s := domState 20 2;
      (s.site 0).present = true ∧ (s.site 0).domState 20 = 2 ∧ (outerDoms 20).any (s.site 0).inReset = false) ∧
    ((((domState 20 2).onSite 0 fun t => { t with time := 2 ^ 40 }).site 0).mayRelease 20 = true) ∧
    (let s := domState 20 3;
      (s.site 0).domState 20 = 3 ∧ (outerDoms 20).any (s.site 0).inReset = false ∧ (s.site 0).retrained 20 = true) ∧
    (let s := (tenant.setFld 0 rBlkCoreMap (3, 0) 8).setFld 0 rBlkGrade Fld.blkGradeGoodMask 0;
      (s.site 0).up = true ∧ (s.site 0).awaitsSpare 0 = true ∧ (s.site 0).sparesFor 0 = [] ∧
        ((s.setFld 0 rBlkGrade Fld.blkGradeSpareMask 0x28).site 0).sparesFor 0 = [3, 5]) ∧
    ((vecState (vw (4, 0))).site 0).coreRuns 0 = true ∧ ((vecState (vw (4, 0))).coreCodes 0 0).getD 6 0 = 1 ∧
    (let s := withCmd c1 { placed (desc 0x200 1) with phase := .issued } (tenant.onSite 0 fun t =>
        { t with dma := t.dma.set 15 (some c1) });
      (s.site 0).up = true ∧ (s.dmaCodes 0).getD 15 0 = 1) ∧
    (tenant.site 0).domUp (domCluster 1) = true ∧ tenant.part.lead = some 0 ∧
    (let s := (tenant.onSite 1 fun _ => { id := 1, pins := { coldRstN := true } });
      s.part.lead.isSome = true ∧ 1 ≠ s.lead ∧ (s.site 1).absent = false ∧ (s.site 1).managed = true) := by
  decide +kernel

/-- `tenant` with a power transition under way. -/
def powering (x : PowerCmd) : State := tenant.onWatch 0 fun w => { w with power := [x] }

theorem witness_StartUpPinsAndPower :
    (State.reset.site 7).pins.coldRstN = false ∧ (tenant.site 0).pins.coldRstN = true ∧ (tenant.site 0).managed = true ∧
    (tenant.site 0).inReset 20 = false ∧ (tenant.site 0).inReset (unitDom .core 0) = false ∧
    (tenant.site 0).fld (rMpPort 0) Fld.mpPortState = 2 ∧
    (powering ⟨.core, 0, 3, 3, 0, none⟩ |>.site 0).powerOf .core 0 = some ⟨.core, 0, 3, 3, 0, none⟩ ∧
    (powering ⟨.memPort, 5, 2, 2, 0, none⟩ |>.site 0).powerOf .memPort 5 = some ⟨.memPort, 5, 2, 2, 0, none⟩ ∧
    (powering ⟨.link, 7, 1, 1, 0, none⟩ |>.site 0).powerOf .link 7 = some ⟨.link, 7, 1, 1, 0, none⟩ ∧
    (let s := tenant.onPins 0 fun p => { p with pswEn := 0x2000 };
      (s.site 0).pins.pswEn.getLsbD 13 = true ∧ (s.site 0).pins.pswEn.getLsbD 12 = false ∧
        (s.site 0).pins.pswEn.getLsbD 13 ≠ (s.site 0).pins.pswAck.getLsbD 13 ∧ (s.site 0).powerOf .core (13 % 6) = none) ∧
    ((tenant.setFld 0 rClkLock (loopBit 9) 1).site 0).fld rClkLock (loopBit 9) ≠ 0 ∧
    3 ≤ ((tenant.setFld 0 rPwrBoot Fld.pwrBootStep 3).site 0).fld rPwrBoot Fld.pwrBootStep ∧
    ((((State.reset.onPins 0 fun p => { p with coldRstN := true, leadStrap := true }).setFld 0 rPwrBoot
      Fld.pwrBootStep 6).maySettle) = true) := by
  decide +kernel

/-! The management commands -/

/-- A management command on a state: its row's opcode, check and run, the fields of its packet, what the run is given,
and what is changed in `manState` first. -/
structure MgmtCase where
  op : Nat
  bad : Bytes → Bool
  run : State → MgmtRun → MReq → MEnd
  fs : List (Nat × Nat × Nat)
  f : State → State := id
  m : MgmtRun := { noMgmt with tag := 9, peer := { noPeer with svn := 63 } }

/-- `tenant` with cores 0 to 2 good and enabled, core 5 a good spare, core 1 on, and a stream 2 on unit 0. -/
def manState : State :=
  ((((tenant.setFld 0 rBlkGrade Fld.blkGradeGoodMask 0x27).setFld 0 rBlkGrade Fld.blkGradeEnabledMask 0x07).setFld 0 rBlkGrade
    Fld.blkGradeSpareMask 0x20).setFld 0 (rPwrCore 1) Fld.pwrCoreState 0).onSite 0 fun t => { t with time := 2 ^ 40 }

/-- The state that a case runs on: its request has been taken. -/
def MgmtCase.state (x : MgmtCase) : State :=
  (x.f manState).onPart fun p => { p with reqs := [⟨9, BitVec.ofNat 16 x.op, mpkt x.op x.fs, 1, none, false⟩] }

/-- How a run ends: 1 OK, 2 later. -/
def endKind : MEnd → Nat
  | .done _ st _ => if st = stOk then 1 else 0
  | .later _ => 2
  | _ => 0

def MgmtCase.test (x : MgmtCase) (k : Nat) : Bool :=
  (x.state.mreq? x.m x.op).any fun r => decide ((x.state.answers = true ∧ x.state.behind r = false ∧
    (r.started = true ∨ x.bad r.pkt = false)) ∧ endKind (x.run x.state x.m r) = k)

theorem MgmtCase.ok {x : MgmtCase} (h : x.test 1 = true) :
    ∃ r t b, MgmtReady x.m x.op x.bad x.state r ∧ x.run x.state x.m r = .done t stOk b := by
  obtain ⟨r, hr, h, he⟩ := exOf h
  cases hx : x.run x.state x.m r with
  | done t st b =>
    refine ⟨r, t, b, ⟨hr, h⟩, ?_⟩
    simp only [hx, endKind] at he
    split at he
    · simp [*]
    · simp at he
  | fail st b => simp [hx, endKind] at he
  | later t => simp [hx, endKind] at he
  | wait => simp [hx, endKind] at he

theorem MgmtCase.goes {x : MgmtCase} (h : x.test 2 = true) :
    ∃ r t, MgmtReady x.m x.op x.bad x.state r ∧ x.run x.state x.m r = .later t := by
  obtain ⟨r, hr, h, he⟩ := exOf h
  cases hx : x.run x.state x.m r with
  | later t => exact ⟨r, t, ⟨hr, h⟩, hx⟩
  | done t st b =>
    simp only [hx, endKind] at he
    split at he <;> simp at he
  | fail st b => simp [hx, endKind] at he
  | wait => simp [hx, endKind] at he

def place1 : List (Nat × Nat × Nat) := [(14, 1, 1), (15, 1, 0xFF)]
def leaving (n : Nat) (s : State) : State := s.onVd 0 fun d => { d with mig := some ⟨n, false, 1, 965, 0⟩ }

def shapeOk : List MgmtCase := [
  { op := 0x101, bad := sliceCreateBad, run := sliceCreateEnd, fs := [(9, 1, 5), (10, 1, 8)] },
  { op := 0x103, bad := unitBindBad, run := unitBindEnd, fs := place1 },
  { op := 0x104, bad := unitUnbindBad, run := fun s _ => unitUnbindEnd s, fs := [],
    f := fun s => (s.onStream 0 0 fun _ => {}).onStream 0 1 fun _ => {} },
  { op := 0x105, bad := unitMoveBad, run := unitMoveEnd, fs := place1 },
  { op := 0x106, bad := allotSetBad, run := allotSetEnd, fs := [(9, 1, 1), (16, 4, 8)] },
  { op := 0x107, bad := schedSetBad, run := fun s _ => schedSetEnd s, fs := [(9, 1, 0xFF), (11, 1, 5)] },
  { op := 0x108, bad := coreModeBad, run := fun s _ => coreModeEnd s, fs := [(9, 1, 1), (10, 1, 1)] },
  { op := 0x109, bad := labelSetBad, run := fun s _ => labelSetEnd s, fs := [(9, 1, 255), (10, 1, 1), (16, 1, 3), (18, 2, 4095)] },
  { op := 0x10A, bad := shareSetBad, run := fun s _ => shareSetEnd s, fs := [(12, 2, 256), (16, 4, 10000)] },
  { op := 0x10B, bad := guardSetBad, run := fun s _ => guardSetEnd s, fs := [(13, 1, 1), (14, 1, 63)] },
  { op := 0x10C, bad := mcastRangeBad, run := fun s _ => mcastRangeEnd s, fs := [(10, 2, 4095), (12, 2, 1)] },
  { op := 0x10D, bad := loftBudgetBad, run := fun s _ => loftBudgetEnd s, fs := [(12, 4, 16384)] },
  { op := 0x10E, bad := lendSetBad, run := fun s _ => lendSetEnd s, fs := [(10, 2, 1), (12, 1, 1), (13, 1, 0xFF)] },
  { op := 0x201, bad := coreStateBad, run := fun s _ => coreStateEnd s, fs := [(9, 1, 1)] },
  { op := 0x202, bad := memportStateBad, run := fun s _ => memportStateEnd s, fs := [] },
  { op := 0x203, bad := linkStateBad, run := fun s _ => linkStateEnd s, fs := [(9, 1, 7)] },
  { op := 0x701, bad := linkEnableBad, run := fun s _ => linkEnableEnd s, fs := [(9, 1, 7), (10, 1, 1)] }]

def shapeLater : List MgmtCase := [
  { op := 0x102, bad := sliceDestroyBad, run := fun s _ => sliceDestroyEnd s, fs := [] },
  { op := 0x104, bad := unitUnbindBad, run := fun s _ => unitUnbindEnd s, fs := [(10, 1, 1)] },
  { op := 0x105, bad := unitMoveBad, run := unitMoveEnd, fs := place1,
    f := fun s => withCmd c1 { placed (desc 0x200 1) with phase := .issued } s },
  { op := 0x108, bad := coreModeBad, run := fun s _ => coreModeEnd s, fs := [(10, 1, 1)] },
  { op := 0x201, bad := coreStateBad, run := fun s _ => coreStateEnd s, fs := [(9, 1, 1), (10, 1, 3)] },
  { op := 0x202, bad := memportStateBad, run := fun s _ => memportStateEnd s, fs := [(10, 1, 1)] },
  { op := 0x203, bad := linkStateBad, run := fun s _ => linkStateEnd s, fs := [(9, 1, 7), (10, 1, 2)] }]

def careOk : List MgmtCase := [
  { op := 0x301, bad := resetBad, run := fun s _ => resetEnd s, fs := [(10, 1, 2)] },
  { op := 0x302, bad := escalateSetBad, run := fun s _ => escalateSetEnd s, fs := [(8, 1, 0xFF), (12, 4, 86400), (16, 1, 15)] },
  { op := 0x303, bad := healthGetBad, run := fun s _ => healthGetEnd s, fs := [] },
  { op := 0x401, bad := fwStageBad, run := fwStageEnd, fs := [] },
  { op := 0x403, bad := fwCommitBad, run := fun s _ => fwCommitEnd s, fs := [] },
  { op := 0x404, bad := fwDiscardBad, run := fun s _ => fwDiscardEnd s, fs := [],
    f := fun s => s.onSite 0 fun t => { t with flash := { t.flash with pending := true } } },
  { op := 0x405, bad := fwInfoBad, run := fun s _ => fwInfoEnd s, fs := [] },
  { op := 0x501, bad := attStateBad, run := fun s _ => attStateEnd s, fs := [] },
  { op := 0x502, bad := attMeasureBad, run := fun s _ => attMeasureEnd s, fs := [(8, 1, 1)] },
  { op := 0x503, bad := attReportBad, run := attReportEnd, fs := [] },
  { op := 0x601, bad := policySetBad, run := policySetEnd, fs := [(9, 1, 3)] },
  { op := 0x602, bad := pageRetireBad, run := fun s _ => pageRetireEnd s, fs := [(12, 4, 1)] },
  { op := 0x603, bad := chEvacuateBad, run := fun s _ => chEvacuateEnd s, fs := [(9, 1, 1)],
    f := fun s => s.setFld 0 (rMpCh 1) Fld.mpChState 2 },
  { op := 0x604, bad := chReturnBad, run := fun s _ => chReturnEnd s, fs := [(9, 1, 79)],
    f := fun s => s.setFld 0 (rMpCh 79) Fld.mpChState 5 },
  { op := 0x605, bad := weightAllotBad, run := fun s _ => weightAllotEnd s, fs := [(12, 4, 1)] },
  { op := 0x606, bad := weightLoadBad, run := weightLoadEnd, fs := [(24, 8, 1)],
    f := fun s => s.onSite 0 fun t => { t with weightAllot := [1, 0] } },
  { op := 0x608, bad := weightGrantBad, run := fun s _ => weightGrantEnd s, fs := [(9, 1, 255), (10, 2, 4095)],
    f := fun s => s.onPart fun p => { p with weights := [⟨4095, 1, 0, [], 0⟩] } },
  { op := 0x609, bad := weightRevokeBad, run := fun s _ => weightRevokeEnd s, fs := [(9, 1, 3)],
    f := fun s => s.onHold 0 fun h => { h with grants := [(3, 0)] } },
  { op := 0x60A, bad := weightFreeBad, run := fun s _ => weightFreeEnd s, fs := [(8, 2, 4095)],
    f := fun s => s.onPart fun p => { p with weights := [⟨4095, 1, 0, [], 0⟩] } },
  { op := 0x801, bad := chTestBad, run := fun s _ => chTestEnd s, fs := [(9, 1, 79)],
    f := fun s => s.setFld 0 (rMpCh 79) Fld.mpChState 2 },
  { op := 0x802, bad := logLevelBad, run := fun s _ => logLevelEnd s, fs := [(8, 1, 3)] },
  { op := 0x901, bad := migrateFreezeBad, run := fun s _ => migrateFreezeEnd s, fs := [] },
  { op := 0x902, bad := migratePeerBad, run := migratePeerEnd, fs := [(10, 2, 1)], f := leaving 1,
    m := { noMgmt with tag := 9, peer := { noPeer with part := 1, svn := 63 } } },
  { op := 0x905, bad := migrateCommitBad, run := migrateCommitEnd, fs := [], f := leaving 3 },
  { op := 0x906, bad := migrateCancelBad, run := fun s _ => migrateCancelEnd s, fs := [], f := leaving 1 },
  { op := 0x907, bad := migrateThawBad, run := migrateThawEnd, fs := [], f := leaving 7 },
  { op := 0xA01, bad := spareInBad, run := spareInEnd, fs := [(10, 1, 1)] },
  { op := 0xA02, bad := healthCheckBad, run := healthCheckEnd, fs := [] },
  { op := 0xA03, bad := spareGetBad, run := fun s _ => spareGetEnd s, fs := [] }]

def careLater : List MgmtCase := [
  { op := 0x301, bad := resetBad, run := fun s _ => resetEnd s, fs := [(9, 1, 5)] },
  { op := 0x402, bad := fwActivateBad, run := fwActivateEnd, fs := [(9, 1, 1)],
    f := fun s => s.onSite 0 fun t => { t with flash := { t.flash with pending := true } } },
  { op := 0x602, bad := pageRetireBad, run := fun s _ => pageRetireEnd s, fs := [] },
  { op := 0x603, bad := chEvacuateBad, run := fun s _ => chEvacuateEnd s, fs := [] },
  { op := 0x609, bad := weightRevokeBad, run := fun s _ => weightRevokeEnd s, fs := [(9, 1, 3)],
    f := fun s => (s.onHold 0 fun h => { h with grants := [(3, 0)] }).onSp 0 fun p => { p with
      objs := [{ index := 4, cls := .shared, size := 1, grant := 3 }] } },
  { op := 0x702, bad := portgroupResetBad, run := fun s _ => portgroupResetEnd s, fs := [] },
  { op := 0x901, bad := migrateFreezeBad, run := fun s _ => migrateFreezeEnd s, fs := [],
    f := fun s => withCmd c1 { placed (desc 0x200 1) with phase := .issued } s }]

theorem witness_ManagementShape : ∀ x ∈ shapeOk,
    ∃ r t b, MgmtReady x.m x.op x.bad x.state r ∧ x.run x.state x.m r = .done t stOk b := fun x hx =>
  MgmtCase.ok (List.all_eq_true.mp (show shapeOk.all (·.test 1) = true by decide +kernel) x hx)

theorem witness_ManagementShape_later : ∀ x ∈ shapeLater,
    ∃ r t, MgmtReady x.m x.op x.bad x.state r ∧ x.run x.state x.m r = .later t := fun x hx =>
  MgmtCase.goes (List.all_eq_true.mp (show shapeLater.all (·.test 2) = true by decide +kernel) x hx)

theorem witness_ManagementCare : ∀ x ∈ careOk,
    ∃ r t b, MgmtReady x.m x.op x.bad x.state r ∧ x.run x.state x.m r = .done t stOk b := fun x hx =>
  MgmtCase.ok (List.all_eq_true.mp (show careOk.all (·.test 1) = true by decide +kernel) x hx)

theorem witness_ManagementCare_later : ∀ x ∈ careLater,
    ∃ r t, MgmtReady x.m x.op x.bad x.state r ∧ x.run x.state x.m r = .later t := fun x hx =>
  MgmtCase.goes (List.all_eq_true.mp (show careLater.all (·.test 2) = true by decide +kernel) x hx)

/-- The copy of a weight of one byte from instance 0 to instance 1. -/
def copyCase : MgmtCase :=
  { op := 0x607, bad := weightCopyBad, run := fun s _ => weightCopyEnd s, fs := [(10, 1, 1)]
    f := fun s => (s.onSite 1 fun _ => { (s.site 0) with id := 1, weightAllot := [1, 0] }).onPart fun p => { p with
      weights := [⟨0, 1, Config.sha384 (zeros 1), [(0, false, 0)], 0⟩] } }

theorem weightCopy_done {s : State} {r : MReq} {i n base : Nat} {w : Weight} {data : Bytes} {u : State}
    (hi : s.siteOf (fieldAt r.pkt 10 1) = i ∧ i < 8 ∧ (s.site i).domState 20 = 0) (hn : fieldAt r.pkt 8 2 = n)
    (hw : s.weight? n = some w) (hc : (w.copies.any fun c => decide (c.1 = (s.site i).id)) = false)
    (hr : s.weightRoom i (decide (fieldAt r.pkt 11 1 = 1)) w.pages = true) (hb : s.weightBytes w = some data)
    (hl : s.landWeight i (decide (fieldAt r.pkt 11 1 = 1)) data = some (base, u)) (hd : Config.sha384 data = w.digest) :
    ∃ t b, weightCopyEnd s r = .done t stOk b := by
  subst hn
  obtain ⟨rfl, h8, h0⟩ := hi
  have : ¬8 ≤ s.siteOf (fieldAt r.pkt 10 1) := by omega
  simp [weightCopyEnd, State.atInst, this, h0, hw, hc, hr, hb, hl, hd, okWith]

theorem witness_ManagementCare_copy :
    ∃ r t b, MgmtReady copyCase.m 0x607 weightCopyBad copyCase.state r ∧ weightCopyEnd copyCase.state r = .done t stOk b := by
  have hw : ∃ w, copyCase.state.weight? 0 = some w ∧ (w.copies.any fun c => decide (c.1 = (copyCase.state.site 1).id)) = false ∧
      copyCase.state.weightRoom 1 false w.pages = true ∧ copyCase.state.weightBytes w = some (zeros 1) ∧
      w.digest = Config.sha384 (zeros 1) := ⟨_, rfl, by decide +kernel, by decide +kernel, by decide +kernel, rfl⟩
  obtain ⟨w, hw, hc, hr, hb, hd⟩ := hw
  obtain ⟨x, hl, -⟩ : ∃ x, copyCase.state.landWeight 1 false (zeros 1) = some x ∧ True := exOf (by decide +kernel)
  obtain ⟨t, b, h⟩ := weightCopy_done (s := copyCase.state)
    (r := ⟨9, 0x607, mpkt 0x607 [(10, 1, 1)], 1, none, false⟩) (i := 1) (n := 0)
    (by decide +kernel) (by decide +kernel) hw hc hr hb hl hd.symm
  exact ⟨_, t, b, ⟨rfl, by decide +kernel⟩, h⟩

/-- A save of slice 0, whose object has gone, to a buffer that is long enough. -/
def saveCase : MgmtCase :=
  { op := 0x903, bad := migrateSaveBad, run := migrateSaveEnd, fs := [(24, 8, 2 ^ 63)]
    f := fun s => (leaving 2 s).onSp 0 fun p => { p with objs := [] } }

theorem migrateSave_done {s : State} {m : MgmtRun} {r : MReq} {v : Nat} {g : Migration} (hv : fieldAt r.pkt 8 1 = v)
    (h : (s.vd v).live = true ∧ s.homed v = true ∧ s.part.debug = false ∧ (s.vd v).removal = none ∧
      (s.vd v).leaving [2] = some g ∧ s.resetting v = false ∧ m.pfFault = false)
    (hl : ¬fieldAt r.pkt 24 8 < imageLength (((s.sliceImage v).sections.map fun p => p.2.length) ++ [48])) :
    ∃ t b, migrateSaveEnd s m r = .done t stOk b := by
  subst hv
  obtain ⟨h1, h2, h3, h4, h5, h6, h7⟩ := h
  simp [migrateSaveEnd, State.shapes, State.ofSlice, h1, h2, h3, h4, h5, h6, h7, hl, okWith]

/-- Where the sections that the model leaves free are empty; the same holds for any lengths that the buffer has room for. -/
theorem witness_ManagementCare_save (h : ∀ n k x, Config.sectionBytes n k x = []) :
    ∃ r t b, MgmtReady saveCase.m 0x903 migrateSaveBad saveCase.state r ∧
      migrateSaveEnd saveCase.state saveCase.m r = .done t stOk b := by
  obtain ⟨g, hg, -⟩ : ∃ g, (saveCase.state.vd 0).leaving [2] = some g ∧ True := exOf (by decide +kernel)
  obtain ⟨t, b, h⟩ := migrateSave_done (s := saveCase.state) (m := saveCase.m) (v := 0) (g := g)
    (r := ⟨9, 0x903, mpkt 0x903 [(24, 8, 2 ^ 63)], 1, none, false⟩) (by decide +kernel)
    ⟨by decide +kernel, by decide +kernel, by decide +kernel, by decide +kernel, hg, by decide +kernel, rfl⟩
    (by simp only [SliceImage.sections, h]; decide +kernel)
  exact ⟨_, t, b, ⟨rfl, by decide +kernel⟩, h⟩

/-- The restore of an image that opens to a slice without units and objects, from part 1. -/
def restoreCase : MgmtCase :=
  { op := 0x904, bad := migrateRestoreBad, run := migrateRestoreEnd, fs := [(9, 1, 7)]
    m := { noMgmt with tag := 9, buf := leBytes 2 1 ++ zeros 62, peer := { noPeer with part := 1, svn := 63 } } }

def image0 : SliceImage := { vd := { live := true, slot := 5 } }

theorem migrateRestore_done {s u : State} {m : MgmtRun} {r : MReq} {x : SliceImage} {i n v : Nat}
    (h : s.siteOf (fieldAt r.pkt 8 1) = i ∧ i < 8 ∧ [4, 5].contains ((s.site i).domState 18) = false ∧
      s.part.debug = false ∧ m.pfFault = false ∧ s.unsettled = false ∧ m.peer.settled = true ∧ s.accepts m.peer = true ∧
      s.part.restored = [] ∧ s.migrations < 4 ∧ ((s.vdsOn i).any fun v => decide ((s.vd v).vf = fieldAt r.pkt 9 1)) = false ∧
      fieldAt m.buf 0 2 = 1 ∧ fieldAt m.buf 16 8 ≤ m.buf.length ∧ m.sigOk = true)
    (hn : ((List.range 960).find? fun n => (List.range 8).all fun i => !(s.site i).present || (s.site i).slotFree n) = some n)
    (hv : ((List.range 256).find? fun v => !(s.vd v).live) = some v) (hx : Config.openImage m.buf = x)
    (hl : s.loadSlice v i (fieldAt r.pkt 9 1) n x m = .ok u) : ∃ t b, migrateRestoreEnd s m r = .done t stOk b := by
  obtain ⟨rfl, h8, h0, h1, h2, h3, h4, h5, h6, h7, h9, ha, hb, hc⟩ := h
  have h8 : ¬8 ≤ s.siteOf (fieldAt r.pkt 8 1) := by omega
  have h7 : ¬4 ≤ s.migrations := by omega
  have hb : ¬m.buf.length < fieldAt m.buf 16 8 := by omega
  simp only [migrateRestoreEnd, State.atPort, h8, h0, h1, h2, h3, h4, h5, h6, h7, h9, ha, hb, hc, hn, hv, hx, hl]
  simp [okWith]

theorem witness_ManagementCare_restore (h : Config.openImage (leBytes 2 1 ++ zeros 62) = image0) :
    ∃ r t b, MgmtReady restoreCase.m 0x904 migrateRestoreBad restoreCase.state r ∧
      migrateRestoreEnd restoreCase.state restoreCase.m r = .done t stOk b := by
  obtain ⟨u, hl, -⟩ : ∃ u, (restoreCase.state.loadSlice 1 0 7 0 image0 restoreCase.m).toOption = some u ∧ True :=
    exOf (by decide +kernel)
  have hl : restoreCase.state.loadSlice 1 0 7 0 image0 restoreCase.m = .ok u := by
    generalize restoreCase.state.loadSlice 1 0 7 0 image0 restoreCase.m = y at hl
    cases y with
    | error e => cases hl
    | ok y => cases hl; rfl
  obtain ⟨t, b, h⟩ := migrateRestore_done (s := restoreCase.state) (m := restoreCase.m) (i := 0) (n := 0) (v := 1)
    (r := ⟨9, 0x904, mpkt 0x904 [(9, 1, 7)], 1, none, false⟩) (by decide +kernel) (by decide +kernel) (by decide +kernel) h hl
  exact ⟨_, t, b, ⟨rfl, by decide +kernel⟩, h⟩

/-! Worked examples of the spec -/

/-- The example of R26: physical core 1 fails BIST on a G4 instance. -/
theorem test_core_map : pickCores 0x3D 4 12 0 0 0 = 0x1D ∧ gradeWord 0x3D 0x1D 4 6 4 = 0x2077D934 ∧ coreMap 0x1D = 0xCBA8 := by
  decide +kernel

/-- The examples of R16 and of spec/16: the vector engine window of physical core 4 on instance 5, and IRQ_SRC of
source 0x071 on instance 3. -/
theorem test_addresses : 5 * 0x2000000 + rVeMapLo 4 = 0x0B610000 ∧ 3 * 0x2000000 + rIrqSrc (0x71 - 0x40) = 0x069101C4 := by
  decide +kernel

/-- The example of R53: elements 9, 20, 30 and 31 of a Sward8 block with the scale word 0xD87A. -/
def swardAt (k e : Nat) : Fp := ((⟨8, false, e4m3, .sward⟩ : InFmt).element 0xD87A k e).scale (-5)

theorem test_sward :
    ([(9, 0xB3), (20, 0x05), (30, 0x7E)].map fun x => (fp32.convert .rne false (swardAt x.1 x.2)).1) =
      [0xBBB00000, 0x39200000, 0x3FE00000] ∧ (match swardAt 31 0x7F with | .nan _ => true | _ => false) = true ∧
    (⟨8, false, e4m3, .sward⟩ : InFmt).exponent 0xD87A = -5 := by
  decide +kernel

/-! Boundary operands of the statements about one operation -/

/-- Of the 512 FP32 lanes of a register, elements 0 to 3 are below an element count of 4. -/
theorem witness_VectorElementRule : lanes 0 = 512 ∧
    (let v := (vecState (vw (0, 0))).core 0 0 |>.ves.getD 0 {};
      3 < v.count 0 ∧ v.active (vw (0, 0)) 3 = true ∧ ¬4 < v.count 0) ∧ 15 ≠ vVd (vw (0, 0)) := by
  decide +kernel

theorem witness_VectorPredicateZero : 0 < 1 ∧ 7 < 8 ∧ 0 ≠ 7 := by decide

theorem witness_ScalarRegisterZero : 0 < 1 ∧ 31 < 32 ∧ 0 ≠ 31 := by decide

theorem witness_DomainNumbers : 5 < 6 ∧ 1 < 2 ∧ 3 < 4 := by decide

end Sys2Proof.Tests
end

/-! The machine as a whole: every run keeps the invariant, what a command leaves alone, which command can stop the
block, what reset leaves, and where a register access arrives. -/

namespace Sys2Proof.Machine

/-! What `Kept` says, part by part -/

theorem Kept.pending_eq {s t : State} (h : Kept s t) : t.pending = s.pending := h.1

theorem Kept.out_prefix {s t : State} (h : Kept s t) : s.out <+: t.out := h.2.1

theorem Kept.free_le {s t : State} (h : Kept s t) : s.free ≤ t.free := h.2.2.1

theorem Kept.inv {s t : State} (h : Kept s t) : s.Inv → t.Inv := h.2.2.2

/-! Steps -/

/-- The invariant says nothing of the queue. -/
theorem inv_withPending {s : State} {l : List Instr} : ({ s with pending := l } : State).Inv ↔ s.Inv := Iff.rfl

/-- A step that answers a next state idles on an empty queue or runs the command at the queue's front. -/
theorem step_next_cases {s t : State} (h : step s = .next t) :
    (s.pending = [] ∧ t = idle s) ∨
      ∃ c rest, s.pending = c :: rest ∧ exec c { s with pending := rest } = .next t := by
  cases hq : s.pending with
  | nil =>
    simp only [step, hq, Host.Outcome.next.injEq] at h
    exact .inl ⟨rfl, h.symm⟩
  | cons c rest =>
    simp only [step, hq] at h
    exact .inr ⟨c, rest, rfl, h⟩

theorem step_inv {s t : State} (hs : s.Inv) (h : step s = .next t) : t.Inv := by
  obtain ⟨-, rfl⟩ | ⟨c, rest, -, hc⟩ := step_next_cases h
  · exact (idle_kept (Kept.refl s)).inv hs
  · exact (exec_kept hc).inv (inv_withPending.mpr hs)

/-- Settles O4: a step idles or runs one command, and both keep the invariant (`idle_kept`, `exec_kept`). -/
theorem stepKeepsInvariant : Obligations.StepKeepsInvariant :=
  fun _ _ hs h => step_inv hs h

/-- Settles O5: the queue, the messages sent and the free values are parts of what every command keeps. These three
fields are the model's own (log entry 86). -/
theorem commandsOnlyAdd : Obligations.CommandsOnlyAdd := by
  intro c s t h
  have kept : Kept s t := exec_kept h
  exact ⟨kept.pending_eq, kept.out_prefix, kept.free_le⟩

/-! Answers -/

theorem execScalarInstruction_answers (e : SeRef) (w : W32) (s : State) :
    ∃ t, execScalarInstruction e w s = .next t := by
  unfold execScalarInstruction
  split
  · exact ⟨_, rfl⟩
  · exact ⟨_, rfl⟩

/-- A training report stops the block only for the read latency of a fast-tier PHY (R2, R237). -/
theorem execMemoryPortTraining_answers_or_stops (i port : Nat) (r : TrainReport) (s : State) :
    (∃ t, execMemoryPortTraining i port r s = .next t) ∨
      (execMemoryPortTraining i port r s = .fault .surroundings ∧ port < 2 ∧
        (r.readLatency < 8 ∨ 64 < r.readLatency)) := by
  unfold execMemoryPortTraining
  dsimp only
  split
  · exact .inl ⟨_, rfl⟩
  · split
    · exact .inl ⟨_, rfl⟩
    · split
      · exact .inl ⟨_, rfl⟩
      · split
        next hlat => exact .inr ⟨rfl, hlat⟩
        · exact .inl ⟨_, rfl⟩

/-- Every command but MEMORY_PORT_TRAINING answers. All of them but SCALAR_INSTRUCTION, which has two instruction
lengths, are `.next` of a state by their very form, the shared frames of the rows included. -/
theorem exec_answers_of_ne_training {c : Instr} (hc : ∀ i port r, c ≠ .memoryPortTraining i port r) (s : State) :
    ∃ t, exec c s = .next t := by
  cases c
  case memoryPortTraining i port r => exact absurd rfl (hc i port r)
  case scalarInstruction e w => exact execScalarInstruction_answers e w s
  all_goals exact ⟨_, rfl⟩

/-- Settles O6: the one row with a stop is MEMORY_PORT_TRAINING; every other row has a next state, the state itself
where its conditions fail (log entry 3). -/
theorem everyCommandAnswers : Obligations.EveryCommandAnswers := by
  intro c s
  by_cases hc : ∃ i port r, c = .memoryPortTraining i port r
  · obtain ⟨i, port, r, rfl⟩ := hc
    rw [exec_memoryPortTraining]
    obtain ht | ⟨hstop, hport, hlat⟩ := execMemoryPortTraining_answers_or_stops i port r s
    · exact .inl ht
    · exact .inr ⟨hstop, i, port, r, rfl, hport, hlat⟩
  · exact .inl (exec_answers_of_ne_training (fun i port r h => hc ⟨i, port, r, h⟩) s)

/-! Reset -/

theorem getD_replicate_self {α : Type} (n k : Nat) (d : α) : (List.replicate n d).getD k d = d := by
  rw [List.getD_eq_getElem?_getD, List.getElem?_replicate]
  split
  · rfl
  · rfl

@[simp] theorem reset_site {i : Nat} (hi : i < 8) : State.reset.site i = { id := i } := by
  rw [State.site, List.getD_eq_getElem?_getD]
  have hsites : State.reset.sites = (List.range 8).map fun n => { id := n } := rfl
  rw [hsites, List.getElem?_map, List.getElem?_range hi]
  rfl

@[simp] theorem reset_vd (v : Nat) : State.reset.vd v = {} := getD_replicate_self _ _ _

@[simp] theorem reset_core {i : Nat} (hi : i < 8) (p : Nat) : State.reset.core i p = {} := by
  rw [State.core, reset_site hi]
  exact getD_replicate_self _ _ _

/-- Settles O3: a site at reset has the memories of the default site. -/
theorem resetInvariant : Obligations.ResetInvariant := by
  refine ⟨List.length_map _, List.length_replicate, fun t ht => ?_⟩
  obtain ⟨n, -, rfl⟩ := List.mem_map.mp ht
  exact Site.default_canonical

/-- Settles O7: every site, core, device and mailbox at reset is the default one. That the reset state is the part in
cold reset is the model's reading (log entry 11), and that what the spec gives no reset value starts cleared is its
choice (log entry 10). -/
theorem resetValues : Obligations.ResetValues := by
  refine ⟨rfl, rfl, rfl, fun v _ => ?device, fun i hi => ?site⟩
  case device =>
    rw [reset_vd]
    exact ⟨rfl, congrArg Stream.state (getD_replicate_self _ _ _)⟩
  case site =>
    rw [reset_site hi]
    refine ⟨rfl, rfl, rfl, fun b _ => congrArg Mailbox.state (getD_replicate_self _ _ _), fun p _ => ?_⟩
    rw [reset_core hi]
    exact ⟨rfl, rfl, rfl, fun k _ => congrArg Ve.busy (getD_replicate_self _ _ _),
      fun k _ => congrArg Se.mode (getD_replicate_self _ _ _)⟩

/-! Register accesses -/

theorem execRegisterWrite_pf {a : RegAddr} {s : State} {value : W32} {i o : Nat} {r : RegRow} (ha : a.space = .pf)
    (hp : s.pfPlace a.off = some (i, o, r)) :
    execRegisterWrite a value s = .next (s.writePf a.agent i o r value) := by
  simp only [execRegisterWrite, ha, hp]

theorem execRegisterWrite_vf0 {a : RegAddr} {s : State} {value : W32} {v : Nat} (ha : a.space = .vf0 v)
    (hv : s.vfAnswers v = true) (hoff : a.off % 4 = 0) :
    execRegisterWrite a value s = .next (s.writeVf v a.off value) := by
  simp only [execRegisterWrite, ha, hv, hoff, and_self, if_true]

theorem execRegisterWrite_vf2 {a : RegAddr} {s : State} {value : W32} {v : Nat} (ha : a.space = .vf2 v)
    (hv : s.vfAnswers v = true) (hoff : a.off % 4 = 0) :
    execRegisterWrite a value s = .next (s.writeNoel v a.off value) := by
  simp only [execRegisterWrite, ha, hv, hoff, and_self, if_true]

/-- Settles O58: the three read rows are one access by address (log entry 1), and a write goes where its space says. -/
theorem registerAccess : Obligations.RegisterAccess := by
  intro a s
  refine ⟨rfl, rfl, rfl, fun value i o r ha hp => ?pf, fun value v ha hv hoff => ?vf0,
    fun value v ha hv hoff => ?vf2⟩
  case pf => exact exec_registerWrite.trans (execRegisterWrite_pf ha hp)
  case vf0 => exact exec_registerWrite.trans (execRegisterWrite_vf0 ha hv hoff)
  case vf2 => exact exec_registerWrite.trans (execRegisterWrite_vf2 ha hv hoff)

end Sys2Proof.Machine

/-! The organisation's occurrences: what a boundary, a quantum and a window do to an engine unit, how a link and a
die-to-die port come up, and what start-up, the pins, the loops and the power steps do. A row is one guarded state
change: each lemma here says which guard holds, and so which state the row answers. -/

namespace Sys2Proof.Machine

/-! Rows of an engine unit -/

/-- The guard shared by the unit rows lets a row of a unit pass. -/
theorem unitRow_guard {s : State} {i p q : Nat} (hrow : s.unitRow i p q = true) : ¬(!s.unitRow i p q) = true := by
  simp [hrow]

theorem execTileBoundary_preempt {s : State} {i p q start v : Nat} (hrow : s.unitRow i p q = true)
    (hpre : ((s.core i p).unit (s.unitQ i p q)).preempt = some (start, v)) :
    execTileBoundary i p q s = .next (s.saveUnit i p (s.unitQ i p q) start v) := by
  simp only [execTileBoundary, if_neg (unitRow_guard hrow), hpre]

theorem execTileBoundary_mode {s : State} {i p q : Nat} {m : Bool} (hrow : s.unitRow i p q = true)
    (hpre : ((s.core i p).unit (s.unitQ i p q)).preempt = none) (hmode : (s.core i p).pendQuad = some m)
    (hc0 : (s.site i).fld (rPwrCore p) Fld.pwrCoreState = 0) :
    execTileBoundary i p q s = .next (s.setMode i p m) := by
  simp only [execTileBoundary, if_neg (unitRow_guard hrow), hpre, hmode, if_pos hc0]

/-- An engine of a core, while no command owns the array, lets a pending pre-emption through. -/
theorem execWorkUnitBoundary_preempt {s : State} {i p q start v : Nat} {kind : EngineKind}
    (hrow : s.unitRow i p q = true)
    (hkind : kind ≠ .dma ∧ kind ≠ .router ∧ kind ≠ .reduction ∧ kind ≠ .fabric ∧ kind ≠ .frontEnd)
    (harray : (s.core i p).array.getD ((s.unitQ i p q).getD 0) none = none)
    (hpre : ((s.core i p).unit (s.unitQ i p q)).preempt = some (start, v)) :
    execWorkUnitBoundary i p q kind s = .next (s.saveUnit i p (s.unitQ i p q) start v) := by
  obtain ⟨hdma, hrouter, hreduction, hfabric, hfront⟩ := hkind
  rw [List.getD_eq_getElem?_getD] at harray
  simp [execWorkUnitBoundary, hrow, hdma, hrouter, hreduction, hfabric, hfront, harray, hpre]

/-- A unit whose quantum can end: it runs under Reel, a slice is in it, and no pre-emption or switch has begun. -/
def ReelUnit.CanSwitch (u : ReelUnit) : Prop :=
  u.reel = true ∧ u.resident.isSome = true ∧ u.preempt = none ∧ u.switching = none

/-- The guard of the end of a quantum lets the row of such a unit pass. -/
theorem quantum_guard {s : State} {i p q : Nat} {u : ReelUnit} (hrow : s.unitRow i p q = true) (hu : u.CanSwitch) :
    ¬(!s.unitRow i p q || !u.reel || u.resident.isNone || u.preempt.isSome || u.switching.isSome) = true := by
  obtain ⟨hreel, hres, hpre, hsw⟩ := hu
  simp [hrow, hreel, Option.isNone_eq_false_iff.mpr hres, hpre, hsw]

theorem execQuantumExpiry_preempt {s : State} {i p q v : Nat} (hrow : s.unitRow i p q = true)
    (hu : ((s.core i p).unit (s.unitQ i p q)).CanSwitch)
    (hfind : ((s.core i p).unit (s.unitQ i p q)).others.find? (fun v => s.hasReady v i p (s.unitQ i p q)) = some v) :
    execQuantumExpiry i p q s = .next (s.preempt i p (s.unitQ i p q) v) := by
  simp only [execQuantumExpiry, if_neg (quantum_guard hrow hu), hfind]

theorem execQuantumExpiry_anew {s : State} {i p q : Nat} (hrow : s.unitRow i p q = true)
    (hu : ((s.core i p).unit (s.unitQ i p q)).CanSwitch)
    (hfind : ((s.core i p).unit (s.unitQ i p q)).others.find? (fun v => s.hasReady v i p (s.unitQ i p q)) = none) :
    execQuantumExpiry i p q s =
      .next (s.onUnit i p (s.unitQ i p q) fun u => { u with quantumStart := (s.site i).time }) := by
  simp only [execQuantumExpiry, if_neg (quantum_guard hrow hu), hfind]

/-- The slice in the unit has no ready command and nothing issued, and another slice of its group has one. -/
theorem execReelIdleYield_preempt {s : State} {i p q r v : Nat} (hrow : s.unitRow i p q = true)
    (hu : ((s.core i p).unit (s.unitQ i p q)).CanSwitch)
    (hr : ((s.core i p).unit (s.unitQ i p q)).resident = some r)
    (hidle : s.hasReady r i p (s.unitQ i p q) = false ∧ s.issuedOn r i p (s.unitQ i p q) = [])
    (hfind : ((s.core i p).unit (s.unitQ i p q)).others.find? (fun v => s.hasReady v i p (s.unitQ i p q)) = some v) :
    execReelIdleYield i p q s = .next (s.preempt i p (s.unitQ i p q) v) := by
  obtain ⟨hreel, -, hpre, hsw⟩ := hu
  obtain ⟨hready, hissued⟩ := hidle
  simp [execReelIdleYield, hrow, hr, hreel, hpre, hsw, hready, hissued, hfind]

theorem execSwitchWindow_switching {s : State} {i p q v : Nat} (hrow : s.unitRow i p q = true)
    (hsw : ((s.core i p).unit (s.unitQ i p q)).switching = some v) :
    execSwitchWindow i p q s = .next (s.resume i p (s.unitQ i p q) v) := by
  simp only [execSwitchWindow, if_neg (unitRow_guard hrow), hsw]

theorem execZeroingDone_of_unitRow {s : State} {i p q : Nat} (hrow : s.unitRow i p q = true) :
    execZeroingDone i p q s = .next (s.onCore i p fun c => { c with
      clearing := if c.quad then c.clearing &&& ~~~(BitVec.ofNat 4 (2 ^ q)) else 0 }) :=
  congrArg Host.Outcome.next (if_neg (unitRow_guard hrow))

/-! Budget windows and snapshots -/

theorem execBudgetWindowEnd_of_budget {s : State} {i slice bset path : Nat} {m : WindowMeasure} {b : Budget}
    (hup : (s.site i).up = true) (hb : (s.site i).budget? slice bset path = some b) :
    execBudgetWindowEnd i slice bset path m s = .next (s.endWindow i slice bset path b m) := by
  simp [execBudgetWindowEnd, hb, hup]

theorem execSnap_of_go {s : State} {i : Nat} {value : W32} (hup : (s.site i).up = true) (hgo : bitOf value 31 = true) :
    execSnap i value s = .next (s.snapshot i value (bitOf value 30)) :=
  congrArg Host.Outcome.next (if_pos ⟨hup, hgo⟩)

theorem execSnapClear_of_go {s : State} {i : Nat} {value : W32} (hup : (s.site i).up = true)
    (hgo : bitOf value 31 = true) (hclear : bitOf value 30 = true) :
    execSnapClear i value s = .next (s.snapshot i value true) :=
  congrArg Host.Outcome.next (if_pos ⟨hup, hgo, hclear⟩)

/-- Settles O40: each row's guard holds, and its match takes the branch that the hypotheses name. That a mode change
falls at the tile boundary row, and there sends issued commands back to READY, is the model's reading (log entries 19
and 31); the snapshot follows R423. -/
theorem unitBoundaries : Obligations.UnitBoundaries := by
  refine ⟨fun s i p q hrow => ⟨fun start v hpre => ?tileSave, fun m hpre hmode hc0 => ?tileMode,
    fun kind start v hdma hrouter hreduction hfabric hfront harray hpre => ?workUnit,
    fun u hu hreel hres hpre hsw => ?reel, fun v hsw => ?window, ?zeroing⟩,
    fun s i hup => ⟨fun slice bset path m b hb => ?budget, fun value hgo => ?snap,
      fun value hgo hclear => ?snapClear⟩⟩
  case tileSave => exact exec_tileBoundary.trans (execTileBoundary_preempt hrow hpre)
  case tileMode => exact exec_tileBoundary.trans (execTileBoundary_mode hrow hpre hmode hc0)
  case workUnit =>
    exact exec_workUnitBoundary.trans
      (execWorkUnitBoundary_preempt hrow ⟨hdma, hrouter, hreduction, hfabric, hfront⟩ harray hpre)
  case reel =>
    subst hu
    have hu : ((s.core i p).unit (s.unitQ i p q)).CanSwitch := ⟨hreel, hres, hpre, hsw⟩
    refine ⟨fun v hfind => ?_, fun hfind => ?_, fun r v hr hready hissued hfind => ?_⟩
    · exact exec_quantumExpiry.trans (execQuantumExpiry_preempt hrow hu hfind)
    · exact exec_quantumExpiry.trans (execQuantumExpiry_anew hrow hu hfind)
    · exact exec_reelIdleYield.trans (execReelIdleYield_preempt hrow hu hr ⟨hready, hissued⟩ hfind)
  case window => exact exec_switchWindow.trans (execSwitchWindow_switching hrow hsw)
  case zeroing => exact exec_zeroingDone.trans (execZeroingDone_of_unitRow hrow)
  case budget => exact exec_budgetWindowEnd.trans (execBudgetWindowEnd_of_budget hup hb)
  case snap => exact exec_snap.trans (execSnap_of_go hup hgo)
  case snapClear => exact exec_snapClear.trans (execSnapClear_of_go hup hgo hclear)

/-! Training of a link -/

/-- The guard shared by the training rows lets the row of the step the link stands at pass. -/
theorem trainStep_guard {t : Site} {l n : Nat} (ht : t.mayTrain l = true) (hn : t.bringUp l = n) :
    ¬(!t.mayTrain l || decide (t.bringUp l ≠ n)) = true := by
  simp [ht, hn]

theorem execDetect_of_step {s : State} {i l : Nat} {signal : BitVec 5} (ht : (s.site i).mayTrain l = true)
    (hn : (s.site i).bringUp l = 1) :
    execDetect i l signal s = .next (if ((List.range 5).filter signal.getLsbD).length < 2 then s.linkFails i l
      else s.bringTo i l 2) :=
  congrArg Host.Outcome.next (if_neg (trainStep_guard ht hn))

theorem execLinkMap_of_step {s : State} {i l : Nat} {lanes : List LaneObs} (ht : (s.site i).mayTrain l = true)
    (hn : (s.site i).bringUp l = 2) : execLinkMap i l lanes s = .next (s.mapLanes i l (lanes.take 5)) :=
  congrArg Host.Outcome.next (if_neg (trainStep_guard ht hn))

theorem execEqualise_of_signal {s : State} {i l : Nat} {signal : BitVec 5} (ht : (s.site i).mayTrain l = true)
    (hn : (s.site i).bringUp l = 3) (hall : ((s.site i).link l).laneMap.all signal.getLsbD = true) :
    execEqualise i l signal s = .next (s.bringTo i l 4) :=
  congrArg Host.Outcome.next ((if_neg (trainStep_guard ht hn)).trans (if_pos hall))

theorem execAlign_of_step {s : State} {i l : Nat} {ok : Bool} (ht : (s.site i).mayTrain l = true)
    (hn : (s.site i).bringUp l = 4) :
    execAlign i l ok s = .next (if ok then s.bringTo i l 5 else s.linkFails i l) :=
  congrArg Host.Outcome.next (if_neg (trainStep_guard ht hn))

theorem execCredit_of_step {s : State} {i l rtt : Nat} {cr : CreditGrant} (ht : (s.site i).mayTrain l = true)
    (hn : (s.site i).bringUp l = 5) : execCredit i l cr rtt s = .next (s.linkStarts i l cr rtt) :=
  congrArg Host.Outcome.next (if_neg (trainStep_guard ht hn))

theorem execLinkRetry_of_failed {s : State} {i l : Nat} (ht : (s.site i).mayTrain l = true)
    (hfailed : (s.site i).linkState l = 8) :
    execLinkRetry i l s = .next (s.setFld i (rFabLink l) Fld.fabLinkState 1) :=
  congrArg Host.Outcome.next (if_pos (by simp [ht, hfailed]))

/-! Die-to-die ports -/

theorem execD2dTraining_of_down {s : State} {i j : Nat} {r : D2dReport} (hp : (s.site i).pins.coldRstN = true)
    (hj : j < 4) (hdown : (s.site i).d2dUp j = false) (hdom : (s.site i).domState (domD2d j) ≠ 2) :
    execD2dTraining i j r s = .next (s.trainD2d i j r) :=
  congrArg Host.Outcome.next (if_neg (by simp [hp, hdown, hdom, hj]))

theorem execD2dPortDown_of_up {s : State} {i j : Nat} (hj : j < 4) (hup : (s.site i).d2dUp j = true) :
    execD2dPortDown i j s = .next ((s.setD2d i j 4 0 (s.fld i (rD2dPort j) Fld.d2dPortPeer)).d2dRecord i j) :=
  congrArg Host.Outcome.next (if_pos ⟨hj, hup⟩)

/-- The modules of a die-to-die port, a bit each. -/
def Site.d2dModules (t : Site) (j : Nat) : BitVec 4 := BitVec.ofNat 4 (t.fld (rD2dPort j) Fld.d2dPortModules)

/-- A die-to-die port that runs on with the modules `m`. -/
def State.d2dRunsOn (s : State) (i j : Nat) (m : BitVec 4) : State :=
  (s.setD2d i j (d2dState m) m ((s.site i).fld (rD2dPort j) Fld.d2dPortPeer)).d2dRecord i j

theorem execModuleLeavesPort_of_module {s : State} {i j k : Nat} (hj : j < 4) (hk : k < 4)
    (hup : (s.site i).d2dUp j = true) (hm : ((s.site i).d2dModules j).getLsbD k = true) :
    execModuleLeavesPort i j k s =
      .next (s.d2dRunsOn i j ((s.site i).d2dModules j &&& ~~~(BitVec.ofNat 4 (2 ^ k)))) :=
  congrArg Host.Outcome.next (if_pos ⟨hj, hk, hup, hm⟩)

/-- Settles O45: each training row stands at its step, so its guard lets it pass; DETECT and ALIGN then go by what
they found. That ALIGN without lock goes to FAILED is the model's choice (log entry 34). -/
theorem linkBringUp : Obligations.LinkBringUp := by
  intro s i l ht
  refine ⟨fun signal hn htwo => ?detected, fun signal hn hfew => ?undetected, fun lanes hn => ?map,
    fun signal hn hall => ?equalise, fun hn => ⟨?aligned, ?unaligned⟩, fun cr rtt hn => ?credit,
    fun hfailed => ?retry, fun j r hp hj hdown hdom => ?training,
    fun j hj hup => ⟨?portDown, fun k hk hm => ⟨_, rfl, ?module⟩⟩⟩
  case detected => rw [exec_detect, execDetect_of_step ht hn, if_neg (Nat.not_lt.mpr htwo)]
  case undetected => rw [exec_detect, execDetect_of_step ht hn, if_pos hfew]
  case map => exact exec_linkMap.trans (execLinkMap_of_step ht hn)
  case equalise => exact exec_equalise.trans (execEqualise_of_signal ht hn hall)
  case aligned => exact exec_align.trans (execAlign_of_step ht hn)
  case unaligned => exact exec_align.trans (execAlign_of_step ht hn)
  case credit => exact exec_credit.trans (execCredit_of_step ht hn)
  case retry => exact exec_linkRetry.trans (execLinkRetry_of_failed ht hfailed)
  case training => exact exec_d2dTraining.trans (execD2dTraining_of_down hp hj hdown hdom)
  case portDown => exact exec_d2dPortDown.trans (execD2dPortDown_of_up hj hup)
  case module => exact exec_moduleLeavesPort.trans (execModuleLeavesPort_of_module hj hk hup hm)

/-! Start-up and settlement -/

theorem execColdRstNRelease_of_cold {s : State} {i : Nat} {b : BootInput} (hi : i < 8)
    (hp : (s.site i).pins.coldRstN = false) : execColdRstNRelease i b s = .next (s.startSite i b) :=
  congrArg Host.Outcome.next (if_neg (by simp [hp, hi]))

theorem execColdRstNAssert_of_powered {s : State} {i : Nat} (hp : (s.site i).pins.coldRstN = true) :
    execColdRstNAssert i s = .next (s.coldSite i) :=
  congrArg Host.Outcome.next (if_neg (by simp [hp]))

theorem execMembershipSettle_of_maySettle {s : State} (h : s.maySettle = true) :
    execMembershipSettle s = .next s.settleMembers :=
  congrArg Host.Outcome.next (if_pos h)

/-! Rows of a managed site -/

/-- The guard shared by the rows of a managed site lets them pass. -/
theorem managed_guard {t : Site} (hm : t.managed = true) : ¬(!t.managed) = true := by simp [hm]

/-- An attempt at debug unlock uses up the nonce that stands (R467); the next one is a free value (log entry 6). -/
def State.useUpNonce (s : State) (i : Nat) : State :=
  s.draw.2.onPins i fun p => { p with debugNonce := s.draw.1.toNat }

theorem execDebugUnlock_of_managed {s : State} {i : Nat} {ok : Bool} (hm : (s.site i).managed = true) :
    execDebugUnlock i ok s =
      .next (if ok then (s.useUpNonce i).unlock else (s.useUpNonce i).bump i rSecDebug Fld.secDebugRefused) :=
  congrArg Host.Outcome.next (if_neg (managed_guard hm))

theorem execResetReq_of_managed {s : State} {i : Nat} (hm : (s.site i).managed = true) :
    execResetReq i s = .next ((s.raisePriv i 0 0).resetDomain i 20 8) :=
  congrArg Host.Outcome.next (if_pos hm)

theorem execFaultIn_of_managed {s : State} {i : Nat} (hm : (s.site i).managed = true) :
    execFaultIn i s = .next ((s.raisePriv i 0 1).condition i 3 0) :=
  congrArg Host.Outcome.next (if_pos hm)

theorem execThermAlert_of_managed {s : State} {i : Nat} (hm : (s.site i).managed = true) :
    execThermAlert i s = .next ((s.raisePriv i 0 2).condition i 4 0) :=
  congrArg Host.Outcome.next (if_pos hm)

theorem execHspCattrip_of_serving {s : State} {i k : Nat} (hm : (s.site i).managed = true) (hk : k < 2)
    (habsent : (s.site i).fld (rMpPort k) Fld.mpPortState ≠ 0)
    (hout : (s.site i).fld (rMpPort k) Fld.mpPortState ≠ 5) :
    execHspCattrip i k s = .next ((s.raisePriv i 0 2).condition i 5 k) :=
  congrArg Host.Outcome.next (if_neg (by simp [hm, hk, habsent, hout]))

/-- A reading at or above the threshold of its sensor, as signed numbers (log entry 70). -/
def Site.hotReading (t : Site) (n : Nat) (temp : BitVec 12) : Bool :=
  decide ((BitVec.ofNat 12 (t.fld (rTelTs n) Fld.telTsThresh)).toInt ≤ temp.toInt)

/-- The state that shows a reading. -/
def State.showReading (s : State) (i n : Nat) (temp : BitVec 12) : State :=
  ((s.setFld i (rTelTs n) Fld.telTsTemp temp.toNat).setFld i (rTelTs n) Fld.telTsValid 1).onPins i fun p =>
    { p with hot := p.hot.set n ((s.site i).hotReading n temp) }

theorem execTemperatureSample_of_managed {s : State} {i n : Nat} {temp : BitVec 12} (hm : (s.site i).managed = true)
    (hn : n < 8) : execTemperatureSample i n temp s =
      .next (if (s.site i).hotReading n temp = true ∧ (s.site i).pins.hot.getD n false = false then
        (s.showReading i n temp).raiseSrc i 0x71 else s.showReading i n temp) := by
  have hguard : ¬(!(s.site i).managed || decide (8 ≤ n)) = true := by simp [hm, hn]
  have hrise : ((s.site i).hotReading n temp && !(s.site i).pins.hot.getD n false) = true ↔
      (s.site i).hotReading n temp = true ∧ (s.site i).pins.hot.getD n false = false := by
    rw [Bool.and_eq_true, Bool.not_eq_true']
  exact congrArg Host.Outcome.next ((if_neg hguard).trans (ite_congr (propext hrise) (fun _ => rfl) fun _ => rfl))

/-! Loops -/

/-- A loop other than the always-on one, which asserts FAULT_N, resets the domain it clocks; the crash record names
cause 0 (log entry 70). -/
theorem execLossOfLock_of_locked {s : State} {i loop : Nat} (hp : (s.site i).pins.coldRstN = true) (hpos : 0 < loop)
    (hlt : loop < 10) (hlock : (s.site i).fld rClkLock (loopBit loop) ≠ 0) :
    execLossOfLock i loop s = .next ((((s.setFld i rClkLock (loopBit loop) 0).bump i rClkLock
      Fld.clkLockLosses).condition i 1 loop).resetDomain i (loopDom loop) 0) := by
  have hguard : ¬(!(s.site i).pins.coldRstN || decide (10 ≤ loop) ||
      decide ((s.site i).fld rClkLock (loopBit loop) = 0)) = true := by simp [hp, hlt, hlock]
  exact congrArg Host.Outcome.next ((if_neg hguard).trans (if_neg (Nat.ne_of_gt hpos)))

/-- The two loops that clock no core. -/
theorem execRelock_of_uncore {s : State} {i loop : Nat} (hp : (s.site i).pins.coldRstN = true) (hloop : loop < 2)
    (hboot : 3 ≤ (s.site i).fld rPwrBoot Fld.pwrBootStep) :
    execRelock i loop s = .next (s.setFld i rClkLock (loopBit loop) 1) := by
  have hguard : ¬(!(s.site i).pins.coldRstN || decide (10 ≤ loop) ||
      decide ((s.site i).fld rPwrBoot Fld.pwrBootStep < 3)) = true := by
    have hlt : loop < 10 := by omega
    simp [hp, hboot, hlt]
  exact congrArg Host.Outcome.next ((if_neg hguard).trans (if_pos (by simp [hloop])))

/-! Power -/

/-- The next step of a power transition under way, by the kind of its unit. -/
def State.powerLeg (s : State) (i n : Nat) (x : PowerCmd) : PowerUnit → State
  | .core => s.coreLeg i n x.leg
  | .memPort => s.portLeg i n x
  | .link => s.linkLeg i n x

theorem execPowerTransition_of_powerOf {s : State} {i n : Nat} {x : PowerCmd} {kind : PowerUnit}
    (hp : (s.site i).pins.coldRstN = true) (hinst : (s.site i).inReset 20 = false)
    (hx : (s.site i).powerOf kind n = some x) (hunit : (s.site i).inReset (unitDom kind n) = false) :
    execPowerTransition i kind n s = .next (s.powerLeg i n x kind) := by
  have hguard : ¬(!(s.site i).pins.coldRstN || (s.site i).inReset 20 || (s.site i).inReset (unitDom kind n)) = true := by
    simp [hp, hinst, hunit]
  simp only [execPowerTransition, hx, if_neg hguard]
  cases kind <;> rfl

theorem execPswAck_of_enable {s : State} {i k : Nat} {level : Bool} (hk : k < 14)
    (hen : (s.site i).pins.pswEn.getLsbD k = level) :
    execPswAck i k level s = .next (s.onPins i fun p => { p with
      pswAck := if level then p.pswAck ||| BitVec.ofNat 16 (2 ^ k) else p.pswAck &&& ~~~(BitVec.ofNat 16 (2 ^ k)) }) :=
  congrArg Host.Outcome.next (if_neg (by simp [hk, hen]))

/-- With no power command open on the switch's core there is nothing to undo. -/
theorem execPswAckTimeout_of_no_command {s : State} {i k : Nat} (hk : k < 14)
    (hne : (s.site i).pins.pswEn.getLsbD k ≠ (s.site i).pins.pswAck.getLsbD k)
    (hno : (s.site i).powerOf .core (k % 6) = none) :
    execPswAckTimeout i k s = .next ((s.condition i 2 k).raiseSrc i 0x72) := by
  have hguard : ¬(decide (14 ≤ k) ||
      decide ((s.site i).pins.pswEn.getLsbD k = (s.site i).pins.pswAck.getLsbD k)) = true := by simp [hk, hne]
  simp only [execPswAckTimeout, if_neg hguard, hno]

/-- Settles O57: each row's guard holds, and a power transition takes the step of its unit's kind. The model's choices
and readings it rests on: the nonce is a free value (log entry 6), the privileged inputs also pend their sources (66),
the clock loops and the signed compare (70), and one row for start-up (72). -/
theorem startUpPinsAndPower : Obligations.StartUpPinsAndPower := by
  refine ⟨fun s i => ⟨fun b hi hp => ?release, fun hp => ?assert, fun h => ?settle,
    fun hm => ⟨?unlock, ?refuse, ?resetReq, ?faultIn, ?thermAlert, fun k hk habsent hout => ?cattrip,
      fun n temp hn => ⟨s.showReading i n temp, (s.site i).hotReading n temp, rfl, decide_eq_true_iff, ?sample⟩⟩,
    ?tap, fun loop hp hpos hlt hlock => ?loss, fun loop hp hloop hboot => ?relock⟩,
    fun s i n x hp hinst => ⟨fun hx hunit => ?core, fun hx hunit => ?port, fun hx hunit => ?link,
      fun k hk hen => ?ackOn, fun k hk hen => ?ackOff, fun k hk hne hno => ?timeout⟩⟩
  case release => exact exec_coldRstNRelease.trans (execColdRstNRelease_of_cold hi hp)
  case assert => exact exec_coldRstNAssert.trans (execColdRstNAssert_of_powered hp)
  case settle => exact exec_membershipSettle.trans (execMembershipSettle_of_maySettle h)
  case unlock => exact exec_debugUnlock.trans (execDebugUnlock_of_managed hm)
  case refuse => exact exec_debugUnlock.trans (execDebugUnlock_of_managed hm)
  case resetReq => exact exec_resetReq.trans (execResetReq_of_managed hm)
  case faultIn => exact exec_faultIn.trans (execFaultIn_of_managed hm)
  case thermAlert => exact exec_thermAlert.trans (execThermAlert_of_managed hm)
  case cattrip => exact exec_hspCattrip.trans (execHspCattrip_of_serving hm hk habsent hout)
  case sample => exact exec_temperatureSample.trans (execTemperatureSample_of_managed hm hn)
  case tap => exact exec_tapReset
  case loss => exact exec_lossOfLock.trans (execLossOfLock_of_locked hp hpos hlt hlock)
  case relock => exact exec_relock.trans (execRelock_of_uncore hp hloop hboot)
  case core => exact exec_powerTransition.trans (execPowerTransition_of_powerOf hp hinst hx hunit)
  case port => exact exec_powerTransition.trans (execPowerTransition_of_powerOf hp hinst hx hunit)
  case link => exact exec_powerTransition.trans (execPowerTransition_of_powerOf hp hinst hx hunit)
  case ackOn => exact exec_pswAck.trans (execPswAck_of_enable hk hen)
  case ackOff => exact exec_pswAck.trans (execPswAck_of_enable hk hen)
  case timeout => exact exec_pswAckTimeout.trans (execPswAckTimeout_of_no_command hk hne hno)

end Sys2Proof.Machine

/-! What ends the waits of the scalar engines: the programs of a ticket, a move, the limit of an EVWAIT, and the epilogue
rows that enter a half of the chain buffer. Each row is one guarded state change: a lemma says which guard holds, and so
which state the row answers. -/

namespace Sys2Proof.Machine

/-! Tickets -/

theorem execTicketEnd_of_waited {s : State} {i p t : Nat} {k : Ticket}
    (hfind : (s.core i p).tickets.find? (fun k => decide (k.id = t)) = some k) (hended : k.running = [])
    (hwait : (s.core i p).ses.any (·.waitsTicket t) = true) :
    execTicketEnd i p t s = .next (s.onCore i p (·.endTicket t (k.status (s.site i) p))) := by
  have hguard : ¬(!k.running.isEmpty || !(s.core i p).ses.any (·.waitsTicket t)) = true := by simp [hended, hwait]
  simp only [State.core] at hfind hguard
  simp only [execTicketEnd, hfind, if_neg hguard]

/-! Moves -/

/-- The binding that a move of a core runs in: its quarter-core in quad mode, else the core (R119). -/
def Core.moveBinding (c : Core) (m : Move) : Option Nat := if c.quad then some m.quarter else none

/-- The core and the binding of a move run, so the guard of the end of a move lets its row pass. -/
theorem moveEnd_guard {t : Site} {p : Nat} {m : Move} (hcore : t.coreRuns p = true)
    (hunit : (t.core p).unitRuns ((t.core p).moveBinding m) = true) :
    ¬(!t.coreRuns p || !(t.core p).unitRuns ((t.core p).moveBinding m)) = true := by
  simp [hcore, hunit]

/-- An open move of a running binding ends with 1 on an uncorrectable error, and else with 0 and its bytes copied. -/
theorem execMoveEnd_of_open {s : State} {i p t : Nat} {m : Move} {ok : Bool}
    (hfind : (s.core i p).moves.find? (fun m => decide (m.id = t) && m.result.isNone) = some m)
    (hcore : (s.site i).coreRuns p = true) (hunit : (s.core i p).unitRuns ((s.core i p).moveBinding m) = true) :
    execMoveEnd i p t ok s = .next (if !ok || s.moveBad i p m then s.onCore i p (·.endMove t 1)
      else (s.moveBytes i p m).onCore i p (·.endMove t 0)) := by
  have hguard := moveEnd_guard hcore hunit
  simp only [State.core] at hfind
  simp only [execMoveEnd, hfind]
  exact congrArg Host.Outcome.next (if_neg hguard)

theorem execMoveEnd_good {s : State} {i p t : Nat} {m : Move}
    (hfind : (s.core i p).moves.find? (fun m => decide (m.id = t) && m.result.isNone) = some m)
    (hcore : (s.site i).coreRuns p = true) (hunit : (s.core i p).unitRuns ((s.core i p).moveBinding m) = true)
    (hgood : s.moveBad i p m = false) :
    execMoveEnd i p t true s = .next ((s.moveBytes i p m).onCore i p (·.endMove t 0)) :=
  (execMoveEnd_of_open hfind hcore hunit).trans (congrArg Host.Outcome.next (if_neg (by simp [hgood])))

theorem execMoveEnd_failed {s : State} {i p t : Nat} {m : Move}
    (hfind : (s.core i p).moves.find? (fun m => decide (m.id = t) && m.result.isNone) = some m)
    (hcore : (s.site i).coreRuns p = true) (hunit : (s.core i p).unitRuns ((s.core i p).moveBinding m) = true) :
    execMoveEnd i p t false s = .next (s.onCore i p (·.endMove t 1)) :=
  execMoveEnd_of_open hfind hcore hunit

/-! The limit of an EVWAIT -/

theorem execEvwaitExpiry_of_limit {s : State} {e : SeRef} {rd : Nat} {mask : BitVec 16} {limit : W64}
    (hwait : ((s.core e.site e.core).ses.getD e.eng {}).wait = .event rd mask limit)
    (hmode : ((s.core e.site e.core).ses.getD e.eng {}).mode = .waiting) (hlimit : limit ≠ 0) :
    execEvwaitExpiry e s = .next (s.onSe e.site e.core e.eng (·.resume rd 0)) := by
  simp only [execEvwaitExpiry, hwait]
  exact congrArg Host.Outcome.next (if_pos ⟨hmode, hlimit⟩)

/-! Epilogue rows -/

/-- The core of a half runs, and the half has not ended and has room, so the guard of CHAIN_ROW lets the row pass. -/
theorem chainRow_guard {t : Site} {p : Nat} {x : Half} (hcore : t.coreRuns p = true) (hstate : x.state ≠ .ended)
    (hroom : x.fifo.length < 16) :
    ¬(!t.coreRuns p || decide (x.state = .ended) || decide (16 ≤ x.fifo.length)) = true := by
  simp [hcore, hstate, hroom]

theorem execChainRow_of_room {s : State} {i p h : Nat} {r : CmdRef} {k : Cmd} {row : Nat × Bytes}
    {rest : List (Nat × Bytes)} (hr : ((s.core i p).halves.getD h {}).cmd = some r) (hk : s.cmd? r = some k)
    (hrows : k.chainRows = row :: rest) (hcore : (s.site i).coreRuns p = true)
    (hstate : ((s.core i p).halves.getD h {}).state ≠ .ended)
    (hroom : ((s.core i p).halves.getD h {}).fifo.length < 16) :
    execChainRow i p h s = .next ((s.onCore i p (·.chainIn h row)).onCmd r fun k => { k with
      chainRows := rest, finalWr := rest.isEmpty, endTime := (s.site i).time }) := by
  have hguard := chainRow_guard hcore hstate hroom
  simp only [State.core] at hr
  simp only [execChainRow, hr, hk, hrows]
  exact congrArg Host.Outcome.next (if_neg hguard)

/-- Settles O20: each row's guard holds, and its match takes the branch that the hypotheses name. Where two engines
wait for one ticket, the first collects it and the other reads an unknown ticket, by the model's choice (log
entry 27). -/
theorem scalarWaitsEnd : Obligations.ScalarWaitsEnd := by
  intro s i p
  refine ⟨fun t k hfind hended hwait => ?ticket,
    fun t m hfind hcore hunit => ⟨fun hgood => ?moveGood, ?moveFailed⟩,
    fun e rd mask limit hwait hmode hlimit => ?expiry, fun h r k row rest hr hk hrows hcore hstate hroom => ?chain⟩
  case ticket => exact exec_ticketEnd.trans (execTicketEnd_of_waited hfind hended hwait)
  case moveGood => exact exec_moveEnd.trans (execMoveEnd_good hfind hcore hunit hgood)
  case moveFailed => exact exec_moveEnd.trans (execMoveEnd_failed hfind hcore hunit)
  case expiry => exact exec_evwaitExpiry.trans (execEvwaitExpiry_of_limit hwait hmode hlimit)
  case chain => exact exec_chainRow.trans (execChainRow_of_room hr hk hrows hcore hstate hroom)

end Sys2Proof.Machine

/-! The register files of the vector and scalar engines, the elements of a vector register, and the scalar operand. -/

namespace Sys2Proof.Machine

/-! Register files -/

theorem getD_setIfInBounds_same {α : Type} {n : Nat} (v : Vector α n) (r : Nat) (x d : α) (h : r < n) :
    (v.setIfInBounds r x).getD r d = x := by
  simp [Vector.getD, h]

theorem getD_setIfInBounds_other {α : Type} {n : Nat} (v : Vector α n) (r j : Nat) (x d : α) (h : j ≠ r) :
    (v.setIfInBounds r x).getD j d = v.getD j d := by
  simp [Vector.getD, h.symm]

@[simp] theorem Ve.preg_zero (v : Ve) : v.preg 0 = 2 ^ 2048 - 1 := if_pos rfl

@[simp] theorem Ve.setPreg_zero (v : Ve) (x : Nat) : v.setPreg 0 x = v := if_pos rfl

theorem Ve.preg_of_pos (v : Ve) {k : Nat} (h : 0 < k) : v.preg k = (v.p.getD k 0).toNat :=
  if_neg (Nat.ne_of_gt h)

theorem Ve.setPreg_of_pos (v : Ve) {k : Nat} (x : Nat) (h : 0 < k) :
    v.setPreg k x = { v with p := v.p.setIfInBounds k (BitVec.ofNat 2048 x) } :=
  if_neg (Nat.ne_of_gt h)

theorem Ve.preg_setPreg (v : Ve) {k : Nat} (x : Nat) (hpos : 0 < k) (hlt : k < 8) :
    (v.setPreg k x).preg k = x % 2 ^ 2048 := by
  simp only [Ve.setPreg_of_pos v x hpos, Ve.preg_of_pos _ hpos, getD_setIfInBounds_same _ _ _ _ hlt,
    BitVec.toNat_ofNat]

theorem Ve.preg_setPreg_other (v : Ve) {k j : Nat} (x : Nat) (h : j ≠ k) : (v.setPreg k x).preg j = v.preg j := by
  rcases Nat.eq_zero_or_pos k with rfl | hk
  · rw [Ve.setPreg_zero]
  · rcases Nat.eq_zero_or_pos j with rfl | hj
    · rw [Ve.preg_zero, Ve.preg_zero]
    · rw [Ve.setPreg_of_pos v x hk, Ve.preg_of_pos _ hj, Ve.preg_of_pos _ hj, getD_setIfInBounds_other _ _ _ _ _ h]

/-- Settles O12: a store to p0 is dropped, and a store to another predicate writes one place of the file. -/
theorem vectorPredicateZero : Obligations.VectorPredicateZero := fun v x =>
  ⟨v.setPreg_zero x, v.preg_zero, fun _ hpos hlt =>
    ⟨v.preg_setPreg x hpos hlt, fun _ hne => v.preg_setPreg_other x hne⟩⟩

@[simp] theorem Se.reg_zero (e : Se) : e.reg 0 = 0 := if_pos rfl

@[simp] theorem Se.setReg_zero (e : Se) (v : W64) : e.setReg 0 v = e := if_pos rfl

theorem Se.reg_of_pos (e : Se) {r : Nat} (h : 0 < r) : e.reg r = e.x.getD r 0 := if_neg (Nat.ne_of_gt h)

theorem Se.setReg_of_pos (e : Se) {r : Nat} (v : W64) (h : 0 < r) :
    e.setReg r v = { e with x := e.x.setIfInBounds r v } := if_neg (Nat.ne_of_gt h)

theorem Se.reg_setReg (e : Se) {r : Nat} (v : W64) (hpos : 0 < r) (hlt : r < 32) : (e.setReg r v).reg r = v := by
  rw [Se.setReg_of_pos e v hpos, Se.reg_of_pos _ hpos, getD_setIfInBounds_same _ _ _ _ hlt]

theorem Se.reg_setReg_other (e : Se) {r j : Nat} (v : W64) (h : j ≠ r) : (e.setReg r v).reg j = e.reg j := by
  rcases Nat.eq_zero_or_pos r with rfl | hr
  · rw [Se.setReg_zero]
  · rcases Nat.eq_zero_or_pos j with rfl | hj
    · rw [Se.reg_zero, Se.reg_zero]
    · rw [Se.setReg_of_pos e v hr, Se.reg_of_pos _ hj, Se.reg_of_pos _ hj, getD_setIfInBounds_other _ _ _ _ _ h]

/-- Settles O23: a write to x0 is dropped, and a write to another register writes one place of the file. That x0 is
hard-wired is the RISC-V standard's (log entry 15). -/
theorem scalarRegisterZero : Obligations.ScalarRegisterZero := fun e v =>
  ⟨e.setReg_zero v, e.reg_zero, fun _ hpos hlt =>
    ⟨e.reg_setReg v hpos hlt, fun _ hne => e.reg_setReg_other v hne⟩⟩

/-! Traps -/

theorem SCtx.trap_of_no_handler {c : SCtx} {s : State} {cause : Nat} {tval : W64} (h : c.se.csrs.mtvec = 0) :
    c.trap s cause tval = c.put s { c.se with mode := .faulted, cause := cause % 256 } := if_pos h

/-- mstatus in a handler: MPIE holds what MIE was, and MIE is clear. -/
def Se.trapStatus (e : Se) : W64 := BitVec.ofNat 64 (if e.csrs.mstatus.toNat.testBit 3 then 0x80 else 0)

theorem SCtx.trap_of_handler {c : SCtx} {s : State} {cause : Nat} {tval : W64} (h : c.se.csrs.mtvec ≠ 0) :
    c.trap s cause tval = c.put s { c.se with
      pc := c.se.csrs.mtvec &&& ~~~3
      csrs := { c.se.csrs with
        mepc := c.se.pc, mcause := BitVec.ofNat 64 cause, mtval := tval, mstatus := c.se.trapStatus } } := if_neg h

/-- Settles O22: mtvec decides between the two ends of a trap. -/
theorem scalarTrap : Obligations.ScalarTrap := fun _ _ _ _ =>
  ⟨SCtx.trap_of_no_handler, fun h => ⟨_, SCtx.trap_of_handler h⟩⟩

/-! The scalar operand -/

theorem clampInt_fst (b : Nat) (x : Int) :
    (clampInt b x).1 = max (-2 ^ (b - 1)) (min x (2 ^ (b - 1) - 1)) := by
  have hpos : (0 : Int) < 2 ^ (b - 1) := Int.pow_pos (by decide)
  simp only [clampInt]
  generalize (2 : Int) ^ (b - 1) = top at hpos ⊢
  split
  · omega
  · split <;> omega

/-- The 32 bits from which the scalar operand is converted: IMM32 or a[AS], as SRC says. -/
def Ve.scalarBits (v : Ve) (w : W64) : Nat := if vsSrc w then v.areg (vsAs w) else vsImm w

theorem Ve.scalar_fp32 {v : Ve} {w : W64} (h : vDt w = 0) : v.scalar w = v.scalarBits w := if_pos h

theorem Ve.scalar_float {v : Ve} {w : W64} (hne : vDt w ≠ 0) (hf : dtFloat (vDt w) = true) :
    v.scalar w = ((dtFmt (vDt w)).convert .rne false (fp32.decode (v.scalarBits w))).1 :=
  (if_neg hne).trans (if_pos hf)

theorem Ve.scalar_int {v : Ve} {w : W64} (hf : dtFloat (vDt w) = false) :
    v.scalar w = wrapNat (dtBits (vDt w)) (clampInt (dtBits (vDt w)) (toSigned 32 (v.scalarBits w))).1 := by
  have hne : vDt w ≠ 0 := fun h => by simp [h, dtFloat] at hf
  exact (if_neg hne).trans (if_neg (Bool.eq_false_iff.mp hf))

/-- Settles O14: an FP32 word takes the bits as they are, another float converts them, an integer clamps them. -/
theorem vectorScalarOperandRule : Obligations.VectorScalarOperandRule := by
  rintro v w x rfl
  refine ⟨fun h => Ve.scalar_fp32 h, fun hne hf => Ve.scalar_float hne hf, fun hf => ?_⟩
  rw [Ve.scalar_int hf, clampInt_fst]
  rfl

/-! Elements of a register -/

theorem testBit_lane (w x i k : Nat) : (lane w x i).testBit k = (decide (k < 8 * w) && x.testBit (8 * w * i + k)) := by
  rw [lane, Nat.testBit_mod_two_pow, Nat.testBit_shiftRight]

@[simp] theorem lane_zero (w i : Nat) : lane w 0 i = 0 := by
  rw [lane, Nat.zero_shiftRight, Nat.zero_mod]

/-- Bits of another lane lie outside lane `i`. -/
theorem lane_bit_apart {b i j k : Nat} (hk : k < b) (hne : j ≠ i) :
    b * j + k < b * i ∨ b * i + b ≤ b * j + k := by
  rcases Nat.lt_or_gt_of_ne hne with h | h
  · left
    calc b * j + k < b * (j + 1) := by rw [Nat.mul_succ]; omega
      _ ≤ b * i := Nat.mul_le_mul_left b h
  · right
    calc b * i + b = b * (i + 1) := (Nat.mul_succ b i).symm
      _ ≤ b * j := Nat.mul_le_mul_left b h
      _ ≤ b * j + k := Nat.le_add_right _ _

theorem lane_setLane_same (w x i v : Nat) : lane w (setLane w x i v) i = v % 2 ^ (8 * w) := by
  apply Nat.eq_of_testBit_eq
  intro k
  by_cases hk : k < 8 * w
  · simp [testBit_lane, setLane, Nat.testBit_xor, Nat.testBit_shiftLeft, Nat.testBit_mod_two_pow, hk]
  · simp [testBit_lane, Nat.testBit_mod_two_pow, hk]

theorem lane_setLane_other (w x i j v : Nat) (hne : j ≠ i) : lane w (setLane w x i v) j = lane w x j := by
  apply Nat.eq_of_testBit_eq
  intro k
  rw [testBit_lane, testBit_lane]
  by_cases hk : k < 8 * w
  · have hout : ((lane w x i ^^^ v % 2 ^ (8 * w)) <<< (8 * w * i)).testBit (8 * w * j + k) = false := by
      rw [Nat.testBit_shiftLeft, Nat.testBit_xor, testBit_lane, Nat.testBit_mod_two_pow]
      rcases lane_bit_apart hk hne with h | h
      · simp [Nat.not_le.mpr h]
      · simp [show ¬(8 * w * j + k - 8 * w * i < 8 * w) by omega]
    rw [setLane, Nat.testBit_xor, hout, Bool.xor_false]
  · simp [hk]

/-- The bits of a register hold every lane below its element count. -/
theorem lane_mod_register {w b x i : Nat} (h : 8 * w * (i + 1) ≤ b) : lane w (x % 2 ^ b) i = lane w x i := by
  apply Nat.eq_of_testBit_eq
  intro k
  rw [testBit_lane, testBit_lane, Nat.testBit_mod_two_pow]
  by_cases hk : k < 8 * w
  · have hin : 8 * w * i + k < b := by rw [Nat.mul_succ] at h; omega
    simp [hin]
  · simp [hk]

theorem lanes_fit {dt i : Nat} (h : i < lanes dt) : 8 * dtW dt * (i + 1) ≤ 16384 := by
  have hmul : (i + 1) * dtW dt ≤ 2048 :=
    Nat.le_trans (Nat.mul_le_mul_right _ h) (Nat.div_mul_le_self 2048 (dtW dt))
  calc 8 * dtW dt * (i + 1) = 8 * ((i + 1) * dtW dt) := by rw [Nat.mul_assoc, Nat.mul_comm (dtW dt)]
    _ ≤ 8 * 2048 := Nat.mul_le_mul_left 8 hmul
    _ = 16384 := rfl

/-! Elementwise writes -/

/-- The step of mapLanes for one element. -/
theorem mapLanes_succ (v : Ve) (word : W64) (w n base : Nat) (f : Nat → Nat × FpFlags) :
    (mapLanes v word w (n + 1) base f).1 =
      if v.active word n then setLane w (mapLanes v word w n base f).1 n (f n).1
      else (mapLanes v word w n base f).1 := by
  simp only [mapLanes, List.range_succ, List.foldl_append, List.foldl_cons, List.foldl_nil]
  split <;> rfl

theorem lane_mapLanes (v : Ve) (word : W64) (w n base i : Nat) (f : Nat → Nat × FpFlags) :
    lane w (mapLanes v word w n base f).1 i =
      if i < n ∧ v.active word i = true then (f i).1 % 2 ^ (8 * w) else lane w base i := by
  induction n with
  | zero => simp [mapLanes]
  | succ n ih =>
    rw [mapLanes_succ]
    by_cases hn : i = n
    · subst hn
      by_cases ha : v.active word i = true
      · simp [ha, lane_setLane_same]
      · simp [ha, ih]
    · have hlt : i < n + 1 ↔ i < n := by omega
      by_cases ha : v.active word n = true
      · simp [ha, lane_setLane_other _ _ _ _ _ hn, ih, hlt]
      · simp [ha, ih, hlt]

theorem mapLanes_congr {v : Ve} {word : W64} {w n base : Nat} {f g : Nat → Nat × FpFlags}
    (h : ∀ i, i < n → v.active word i = true → f i = g i) :
    mapLanes v word w n base f = mapLanes v word w n base g := by
  refine List.foldl_rel (r := (· = ·)) rfl fun i hi acc _ hacc => ?_
  subst hacc
  by_cases ha : v.active word i = true
  · simp only [ha, h i (List.mem_range.mp hi) ha]
  · simp [ha]

/-- Settles O13: the result is a fold over the active elements alone. -/
theorem vectorInactiveElements : Obligations.VectorInactiveElements := by
  intro v w f g h
  simp only [Ve.writeVd, mapLanes_congr h]

theorem vVd_lt (w : W64) : vVd w < 32 := Nat.mod_lt _ (Nat.two_pow_pos _)

theorem Ve.vreg_writeVd (v : Ve) (w : W64) (f : Nat → Nat × FpFlags) :
    (v.writeVd w f).vreg (vVd w) =
      (mapLanes v w (dtW (vDt w)) (v.count (vDt w)) (if vPz w then 0 else v.vreg (vVd w)) f).1 % 2 ^ 16384 :=
  (congrArg BitVec.toNat (getD_setIfInBounds_same _ _ _ _ (vVd_lt w))).trans (BitVec.toNat_ofNat _ _)

theorem Ve.vreg_writeVd_other (v : Ve) (w : W64) (f : Nat → Nat × FpFlags) {r : Nat} (h : r ≠ vVd w) :
    (v.writeVd w f).vreg r = v.vreg r :=
  congrArg BitVec.toNat (getD_setIfInBounds_other _ _ _ _ _ h)

/-- Settles O11: the lanes of the fold, each kept whole by the register's 2,048 bytes. -/
theorem vectorElementRule : Obligations.VectorElementRule := by
  intro v w f
  refine ⟨fun i hi => ?_, fun r hr => v.vreg_writeVd_other w f hr⟩
  rw [v.vreg_writeVd, lane_mod_register (lanes_fit hi), lane_mapLanes]
  refine ite_congr rfl (fun _ => rfl) fun _ => ?_
  cases vPz w
  · rfl
  · exact lane_zero _ _

end Sys2Proof.Machine

/-! The vector instructions: what a row of a vector engine leaves alone, and what it answers when it is ready. -/

namespace Sys2Proof.Machine

/-! What a change of one site or one core leaves alone -/

/-- A change of site `i` is seen there at most. -/
theorem State.site_onSite_cases (s : State) (i j : Nat) (f : Site → Site) :
    (s.onSite i f).site j = s.site j ∨ j = i ∧ (s.onSite i f).site j = f (s.site j) := by
  by_cases hij : i = j
  · subst hij
    by_cases hi : i < s.sites.length
    · exact .inr ⟨rfl, s.site_onSite i f hi⟩
    · left
      rw [State.site, State.onSite, List.modify_eq_self (Nat.le_of_not_lt hi)]
      rfl
  · exact .inl (s.site_onSite_other i j f hij)

/-- A change of core `p` is seen there at most. -/
theorem Site.core_onCore_cases (t : Site) (p q : Nat) (f : Core → Core) :
    (t.onCore p f).core q = t.core q ∨ q = p ∧ (t.onCore p f).core q = f (t.core q) := by
  by_cases hpq : p = q
  · subst hpq
    by_cases hp : p < t.cores.length
    · exact .inr ⟨rfl, t.core_onCore p f hp⟩
    · left
      rw [Site.core, Site.onCore, List.modify_eq_self (Nat.le_of_not_lt hp)]
      rfl
  · exact .inl (t.core_onCore_other p q f hpq)

theorem State.core_onCore_cases (s : State) (i p j q : Nat) (f : Core → Core) :
    (s.onCore i p f).core j q = s.core j q ∨ (j = i ∧ q = p) ∧ (s.onCore i p f).core j q = f (s.core j q) := by
  rcases s.site_onSite_cases i j (·.onCore p f) with h | ⟨hj, h⟩
  · exact .inl (congrArg (·.core q) h)
  · rcases (s.site j).core_onCore_cases p q f with hq | ⟨hq, hf⟩
    · exact .inl ((congrArg (·.core q) h).trans hq)
    · exact .inr ⟨⟨hj, hq⟩, (congrArg (·.core q) h).trans hf⟩

/-- Cores, clusters and tiers of a site are as before. -/
structure Site.SameStores (t u : Site) : Prop where
  cores : u.cores = t.cores
  clusters : u.clusters = t.clusters
  fast : u.fast = t.fast
  slow : u.slow = t.slow

theorem Site.SameStores.refl (t : Site) : t.SameStores t := ⟨rfl, rfl, rfl, rfl⟩

theorem Site.SameStores.trans {t u v : Site} (h : t.SameStores u) (g : u.SameStores v) : t.SameStores v :=
  ⟨g.cores.trans h.cores, g.clusters.trans h.clusters, g.fast.trans h.fast, g.slow.trans h.slow⟩

/-- Virtual devices, the part's management state and what the sites store are as before: registers, records and
interrupts may have changed. -/
structure State.SameStores (s t : State) : Prop where
  vds : t.vds = s.vds
  part : t.part = s.part
  site : ∀ i, (s.site i).SameStores (t.site i)

namespace State.SameStores

theorem refl (s : State) : s.SameStores s := ⟨rfl, rfl, fun i => .refl (s.site i)⟩

theorem trans {s t u : State} (h : s.SameStores t) (g : t.SameStores u) : s.SameStores u :=
  ⟨g.vds.trans h.vds, g.part.trans h.part, fun i => (h.site i).trans (g.site i)⟩

theorem onSite {s : State} {i : Nat} {f : Site → Site} (hf : ∀ t : Site, t.SameStores (f t)) :
    s.SameStores (s.onSite i f) where
  vds := rfl
  part := rfl
  site j := by
    rcases s.site_onSite_cases i j f with h | ⟨-, h⟩
    · rw [h]; exact .refl _
    · rw [h]; exact hf _

theorem onWatch {s : State} {i : Nat} {f : Watch → Watch} : s.SameStores (s.onWatch i f) :=
  onSite fun _ => ⟨rfl, rfl, rfl, rfl⟩

theorem setFld {s : State} {i off v : Nat} {x : Nat × Nat} : s.SameStores (s.setFld i off x v) :=
  onSite fun _ => ⟨rfl, rfl, rfl, rfl⟩

theorem bump {s : State} {i off n : Nat} {x : Nat × Nat} : s.SameStores (s.bump i off x n) :=
  onSite fun _ => ⟨rfl, rfl, rfl, rfl⟩

theorem emit {s : State} {m : Msg} : s.SameStores (s.emit m) := ⟨rfl, rfl, fun i => .refl (s.site i)⟩

theorem deliverSrc {s : State} {i n : Nat} : s.SameStores (s.deliverSrc i n) := by
  unfold State.deliverSrc
  dsimp only
  split
  · split
    · exact onWatch
    · exact onWatch.trans emit
  · split
    · exact (setFld.trans onWatch).trans emit
    · exact refl s

theorem raiseSrc {s : State} {i n : Nat} : s.SameStores (s.raiseSrc i n) := by
  have hlatch : s.SameStores (s.onSite i (·.latchSrc n)) := onSite fun _ => ⟨rfl, rfl, rfl, rfl⟩
  unfold State.raiseSrc
  dsimp only
  split
  · exact hlatch
  · split
    · exact hlatch.trans deliverSrc
    · exact hlatch

theorem report {s : State} {i type sev : Nat} {body : Bytes} {cont : List Bytes} :
    s.SameStores (s.report i type sev body cont) := by
  unfold State.report
  dsimp only
  split
  · split <;> exact onWatch
  · split
    · exact refl s
    · split
      · exact onWatch
      · split <;> exact onWatch.trans bump

theorem health {s : State} {i kind a b row : Nat} : s.SameStores (s.health i kind a b row) := report.trans raiseSrc

end State.SameStores

/-! The shared frame of the vector rows -/

theorem vecRow_of_ready {cls op : Nat} {e : VeRef} {w : W64} {s : State} {c : VCtx} {body : VCtx → State → State}
    (h : VecReady (cls, op) e w s c) : vecRow cls op e w s body = .next (body c s) := by
  obtain ⟨hat, hpc, hwhole, hfetch, hlegal, hkey, hregs⟩ := h
  simp only [vecRow, hat, Nat.not_le.mpr hpc, hwhole, hfetch, hlegal, hkey, hregs, Bool.not_true, Bool.false_eq_true,
    ne_eq, not_true_eq_false, if_false]

theorem vecRow_beyond_binding {cls op : Nat} {e : VeRef} {w : W64} {s : State} {c : VCtx}
    {body : VCtx → State → State} (hat : vecAt e s = some c) (hpc : bindingSize c.q ≤ c.ve.pc) :
    vecRow cls op e w s body = .next (c.fault s 0x02) := by
  simp only [vecRow, hat, if_pos hpc]

theorem vecRow_illegal {cls op : Nat} {e : VeRef} {w : W64} {s : State} {c : VCtx} {body : VCtx → State → State}
    (hat : vecAt e s = some c) (hpc : c.ve.pc < bindingSize c.q) (hwhole : c.core.poisonedAt c.q c.ve.pc 8 = false)
    (hfetch : fetchable c.core c.ve.code c.q c.ve.pc 8 w.toNat = true) (hlegal : vecLegal w = false) :
    vecRow cls op e w s body = .next (c.fault s 0x01) := by
  simp only [vecRow, hat, Nat.not_le.mpr hpc, hwhole, hfetch, hlegal, Bool.not_true, Bool.not_false,
    Bool.false_eq_true, if_false, if_true]

/-- The context is that of engine `e`. -/
structure VCtx.IsAt (c : VCtx) (e : VeRef) : Prop where
  site : c.i = e.site
  core : c.p = e.core
  eng : c.e = e.eng

theorem vecAt_isAt {e : VeRef} {s : State} {c : VCtx} (h : vecAt e s = some c) : c.IsAt e := by
  unfold vecAt at h
  dsimp only at h
  split at h
  · cases h
  · split at h
    · cases h
      exact ⟨rfl, rfl, rfl⟩
    · cases h

/-- Vector, predicate and address registers are as before. -/
structure Ve.SameRegs (v u : Ve) : Prop where
  vregs : u.v = v.v
  pregs : u.p = v.p
  aregs : u.a = v.a

theorem Ve.SameRegs.refl (v : Ve) : v.SameRegs v := ⟨rfl, rfl, rfl⟩

theorem Ve.SameRegs.trans {v u x : Ve} (h : v.SameRegs u) (g : u.SameRegs x) : v.SameRegs x :=
  ⟨g.vregs.trans h.vregs, g.pregs.trans h.pregs, g.aregs.trans h.aregs⟩

/-- What an instruction of engine `e` leaves alone: all memory, the registers of every other vector engine and, but for
an event that `wakes` scalar engines, the scalar engines. -/
structure VecFrame (wakes : Prop) (e : VeRef) (s t : State) : Prop where
  vds : t.vds = s.vds
  part : t.part = s.part
  clusters : ∀ i, (t.site i).clusters = (s.site i).clusters
  fast : ∀ i, (t.site i).fast = (s.site i).fast
  slow : ∀ i, (t.site i).slow = (s.site i).slow
  cmem : ∀ i p, (t.core i p).cmem = (s.core i p).cmem
  acc : ∀ i p, (t.core i p).acc = (s.core i p).acc
  ves : ∀ i p k, (i, p, k) ≠ (e.site, e.core, e.eng) →
    ((s.core i p).ves.getD k {}).SameRegs ((t.core i p).ves.getD k {})
  ses : ¬wakes → ∀ i p, (t.core i p).ses = (s.core i p).ses

/-- The part of VecFrame that speaks of the core that holds engine `eng`. -/
structure Core.VecFrame (wakes : Prop) (eng : Nat) (c d : Core) : Prop where
  cmem : d.cmem = c.cmem
  acc : d.acc = c.acc
  ves : ∀ k, k ≠ eng → (c.ves.getD k {}).SameRegs (d.ves.getD k {})
  ses : ¬wakes → d.ses = c.ses

section
variable {wakes : Prop} {e : VeRef} {s t u : State} {c : VCtx}

namespace VecFrame

theorem of_sameStores (h : s.SameStores t) : VecFrame wakes e s t := by
  have hcore : ∀ i p, t.core i p = s.core i p := fun i p => by
    rw [State.core, State.core, Site.core, Site.core, (h.site i).cores]
  exact ⟨h.vds, h.part, fun i => (h.site i).clusters, fun i => (h.site i).fast, fun i => (h.site i).slow,
    fun i p => by rw [hcore], fun i p => by rw [hcore], fun i p k _ => by rw [hcore]; exact .refl _,
    fun _ i p => by rw [hcore]⟩

theorem refl (s : State) : VecFrame wakes e s s := of_sameStores (.refl s)

theorem trans (h : VecFrame wakes e s t) (g : VecFrame wakes e t u) : VecFrame wakes e s u where
  vds := g.vds.trans h.vds
  part := g.part.trans h.part
  clusters i := (g.clusters i).trans (h.clusters i)
  fast i := (g.fast i).trans (h.fast i)
  slow i := (g.slow i).trans (h.slow i)
  cmem i p := (g.cmem i p).trans (h.cmem i p)
  acc i p := (g.acc i p).trans (h.acc i p)
  ves i p k hk := (h.ves i p k hk).trans (g.ves i p k hk)
  ses hw i p := (g.ses hw i p).trans (h.ses hw i p)

/-- A change of the engine's own core that has the frame. -/
theorem onCore (hc : c.IsAt e) {f : Core → Core} (hf : ∀ k : Core, k.VecFrame wakes c.e (f k)) :
    VecFrame wakes e s (s.onCore c.i c.p f) := by
  have hsite : ∀ i, ((s.onCore c.i c.p f).site i).clusters = (s.site i).clusters ∧
      ((s.onCore c.i c.p f).site i).fast = (s.site i).fast ∧
      ((s.onCore c.i c.p f).site i).slow = (s.site i).slow := fun i => by
    rcases s.site_onSite_cases c.i i (·.onCore c.p f) with h | ⟨-, h⟩
    · rw [State.onCore, h]; exact ⟨rfl, rfl, rfl⟩
    · rw [State.onCore, h]; exact ⟨rfl, rfl, rfl⟩
  refine ⟨rfl, rfl, fun i => (hsite i).1, fun i => (hsite i).2.1, fun i => (hsite i).2.2, fun i p => ?cmem,
    fun i p => ?acc, fun i p k hk => ?ves, fun hw i p => ?ses⟩
  all_goals rcases s.core_onCore_cases c.i c.p i p f with h | ⟨⟨hi, hp⟩, h⟩ <;> rw [h]
  case cmem.inr => exact (hf _).cmem
  case acc.inr => exact (hf _).acc
  case ves.inl => exact .refl _
  case ves.inr =>
    refine (hf _).ves k fun hke => hk ?_
    rw [hi, hp, hke, hc.site, hc.core, hc.eng]
  case ses.inr => exact (hf _).ses hw

theorem onVe (hc : c.IsAt e) {f : Ve → Ve} : VecFrame wakes e s (s.onVe c.i c.p c.e f) :=
  onCore hc fun k => ⟨rfl, rfl, fun j hj => by rw [getD_modify_other _ _ _ _ _ hj.symm]; exact .refl _, fun _ => rfl⟩

theorem put (hc : c.IsAt e) {v : Ve} : VecFrame wakes e s (c.put s v) := onVe hc

theorem onSe (hc : c.IsAt e) (hw : wakes) {k : Nat} {f : Se → Se} : VecFrame wakes e s (s.onSe c.i c.p k f) :=
  onCore hc fun _ => ⟨rfl, rfl, fun _ _ => .refl _, fun hn => absurd hw hn⟩

end VecFrame

theorem Core.endVe_sameRegs (k : Core) (n j : Nat) (how : VeEnd) :
    (k.ves.getD j {}).SameRegs ((k.endVe n how).ves.getD j {}) := by
  by_cases hnj : n = j
  · subst hnj
    by_cases hn : n < k.ves.length
    · simp only [Core.endVe, getD_modify _ _ _ _ hn]
      exact ⟨rfl, rfl, rfl⟩
    · simp only [Core.endVe, List.modify_eq_self (Nat.le_of_not_lt hn)]
      exact .refl _
  · simp only [Core.endVe, getD_modify_other _ _ _ _ _ hnj]
    exact .refl _

namespace VecFrame

theorem endVe (hc : c.IsAt e) {how : VeEnd} : VecFrame wakes e s (s.onCore c.i c.p fun k => k.endVe c.e how) :=
  onCore hc fun k => ⟨rfl, rfl, fun j _ => k.endVe_sameRegs c.e j how, fun _ => rfl⟩

theorem fault (hc : c.IsAt e) {code : Nat} : VecFrame wakes e s (c.fault s code) := endVe hc

theorem eccFault (hc : c.IsAt e) : VecFrame wakes e s (c.eccFault s) :=
  (fault hc).trans (of_sameStores (State.SameStores.bump.trans State.SameStores.health))

theorem drawn {w : W64} : VecFrame wakes e s (c.drawn w s) := by
  unfold VCtx.drawn
  split
  · exact of_sameStores ⟨rfl, rfl, fun i => .refl (s.site i)⟩
  · exact refl s

theorem halves (hc : c.IsAt e) {f : List Half → List Half} :
    VecFrame wakes e s (s.onCore c.i c.p fun k => { k with halves := f k.halves }) :=
  onCore hc fun _ => ⟨rfl, rfl, fun _ _ => .refl _, fun _ => rfl⟩

/-- A vector row keeps the frame when its own effect does: the faults that come before it do. -/
theorem of_vecRow {cls op : Nat} {w : W64} {body : VCtx → State → State}
    (hbody : ∀ c, c.IsAt e → VecFrame wakes e s (body c s)) (h : vecRow cls op e w s body = .next t) :
    VecFrame wakes e s t := by
  obtain rfl := Host.Outcome.next.inj h
  split
  · exact refl s
  next c hat =>
    have hc := vecAt_isAt hat
    split
    · exact fault hc
    · split
      · exact eccFault hc
      · split
        · exact refl s
        · split
          · exact fault hc
          · split
            · exact refl s
            · split
              · exact eccFault hc
              · exact hbody c hc

end VecFrame
end

/-! The rows of a vector engine -/

/-- The instructions of a vector engine at word `w` (R98, R100–R102, R104–R106). Not compiled: the runtime has
no tag for so many constructors. -/
noncomputable def vecInstrs (e : VeRef) (w : W64) : List Instr :=
  [Instr.vadd e w, .vsub e w, .vmul e w, .vfma e w, .vfms e w, .vmax e w, .vmin e w, .vabs e w, .vneg e w, .vand e w,
   .vor e w, .vxor e w, .vshl e w, .vsra e w, .vsrl e w, .vsel e w, .vmov e w, .vperm e w, .vcmpeq e w, .vcmpne e w,
   .vcmplt e w, .vcmple e w, .vcmpuo e w, .vrsum e w, .vrmax e w, .vrmin e w, .vadds e w, .vsubs e w, .vrsubs e w,
   .vmuls e w, .vfmas e w, .vmaxs e w, .vmins e w, .vands e w, .vors e w, .vxors e w, .vshls e w, .vsras e w,
   .vsrls e w, .vsplat e w, .viota e w, .vexta e w, .vcmpeqs e w, .vcmpnes e w, .vcmplts e w, .vcmples e w,
   .vcmpgts e w, .vcmpges e w, .vld e w, .vst e w, .pld e w, .pst e w, .chpop e w, .vcvt e w, .vexp e w, .vlog e w,
   .vrsqrt e w, .vrcp e w, .vtanh e w, .verf e w, .vcNop e w, .halt e w, .br e w, .bz e w, .bnz e w, .loop e w,
   .pany e w, .pnone e w, .ali e w, .alui e w, .aaddi e w, .aadd e w, .asub e w, .amul e w, .ashli e w, .ashri e w,
   .pand e w, .por e w, .pxor e w, .pnot e w, .setvl e w, .flgrd e w, .srseed e w, .fence e w, .evsig e w]

/-- A command is a row of a vector engine, and unless it stores to core memory its own effect has the frame. -/
def IsVecRow (e : VeRef) (w : W64) (x : Instr) : Prop :=
  ∃ cls op body, (∀ s, exec x s = vecRow cls op e w s body) ∧
    (x ≠ .vst e w → x ≠ .pst e w → ∀ s c, c.IsAt e → VecFrame (x = .evsig e w) e s (body c s))

section
variable {e : VeRef} {w : W64} {x : Instr} {cls op : Nat} {body : VCtx → State → State}

theorem IsVecRow.framed (h : ∀ s, exec x s = vecRow cls op e w s body)
    (hbody : ∀ s c, c.IsAt e → VecFrame (x = .evsig e w) e s (body c s)) : IsVecRow e w x :=
  ⟨cls, op, body, h, fun _ _ => hbody⟩

/-- A row that changes its engine and nothing else. -/
theorem IsVecRow.put (h : ∀ s, exec x s = vecRow cls op e w s body) (hbody : ∀ c s, ∃ v, body c s = c.put s v) :
    IsVecRow e w x :=
  .framed h fun s c hc => by
    obtain ⟨v, hv⟩ := hbody c s
    rw [hv]
    exact .put hc

theorem vrSum_eq_put (c : VCtx) (s : State) : ∃ v, vrSum c s w = c.put s v := by
  unfold vrSum
  dsimp only
  split
  · exact ⟨_, rfl⟩
  · exact ⟨_, rfl⟩

theorem vrPick_eq_put (big : Bool) (c : VCtx) (s : State) : ∃ v, vrPick big c s w = c.put s v := by
  unfold vrPick
  dsimp only
  split
  · exact ⟨_, rfl⟩
  · exact ⟨_, rfl⟩

theorem isVecRow_vld : IsVecRow e w (.vld e w) := .framed (fun _ => exec_vld) fun s c hc => by
  dsimp only
  split
  · exact .trans .drawn (.fault hc)
  · split
    · exact .trans (.trans .drawn (.put hc)) (.eccFault hc)
    · exact .trans .drawn (.put hc)

theorem isVecRow_vst : IsVecRow e w (.vst e w) := ⟨_, _, _, fun _ => exec_vst, fun hne => absurd rfl hne⟩

theorem isVecRow_pld : IsVecRow e w (.pld e w) := .framed (fun _ => exec_pld) fun s c hc => by
  split
  · exact .fault hc
  · split
    · exact .eccFault hc
    · exact .put hc

theorem isVecRow_pst : IsVecRow e w (.pst e w) := ⟨_, _, _, fun _ => exec_pst, fun _ hne => absurd rfl hne⟩

theorem isVecRow_chpop : IsVecRow e w (.chpop e w) := .framed (fun _ => exec_chpop) fun s c hc => by
  dsimp only
  split
  · exact .fault hc
  · split
    · exact .trans (.halves hc) (.onVe hc)
    · split
      · exact .onVe hc
      · exact .trans (.halves hc) (.onVe hc)

theorem isVecRow_vcvt : IsVecRow e w (.vcvt e w) := .framed (fun _ => exec_vcvt) fun s c hc => by
  split
  · exact .eccFault hc
  · exact .put hc

theorem isVecRow_evsig : IsVecRow e w (.evsig e w) :=
  .framed (fun _ => exec_evsig) fun _ _ hc => .trans (.onSe hc rfl) (.put hc)
end

theorem vecInstrs_rows (e : VeRef) (w : W64) : ∀ x ∈ vecInstrs e w, IsVecRow e w x := by
  simp only [vecInstrs, List.forall_mem_cons]
  exact ⟨.put (fun _ => exec_vadd) fun _ _ => ⟨_, rfl⟩,
    .put (fun _ => exec_vsub) fun _ _ => ⟨_, rfl⟩,
    .put (fun _ => exec_vmul) fun _ _ => ⟨_, rfl⟩,
    .put (fun _ => exec_vfma) fun _ _ => ⟨_, rfl⟩,
    .put (fun _ => exec_vfms) fun _ _ => ⟨_, rfl⟩,
    .put (fun _ => exec_vmax) fun _ _ => ⟨_, rfl⟩,
    .put (fun _ => exec_vmin) fun _ _ => ⟨_, rfl⟩,
    .put (fun _ => exec_vabs) fun _ _ => ⟨_, rfl⟩,
    .put (fun _ => exec_vneg) fun _ _ => ⟨_, rfl⟩,
    .put (fun _ => exec_vand) fun _ _ => ⟨_, rfl⟩,
    .put (fun _ => exec_vor) fun _ _ => ⟨_, rfl⟩,
    .put (fun _ => exec_vxor) fun _ _ => ⟨_, rfl⟩,
    .put (fun _ => exec_vshl) fun _ _ => ⟨_, rfl⟩,
    .put (fun _ => exec_vsra) fun _ _ => ⟨_, rfl⟩,
    .put (fun _ => exec_vsrl) fun _ _ => ⟨_, rfl⟩,
    .put (fun _ => exec_vsel) fun _ _ => ⟨_, rfl⟩,
    .put (fun _ => exec_vmov) fun _ _ => ⟨_, rfl⟩,
    .put (fun _ => exec_vperm) fun _ _ => ⟨_, rfl⟩,
    .put (fun _ => exec_vcmpeq) fun _ _ => ⟨_, rfl⟩,
    .put (fun _ => exec_vcmpne) fun _ _ => ⟨_, rfl⟩,
    .put (fun _ => exec_vcmplt) fun _ _ => ⟨_, rfl⟩,
    .put (fun _ => exec_vcmple) fun _ _ => ⟨_, rfl⟩,
    .put (fun _ => exec_vcmpuo) fun _ _ => ⟨_, rfl⟩,
    .put (fun _ => exec_vrsum) vrSum_eq_put,
    .put (fun _ => exec_vrmax) (vrPick_eq_put true),
    .put (fun _ => exec_vrmin) (vrPick_eq_put false),
    .put (fun _ => exec_vadds) fun _ _ => ⟨_, rfl⟩,
    .put (fun _ => exec_vsubs) fun _ _ => ⟨_, rfl⟩,
    .put (fun _ => exec_vrsubs) fun _ _ => ⟨_, rfl⟩,
    .put (fun _ => exec_vmuls) fun _ _ => ⟨_, rfl⟩,
    .put (fun _ => exec_vfmas) fun _ _ => ⟨_, rfl⟩,
    .put (fun _ => exec_vmaxs) fun _ _ => ⟨_, rfl⟩,
    .put (fun _ => exec_vmins) fun _ _ => ⟨_, rfl⟩,
    .put (fun _ => exec_vands) fun _ _ => ⟨_, rfl⟩,
    .put (fun _ => exec_vors) fun _ _ => ⟨_, rfl⟩,
    .put (fun _ => exec_vxors) fun _ _ => ⟨_, rfl⟩,
    .put (fun _ => exec_vshls) fun _ _ => ⟨_, rfl⟩,
    .put (fun _ => exec_vsras) fun _ _ => ⟨_, rfl⟩,
    .put (fun _ => exec_vsrls) fun _ _ => ⟨_, rfl⟩,
    .put (fun _ => exec_vsplat) fun _ _ => ⟨_, rfl⟩,
    .put (fun _ => exec_viota) fun _ _ => ⟨_, rfl⟩,
    .put (fun _ => exec_vexta) fun _ _ => ⟨_, rfl⟩,
    .put (fun _ => exec_vcmpeqs) fun _ _ => ⟨_, rfl⟩,
    .put (fun _ => exec_vcmpnes) fun _ _ => ⟨_, rfl⟩,
    .put (fun _ => exec_vcmplts) fun _ _ => ⟨_, rfl⟩,
    .put (fun _ => exec_vcmples) fun _ _ => ⟨_, rfl⟩,
    .put (fun _ => exec_vcmpgts) fun _ _ => ⟨_, rfl⟩,
    .put (fun _ => exec_vcmpges) fun _ _ => ⟨_, rfl⟩,
    isVecRow_vld,
    isVecRow_vst,
    isVecRow_pld,
    isVecRow_pst,
    isVecRow_chpop,
    isVecRow_vcvt,
    .put (fun _ => exec_vexp) fun _ _ => ⟨_, rfl⟩,
    .put (fun _ => exec_vlog) fun _ _ => ⟨_, rfl⟩,
    .put (fun _ => exec_vrsqrt) fun _ _ => ⟨_, rfl⟩,
    .put (fun _ => exec_vrcp) fun _ _ => ⟨_, rfl⟩,
    .put (fun _ => exec_vtanh) fun _ _ => ⟨_, rfl⟩,
    .put (fun _ => exec_verf) fun _ _ => ⟨_, rfl⟩,
    .put (fun _ => exec_vcNop) fun _ _ => ⟨_, rfl⟩,
    .framed (fun _ => exec_halt) fun _ _ hc => .endVe hc,
    .put (fun _ => exec_br) fun _ _ => ⟨_, rfl⟩,
    .put (fun _ => exec_bz) fun _ _ => ⟨_, rfl⟩,
    .put (fun _ => exec_bnz) fun _ _ => ⟨_, rfl⟩,
    .put (fun _ => exec_loop) fun _ _ => ⟨_, rfl⟩,
    .put (fun _ => exec_pany) fun _ _ => ⟨_, rfl⟩,
    .put (fun _ => exec_pnone) fun _ _ => ⟨_, rfl⟩,
    .put (fun _ => exec_ali) fun _ _ => ⟨_, rfl⟩,
    .put (fun _ => exec_alui) fun _ _ => ⟨_, rfl⟩,
    .put (fun _ => exec_aaddi) fun _ _ => ⟨_, rfl⟩,
    .put (fun _ => exec_aadd) fun _ _ => ⟨_, rfl⟩,
    .put (fun _ => exec_asub) fun _ _ => ⟨_, rfl⟩,
    .put (fun _ => exec_amul) fun _ _ => ⟨_, rfl⟩,
    .put (fun _ => exec_ashli) fun _ _ => ⟨_, rfl⟩,
    .put (fun _ => exec_ashri) fun _ _ => ⟨_, rfl⟩,
    .put (fun _ => exec_pand) fun _ _ => ⟨_, rfl⟩,
    .put (fun _ => exec_por) fun _ _ => ⟨_, rfl⟩,
    .put (fun _ => exec_pxor) fun _ _ => ⟨_, rfl⟩,
    .put (fun _ => exec_pnot) fun _ _ => ⟨_, rfl⟩,
    .put (fun _ => exec_setvl) fun _ _ => ⟨_, rfl⟩,
    .put (fun _ => exec_flgrd) fun _ _ => ⟨_, rfl⟩,
    .put (fun _ => exec_srseed) fun _ _ => ⟨_, rfl⟩,
    .put (fun _ => exec_fence) fun _ _ => ⟨_, rfl⟩,
    isVecRow_evsig, List.forall_mem_nil _⟩

/-- Settles O15: the faults of a vector row come before its own effect, and ending a program keeps the registers. -/
theorem vectorProgramFaults : Obligations.VectorProgramFaults := by
  refine ⟨fun e w s c hat x hx => ?_, fun k n how => ⟨rfl, rfl, fun j => ?_⟩⟩
  · obtain ⟨cls, op, body, hrow, -⟩ := vecInstrs_rows e w x hx
    rw [hrow]
    exact ⟨vecRow_beyond_binding hat, vecRow_illegal hat⟩
  · have h := k.endVe_sameRegs n j how
    exact ⟨h.vregs, h.pregs, h.aregs⟩

/-- Settles O16: the faults that come before a row's own effect have the frame, and so has each row's effect. -/
theorem vectorFrame : Obligations.VectorFrame := by
  intro e w s t x hx hvst hpst hnext
  obtain ⟨cls, op, body, hrow, hbody⟩ := vecInstrs_rows e w x hx
  rw [hrow] at hnext
  have h : VecFrame (x = .evsig e w) e s t := .of_vecRow (hbody hvst hpst s) hnext
  refine ⟨h.vds, h.part, fun i => ⟨h.clusters i, h.fast i, h.slow i, fun p => ⟨h.cmem i p, h.acc i p, fun k hk => ?_,
    fun hne => h.ses hne i p⟩⟩⟩
  have hregs := h.ves i p k hk
  exact ⟨hregs.vregs, hregs.pregs, hregs.aregs⟩

/-! What the ready rows answer -/

/-- VCVT reads a group of source registers, all of which have to be whole. -/
theorem execVcvt_of_ready {e : VeRef} {w : W64} {s : State} {c : VCtx} (h : VecReady (3, 0x00) e w s c)
    (hwhole : (c.ve.cvtSources w).any c.ve.badRegs.contains = false) :
    execVcvt e w s = .next (c.next s (c.ve.convert w)) := by
  rw [execVcvt, vecRow_of_ready h, if_neg (Bool.eq_false_iff.mp hwhole)]

/-- Settles O8: a ready row answers its own effect, and VCVT's source group is whole by hypothesis. That VSHL saturates
under SAT is the model's reading (log entry 12), and the value of a transcendental beyond its special inputs is the
model's free value (log entry 8). -/
theorem vectorElementwise : Obligations.VectorElementwise := fun _ _ _ _ =>
  ⟨fun h => exec_vadd.trans (vecRow_of_ready h),
    fun h => exec_vsub.trans (vecRow_of_ready h),
    fun h => exec_vmul.trans (vecRow_of_ready h),
    fun h => exec_vfma.trans (vecRow_of_ready h),
    fun h => exec_vfms.trans (vecRow_of_ready h),
    fun h => exec_vmax.trans (vecRow_of_ready h),
    fun h => exec_vmin.trans (vecRow_of_ready h),
    fun h => exec_vabs.trans (vecRow_of_ready h),
    fun h => exec_vneg.trans (vecRow_of_ready h),
    fun h => exec_vand.trans (vecRow_of_ready h),
    fun h => exec_vor.trans (vecRow_of_ready h),
    fun h => exec_vxor.trans (vecRow_of_ready h),
    fun h => exec_vshl.trans (vecRow_of_ready h),
    fun h => exec_vsra.trans (vecRow_of_ready h),
    fun h => exec_vsrl.trans (vecRow_of_ready h),
    fun h => exec_vmov.trans (vecRow_of_ready h),
    fun h => exec_vsel.trans (vecRow_of_ready h),
    fun h => exec_vperm.trans (vecRow_of_ready h),
    fun h => exec_vcmpeq.trans (vecRow_of_ready h),
    fun h => exec_vcmpne.trans (vecRow_of_ready h),
    fun h => exec_vcmplt.trans (vecRow_of_ready h),
    fun h => exec_vcmple.trans (vecRow_of_ready h),
    fun h => exec_vcmpuo.trans (vecRow_of_ready h),
    fun h => exec_vrsum.trans (vecRow_of_ready h),
    fun h => exec_vrmax.trans (vecRow_of_ready h),
    fun h => exec_vrmin.trans (vecRow_of_ready h),
    fun h => exec_vadds.trans (vecRow_of_ready h),
    fun h => exec_vsubs.trans (vecRow_of_ready h),
    fun h => exec_vrsubs.trans (vecRow_of_ready h),
    fun h => exec_vmuls.trans (vecRow_of_ready h),
    fun h => exec_vfmas.trans (vecRow_of_ready h),
    fun h => exec_vmaxs.trans (vecRow_of_ready h),
    fun h => exec_vmins.trans (vecRow_of_ready h),
    fun h => exec_vands.trans (vecRow_of_ready h),
    fun h => exec_vors.trans (vecRow_of_ready h),
    fun h => exec_vxors.trans (vecRow_of_ready h),
    fun h => exec_vshls.trans (vecRow_of_ready h),
    fun h => exec_vsras.trans (vecRow_of_ready h),
    fun h => exec_vsrls.trans (vecRow_of_ready h),
    fun h => exec_vsplat.trans (vecRow_of_ready h),
    fun h => exec_viota.trans (vecRow_of_ready h),
    fun h => exec_vexta.trans (vecRow_of_ready h),
    fun h => exec_vcmpeqs.trans (vecRow_of_ready h),
    fun h => exec_vcmpnes.trans (vecRow_of_ready h),
    fun h => exec_vcmplts.trans (vecRow_of_ready h),
    fun h => exec_vcmples.trans (vecRow_of_ready h),
    fun h => exec_vcmpgts.trans (vecRow_of_ready h),
    fun h => exec_vcmpges.trans (vecRow_of_ready h),
    fun h hwhole => exec_vcvt.trans (execVcvt_of_ready h hwhole),
    fun h => exec_vexp.trans (vecRow_of_ready h),
    fun h => exec_vlog.trans (vecRow_of_ready h),
    fun h => exec_vrsqrt.trans (vecRow_of_ready h),
    fun h => exec_vrcp.trans (vecRow_of_ready h),
    fun h => exec_vtanh.trans (vecRow_of_ready h),
    fun h => exec_verf.trans (vecRow_of_ready h)⟩

/-- Settles O10: a ready row answers its own effect. FENCE has nothing to wait for, since the model makes stores visible
at once (log entry 14). -/
theorem vectorControl : Obligations.VectorControl := fun _ _ _ _ =>
  ⟨fun h => exec_halt.trans (vecRow_of_ready h),
    fun h => exec_br.trans (vecRow_of_ready h),
    fun h => exec_bz.trans (vecRow_of_ready h),
    fun h => exec_bnz.trans (vecRow_of_ready h),
    fun h => exec_loop.trans (vecRow_of_ready h),
    fun h => exec_pany.trans (vecRow_of_ready h),
    fun h => exec_pnone.trans (vecRow_of_ready h),
    fun h => exec_vcNop.trans (vecRow_of_ready h),
    fun h => exec_ali.trans (vecRow_of_ready h),
    fun h => exec_alui.trans (vecRow_of_ready h),
    fun h => exec_aaddi.trans (vecRow_of_ready h),
    fun h => exec_aadd.trans (vecRow_of_ready h),
    fun h => exec_asub.trans (vecRow_of_ready h),
    fun h => exec_amul.trans (vecRow_of_ready h),
    fun h => exec_ashli.trans (vecRow_of_ready h),
    fun h => exec_ashri.trans (vecRow_of_ready h),
    fun h => exec_pand.trans (vecRow_of_ready h),
    fun h => exec_por.trans (vecRow_of_ready h),
    fun h => exec_pxor.trans (vecRow_of_ready h),
    fun h => exec_pnot.trans (vecRow_of_ready h),
    fun h => exec_setvl.trans (vecRow_of_ready h),
    fun h => exec_flgrd.trans (vecRow_of_ready h),
    fun h => exec_srseed.trans (vecRow_of_ready h),
    fun h => exec_fence.trans (vecRow_of_ready h),
    fun h => exec_evsig.trans (vecRow_of_ready h)⟩

section
variable {e : VeRef} {w : W64} {s : State} {c : VCtx}

theorem execVld_of_ready (h : VecReady (2, 0x00) e w s c) (hcheck : vmCheck c w s.free = none)
    (hwhole : c.loadWhole w s.free = true) :
    execVld e w s = .next (c.next (c.drawn w s) (c.ve.writeVd w fun i =>
      (leNat (c.core.readCm c.q (vmAddr c.ve w s.free i) (dtW (vDt w))), {}))) := by
  rw [execVld, vecRow_of_ready h]
  simp only [hcheck, hwhole, Bool.not_true, Bool.false_eq_true, if_false]

theorem execVst_of_ready (h : VecReady (2, 0x01) e w s c) (hcheck : vmCheck c w s.free = none) :
    execVst e w s = .next (c.next ((c.drawn w s).onCore c.i c.p (c.storeAll w s.free)) c.ve) := by
  rw [execVst, vecRow_of_ready h]
  simp only [hcheck]

theorem execPld_of_ready {a : Nat} (h : VecReady (2, 0x02) e w s c) (haddr : predAddr c w = (a, none))
    (hwhole : c.core.poisonedAt c.q a 256 = false) :
    execPld e w s = .next (c.next s (c.ve.setPreg (vVd w % 8) (leNat (c.core.readCm c.q a 256)))) := by
  rw [execPld, vecRow_of_ready h]
  simp only [haddr, hwhole, Bool.false_eq_true, if_false]

theorem execPst_of_ready {a : Nat} (h : VecReady (2, 0x03) e w s c) (haddr : predAddr c w = (a, none)) :
    execPst e w s = .next (c.next
      (s.onCore c.i c.p fun k => k.writeCm c.q a (leBytes 256 (c.ve.preg (vVd w % 8)))) c.ve) := by
  rw [execPst, vecRow_of_ready h]
  simp only [haddr]

theorem execChpop_of_row {h : Nat} {row : Nat × Bytes} {rest : List (Nat × Bytes)}
    (hready : VecReady (2, 0x04) e w s c) (hhalf : chainHalf c.q (vmMode w % 2) = some h)
    (hfifo : (c.core.halves.getD h {}).fifo = row :: rest) :
    execChpop e w s = .next ((s.onCore c.i c.p fun k => { k with
      halves := k.halves.modify h fun x => { x with fifo := rest } }).onVe c.i c.p c.e
        (·.popRow (vVd w) (vmAb w) row)) := by
  rw [execChpop, vecRow_of_ready hready]
  simp only [hhalf, hfifo]

theorem execChpop_of_ended {h : Nat} (hready : VecReady (2, 0x04) e w s c)
    (hhalf : chainHalf c.q (vmMode w % 2) = some h) (hfifo : (c.core.halves.getD h {}).fifo = [])
    (hended : (c.core.halves.getD h {}).state = .ended) :
    execChpop e w s = .next (s.onVe c.i c.p c.e (·.popEnded (vmAb w))) := by
  rw [execChpop, vecRow_of_ready hready]
  simp only [hhalf, hfifo, hended, if_true]

end

/-- Settles O9: a ready row answers its own effect, which goes by the address check and by what is read. A gather or
scatter index beyond the 512 INT32 elements is the model's free value (log entry 13). -/
theorem vectorMemory : Obligations.VectorMemory := fun _ _ _ _ =>
  ⟨fun h hcheck hwhole => exec_vld.trans (execVld_of_ready h hcheck hwhole),
    fun h hcheck => exec_vst.trans (execVst_of_ready h hcheck),
    fun _ h haddr hwhole => exec_pld.trans (execPld_of_ready h haddr hwhole),
    fun _ h haddr => exec_pst.trans (execPst_of_ready h haddr),
    fun _ _ _ h hhalf hfifo => exec_chpop.trans (execChpop_of_row h hhalf hfifo),
    fun _ h hhalf hfifo hended => exec_chpop.trans (execChpop_of_ended h hhalf hfifo hended)⟩

end Sys2Proof.Machine

/-! The scalar instructions: what a row of a scalar engine answers when it is ready. -/

namespace Sys2Proof.Machine

/-! The shared frame of the scalar rows -/

theorem seRow_of_ready {n w : Nat} {e : SeRef} {s : State} {c : SCtx} {body : SCtx → State → State}
    (h : SeReady n w e s c) : seRow e s n w body = .next (body c s) := by
  obtain ⟨hat, hregion, hfetch, hwhole⟩ := h
  have hpoison : ¬(decide (c.region c.se.pc.toNat n = .core) && c.core.poisonedAt c.q c.se.pc.toNat n) = true := by
    rw [Bool.and_eq_true, decide_eq_true_eq]
    exact fun ⟨hcore, hbad⟩ => Bool.false_ne_true ((hwhole hcore).symm.trans hbad)
  simp only [seRow, hat, hregion, hfetch, Bool.not_true, Bool.false_eq_true, if_false, if_neg hpoison]

theorem xRow_of_ready {f7 f3 : Nat} {e : SeRef} {w : W32} {s : State} {c : SCtx} {body : SCtx → State → State}
    (h : XReady f7 f3 e w s c) : xRow f7 f3 e w s body = .next (body c s) := by
  obtain ⟨hready, hword⟩ := h
  rw [xRow, seRow_of_ready hready, if_pos hword]

/-! What one instruction of the standard does -/

section
variable {c : SCtx} {s : State} {w n : Nat}

theorem SCtx.run_lui (h : w % 128 = 0x37) :
    c.run s w n = c.retire s n (c.se.setReg (rvRd w) (BitVec.ofInt 64 (immU w))) := by
  simp only [SCtx.run, h]

theorem SCtx.run_auipc (h : w % 128 = 0x17) :
    c.run s w n = c.retire s n (c.se.setReg (rvRd w) (c.se.pc + BitVec.ofInt 64 (immU w))) := by
  simp only [SCtx.run, h]

theorem SCtx.run_op (h : w % 128 = 0x33) (h7 : rvF7 w = 0) :
    c.run s w n = c.retire s n
      (c.se.setReg (rvRd w) (alu (rvF3 w) false (c.se.reg (rvRs1 w)) (c.se.reg (rvRs2 w)))) := by
  simp only [SCtx.run, h, h7]

/-- SUB and SRA. -/
theorem SCtx.run_op_alt (h : w % 128 = 0x33) (h7 : rvF7 w = 0x20) (h3 : rvF3 w = 0 ∨ rvF3 w = 5) :
    c.run s w n = c.retire s n
      (c.se.setReg (rvRd w) (alu (rvF3 w) true (c.se.reg (rvRs1 w)) (c.se.reg (rvRs2 w)))) := by
  simp only [SCtx.run, h, h7, if_pos h3]

theorem SCtx.run_muldiv (h : w % 128 = 0x33) (h7 : rvF7 w = 1) :
    c.run s w n = c.retire s n (c.se.setReg (rvRd w)
      (BitVec.ofNat 64 (mulDiv 64 (rvF3 w) (c.se.reg (rvRs1 w)).toNat (c.se.reg (rvRs2 w)).toNat))) := by
  simp only [SCtx.run, h, h7]

theorem SCtx.run_op_imm (h : w % 128 = 0x13) (hsll : rvF3 w ≠ 1) (hsrl : rvF3 w ≠ 5) :
    c.run s w n = c.retire s n
      (c.se.setReg (rvRd w) (alu (rvF3 w) false (c.se.reg (rvRs1 w)) (BitVec.ofInt 64 (immI w)))) := by
  simp only [SCtx.run, h, if_neg hsll, if_neg hsrl]

theorem SCtx.run_jal (h : w % 128 = 0x6F) :
    c.run s w n = c.jump s (c.se.pc + BitVec.ofInt 64 (immJ w))
      (c.se.setReg (rvRd w) (c.se.pc + BitVec.ofNat 64 n)) := by
  simp only [SCtx.run, h]

theorem SCtx.run_jalr (h : w % 128 = 0x67) (h3 : rvF3 w = 0) :
    c.run s w n = c.jump s ((c.se.reg (rvRs1 w) + BitVec.ofInt 64 (immI w)) &&& ~~~1)
      (c.se.setReg (rvRd w) (c.se.pc + BitVec.ofNat 64 n)) := by
  simp only [SCtx.run, h, if_pos h3]

theorem SCtx.run_beq (h : w % 128 = 0x63) (h3 : rvF3 w = 0) :
    c.run s w n = if c.se.reg (rvRs1 w) = c.se.reg (rvRs2 w) then c.jump s (c.se.pc + BitVec.ofInt 64 (immB w)) c.se
      else c.retire s n c.se := by
  simp only [SCtx.run, h, h3, decide_eq_true_eq]

/-- A signed load that finds its bytes. -/
theorem SCtx.run_load {bs : Bytes} (h : w % 128 = 0x03) (h3 : rvF3 w < 4)
    (hload : c.load (c.se.reg (rvRs1 w) + BitVec.ofInt 64 (immI w)).toNat (2 ^ rvF3 w) = .ok bs) :
    c.run s w n = c.retire s n (c.se.setReg (rvRd w) (sx (8 * 2 ^ rvF3 w) (leNat bs))) := by
  have hne : rvF3 w ≠ 7 := by omega
  simp only [SCtx.run, h, if_neg hne, Nat.mod_eq_of_lt h3, hload, if_pos h3]

theorem SCtx.run_store (h : w % 128 = 0x23) (h3 : rvF3 w < 4)
    (hstore : c.storeFault (c.se.reg (rvRs1 w) + BitVec.ofInt 64 (immS w)).toNat (2 ^ rvF3 w) = none) :
    c.run s w n = c.retire
      (c.store s (c.se.reg (rvRs1 w) + BitVec.ofInt 64 (immS w)).toNat
        (leBytes (2 ^ rvF3 w) (c.se.reg (rvRs2 w)).toNat)) n
      (((c.store s (c.se.reg (rvRs1 w) + BitVec.ofInt 64 (immS w)).toNat
        (leBytes (2 ^ rvF3 w) (c.se.reg (rvRs2 w)).toNat)).core c.i c.p).ses.getD c.k {}) := by
  simp only [SCtx.run, h, if_neg (Nat.not_le.mpr h3), hstore]

theorem SCtx.run_fence (h : w % 128 = 0x0F) (h3 : rvF3 w = 0) : c.run s w n = c.retire s n c.se := by
  simp only [SCtx.run, h, h3]

theorem SCtx.run_fence_i (h : w % 128 = 0x0F) (h3 : rvF3 w = 1) :
    c.run s w n = c.retire s n { c.se with code := c.core.cmem } := by
  simp only [SCtx.run, h, h3]

end

section
variable {e : SeRef} {w : W32} {s : State} {c : SCtx}

theorem execScalarInstruction_of_wide (hready : SeReady 4 w.toNat e s c) (hwide : w.toNat % 4 = 3)
    (hown : ownRow w = false) : execScalarInstruction e w s = .next (c.run s w.toNat 4) := by
  rw [execScalarInstruction, if_pos hwide, seRow_of_ready hready, if_neg (Bool.eq_false_iff.mp hown)]

theorem execScalarInstruction_of_expand {x : Nat} (hready : SeReady 2 (w.toNat % 2 ^ 16) e s c)
    (hnarrow : w.toNat % 4 ≠ 3) (hx : expand (w.toNat % 2 ^ 16) = some x) :
    execScalarInstruction e w s = .next (c.run s x 2) := by
  rw [execScalarInstruction, if_neg hnarrow, seRow_of_ready hready]
  simp only [hx]

theorem execScalarInstruction_of_undefined (hready : SeReady 2 (w.toNat % 2 ^ 16) e s c)
    (hnarrow : w.toNat % 4 ≠ 3) (hx : expand (w.toNat % 2 ^ 16) = none) :
    execScalarInstruction e w s = .next (c.trap s 2 (BitVec.ofNat 64 (w.toNat % 2 ^ 16))) := by
  rw [execScalarInstruction, if_neg hnarrow, seRow_of_ready hready]
  simp only [hx, SCtx.illegal]
end

/-- Settles O21: a ready row runs its instruction, or its expansion, and the opcode's lemma says what that does. What
the instructions compute is the RISC-V standard's, which R113 names (log entry 15). -/
theorem scalarInstructions : Obligations.ScalarInstructions := by
  refine ⟨fun e w s c hready hwide hown => ?wide, fun e w s c hnarrow hready =>
    ⟨fun x hx => exec_scalarInstruction.trans (execScalarInstruction_of_expand hready hnarrow hx),
      fun hx => exec_scalarInstruction.trans (execScalarInstruction_of_undefined hready hnarrow hx)⟩⟩
  case wide =>
    rw [exec_scalarInstruction, execScalarInstruction_of_wide hready hwide hown]
    refine ⟨fun h => congrArg _ (SCtx.run_lui h), fun h => congrArg _ (SCtx.run_auipc h),
      fun h h7 => congrArg _ (SCtx.run_op h h7), fun h h7 h3 => congrArg _ (SCtx.run_op_alt h h7 h3),
      fun h h7 => congrArg _ (SCtx.run_muldiv h h7),
      fun h hsll hsrl => congrArg _ (SCtx.run_op_imm h hsll hsrl), fun h => congrArg _ (SCtx.run_jal h),
      fun h h3 => congrArg _ (SCtx.run_jalr h h3),
      fun h h3 heq => congrArg _ ((SCtx.run_beq h h3).trans (if_pos heq)),
      fun h h3 hne => congrArg _ ((SCtx.run_beq h h3).trans (if_neg hne)),
      fun bs h h3 hload => congrArg _ (SCtx.run_load h h3 hload),
      fun h h3 hstore => ⟨_, congrArg _ (SCtx.run_store h h3 hstore), rfl⟩,
      fun h h3 => congrArg _ (SCtx.run_fence h h3), fun h h3 => congrArg _ (SCtx.run_fence_i h h3)⟩

/-! The Xhsk instructions -/

section
variable {e : SeRef} {w : W32} {s : State} {c : SCtx}

theorem execVlaunch_of_free {blk : Bytes} (h : XReady 0 0 e w s c) (hmask : c.maskOk w = true)
    (hheld : c.launchHeld s w = false) (hblk : c.block (c.rs1 w).toNat 64 64 = .ok blk) :
    execVlaunch e w s = .next (c.launch s w blk) := by
  rw [execVlaunch, xRow_of_ready h]
  simp only [hmask, hheld, hblk, Bool.not_true, Bool.false_eq_true, if_false]

theorem execVlaunch_of_held (h : XReady 0 0 e w s c) (hmask : c.maskOk w = true) (hheld : c.launchHeld s w = true) :
    execVlaunch e w s = .next (c.give s w 0) := by
  rw [execVlaunch, xRow_of_ready h]
  simp only [hmask, hheld, Bool.not_true, Bool.false_eq_true, if_false, if_true]

theorem execVwait_unknown (h : XReady 0 1 e w s c) (ht : c.ticket? (c.rs1 w).toNat = none) :
    execVwait e w s = .next (c.give s w 2) := by
  rw [execVwait, xRow_of_ready h]
  simp only [ht]

theorem execVwait_ended {k : Ticket} (h : XReady 0 1 e w s c) (ht : c.ticket? (c.rs1 w).toNat = some k)
    (hended : k.running = []) :
    execVwait e w s =
      .next (c.give (s.onCore c.i c.p (·.collect (c.rs1 w).toNat)) w (k.status (s.site c.i) c.p)) := by
  rw [execVwait, xRow_of_ready h]
  simp only [ht, hended, List.isEmpty_nil, if_true]

theorem execVwait_running {k : Ticket} (h : XReady 0 1 e w s c) (ht : c.ticket? (c.rs1 w).toNat = some k)
    (hrun : k.running ≠ []) :
    execVwait e w s = .next (c.await s (.ticket (rvRd w.toNat) (c.rs1 w).toNat)) := by
  rw [execVwait, xRow_of_ready h]
  simp only [ht, List.isEmpty_iff, if_neg hrun]

theorem execVpoll_unknown (h : XReady 0 2 e w s c) (ht : c.ticket? (c.rs1 w).toNat = none) :
    execVpoll e w s = .next (c.give s w 2) := by
  rw [execVpoll, xRow_of_ready h]
  simp only [ht]

theorem execVpoll_known {k : Ticket} (h : XReady 0 2 e w s c) (ht : c.ticket? (c.rs1 w).toNat = some k) :
    execVpoll e w s =
      .next (c.give s w (if k.running = [] then k.status (s.site c.i) c.p else 0xFFFFFFFF)) := by
  rw [execVpoll, xRow_of_ready h]
  simp only [ht, List.isEmpty_iff]

theorem execVabort_known {k : Ticket} (h : XReady 2 7 e w s c) (ht : c.ticket? (c.rs1 w).toNat = some k) :
    execVabort e w s = .next (c.retire
      (s.onCore c.i c.p fun u => k.running.foldl (fun u v => u.endVe v .stopped) u) 4
      (((s.onCore c.i c.p fun u => k.running.foldl (fun u v => u.endVe v .stopped) u).core c.i c.p).ses.getD
        c.k {})) := by
  rw [execVabort, xRow_of_ready h]
  simp only [ht]

/-- The number that CMCOPY gives its move: one that no move of the core has (R119; which one is log entry 17). -/
def SCtx.freshMove (c : SCtx) (s : State) : Nat :=
  freshId (c.core.moves.map (·.id)) (Config.freeWord s.free).toNat

theorem execCmcopy_of_room {b : Bytes} (h : XReady 0 3 e w s c) (hb : c.block (c.rs1 w).toNat 32 8 = .ok b)
    (hroom : c.movesOpen < 4) :
    execCmcopy e w s = .next (c.give (State.onCore { s with free := s.free + 1 } c.i c.p fun k => { k with
      moves := k.moves ++ [c.moveOf s b (c.freshMove s)] }) w (c.freshMove s)) := by
  rw [execCmcopy, xRow_of_ready h]
  simp only [hb, if_neg (Nat.not_le.mpr hroom), SCtx.freshMove]

theorem execCmcopy_of_full {b : Bytes} (h : XReady 0 3 e w s c) (hb : c.block (c.rs1 w).toNat 32 8 = .ok b)
    (hfull : 4 ≤ c.movesOpen) : execCmcopy e w s = .next (c.give s w 0) := by
  rw [execCmcopy, xRow_of_ready h]
  simp only [hb, if_pos hfull]

theorem execMwait_ended {m : Move} {r : Nat} (h : XReady 0 4 e w s c)
    (hm : c.core.moves.find? (fun m => decide (m.id = (c.rs1 w).toNat) && decide (m.quarter = c.q.getD 0)) = some m)
    (hr : m.result = some r) :
    execMwait e w s = .next (c.give (s.onCore c.i c.p (·.dropMove (c.rs1 w).toNat)) w r) := by
  rw [execMwait, xRow_of_ready h]
  simp only [hm, hr]

theorem execMwait_open {m : Move} (h : XReady 0 4 e w s c)
    (hm : c.core.moves.find? (fun m => decide (m.id = (c.rs1 w).toNat) && decide (m.quarter = c.q.getD 0)) = some m)
    (hr : m.result = none) : execMwait e w s = .next (c.await s (.move (rvRd w.toNat) (c.rs1 w).toNat)) := by
  rw [execMwait, xRow_of_ready h]
  simp only [hm, hr]

theorem execMwait_unknown (h : XReady 0 4 e w s c)
    (hm : c.core.moves.find? (fun m => decide (m.id = (c.rs1 w).toNat) && decide (m.quarter = c.q.getD 0)) = none) :
    execMwait e w s = .next (c.give s w 2) := by
  rw [execMwait, xRow_of_ready h]
  simp only [hm]

theorem execEvwait_pending (h : XReady 0 5 e w s c) (hev : c.se.events &&& (c.rs1 w).setWidth 16 ≠ 0) :
    execEvwait e w s = .next (c.retire s 4
      { c.se.setReg (rvRd w.toNat) ((c.se.events &&& (c.rs1 w).setWidth 16).setWidth 64) with
        events := c.se.events &&& ~~~((c.rs1 w).setWidth 16) }) := by
  rw [execEvwait, xRow_of_ready h]
  simp only [if_neg hev]

theorem execEvwait_none (h : XReady 0 5 e w s c) (hev : c.se.events &&& (c.rs1 w).setWidth 16 = 0) :
    execEvwait e w s = .next (c.await s (.event (rvRd w.toNat) ((c.rs1 w).setWidth 16) (c.rs2 w))) := by
  rw [execEvwait, xRow_of_ready h]
  simp only [if_pos hev]

theorem execEvset_inside (h : XReady 0 6 e w s c) (hin : (c.rs1 w).toNat < (seSpan c.q).2) :
    execEvset e w s = .next (c.retire
      (s.onSe c.i c.p ((seSpan c.q).1 + (c.rs1 w).toNat) (·.post ((c.rs2 w).setWidth 16))) 4
      (((s.onSe c.i c.p ((seSpan c.q).1 + (c.rs1 w).toNat) (·.post ((c.rs2 w).setWidth 16))).core c.i c.p).ses.getD
        c.k {})) := by
  rw [execEvset, xRow_of_ready h]
  simp only [if_pos hin]

theorem execCharm_of_quiet {n : Nat} (h : XReady 1 7 e w s c) (hhalf : c.half? (c.rs1 w).toNat = some n)
    (hstate : (c.core.halves.getD n {}).state ≠ .active) (hfifo : (c.core.halves.getD n {}).fifo = []) :
    execCharm e w s = .next (c.give (s.onCore c.i c.p fun k => { k with
      halves := k.halves.modify n fun x => { x with state := .idle } }) w 1) := by
  rw [execCharm, xRow_of_ready h]
  simp only [hhalf, hstate, hfifo, List.isEmpty_nil, Bool.not_true, Bool.false_eq_true, or_self, if_false]

theorem execCharm_of_active {n : Nat} (h : XReady 1 7 e w s c) (hhalf : c.half? (c.rs1 w).toNat = some n)
    (hstate : (c.core.halves.getD n {}).state = .active) : execCharm e w s = .next (c.give s w 0) := by
  rw [execCharm, xRow_of_ready h]
  simp only [hhalf, hstate, true_or, if_true]

theorem execWfi_pending (h : SeReady 4 0x10500073 e s c) (hev : c.se.events ≠ 0) :
    execWfi e 0x10500073 s = .next (c.retire s 4 c.se) :=
  (seRow_of_ready h).trans (congrArg Host.Outcome.next ((if_neg (not_not_intro rfl)).trans (if_pos hev)))

theorem execWfi_none (h : SeReady 4 0x10500073 e s c) (hev : c.se.events = 0) :
    execWfi e 0x10500073 s = .next (c.await s .wfi) :=
  (seRow_of_ready h).trans
    (congrArg Host.Outcome.next ((if_neg (not_not_intro rfl)).trans (if_neg (not_not_intro hev))))

end

/-- Settles O19: each row is ready, and its match takes the branch that the hypotheses name. Which numbers VLAUNCH and
CMCOPY give is the model's free value (log entry 17). -/
theorem xhskInstructions : Obligations.XhskInstructions := by
  intro e w s c
  refine ⟨fun blk h hmask hheld hblk => ?launch, fun h hmask hheld => ?held, fun h ht => ?vwaitUnknown,
    fun k h ht hended => ?vwaitEnded, fun k h ht hrun => ?vwaitRunning, fun h ht => ?vpollUnknown,
    fun k h ht => ?vpollKnown, fun k h ht => ?vabort, fun b h hb hroom => ?cmcopy, fun b h hb hfull => ?cmcopyFull,
    fun m r h hm hr => ?mwaitEnded, fun m h hm hr => ?mwaitOpen, fun h hm => ?mwaitUnknown,
    fun h hev => ?evwaitPending, fun h hev => ?evwaitNone, fun h hin => ?evset, fun h => ?sehalt,
    fun n h hhalf hstate hfifo => ?charm, fun n h hhalf hstate => ?charmActive, fun h hev => ?wfiPending,
    fun h hev => ?wfiNone⟩
  case launch => exact exec_vlaunch.trans (execVlaunch_of_free h hmask hheld hblk)
  case held => exact exec_vlaunch.trans (execVlaunch_of_held h hmask hheld)
  case vwaitUnknown => exact exec_vwait.trans (execVwait_unknown h ht)
  case vwaitEnded => exact exec_vwait.trans (execVwait_ended h ht hended)
  case vwaitRunning => exact exec_vwait.trans (execVwait_running h ht hrun)
  case vpollUnknown => exact exec_vpoll.trans (execVpoll_unknown h ht)
  case vpollKnown => exact exec_vpoll.trans (execVpoll_known h ht)
  case vabort => exact exec_vabort.trans (execVabort_known h ht)
  case cmcopy => exact exec_cmcopy.trans (execCmcopy_of_room h hb hroom)
  case cmcopyFull => exact exec_cmcopy.trans (execCmcopy_of_full h hb hfull)
  case mwaitEnded => exact exec_mwait.trans (execMwait_ended h hm hr)
  case mwaitOpen => exact exec_mwait.trans (execMwait_open h hm hr)
  case mwaitUnknown => exact exec_mwait.trans (execMwait_unknown h hm)
  case evwaitPending => exact exec_evwait.trans (execEvwait_pending h hev)
  case evwaitNone => exact exec_evwait.trans (execEvwait_none h hev)
  case evset => exact exec_evset.trans (execEvset_inside h hin)
  case sehalt => exact exec_sehalt.trans (xRow_of_ready h)
  case charm => exact exec_charm.trans (execCharm_of_quiet h hhalf hstate hfifo)
  case charmActive => exact exec_charm.trans (execCharm_of_active h hhalf hstate)
  case wfiPending => exact exec_wfi.trans (execWfi_pending h hev)
  case wfiNone => exact exec_wfi.trans (execWfi_none h hev)

end Sys2Proof.Machine

/-! Core memory under a binding: bytes of a write read back, and what a scalar store leaves alone. -/

namespace Sys2Proof.Machine

/-! Where a binding's bytes lie among the banks (R187) -/

/-- Bytes of one line lie together. -/
theorem bankByte_add {q : Option Nat} {a t : Nat} (h : a % 128 + t < 128) : bankByte q (a + t) = bankByte q a + t := by
  have hline : (a + t) >>> 7 = a >>> 7 := by rw [Nat.shiftRight_eq_div_pow, Nat.shiftRight_eq_div_pow]; omega
  have hrow : bankRow q (a + t) = bankRow q a := by simp only [bankRow, hline]
  have hoff : (a + t) % 128 = a % 128 + t := by omega
  rw [bankByte, hrow, hoff, bankByte, Nat.add_assoc]

theorem bankRow_row_lt {q : Option Nat} {a : Nat} (h : a < bindingSize q) : (bankRow q a).2 < 12288 := by
  cases q with
  | none =>
    have h : a < 0x6000000 := h
    simp only [bankRow, Nat.shiftRight_eq_div_pow]
    omega
  | some q =>
    have h : a < 0x1800000 := h
    simp only [bankRow, Nat.shiftRight_eq_div_pow]
    omega

/-- XOR with one number cancels (as a module this text has no Mathlib, whose lemma says so). -/
theorem eq_of_xor_eq {a b k : Nat} (h : a ^^^ k = b ^^^ k) : a = b := by
  calc a = a ^^^ k ^^^ k := by rw [Nat.xor_assoc, Nat.xor_self, Nat.xor_zero]
    _ = b ^^^ k ^^^ k := by rw [h]
    _ = b := by rw [Nat.xor_assoc, Nat.xor_self, Nat.xor_zero]

/-- The row gives the upper bits of the line, and the bank, which mixes the lower ones with them, gives those. -/
theorem line_eq_of_bankRow_eq {q : Option Nat} {a b : Nat} (h : bankRow q a = bankRow q b) : a >>> 7 = b >>> 7 := by
  generalize hl : a >>> 7 = l
  generalize hm : b >>> 7 = m
  cases q with
  | none =>
    simp only [bankRow, hl, hm, Prod.mk.injEq] at h
    obtain ⟨hbank, hrow⟩ := h
    have h12 : l >>> 12 = m >>> 12 := by rw [Nat.shiftRight_add l 6 6, hrow, ← Nat.shiftRight_add]
    have h18 : l >>> 18 = m >>> 18 := by rw [Nat.shiftRight_add l 6 12, hrow, ← Nat.shiftRight_add]
    rw [hrow, h12, h18] at hbank
    have hlow := eq_of_xor_eq (eq_of_xor_eq (eq_of_xor_eq hbank))
    rw [Nat.shiftRight_eq_div_pow, Nat.shiftRight_eq_div_pow] at hrow
    omega
  | some q =>
    simp only [bankRow, hl, hm, Prod.mk.injEq] at h
    obtain ⟨hbank, hrow⟩ := h
    have h8 : l >>> 8 = m >>> 8 := by rw [Nat.shiftRight_add l 4 4, hrow, ← Nat.shiftRight_add]
    have h12 : l >>> 12 = m >>> 12 := by rw [Nat.shiftRight_add l 4 8, hrow, ← Nat.shiftRight_add]
    have h16 : l >>> 16 = m >>> 16 := by rw [Nat.shiftRight_add l 4 12, hrow, ← Nat.shiftRight_add]
    rw [hrow, h8, h12, h16] at hbank
    have hlow := eq_of_xor_eq (eq_of_xor_eq (eq_of_xor_eq (eq_of_xor_eq (Nat.add_left_cancel hbank))))
    rw [Nat.shiftRight_eq_div_pow, Nat.shiftRight_eq_div_pow] at hrow
    omega

/-- Two byte offsets of a binding do not share a place. -/
theorem bankByte_injective {q : Option Nat} {x y : Nat} (hx : x < bindingSize q) (hy : y < bindingSize q)
    (h : bankByte q x = bankByte q y) : x = y := by
  have hrx := bankRow_row_lt hx
  have hry := bankRow_row_lt hy
  have hplace : ((bankRow q x).1 * 12288 + (bankRow q x).2) * 128 + x % 128 =
      ((bankRow q y).1 * 12288 + (bankRow q y).2) * 128 + y % 128 := h
  have hrow : (bankRow q x).2 = (bankRow q y).2 := by omega
  have hbank : (bankRow q x).1 = (bankRow q y).1 := by omega
  have hline := line_eq_of_bankRow_eq (Prod.ext hbank hrow)
  rw [Nat.shiftRight_eq_div_pow, Nat.shiftRight_eq_div_pow] at hline
  omega

/-! One byte of a binding -/

theorem Mem.fill_one (m : Mem) (a : Nat) : Mem.fill 1 a (m.filter fun c => decide (a ≤ c.1) && decide (c.1 < a + 1)) =
    [m.get a] := by
  induction m with
  | nil => rfl
  | cons c r ih =>
    obtain ⟨k, b⟩ := c
    by_cases hk : k = a
    · simp [Mem.fill, Mem.get, hk]
    · have hout : ¬(decide (a ≤ k) && decide (k < a + 1)) = true := by
        rw [Bool.and_eq_true, decide_eq_true_eq, decide_eq_true_eq]
        omega
      simp only [List.filter_cons, if_neg hout, ih, Mem.get, if_neg hk]

theorem Mem.read_one (m : Mem) (a : Nat) : m.read a 1 = [m.get a] := m.fill_one a

theorem linePieces_one (x : Nat) : linePieces 128 x 1 = [(0, x, 1)] := by
  have hcount : (x % 128 + 1 + 128 - 1) / 128 = 1 := by omega
  have hlo : max x (x / 128 * 128) = x := by omega
  have hhi : min (x + 1) (x / 128 * 128 + 128) = x + 1 := by omega
  simp only [linePieces, hcount, List.range_one, List.map_cons, List.map_nil, Nat.zero_mul, Nat.add_zero, hlo, hhi,
    Nat.sub_self, Nat.add_sub_cancel_left]

theorem Core.readCm_one (c : Core) (q : Option Nat) (x : Nat) : c.readCm q x 1 = [c.cmem.get (bankByte q x)] := by
  rw [Core.readCm, linePieces_one, List.flatMap_singleton]
  exact Mem.read_one _ _

/-- A write within one line changes the bytes of the binding that it names, and no others. -/
theorem Mem.get_write_line (m : Mem) {q : Option Nat} {lo x : Nat} {bs : Bytes} (hline : lo % 128 + bs.length ≤ 128)
    (hfit : 0 < bs.length → lo + bs.length ≤ bindingSize q) (hx : x < bindingSize q) :
    (m.write (bankByte q lo) bs).get (bankByte q x) =
      if lo ≤ x ∧ x < lo + bs.length then bs.getD (x - lo) 0 else m.get (bankByte q x) := by
  split
  next hin =>
    have hplace : bankByte q x = bankByte q lo + (x - lo) := by
      rw [← bankByte_add (by omega), Nat.add_sub_cancel' hin.1]
    rw [hplace, Mem.get_write_in _ _ _ _ (by omega)]
  next hout =>
    refine Mem.get_write_out _ _ _ _ ?_
    refine Decidable.byContradiction fun hnear => ?_
    have hplace : bankByte q (lo + (bankByte q x - bankByte q lo)) = bankByte q x := by
      rw [bankByte_add (by omega)]
      omega
    have hsame := bankByte_injective (by omega) hx hplace
    omega

/-! Reads after a write -/

/-- Core memory after the first `n` lines of a write of `bs` at `a`. -/
def Mem.writeLines (m : Mem) (q : Option Nat) (a : Nat) (bs : Bytes) (n : Nat) : Mem :=
  (List.range n).foldl (fun m j =>
    m.write (bankByte q (max a (a / 128 * 128 + j * 128)))
      ((bs.drop (max a (a / 128 * 128 + j * 128) - a)).take
        (min (a + bs.length) (a / 128 * 128 + j * 128 + 128) - max a (a / 128 * 128 + j * 128)))) m

theorem Core.writeCm_cmem (c : Core) (q : Option Nat) (a : Nat) (bs : Bytes) :
    (c.writeCm q a bs).cmem = c.cmem.writeLines q a bs ((a % 128 + bs.length + 128 - 1) / 128) := by
  simp only [Core.writeCm, linePieces, List.foldl_map, Mem.writeLines]

theorem Mem.get_writeLines (m : Mem) {q : Option Nat} {a x : Nat} {bs : Bytes} (hfit : a + bs.length ≤ bindingSize q)
    (hx : x < bindingSize q) (n : Nat) :
    (m.writeLines q a bs n).get (bankByte q x) =
      if a ≤ x ∧ x < min (a + bs.length) (a / 128 * 128 + n * 128) then bs.getD (x - a) 0
      else m.get (bankByte q x) := by
  induction n with
  | zero =>
    have hout : ¬(a ≤ x ∧ x < min (a + bs.length) (a / 128 * 128 + 0 * 128)) := by omega
    rw [if_neg hout]
    rfl
  | succ n ih =>
    rw [Mem.writeLines, List.range_succ, List.foldl_append, List.foldl_cons, List.foldl_nil, ← Mem.writeLines]
    generalize hlo : max a (a / 128 * 128 + n * 128) = lo
    generalize hhi : min (a + bs.length) (a / 128 * 128 + n * 128 + 128) = hi
    have hlen : ((bs.drop (lo - a)).take (hi - lo)).length = hi - lo := by
      rw [List.length_take, List.length_drop]
      omega
    rw [Mem.get_write_line _ (by rw [hlen]; omega) (fun hsome => by rw [hlen] at hsome ⊢; omega) hx, hlen, ih]
    by_cases hin : lo ≤ x ∧ x < lo + (hi - lo)
    · have hbyte : ((bs.drop (lo - a)).take (hi - lo)).getD (x - lo) 0 = bs.getD (x - a) 0 := by
        have hidx : lo - a + (x - lo) = x - a := by omega
        simp [List.getD_eq_getElem?_getD, List.getElem?_drop, show x - lo < hi - lo by omega, hidx]
      rw [if_pos hin, hbyte, if_pos (by omega)]
    · rw [if_neg hin]
      exact ite_congr (propext (by omega)) (fun _ => rfl) fun _ => rfl

/-- A byte of a binding after a write inside it (R187): as written in the range, and else as before. -/
theorem Core.readCm_writeCm (c : Core) {q : Option Nat} {a x : Nat} {bs : Bytes} (hfit : a + bs.length ≤ bindingSize q)
    (hx : x < bindingSize q) :
    (c.writeCm q a bs).readCm q x 1 =
      if a ≤ x ∧ x < a + bs.length then [bs.getD (x - a) 0] else c.readCm q x 1 := by
  have hrange : (a ≤ x ∧ x < min (a + bs.length) (a / 128 * 128 + (a % 128 + bs.length + 128 - 1) / 128 * 128)) ↔
      a ≤ x ∧ x < a + bs.length := by omega
  simp only [Core.readCm_one, Core.writeCm_cmem, Mem.get_writeLines _ hfit hx, hrange]
  split <;> rfl

/-! A scalar engine's store -/

/-- What a store of `n` bytes at `a` makes of scalar engine `x.2` of the core: a reservation on those bytes is lost
(R114). -/
def SCtx.loseResv (c : SCtx) (k : Core) (a n : Nat) (x : Se × Nat) : Se :=
  if x.2 ≠ c.k ∧ k.seQuad x.2 = c.q then
    match x.1.resv with
    | some (r, m) => if r < a + n ∧ a < r + m then { x.1 with resv := none } else x.1
    | none => x.1
  else x.1

theorem SCtx.loseResv_keeps (c : SCtx) (k : Core) (a n : Nat) (x : Se × Nat) :
    (c.loseResv k a n x).x = x.1.x ∧ (c.loseResv k a n x).pc = x.1.pc := by
  unfold SCtx.loseResv
  split
  · split
    · split
      · exact ⟨rfl, rfl⟩
      · exact ⟨rfl, rfl⟩
    · exact ⟨rfl, rfl⟩
  · exact ⟨rfl, rfl⟩

/-- What a store of a scalar engine into core memory makes of its core. -/
def SCtx.storeCore (c : SCtx) (a : Nat) (bs : Bytes) (k : Core) : Core :=
  { k.writeCm c.q a bs with ses := k.ses.zipIdx.map (c.loseResv k a bs.length) }

theorem SCtx.store_of_core {c : SCtx} {s : State} {a : Nat} {bs : Bytes} (h : a + bs.length ≤ bindingSize c.q) :
    c.store s a bs = s.onCore c.i c.p (c.storeCore a bs) := by
  have hregion : c.region a bs.length = .core := if_pos h
  simp only [SCtx.store, hregion]
  rfl

theorem SCtx.storeCore_readCm (c : SCtx) (a : Nat) (bs : Bytes) (k : Core) (q : Option Nat) (x n : Nat) :
    (c.storeCore a bs k).readCm q x n = (k.writeCm c.q a bs).readCm q x n := rfl

theorem SCtx.storeCore_se (c : SCtx) (a : Nat) (bs : Bytes) (k : Core) (j : Nat) :
    ((c.storeCore a bs k).ses.getD j {}).x = (k.ses.getD j {}).x ∧
      ((c.storeCore a bs k).ses.getD j {}).pc = (k.ses.getD j {}).pc := by
  simp only [SCtx.storeCore, List.getD_eq_getElem?_getD, List.getElem?_map, List.getElem?_zipIdx]
  cases k.ses[j]? with
  | none => exact ⟨rfl, rfl⟩
  | some e => exact c.loseResv_keeps k a bs.length (e, 0 + j)

theorem State.core_onCore {s : State} (h : s.Inv) {i p : Nat} (hi : i < 8) (hp : p < 6) (f : Core → Core) :
    (s.onCore i p f).core i p = f (s.core i p) := by
  obtain ⟨hcores, -⟩ := State.Inv.site h i
  obtain ⟨hsites, -, -⟩ := h
  rw [State.core, State.onCore, s.site_onSite i _ (by omega), Site.core_onCore _ _ _ (by omega)]
  rfl

/-- Settles O24: the store writes one core, whose bytes read back by R187, and of the other engines it takes
reservations only. -/
theorem scalarStoreFrame : Obligations.ScalarStoreFrame := by
  intro c s a bs hinv hi hp _ hfit
  rw [SCtx.store_of_core hfit]
  refine ⟨fun x hx => ?bytes, fun i p hne => ?others, fun k => ?engines⟩
  case bytes => rw [State.core_onCore hinv hi hp, SCtx.storeCore_readCm, Core.readCm_writeCm _ hfit hx]
  case others =>
    rcases s.core_onCore_cases c.i c.p i p (c.storeCore a bs) with h | ⟨⟨hi, hp⟩, -⟩
    · exact h
    · exact absurd hne (by simp [hi, hp])
  case engines =>
    rw [State.core_onCore hinv hi hp]
    exact c.storeCore_se a bs _ k

end Sys2Proof.Machine

/-! The engine rows, and the life of a placed command: what each row answers once its conditions hold. -/

namespace Sys2Proof.Machine

/-! Rows that run a command on its engine -/

section
variable {c : CmdRef} {op : Nat} {s t : State} {j : Job} {body : Job → Run (W16 × W16 × Nat)}

/-- On an engine that runs, a body that runs through concludes with its result, in the state it left. -/
theorem runRow_of_ok {st eng : W16} {d : Nat} (h : RunReady c op s j)
    (hrun : (body j).run s = (.ok (st, eng, d), t)) : runRow c op s body = .next (j.conclude t st eng d) := by
  obtain ⟨hj, hlive, hruns⟩ := h
  simp [runRow, hj, hlive, hruns, hrun, Job.close]

end

/-- Settles O39: every engine row is `runRow` of its body. When a command runs and when its result stands follow R141
and R398; that its whole work is one effect at its row is the model's reading (log entry 23). -/
theorem engineCommands : Obligations.EngineCommands := fun _ _ _ _ _ _ =>
  ⟨fun h hrun => exec_tensorTile.trans (runRow_of_ok h hrun),
    fun h hrun => exec_attention.trans (runRow_of_ok h hrun),
    fun h hrun => exec_select.trans (runRow_of_ok h hrun),
    fun h hrun => exec_gatherScatter.trans (runRow_of_ok h hrun),
    fun h hrun => exec_layout.trans (runRow_of_ok h hrun),
    fun h hrun => exec_codec.trans (runRow_of_ok h hrun),
    fun h hrun => exec_route.trans (runRow_of_ok h hrun),
    fun h hrun => exec_reduce.trans (runRow_of_ok h hrun),
    fun h hrun => exec_reduceArm.trans (runRow_of_ok h hrun),
    fun h hrun => exec_dmaCopy.trans (runRow_of_ok h hrun),
    fun h hrun => exec_dmaFill.trans (runRow_of_ok h hrun),
    fun h hrun => exec_fabAtomic.trans (runRow_of_ok h hrun),
    fun h hrun => exec_loftAcquire.trans (runRow_of_ok h hrun),
    fun h hrun => exec_loftRelease.trans (runRow_of_ok h hrun),
    fun h hrun => exec_mcastGroupSet.trans (runRow_of_ok h hrun),
    fun h hrun => exec_mcastWrite.trans (runRow_of_ok h hrun),
    fun h hrun => exec_collective.trans (runRow_of_ok h hrun)⟩

/-! The rows of a placed command's life -/

/-- A placed command is next on a starting stream and waits for nothing but its fences (R335, R344, R397). -/
structure Job.NextToStart (j : Job) (c : CmdRef) (s : State) : Prop where
  placed : j.k.phase = .placed
  starts : ((s.vd c.vd).stream c.stream).starts = true
  next : ((s.vd c.vd).stream c.stream).next c.stream j.k = true
  free : j.k.Free
  thawed : (s.vd c.vd).fe.frozen = false
  up : (s.site j.i).up = true

section
variable {c : CmdRef} {s t : State} {j : Job}

theorem execCommandReady_of_waitsMet (hj : s.job? c = some j) (h : j.NextToStart c s)
    (hwaits : (({ j with kind := .frontEnd } : Job).waitsMet j.k.waits).run s = (.ok true, t)) :
    execCommandReady c s = .next (t.onCmd c fun k => { k with
      phase := .ready, readyTime := (s.site j.i).time, got := [], lab := (s.vd c.vd).label k.label }) := by
  obtain ⟨hasks, hhold, hfault⟩ := h.free
  simp [execCommandReady, hj, h.placed, h.starts, h.next, hasks, hhold, hfault, h.thawed, h.up, hwaits]

theorem execCommandIssue_of_issuable (hj : s.job? c = some j) (hstream : c.stream ≠ 0) (hready : j.k.phase = .ready)
    (hissue : j.issuable s = true) (hfirst : s.outranked j c = false) :
    execCommandIssue c s = .next (s.issue j c) := by
  simp [execCommandIssue, hj, hstream, hready, hissue, hfirst]

theorem execCommandEnd_of_workOver (hj : s.job? c = some j) (hissued : j.k.phase = .issued)
    (hhere : j.k.forwarded = false ∧ j.k.saved = false) (hover : s.workOver j c = true)
    (hup : (s.site j.i).up = true) : execCommandEnd c s = .next (s.endRun j c) := by
  simp [execCommandEnd, hj, hissued, hhere, hover, hup]

theorem execCommandTimeout_of_running (hj : s.job? c = some j) (hissued : j.k.phase = .issued)
    (hfinal : j.k.finalWr = false) (hstream : c.stream ≠ 0) (hhere : j.k.forwarded = false ∧ j.k.saved = false)
    (hpaused : s.pausedAt j = false) :
    execCommandTimeout c s = .next (s.endWith c stTimeout (s.site j.i).time) := by
  simp [execCommandTimeout, hj, hissued, hfinal, hstream, hhere, hpaused]

theorem execScalarRun_of_runs (hj : s.job? c = some j) (hlive : j.k.live 0x102 = true) (hruns : j.runs s = true) :
    execScalarRun c s = .next (s.onCore j.i j.p fun k => { k with
      ses := k.ses.map fun e => if e.cmd = some c ∧ e.mode = .idle then e.start j.k.desc k.cmem else e }) := by
  simp [execScalarRun, hj, hlive, hruns]

end

section
variable {c : CmdRef} {s : State} {k : Cmd}

theorem execFenceReevaluate_of_waits (hk : s.cmd? c = some k) (hplaced : k.phase = .placed) (hasks : k.asks = [])
    (hwaits : k.waits ≠ []) :
    execFenceReevaluate c s = .next (s.onCmd c fun k => { k with got := [] }) := by
  simp [execFenceReevaluate, hk, hplaced, hasks, hwaits]

/-- The record of a command that was placed here, and not forwarded from another part, is dealt with here. -/
theorem execCompletionRecordWrite_of_due (hk : s.cmd? c = some k) (hdue : s.recordDue c k = true)
    (hup : (s.site (s.homeSite c.vd)).up = true) (hhome : k.home = none) :
    execCompletionRecordWrite c s = .next (s.recordOf c k) := by
  simp [execCompletionRecordWrite, hk, hdue, hup, hhome]

end

/-- Settles O27: the conditions of each row let its guard pass, and a placed command's waits are met by hypothesis. -/
theorem commandLife : Obligations.CommandLife := by
  intro c s j hj
  refine ⟨fun t hplaced hstarts hnext hfree hthawed hup hwaits => ?ready,
    fun hstream hready hissue hfirst => ?issue, fun hissued hfwd hover hup hsaved => ?ends,
    fun hissued hfinal hstream hfwd hsaved hpaused => ?timeout, fun k hk hplaced hasks hwaits => ?reevaluate,
    fun k hk hdue hup hhome => ?record, fun hlive hruns => ?scalar⟩
  case ready =>
    exact exec_commandReady.trans
      (execCommandReady_of_waitsMet hj ⟨hplaced, hstarts, hnext, hfree, hthawed, hup⟩ hwaits)
  case issue => exact exec_commandIssue.trans (execCommandIssue_of_issuable hj hstream hready hissue hfirst)
  case ends => exact exec_commandEnd.trans (execCommandEnd_of_workOver hj hissued ⟨hfwd, hsaved⟩ hover hup)
  case timeout =>
    exact exec_commandTimeout.trans
      (execCommandTimeout_of_running hj hissued hfinal hstream ⟨hfwd, hsaved⟩ hpaused)
  case reevaluate => exact exec_fenceReevaluate.trans (execFenceReevaluate_of_waits hk hplaced hasks hwaits)
  case record =>
    exact exec_completionRecordWrite.trans (execCompletionRecordWrite_of_due hk hdue hup hhome)
  case scalar => exact exec_scalarRun.trans (execScalarRun_of_runs hj hlive hruns)

end Sys2Proof.Machine

/-! Core memory reads after writes, in both modes: a quarter-core's binding lies in banks of its own (R186, R187). -/

namespace Sys2Proof.Machine

/-! Where a quarter-core's bytes lie -/

theorem bindingSize_quarter (q : Nat) : bindingSize (some q) = 0x1800000 := rfl

/-- The 16 banks of quarter-core `q` are its own: the bank number's upper bits are `q`, for what is mixed into the
lower four bits stays below 16. -/
theorem bankRow_bank_div (q a : Nat) : (bankRow (some q) a).1 / 16 = q := by
  rw [bankRow, Nat.mul_add_div (by decide), Nat.div_eq_of_lt ?mixed, Nat.add_zero]
  case mixed =>
    refine Nat.xor_lt_two_pow (n := 4) (Nat.xor_lt_two_pow (Nat.xor_lt_two_pow (Nat.xor_lt_two_pow ?_ ?_) ?_) ?_) ?_ <;>
      omega

/-- A binding's bytes of a quarter-core fill one range of the places, as long as the binding. -/
theorem bankByte_div_bindingSize {q a : Nat} (h : a < bindingSize (some q)) :
    bankByte (some q) a / bindingSize (some q) = q := by
  have hbank := bankRow_bank_div q a
  have hrow := bankRow_row_lt h
  have hplace : bankByte (some q) a = ((bankRow (some q) a).1 * 12288 + (bankRow (some q) a).2) * 128 + a % 128 := rfl
  rw [hplace, bindingSize_quarter]
  omega

/-! Writes of another quarter-core -/

theorem Mem.get_write_line_of_other_quarter (m : Mem) {k r lo x : Nat} {bs : Bytes}
    (hline : lo % 128 + bs.length ≤ 128) (hfit : 0 < bs.length → lo + bs.length ≤ bindingSize (some k))
    (hx : x < bindingSize (some r)) (hne : r ≠ k) :
    (m.write (bankByte (some k) lo) bs).get (bankByte (some r) x) = m.get (bankByte (some r) x) := by
  refine Mem.get_write_out _ _ _ _ ?_
  by_cases hempty : bs.length = 0
  · omega
  · have hfirst := bankByte_div_bindingSize (q := k) (a := lo) (by omega)
    have hlast := bankByte_div_bindingSize (q := k) (a := lo + (bs.length - 1)) (by omega)
    rw [bankByte_add (by omega)] at hlast
    have hread := bankByte_div_bindingSize hx
    rw [bindingSize_quarter] at hfirst hlast hread
    omega

theorem Mem.get_writeLines_of_other_quarter (m : Mem) {k r a x : Nat} {bs : Bytes}
    (hfit : a + bs.length ≤ bindingSize (some k)) (hx : x < bindingSize (some r)) (hne : r ≠ k) (n : Nat) :
    (m.writeLines (some k) a bs n).get (bankByte (some r) x) = m.get (bankByte (some r) x) := by
  induction n with
  | zero => rfl
  | succ n ih =>
    rw [Mem.writeLines, List.range_succ, List.foldl_append, List.foldl_cons, List.foldl_nil, ← Mem.writeLines,
      Mem.get_write_line_of_other_quarter _ ?line ?fit hx hne, ih]
    case line | fit => simp only [List.length_take, List.length_drop]; omega

/-- A write into one quarter-core's binding leaves every byte of another's. -/
theorem Core.readCm_writeCm_of_other_quarter (c : Core) {k r a x : Nat} {bs : Bytes}
    (hfit : a + bs.length ≤ bindingSize (some k)) (hx : x < bindingSize (some r)) (hne : r ≠ k) :
    (c.writeCm (some k) a bs).readCm (some r) x 1 = c.readCm (some r) x 1 := by
  simp only [Core.readCm_one, Core.writeCm_cmem, Mem.get_writeLines_of_other_quarter _ hfit hx hne]

/-- Settles O18: within the binding R187 gives every byte a place of its own, and the banks of two quarter-cores are
apart. -/
theorem coreMemoryReadAfterWrite : Obligations.CoreMemoryReadAfterWrite := by
  intro c q a bs _ _ hfit
  refine ⟨fun x hx => c.readCm_writeCm hfit hx, fun k r hq _ hne x hx => ?otherQuarter⟩
  case otherQuarter =>
    subst hq
    exact c.readCm_writeCm_of_other_quarter hfit hx hne

end Sys2Proof.Machine

/-! The free page that R224 takes: the order in which the tier channels are asked, and the lowest free page of one. -/

namespace Sys2Proof.Machine

/-! Pages of one tier channel -/

theorem Site.pageFree_iff {t : Site} {slow : Bool} {p : Nat} : t.pageFree slow p = true ↔
    (p < (t.tier slow).pages slow ∧ p ∉ (t.tier slow).used ∧ p ∉ (t.tier slow).retired) ∧
      t.chDraws ((t.tier slow).chOf p) = true ∧ t.chState ((t.tier slow).chOf p) ≠ 4 := by
  simp [Site.pageFree, and_assoc]

theorem Tier.chOf_congr {r : Tier} {p q : Nat} (h : p % r.channels.length = q % r.channels.length) :
    r.chOf p = r.chOf q := congrArg (r.channels.getD · 80) h

/-- Whether a channel serves is the same for all its pages: beside that a page must only be there and not be taken. -/
theorem Site.pageFree_of_channel {t : Site} {slow : Bool} {p q : Nat} (hq : t.pageFree slow q = true)
    (hch : p % (t.tier slow).channels.length = q % (t.tier slow).channels.length) (hle : p ≤ q)
    (hfree : p ∉ (t.tier slow).used ∧ p ∉ (t.tier slow).retired) : t.pageFree slow p = true := by
  obtain ⟨⟨hin, -, -⟩, hserves⟩ := Site.pageFree_iff.mp hq
  rw [← Tier.chOf_congr hch] at hserves
  exact Site.pageFree_iff.mpr ⟨⟨Nat.lt_of_le_of_lt hle hin, hfree⟩, hserves⟩

/-- The taken pages of tier channel `k`, used or retired. -/
def Tier.takenOn (r : Tier) (k : Nat) : List Nat :=
  (r.used.filter fun p => decide (p % r.channels.length = k)) ++
    r.retired.filter fun p => decide (p % r.channels.length = k)

theorem Site.freeOn_eq (t : Site) (slow : Bool) (k : Nat) :
    t.freeOn slow k =
      ((List.range (min (chUsable slow) (((t.tier slow).takenOn k).length + 1))).find?
        fun j => t.pageFree slow (j * (t.tier slow).channels.length + k)).map
          fun j => j * (t.tier slow).channels.length + k := by
  rw [Tier.takenOn, List.length_append]
  exact List.find?_map ..

theorem Tier.mem_takenOn {r : Tier} {k j : Nat} (hk : k < r.channels.length)
    (h : j * r.channels.length + k ∈ r.used ∨ j * r.channels.length + k ∈ r.retired) :
    j * r.channels.length + k ∈ r.takenOn k := by
  simpa only [Tier.takenOn, List.mem_append, List.mem_filter, Nat.mul_add_mod_of_lt hk, decide_true, and_true]
    using h

/-- Among one page more than a channel has taken, one is not taken. -/
theorem Tier.exists_untaken (r : Tier) {k : Nat} (hk : k < r.channels.length) :
    ∃ j, j ≤ (r.takenOn k).length ∧ j * r.channels.length + k ∉ r.used ∧ j * r.channels.length + k ∉ r.retired := by
  by_contra hall
  have hsub : (List.range ((r.takenOn k).length + 1)).map (fun j => j * r.channels.length + k) ⊆ r.takenOn k := by
    intro p hp
    obtain ⟨j, hj, rfl⟩ := List.mem_map.mp hp
    refine Tier.mem_takenOn hk (by_contra fun hnot => hall ⟨j, ?_, not_or.mp hnot⟩)
    exact Nat.le_of_lt_succ (List.mem_range.mp hj)
  have hnodup : ((List.range ((r.takenOn k).length + 1)).map fun j => j * r.channels.length + k).Nodup := by
    refine List.nodup_range.map fun a b hab => ?_
    exact Nat.eq_of_mul_eq_mul_right (Nat.zero_lt_of_lt hk) (Nat.add_right_cancel hab)
  have hlen := (hnodup.subperm hsub).length_le
  rw [List.length_map, List.length_range] at hlen
  omega

/-- What is drawn on a channel is its lowest free page. -/
theorem Site.freeOn_spec {t : Site} {slow : Bool} {k p : Nat} (hk : k < (t.tier slow).channels.length)
    (h : t.freeOn slow k = some p) :
    t.pageFree slow p = true ∧ p % (t.tier slow).channels.length = k ∧
      ∀ q, t.pageFree slow q = true → q % (t.tier slow).channels.length = k → p ≤ q := by
  rw [t.freeOn_eq, Option.map_eq_some_iff] at h
  obtain ⟨j, hj, rfl⟩ := h
  obtain ⟨hfree, -, hbelow⟩ := List.find?_range_eq_some.mp hj
  refine ⟨hfree, Nat.mul_add_mod_of_lt hk, fun q hq hqk => ?_⟩
  by_contra hlt
  have hrow : q / (t.tier slow).channels.length * (t.tier slow).channels.length + k = q := by
    rw [← hqk, Nat.div_add_mod']
  have hless : q / (t.tier slow).channels.length < j := by
    refine Nat.lt_of_mul_lt_mul_right (a := (t.tier slow).channels.length) ?_
    omega
  have hnot := hbelow _ hless
  rw [hrow, hq] at hnot
  exact absurd hnot (by decide)

/-- A channel with a free page has one among those that are looked at. -/
theorem Site.freeOn_ne_none {t : Site} {slow : Bool} {q : Nat} (hn : 0 < (t.tier slow).channels.length)
    (hq : t.pageFree slow q = true) : t.freeOn slow (q % (t.tier slow).channels.length) ≠ none := by
  have hk := Nat.mod_lt q hn
  have hrow := Nat.div_add_mod' q (t.tier slow).channels.length
  have hin : q / (t.tier slow).channels.length < chUsable slow := by
    obtain ⟨⟨hlt, -, -⟩, -⟩ := Site.pageFree_iff.mp hq
    exact Nat.div_lt_of_lt_mul hlt
  obtain ⟨j, hj, hfree⟩ := (t.tier slow).exists_untaken hk
  intro hnone
  rw [t.freeOn_eq, Option.map_eq_none_iff, List.find?_range_eq_none] at hnone
  by_cases hnear : q / (t.tier slow).channels.length ≤ j
  · have hnot := hnone (q / (t.tier slow).channels.length) (by omega)
    rw [hrow, hq] at hnot
    exact absurd hnot (by decide)
  · have hle : j * (t.tier slow).channels.length ≤ q / (t.tier slow).channels.length * (t.tier slow).channels.length :=
      Nat.mul_le_mul_right _ (by omega)
    have hnot := hnone j (by omega)
    rw [Site.pageFree_of_channel hq (Nat.mul_add_mod_of_lt hk) (by omega) hfree] at hnot
    exact absurd hnot (by decide)

/-! The channels in turn -/

/-- How many tier channels are asked before the channel of page `p` (R224). -/
def Tier.turn (r : Tier) (p : Nat) : Nat := (p + 2 * r.channels.length - 1 - r.lastCh) % r.channels.length

theorem Tier.channel_of_turn {r : Tier} (hlast : r.lastCh < r.channels.length) (p : Nat) :
    (r.lastCh + 1 + r.turn p) % r.channels.length = p % r.channels.length := by
  have hsum : r.lastCh + 1 + (p + 2 * r.channels.length - 1 - r.lastCh) = p + 2 * r.channels.length := by omega
  rw [Tier.turn, Nat.add_mod_mod, hsum, Nat.add_mul_mod_self_right]

theorem Tier.turn_of_channel {r : Tier} {p d : Nat} (hlast : r.lastCh < r.channels.length) (hd : d < r.channels.length)
    (h : p % r.channels.length = (r.lastCh + 1 + d) % r.channels.length) : r.turn p = d := by
  have hback : p + 2 * r.channels.length - 1 - r.lastCh = p + (2 * r.channels.length - 1 - r.lastCh) := by omega
  have hsum : r.lastCh + 1 + d + (2 * r.channels.length - 1 - r.lastCh) = d + 2 * r.channels.length := by omega
  rw [Tier.turn, hback, ← Nat.mod_add_mod, h, Nat.mod_add_mod, hsum, Nat.add_mul_mod_self_right, Nat.mod_eq_of_lt hd]

theorem Site.drawPage_eq (t : Site) (slow : Bool) :
    t.drawPage slow = (List.range (t.tier slow).channels.length).findSome?
      fun d => t.freeOn slow (((t.tier slow).lastCh + 1 + d) % (t.tier slow).channels.length) := by
  simp only [Site.drawPage, List.findSome?_map, List.contains_nil, Bool.false_eq_true, if_false]
  rfl

/-- The first success of a search over `0 … n − 1`. -/
theorem exists_first_of_findSome?_range {α : Type} {f : Nat → Option α} {n : Nat} {b : α}
    (h : (List.range n).findSome? f = some b) : ∃ d, d < n ∧ f d = some b ∧ ∀ e, e < d → f e = none := by
  induction n with
  | zero => exact absurd h (by simp)
  | succ n ih =>
    rw [List.range_succ, List.findSome?_append, Option.or_eq_some_iff] at h
    rcases h with hearlier | ⟨hnone, hlast⟩
    · obtain ⟨d, hd, hfound⟩ := ih hearlier
      exact ⟨d, Nat.lt_succ_of_lt hd, hfound⟩
    · refine ⟨n, Nat.lt_succ_self n, by simpa using hlast, fun e he => ?_⟩
      exact List.findSome?_eq_none_iff.mp hnone e (List.mem_range.mpr he)

section
variable {t : Site} {slow : Bool} (hn : 0 < (t.tier slow).channels.length)
  (hlast : (t.tier slow).lastCh < (t.tier slow).channels.length)
include hn hlast

/-- The page drawn lies on the first channel in turn that has a free page, and no free page of it is lower. -/
theorem Site.drawPage_spec {p : Nat} (h : t.drawPage slow = some p) :
    t.pageFree slow p = true ∧ ∀ q, t.pageFree slow q = true →
      (t.tier slow).turn p < (t.tier slow).turn q ∨
        (p % (t.tier slow).channels.length = q % (t.tier slow).channels.length ∧ p ≤ q) := by
  rw [t.drawPage_eq] at h
  obtain ⟨d, hd, hfound, hbefore⟩ := exists_first_of_findSome?_range h
  obtain ⟨hfree, hch, hlowest⟩ := Site.freeOn_spec (Nat.mod_lt _ hn) hfound
  refine ⟨hfree, fun q hq => ?_⟩
  rw [Tier.turn_of_channel hlast hd hch]
  rcases Nat.lt_trichotomy d ((t.tier slow).turn q) with hlater | heq | hearlier
  · exact .inl hlater
  · have hsame := Tier.channel_of_turn hlast q
    rw [← heq] at hsame
    exact .inr ⟨hch.trans hsame, hlowest q hq hsame.symm⟩
  · have hnone := hbefore _ hearlier
    rw [Tier.channel_of_turn hlast q] at hnone
    exact absurd hnone (Site.freeOn_ne_none hn hq)

/-- Nothing is drawn only where nothing is free. -/
theorem Site.pageFree_of_drawPage_none (h : t.drawPage slow = none) (q : Nat) : t.pageFree slow q = false := by
  rw [t.drawPage_eq, List.findSome?_eq_none_iff] at h
  have hnone := h ((t.tier slow).turn q) (List.mem_range.mpr (Nat.mod_lt _ hn))
  rw [Tier.channel_of_turn hlast q] at hnone
  exact Bool.eq_false_iff.mpr fun hq => Site.freeOn_ne_none hn hq hnone

end

/-- Settles O37: the channels are asked in turn, a channel with a free page answers its lowest, and the pages looked at
on it are one more than it has taken. -/
theorem pageChoice : Obligations.PageChoice := fun _ _ hn hlast =>
  ⟨fun _ => Site.drawPage_spec hn hlast, Site.pageFree_of_drawPage_none hn hlast⟩

end Sys2Proof.Machine

/-! A tier's stored bytes read back as written (R226, R228, R231). -/

namespace Sys2Proof.Machine

/-- Where the first byte is not listed, it reads 0. -/
theorem Mem.fill_succ_of_above {m : Mem} {a n : Nat} (h : Mem.wfFrom (a + 1) m = true) :
    Mem.fill (n + 1) a m = 0 :: Mem.fill n (a + 1) m := by
  cases m with
  | nil =>
    have hzeros : Mem.fill n (a + 1) [] = zeros n := by
      cases n with
      | zero => rfl
      | succ n => rfl
    rw [hzeros]
    rfl
  | cons c r =>
    simp only [Mem.wfFrom, Bool.and_eq_true, decide_eq_true_eq] at h
    exact if_neg (by omega)

theorem Mem.fill_cells (a : Nat) (bs : Bytes) : Mem.fill bs.length a (Mem.cells a bs) = bs := by
  induction bs generalizing a with
  | nil => rfl
  | cons b r ih =>
    by_cases hb : b = 0
    · rw [Mem.cells, if_pos hb, List.length_cons, Mem.fill_succ_of_above (Mem.wfFrom_cells _ _), ih, hb]
    · rw [Mem.cells, if_neg hb, List.length_cons, Mem.fill, if_pos rfl, ih]

/-- The cells of a written range are those of the bytes written. -/
theorem Mem.range_write (m : Mem) (a : Nat) (bs : Bytes) :
    ((m.write a bs).filter fun c => decide (a ≤ c.1) && decide (c.1 < a + bs.length)) = Mem.cells a bs := by
  have hbelow : ((m.filter fun c => decide (c.1 < a)).filter
      fun c => decide (a ≤ c.1) && decide (c.1 < a + bs.length)) = [] := by
    refine List.filter_eq_nil_iff.mpr fun c hc => ?_
    have hlt := of_decide_eq_true (List.mem_filter.mp hc).2
    simp [Nat.not_le.mpr hlt]
  have habove : ((m.filter fun c => decide (a + bs.length ≤ c.1)).filter
      fun c => decide (a ≤ c.1) && decide (c.1 < a + bs.length)) = [] := by
    refine List.filter_eq_nil_iff.mpr fun c hc => ?_
    have hle := of_decide_eq_true (List.mem_filter.mp hc).2
    simp [Nat.not_lt.mpr hle]
  have hcells : ((Mem.cells a bs).filter fun c => decide (a ≤ c.1) && decide (c.1 < a + bs.length)) = Mem.cells a bs := by
    refine List.filter_eq_self.mpr fun c hc => ?_
    simp [Mem.cells_above a bs c hc, Mem.cells_below a bs c hc]
  rw [Mem.write, List.filter_append, List.filter_append, hbelow, habove, hcells, List.nil_append, List.append_nil]

theorem Mem.read_write (m : Mem) (a : Nat) (bs : Bytes) : (m.write a bs).read a bs.length = bs := by
  rw [Mem.read, m.range_write, Mem.fill_cells]

/-- Settles O38: the cells of the written range are those of the bytes, and a byte elsewhere keeps its cell. -/
theorem tierReadAfterWrite : Obligations.TierReadAfterWrite := by
  intro m a bs hwf
  refine ⟨Mem.wf_write hwf a bs, m.read_write a bs, fun x hx => ?_⟩
  rw [Mem.read_one, Mem.read_one, m.get_write_out a x bs hx]

end Sys2Proof.Machine

/-! Registers and their fields: what a change of one register, or of one field, leaves of the others. -/

namespace Sys2Proof.Machine

theorem lookupD_filter_ne {β : Type} (l : List (Nat × β)) {k x : Nat} (d : β) (h : x ≠ k) :
    lookupD (l.filter fun c => decide (c.1 ≠ k)) x d = lookupD l x d := by
  induction l with
  | nil => rfl
  | cons c r ih =>
    by_cases hk : c.1 = k
    · have hx : ¬c.1 = x := fun hx => h (hx.symm.trans hk)
      rw [List.filter_cons_of_neg (by simpa using hk), ih, lookupD, if_neg hx]
    · rw [List.filter_cons_of_pos (by simpa using hk), lookupD, lookupD, ih]

theorem Site.reg_setReg_other (t : Site) {off x : Nat} (v : W32) (h : x ≠ off) :
    (t.setReg off v).reg x = t.reg x :=
  (if_neg h.symm).trans (lookupD_filter_ne _ _ h)

/-- The bits of a word with a field replaced. -/
theorem testBit_setBits (w : W32) {f : Nat × Nat} (v k : Nat) (hf : f.1 < 32) :
    (setBits w f v).toNat.testBit k = if f.2 ≤ k ∧ k ≤ f.1 then v.testBit (k - f.2) else w.toNat.testBit k := by
  have hones : (0xFFFFFFFF : Nat) = 2 ^ 32 - 1 := rfl
  simp only [setBits, BitVec.toNat_ofNat, hones, Nat.testBit_mod_two_pow, Nat.testBit_or, Nat.testBit_and,
    Nat.testBit_xor, Nat.testBit_shiftLeft, Nat.testBit_two_pow_sub_one]
  by_cases hin : f.2 ≤ k ∧ k ≤ f.1
  · have hoff : k - f.2 < f.1 + 1 - f.2 := by omega
    have hword : k < 32 := by omega
    simp [hin, hoff, hword]
  · have hout : (decide (k ≥ f.2) && decide (k - f.2 < f.1 + 1 - f.2)) = false := by
      rw [← Bool.decide_and, decide_eq_false_iff_not]
      omega
    have hword : (decide (k < 32) && w.toNat.testBit k) = w.toNat.testBit k := by
      rw [← Nat.testBit_mod_two_pow, BitVec.toNat_mod_cancel]
    rw [if_neg hin, ← Bool.and_assoc (decide (k ≥ f.2)), hout, Bool.false_and, Bool.or_false, Bool.xor_false,
      Bool.and_comm (w.toNat.testBit k), ← Bool.and_assoc, Bool.and_self, hword]

theorem testBit_bitsOf {n : Nat} (w : BitVec n) (hi lo k : Nat) :
    (bitsOf w hi lo).testBit k = (decide (k < hi + 1 - lo) && w.toNat.testBit (lo + k)) := by
  rw [bitsOf, Nat.testBit_mod_two_pow, Nat.testBit_shiftRight]

theorem bitsOf_setBits_same (w : W32) {f : Nat × Nat} (v : Nat) (hf : f.1 < 32) :
    bitsOf (setBits w f v) f.1 f.2 = v % 2 ^ (f.1 + 1 - f.2) := by
  refine Nat.eq_of_testBit_eq fun k => ?_
  rw [testBit_bitsOf, testBit_setBits w v _ hf, Nat.testBit_mod_two_pow]
  by_cases hk : k < f.1 + 1 - f.2
  · rw [if_pos (by omega), Nat.add_sub_cancel_left]
  · rw [decide_eq_false hk, Bool.false_and, Bool.false_and]

theorem bitsOf_setBits_apart (w : W32) {f g : Nat × Nat} (v : Nat) (hf : f.1 < 32) (h : g.1 < f.2 ∨ f.1 < g.2) :
    bitsOf (setBits w f v) g.1 g.2 = bitsOf w g.1 g.2 := by
  refine Nat.eq_of_testBit_eq fun k => ?_
  rw [testBit_bitsOf, testBit_bitsOf, testBit_setBits w v _ hf]
  by_cases hk : k < g.1 + 1 - g.2
  · rw [if_neg (by omega)]
  · rw [decide_eq_false hk, Bool.false_and, Bool.false_and]

theorem Site.fld_setFld_same (t : Site) (off : Nat) {f : Nat × Nat} (v : Nat) (hf : f.1 < 32) :
    (t.setFld off f v).fld off f = v % 2 ^ (f.1 + 1 - f.2) := by
  rw [Site.fld, Site.setFld, Site.reg_setReg, bitsOf_setBits_same _ _ hf]

theorem Site.fld_setFld_apart (t : Site) (off : Nat) {f g : Nat × Nat} (v : Nat) (hf : f.1 < 32)
    (h : g.1 < f.2 ∨ f.1 < g.2) : (t.setFld off f v).fld off g = t.fld off g := by
  rw [Site.fld, Site.setFld, Site.reg_setReg, bitsOf_setBits_apart _ _ hf h, ← Site.fld]

theorem Site.fld_setReg_other (t : Site) {off x : Nat} (v : W32) (f : Nat × Nat) (h : x ≠ off) :
    (t.setReg off v).fld x f = t.fld x f := by
  rw [Site.fld, Site.reg_setReg_other _ _ h, ← Site.fld]

theorem State.onSite_onSite (s : State) (i : Nat) (f g : Site → Site) :
    (s.onSite i f).onSite i g = s.onSite i fun t => g (f t) := by
  rw [State.onSite, State.onSite, State.onSite, List.modify_modify_eq]
  rfl

end Sys2Proof.Machine

/-! The memory ports and the tedder at work: each row is one guarded state change, and a lemma says which guard holds
and so which state the row answers. -/

namespace Sys2Proof.Machine

/-! Requests at a port -/

section
variable {s u : State} {i p ns page off : Nat} {r : MemReq} (hport : (s.site i).portOfAddr r.addr = some p)
  (htakes : (s.site i).takesReq r p = true) (hsplit : splitAddr r.addr = (ns, page, off))
include hport htakes

theorem execMemoryWrite_of_landed {data : Bytes} {x : Unit} (hlen : data.length = r.len)
    (hwrite : (s.countStale i r).tierWrite i r.addr data r.slot r.priv r.engine none = some (.ok x, u)) :
    execMemoryWrite i r data s = .next u := by
  simp [execMemoryWrite, hport, htakes, hlen, hwrite]

include hsplit

/-- A read that is answered goes on with what the checks found, where the sub-page was ever written. -/
theorem execMemoryRead_of_answered {e : TierEntry} {b : Bytes} {f : ReadFinding}
    (hentry : (s.site i).entry? ns page = some e)
    (hread : (s.countStale i r).tierRead i r.addr r.len r.slot r.priv r.engine = (.ok b, u)) :
    execMemoryRead i r f s =
      .next (if (((s.site i).tier e.slow).sub (e.ppn * 16 + off / 4096)).version = 0 then u
        else u.readFound i r e (if (s.site i).staleReq r then none else r.cmd) f) := by
  simp [execMemoryRead, hport, htakes, hsplit, hentry, hread]

/-- A write that a move holds joins the writes that wait with it. -/
theorem execMemoryWrite_of_held {k : Nat} {m : TierMove} {data : Bytes} (hlen : data.length = r.len)
    (hwrite : (s.countStale i r).tierWrite i r.addr data r.slot r.priv r.engine none = none)
    (hmove : (s.site i).moveOf ns page = some (k, m)) :
    execMemoryWrite i r data s = .next ((s.countStale i r).onSite i fun t => { t with
      moves := t.moves.set k (some { m with held := m.held ++ [(off, data)], slot := r.slot }) }) := by
  simp [execMemoryWrite, hport, htakes, hsplit, hlen, hwrite, hmove]

end

/-- Settles O34: the port takes the request, and the read or the write ends as the hypotheses name. -/
theorem tierAccesses : Obligations.TierAccesses := by
  intro s u i p ns page off r hport htakes hsplit
  refine ⟨fun e b f hentry hread hnever => ?unwritten, fun e b f hentry hread hever => ?found,
    fun x data hlen hwrite => ?lands, fun k m data hlen hwrite hmove => ?held⟩
  case unwritten =>
    rw [exec_memoryRead, execMemoryRead_of_answered hport htakes hsplit hentry hread, if_pos hnever]
  case found => rw [exec_memoryRead, execMemoryRead_of_answered hport htakes hsplit hentry hread, if_neg hever]
  case lands => exact exec_memoryWrite.trans (execMemoryWrite_of_landed hport htakes hlen hwrite)
  case held => exact exec_memoryWrite.trans (execMemoryWrite_of_held hport htakes hsplit hlen hwrite hmove)

/-! Sweeps and moves -/

theorem execSweep_of_up {s : State} {i : Nat} (hup : (s.site i).up = true) :
    execSweep i s = .next (s.onSite i (·.sweep)) := by
  simp [execSweep, hup]

/-- The move at the front of a working site's queue may be claimed by channel `ch`, which is free: the move still names
the page where it lies (R244). -/
def Site.claims (t : Site) (ch : Nat) (m : TierMove) : Prop :=
  t.up = true ∧ ch < 4 ∧ t.moves.getD ch none = none ∧ t.moveValid m = true

section
variable {s : State} {i ch : Nat} {m : TierMove}

section
variable {rest : List TierMove} (hqueue : (s.site i).moveQueue = m :: rest) (hclaims : (s.site i).claims ch m)
include hqueue hclaims

theorem execClaim_of_destination {d : Nat} (hdest : (s.site i).destination m = some d) :
    execClaim i ch s = .next (s.onSite i (·.startMove ch m d)) := by
  obtain ⟨hup, hch, hfree, hvalid⟩ := hclaims
  rw [List.getD_eq_getElem?_getD] at hfree
  simp [execClaim, hqueue, hup, hch, hfree, hvalid, hdest]

theorem execClaim_of_no_destination (hdest : (s.site i).destination m = none) :
    execClaim i ch s = .next (s.noRoom i m) := by
  obtain ⟨hup, hch, hfree, hvalid⟩ := hclaims
  rw [List.getD_eq_getElem?_getD] at hfree
  simp [execClaim, hqueue, hup, hch, hfree, hvalid, hdest]

end

/-- A copy whose source reads cleanly reads no poisoned sub-page and loses no move. -/
theorem execCopy_of_clean (hm : (s.site i).moveAt ch 1 = some m)
    (hclean : (((s.site i).entry? m.ns m.page).map (·.poison)).getD 0 = 0) :
    execCopy i ch true s = .next ((s.onSite i (·.copySubs m (~~~m.bad))).onMove i ch fun m => { m with
      step := 2, todo := m.dirty, dirty := 0 }) := by
  have hguard : ¬((!true) = true ∨ ((((s.site i).entry? m.ns m.page).map (·.poison)).getD 0 ≠ 0 ∧ m.kind ≠ 2)) :=
    fun hbad => hbad.elim (by decide) fun hpoison => hpoison.1 hclean
  simp only [execCopy, hm, if_neg hguard]

/-- A clean round copies what was written since the last one. -/
theorem execReCopy_of_clean (hm : (s.site i).moveAt ch 2 = some m) :
    execReCopy i ch true s = .next (
      let s := s.onSite i (·.copySubs m (m.todo &&& ~~~m.bad))
      if dirtyCount m.dirty ≤ 4 then s.onMove i ch fun m => { m with step := 4, todo := m.dirty, dirty := 0 }
      else if 8 ≤ m.rounds + 1 then s.abandonMoves i fun x => decide (x.ns = m.ns) && decide (x.page = m.page)
      else s.onMove i ch fun m => { m with rounds := m.rounds + 1, todo := m.dirty, dirty := 0 }) := by
  simp [execReCopy, hm]

theorem execSwitch_of_held (hm : (s.site i).moveAt ch 4 = some m) :
    execSwitch i ch s =
      .next ((((s.onSite i (·.switchMove ch m)).runHeld i m).bump i rTedMoves Fld.tedMovesDone).moveDone i m) := by
  simp only [execSwitch, hm]

end

/-- Settles O35: each row finds the site working and the move at the row's step, and goes by the destination, by what
was written meanwhile and by the rounds. -/
theorem tierMoves : Obligations.TierMoves := by
  intro s i ch
  refine ⟨fun hup => ?sweep, fun m rest d hqueue hup hch hfree hvalid hdest => ?claim,
    fun m rest hqueue hup hch hfree hvalid hdest => ?noRoom, fun m hm hclean => ?copy, fun m hm hfew => ?hold,
    fun m hm hmany hrounds => ?again, fun m hm => ?switch⟩
  case sweep => exact exec_sweep.trans (execSweep_of_up hup)
  case claim => exact exec_claim.trans (execClaim_of_destination hqueue ⟨hup, hch, hfree, hvalid⟩ hdest)
  case noRoom => exact exec_claim.trans (execClaim_of_no_destination hqueue ⟨hup, hch, hfree, hvalid⟩ hdest)
  case copy => exact exec_copy.trans (execCopy_of_clean hm hclean)
  case hold =>
    rw [exec_reCopy, execReCopy_of_clean hm]
    exact congrArg Host.Outcome.next (if_pos hfew)
  case again =>
    rw [exec_reCopy, execReCopy_of_clean hm]
    exact congrArg Host.Outcome.next ((if_neg (Nat.not_le.mpr hmany)).trans (if_neg (Nat.not_le.mpr hrounds)))
  case switch => exact exec_switch.trans (execSwitch_of_held hm)

end Sys2Proof.Machine

/-! The memory ports come up, stay out of service or lose their channels, and the traffic generators run (R222, R237,
R240, R257). -/

namespace Sys2Proof.Machine

/-! Refresh and a PHY's master request -/

/-- A refresh is timing alone (log entry 2). -/
theorem execRefresh_unchanged (i ch : Nat) (s : State) : execRefresh i ch s = .next s :=
  congrArg Host.Outcome.next (ite_self s)

/-- A grant to a PHY is timing alone (log entry 2). -/
theorem execPhyMasterRequest_unchanged (i ch : Nat) (s : State) : execPhyMasterRequest i ch s = .next s :=
  congrArg Host.Outcome.next (ite_self s)

/-! Training -/

/-- A training report is looked at: the port trains, its domain is not in reset, and the report covers its channels. -/
def Site.examines (t : Site) (port : Nat) (r : TrainReport) : Prop :=
  port < 6 ∧ t.pins.coldRstN = true ∧ t.fld (rMpPort port) Fld.mpPortState = 1 ∧
    r.channels.length = (portChannels port).2 ∧ t.domState (domPort port) ≠ 2

/-- A port is found unwired at start-up (R237, R563). -/
def Site.unwiredAtStart (t : Site) (r : TrainReport) : Prop :=
  (r.channels.all fun o => decide (o = .unwired)) = true ∧ t.fld rPwrBoot Fld.pwrBootStep < 8

section
variable {s : State} {i port : Nat} {r : TrainReport} (hlook : (s.site i).examines port r)
include hlook

theorem Site.examines.guard : ¬(6 ≤ port ∨ (!(s.site i).pins.coldRstN) = true ∨
    (s.site i).fld (rMpPort port) Fld.mpPortState ≠ 1 ∨ r.channels.length ≠ (portChannels port).2 ∨
      (s.site i).domState (domPort port) = 2) := by
  obtain ⟨hlt, hcold, hstate, hlen, hdom⟩ := hlook
  simp [Nat.not_le.mpr hlt, hcold, hstate, hlen, hdom]

theorem execMemoryPortTraining_of_unwired (hwire : (s.site i).unwiredAtStart r) :
    execMemoryPortTraining i port r s =
      .next ((s.setFld i (rMpPort port) Fld.mpPortState 0).setFld i (rHltDom (domPort port)) Fld.hltDomState 5) :=
  (if_neg (Site.examines.guard hlook)).trans (if_pos hwire)

variable (hwire : ¬(s.site i).unwiredAtStart r)
include hwire

theorem execMemoryPortTraining_of_other_organisation (horg : r.organisationOk = false) :
    execMemoryPortTraining i port r s = .next (s.onSite i (·.setPort port 5 4)) :=
  (if_neg (Site.examines.guard hlook)).trans ((if_neg hwire).trans (if_pos (by rw [horg]; rfl)))

theorem execMemoryPortTraining_of_trained (horg : r.organisationOk = true)
    (hlat : 2 ≤ port ∨ (8 ≤ r.readLatency ∧ r.readLatency ≤ 64)) :
    execMemoryPortTraining i port r s = .next (s.trainPort i port r) := by
  have hsame : ¬(!r.organisationOk) = true := by rw [horg]; decide
  have hin : ¬(port < 2 ∧ (r.readLatency < 8 ∨ 64 < r.readLatency)) := by omega
  exact (if_neg (Site.examines.guard hlook)).trans ((if_neg hwire).trans ((if_neg hsame).trans (if_neg hin)))

end

theorem execPhyReadyTimeout_of_training {s : State} {i port : Nat} (hport : port < 6)
    (hstate : (s.site i).fld (rMpPort port) Fld.mpPortState = 1) :
    execPhyReadyTimeout i port s =
      .next (((((List.range (portChannels port).2).map ((portChannels port).1 + ·)).filter (s.site i).chServes).foldl
        (fun s c => (s.setFld i (rMpCh c) Fld.mpChState 3).channelLost i c 5) s).onSite i (·.setPort port 5 4)) :=
  congrArg Host.Outcome.next (if_neg fun hbad => hbad.elim (Nat.not_le.mpr hport) fun hne => hne hstate)

/-! Traffic generators -/

/-- The fields of a GO write other than GO and STOP are stored. -/
def Site.storeGo (t : Site) (ch : Nat) (value : W32) : Site :=
  t.setReg (rMpTgCtrl ch) ((t.reg (rMpTgCtrl ch) &&& ~~~(0xFFFF07 : W32)) ||| (value &&& 0xFFFF07))

/-- The site on which the pattern of a GO write starts (R257). -/
def Site.startPattern (t : Site) (ch : Nat) (value : W32) : Site :=
  ((((((t.storeGo ch value).setFld (rMpTgCtrl ch) Fld.mpTgCtrlRefused 0).setFld (rMpTgCtrl ch) Fld.mpTgCtrlBusy
    1).setReg (rMpTgFailAddr ch) 0).setReg (rMpTgFailLanes ch) 0).setReg (rMpTgFailLanes ch + 4) 0).setReg
      (rMpTgFailMeta ch) 0

/-- The four registers of the last failure are cleared, and stand apart from the generator's control register. -/
theorem Site.startPattern_fld_ctrl (t : Site) (ch : Nat) (value : W32) (f : Nat × Nat) :
    (t.startPattern ch value).fld (rMpTgCtrl ch) f =
      (((t.storeGo ch value).setFld (rMpTgCtrl ch) Fld.mpTgCtrlRefused 0).setFld (rMpTgCtrl ch) Fld.mpTgCtrlBusy 1).fld
        (rMpTgCtrl ch) f := by
  rw [Site.startPattern, Site.fld_setReg_other _ _ _ ?failMeta, Site.fld_setReg_other _ _ _ ?lanesHigh,
    Site.fld_setReg_other _ _ _ ?lanesLow, Site.fld_setReg_other _ _ _ ?addr]
  case failMeta | lanesHigh | lanesLow | addr =>
    simp only [rMpTgCtrl, rMpTgFailAddr, rMpTgFailLanes, rMpTgFailMeta]
    omega

theorem Site.startPattern_busy (t : Site) (ch : Nat) (value : W32) :
    (t.startPattern ch value).fld (rMpTgCtrl ch) Fld.mpTgCtrlBusy = 1 := by
  rw [Site.startPattern_fld_ctrl, Site.fld_setFld_same _ _ _ (by decide)]
  rfl

theorem Site.startPattern_refused (t : Site) (ch : Nat) (value : W32) :
    (t.startPattern ch value).fld (rMpTgCtrl ch) Fld.mpTgCtrlRefused = 0 := by
  rw [Site.startPattern_fld_ctrl, Site.fld_setFld_apart _ _ _ (by decide) (by decide),
    Site.fld_setFld_same _ _ _ (by decide), Nat.zero_mod]

theorem Site.startPattern_failAddr (t : Site) (ch : Nat) (value : W32) :
    (t.startPattern ch value).reg (rMpTgFailAddr ch) = 0 := by
  rw [Site.startPattern, Site.reg_setReg_other _ _ ?failMeta, Site.reg_setReg_other _ _ ?lanesHigh,
    Site.reg_setReg_other _ _ ?lanesLow, Site.reg_setReg]
  case failMeta | lanesHigh | lanesLow =>
    simp only [rMpTgFailAddr, rMpTgFailLanes, rMpTgFailMeta]
    omega

section
variable {s : State} {i ch : Nat}

section
variable {value : W32} (hch : ch < 80) (hcold : (s.site i).pins.coldRstN = true) (hgo : bitOf value 31 = true)
include hch hcold hgo

/-- The write of GO goes by the state of the channel and by the pattern asked for (R252, R257). -/
theorem execGo_of_go : execGo i ch value s = .next (
    if (s.site i).chState ch ≠ 5 ∨ 6 ≤ bitsOf value 2 0 then
      (s.onSite i (·.storeGo ch value)).setFld i (rMpTgCtrl ch) Fld.mpTgCtrlRefused 1
    else s.onSite i (·.startPattern ch value)) := by
  have hguard : ¬(80 ≤ ch ∨ (!(s.site i).pins.coldRstN) = true ∨ (!bitOf value 31) = true) := by
    simp [Nat.not_le.mpr hch, hcold, hgo]
  refine congrArg Host.Outcome.next ((if_neg hguard).trans (ite_congr rfl (fun _ => rfl) fun _ => ?_))
  simp only [State.setFld, State.onSite_onSite]
  rfl

end

theorem execStop_of_channel (hch : ch < 80) :
    execStop i ch s = .next (s.setFld i (rMpTgCtrl ch) Fld.mpTgCtrlBusy 0) :=
  congrArg Host.Outcome.next (if_neg (Nat.not_le.mpr hch))

theorem execTgPatternDone_of_clean {r : TgReport} (hch : ch < 80)
    (hbusy : (s.site i).fld (rMpTgCtrl ch) Fld.mpTgCtrlBusy ≠ 0) (hclean : r.errors = 0) :
    execTgPatternDone i ch r s = .next (s.setFld i (rMpTgCtrl ch) Fld.mpTgCtrlBusy 0) :=
  congrArg Host.Outcome.next ((if_neg (not_or.mpr ⟨Nat.not_le.mpr hch, hbusy⟩)).trans (if_pos hclean))

end

/-- Settles O36: each row's guard holds, and the report or the channel's state picks its branch. That refresh and a
PHY's master request change nothing is the model's choice (log entry 2). That a port found unwired at start-up has domain
state 5, and that one with another organisation stays out of service, is its reading of R540 and R563 (log entry 53). -/
theorem memoryPorts : Obligations.MemoryPorts := by
  intro s i ch port
  refine ⟨exec_refresh.trans (execRefresh_unchanged i ch s),
    exec_phyMasterRequest.trans (execPhyMasterRequest_unchanged i ch s), fun r hlt hcold hstate hlen hdom => ?training,
    fun hlt hstate => exec_phyReadyTimeout.trans (execPhyReadyTimeout_of_training hlt hstate),
    fun value hch hcold hgo => ?go, fun hch => exec_stop.trans (execStop_of_channel hch),
    fun r hch hbusy hclean => exec_tgPatternDone.trans (execTgPatternDone_of_clean hch hbusy hclean)⟩
  case training =>
    have hlook : (s.site i).examines port r := ⟨hlt, hcold, hstate, hlen, hdom⟩
    refine ⟨fun hwire => ?_, fun hwire => ⟨fun horg => ?_, fun horg hlat => ?_⟩⟩
    · exact exec_memoryPortTraining.trans (execMemoryPortTraining_of_unwired hlook hwire)
    · exact exec_memoryPortTraining.trans (execMemoryPortTraining_of_other_organisation hlook hwire horg)
    · exact exec_memoryPortTraining.trans (execMemoryPortTraining_of_trained hlook hwire horg hlat)
  case go =>
    rw [exec_go, execGo_of_go hch hcold hgo]
    refine ⟨fun hrefused => congrArg Host.Outcome.next (if_pos hrefused), fun htest hpattern => ?_⟩
    have hstarts : ¬((s.site i).chState ch ≠ 5 ∨ 6 ≤ bitsOf value 2 0) :=
      not_or.mpr ⟨not_not.mpr htest, Nat.not_le.mpr hpattern⟩
    refine ⟨_, congrArg Host.Outcome.next (if_neg hstarts), fun hi hinv => ?_⟩
    obtain ⟨hsites, -, -⟩ := hinv
    rw [State.fld, State.fld, s.site_onSite i _ (by omega)]
    exact ⟨Site.startPattern_busy _ ch value, Site.startPattern_refused _ ch value,
      Site.startPattern_failAddr _ ch value⟩

end Sys2Proof.Machine

/-! Fabric packets as they arrive: one lemma says what a packet that passes the checks of R289 does, one for each case
says what a response finds among the open transactions, and each row is served by these. -/

namespace Sys2Proof.Machine

/-! The checks of R289 -/

section
variable {s : State} {i type : Nat} {p : Pkt} {h : Hdr} {net : Transport}

/-- A packet that passes the checks is served by its row with the transport's replay window moved (R288, R289). -/
theorem State.arrive_of_accepted (ha : Accepted s i type p h net) (run : State → Hdr → State) :
    s.arrive i type p run = run (s.onNet i fun _ => net) h := by
  obtain ⟨rfl, hpresent, hheader, rfl, hreset, hdst, ⟨k, hslot, hlive, hgen⟩, hreplay, hicv⟩ := ha
  have hkey : ¬(k.state = .free ∨ k.gen ≠ (Hdr.of p.hdr).keyGen) := not_or.mpr ⟨hlive, not_not.mpr hgen⟩
  simp only [State.arrive, hpresent, hheader, hreset, hdst, hslot, if_neg hkey, hreplay, hicv, ne_eq, not_true_eq_false,
    Bool.not_true, Bool.false_eq_true, if_false]

end

/-! Requests at their target -/

section
variable {s u : State} {i : Nat} {p : Pkt} {h : Hdr} {net : Transport} {priv : Bool}

theorem execReadReq_of_read {b : Bytes} (ha : Accepted s i 1 p h net)
    (htarget : (s.onNet i fun _ => net).targetOf i h false = .ok priv)
    (hanswers : ((s.onNet i fun _ => net).site i).portHeld h.addr = false)
    (hread : (s.onNet i fun _ => net).tierRead i h.addr h.len h.keyId priv true = (.ok b, u)) :
    execReadReq i p s = .next (u.respond i p stOk b) := by
  simp only [execReadReq, State.arrive_of_accepted ha, htarget, hanswers, hread, Bool.false_eq_true, if_false]

theorem execWrite_of_written {x : Unit} (ha : Accepted s i 3 p h net)
    (htarget : (s.onNet i fun _ => net).targetOf i h true = .ok priv)
    (hwrite : (s.onNet i fun _ => net).tierWrite i h.addr p.payload h.keyId priv true none = some (.ok x, u)) :
    execWrite i p s = .next (u.respond i p stOk []) := by
  simp only [execWrite, State.arrive_of_accepted ha, htarget, hwrite]

/-- How many words an ATOMIC packet works on: a compare-and-swap on one, the others on all of its payload (R295). -/
def atomicWords (h : Hdr) (payload : Bytes) : Nat :=
  if h.op % 8 = 2 then 1 else payload.length / atomicWidth (h.op % 8)

theorem execAtomic_of_done {old : Nat} (ha : Accepted s i 5 p h net)
    (htarget : (s.onNet i fun _ => net).targetOf i h true = .ok priv)
    (hdone : atomicPacket i h p.payload (atomicWords h p.payload) 0 (s.onNet i fun _ => net) = some (.ok old, u)) :
    execAtomic i p s =
      .next (u.respond i p stOk (if 8 ≤ h.op then leBytes (atomicWidth (h.op % 8)) old else [])) := by
  rw [atomicWords] at hdone
  simp only [execAtomic, State.arrive_of_accepted ha, htarget, hdone]

theorem execFenceSig_of_raised {old : Nat} (ha : Accepted s i 7 p h net)
    (htarget : (s.onNet i fun _ => net).targetOf i h true = .ok priv)
    (hraise : (s.onNet i fun _ => net).raiseWord i h.addr h.keyId (fieldAt p.payload 0 8) = some (.ok old, u)) :
    execFenceSig i p s = .next (u.respond i p (if fieldAt p.payload 0 8 < old then stRegression else stOk) []) := by
  simp only [execFenceSig, State.arrive_of_accepted ha, htarget, hraise]

variable {v : Nat}

theorem execContrib_of_taken (ha : Accepted s i 9 p h net) (hslice : (s.onNet i fun _ => net).sliceOf h.keyId = some v)
    (htaken : (s.onNet i fun _ => net).contribute i ((h.addr >>> 22) % 2) h.window v (h.addr % 2 ^ 22)
      ((h.addr >>> 23) % 8) p.payload = (u, true)) :
    execContrib i p s = .next (u.respond i p stOk []) := by
  simp only [execContrib, State.arrive_of_accepted ha, hslice, htaken, if_true]

theorem execControl_of_slice (ha : Accepted s i 0xB p h net)
    (hslice : (s.onNet i fun _ => net).sliceOf h.keyId = some v) :
    execControl i p s = .next ((s.onNet i fun _ => net).tookControl i v p) := by
  simp only [execControl, State.arrive_of_accepted ha, hslice]

end

/-- Settles O41: each packet passes the checks, its target is the slice's, and the tier, the window or the slice takes
what it carries. Where a CONTRIB carries cluster and data type is the model's choice (log entry 32), and so is the
status by which a FENCE_ACK reports a regression (log entry 35). -/
theorem requestPackets : Obligations.RequestPackets := by
  intro s i p h net
  refine ⟨fun priv b u ha htarget hanswers hread => ?read, fun priv x u ha htarget hwrite => ?write,
    fun priv old u ha htarget hdone => ?atomic, fun priv old u ha htarget hraise => ?fence,
    fun v u ha hslice htaken => ?contrib, fun v ha hslice => ?control⟩
  case read => exact exec_readReq.trans (execReadReq_of_read ha htarget hanswers hread)
  case write => exact exec_write.trans (execWrite_of_written ha htarget hwrite)
  case atomic => exact exec_atomic.trans (execAtomic_of_done ha htarget hdone)
  case fence => exact exec_fenceSig.trans (execFenceSig_of_raised ha htarget hraise)
  case contrib => exact exec_contrib.trans (execContrib_of_taken ha hslice htaken)
  case control => exact exec_control.trans (execControl_of_slice ha hslice)

/-! What a response finds among the open transactions -/

/-- An open transaction is the one a response answers (R281). -/
def Hdr.answers (h : Hdr) (kinds : List TxnKind) (x : Txn) : Bool :=
  decide (x.num = h.txn) && decide (x.dst = h.src) && decide (x.slot = h.keyId) && kinds.contains x.kind

theorem Hdr.answers_iff {h : Hdr} {kinds : List TxnKind} {x : Txn} :
    h.answers kinds x = true ↔ x.num = h.txn ∧ x.dst = h.src ∧ x.slot = h.keyId ∧ x.kind ∈ kinds := by
  simp [Hdr.answers, and_assoc]

section
variable {u : State} {i : Nat} {h : Hdr} {kinds : List TxnKind} {x : Txn} (run : State → Txn → State)

theorem State.matchTxn_of_none (hnone : (u.site i).net.txns.find? (h.answers kinds) = none) :
    u.matchTxn i h kinds run = u.dropped i rFabDrop300 Fld.fabDrop300StaleGen := by
  unfold Hdr.answers at hnone
  simp only [State.matchTxn, hnone]

theorem State.matchTxn_of_stale (hfind : (u.site i).net.txns.find? (h.answers kinds) = some x)
    (hgen : h.gen ≠ (u.site i).gen x.dom) :
    u.matchTxn i h kinds run = (u.closeTxn i x.num).dropped i rFabDrop300 Fld.fabDrop300StaleGen := by
  unfold Hdr.answers at hfind
  simp only [State.matchTxn, hfind, if_pos hgen]

theorem State.matchTxn_of_matched {c : CmdRef} (hm : Matched u i h kinds x) (hc : x.cmd = some c) :
    u.matchTxn i h kinds run = ((run (u.closeTxn i x.num) x).settle i c).pumpSlice c.vd := by
  obtain ⟨hfind, hgen⟩ := hm
  simp only [State.matchTxn, hfind, if_neg (not_not.mpr hgen), hc]

end

/-! Responses at their requester -/

section
variable {s : State} {i : Nat} {p : Pkt} {h : Hdr} {net : Transport}

theorem execReadRsp_of_accepted (ha : Accepted s i 2 p h net) :
    execReadRsp i p s = .next ((s.onNet i fun _ => net).matchTxn i h [.read, .fill] fun t x =>
      t.tookRead i h x p.payload) :=
  congrArg Host.Outcome.next (State.arrive_of_accepted ha _)

theorem execWriteAck_of_accepted (ha : Accepted s i 4 p h net) :
    execWriteAck i p s = .next ((s.onNet i fun _ => net).matchTxn i h [.write] fun t x => t.acked h x) :=
  congrArg Host.Outcome.next (State.arrive_of_accepted ha _)

theorem execAtomicRsp_of_accepted (ha : Accepted s i 6 p h net) :
    execAtomicRsp i p s = .next ((s.onNet i fun _ => net).matchTxn i h [.atomic] fun t x =>
      t.tookAtomic h x p.payload) :=
  congrArg Host.Outcome.next (State.arrive_of_accepted ha _)

theorem execFenceAck_of_accepted (ha : Accepted s i 8 p h net) :
    execFenceAck i p s = .next ((s.onNet i fun _ => net).matchTxn i h [.fence] fun t x => t.tookFence i h x) :=
  congrArg Host.Outcome.next (State.arrive_of_accepted ha _)

theorem execContribAck_of_accepted (ha : Accepted s i 0xA p h net) :
    execContribAck i p s = .next ((s.onNet i fun _ => net).matchTxn i h [.contrib] fun t x => t.acked h x) :=
  congrArg Host.Outcome.next (State.arrive_of_accepted ha _)

theorem execControlAck_of_accepted (ha : Accepted s i 0xC p h net) :
    execControlAck i p s = .next ((s.onNet i fun _ => net).matchTxn i h [.control] fun t x =>
      t.tookControlAck i h x p.payload) :=
  congrArg Host.Outcome.next (State.arrive_of_accepted ha _)

/-- The response rows: the packet type, the kinds of transaction it answers, and the row. -/
def responseRows (i : Nat) (p : Pkt) : List (Nat × List TxnKind × Instr) :=
  [(2, [.read, .fill], .readRsp i p), (4, [.write], .writeAck i p), (6, [.atomic], .atomicRsp i p),
    (8, [.fence], .fenceAck i p), (0xA, [.contrib], .contribAck i p), (0xC, [.control], .controlAck i p)]

/-- Every response row looks for the transaction it answers, and differs only in what it then does with the content. -/
theorem exec_response_of_accepted {n : Nat} {kinds : List TxnKind} {ins : Instr}
    (hrow : (n, kinds, ins) ∈ responseRows i p) (ha : Accepted s i n p h net) :
    ∃ run, exec ins s = .next ((s.onNet i fun _ => net).matchTxn i h kinds run) := by
  simp only [responseRows, List.mem_cons, List.not_mem_nil, or_false, Prod.mk.injEq] at hrow
  obtain ⟨rfl, rfl, rfl⟩ | ⟨rfl, rfl, rfl⟩ | ⟨rfl, rfl, rfl⟩ | ⟨rfl, rfl, rfl⟩ | ⟨rfl, rfl, rfl⟩ | ⟨rfl, rfl, rfl⟩ :=
    hrow
  · exact ⟨_, exec_readRsp.trans (execReadRsp_of_accepted ha)⟩
  · exact ⟨_, exec_writeAck.trans (execWriteAck_of_accepted ha)⟩
  · exact ⟨_, exec_atomicRsp.trans (execAtomicRsp_of_accepted ha)⟩
  · exact ⟨_, exec_fenceAck.trans (execFenceAck_of_accepted ha)⟩
  · exact ⟨_, exec_contribAck.trans (execContribAck_of_accepted ha)⟩
  · exact ⟨_, exec_controlAck.trans (execControlAck_of_accepted ha)⟩

end

/-- Settles O43: whichever response row runs, what it does with the content is not reached, for the entry it answers has
another generation, or there is none. -/
theorem staleResponses : Obligations.StaleResponses := by
  rintro s u i p h net rfl n kinds ins hrow ha
  obtain ⟨run, hexec⟩ := exec_response_of_accepted hrow ha
  refine ⟨fun x hfind hgen => ?stale, fun hno => ?unmatched⟩
  case stale => exact hexec.trans (congrArg Host.Outcome.next (State.matchTxn_of_stale run hfind hgen))
  case unmatched =>
    refine hexec.trans (congrArg Host.Outcome.next (State.matchTxn_of_none run ?_))
    exact List.find?_eq_none.mpr fun x hx => mt Hdr.answers_iff.mp (hno x hx)

/-- Settles O42: the response finds its transaction, so the row's own content step runs on the state in which the entry
is closed, and the command goes on. -/
theorem responsePackets : Obligations.ResponsePackets := by
  rintro s u i p h net x c rfl hc
  refine ⟨fun ha hm => ?read, fun ha hm => ?write, fun ha hm => ?atomic, fun ha hm => ?fence, fun ha hm => ?contrib,
    fun ha hm => ?control⟩
  case read => rw [exec_readRsp, execReadRsp_of_accepted ha, State.matchTxn_of_matched _ hm hc]
  case write => rw [exec_writeAck, execWriteAck_of_accepted ha, State.matchTxn_of_matched _ hm hc]
  case atomic => rw [exec_atomicRsp, execAtomicRsp_of_accepted ha, State.matchTxn_of_matched _ hm hc]
  case fence => rw [exec_fenceAck, execFenceAck_of_accepted ha, State.matchTxn_of_matched _ hm hc]
  case contrib => rw [exec_contribAck, execContribAck_of_accepted ha, State.matchTxn_of_matched _ hm hc]
  case control => rw [exec_controlAck, execControlAck_of_accepted ha, State.matchTxn_of_matched _ hm hc]

end Sys2Proof.Machine

/-! Frames of an active link, the fabric's timeouts, its routes and its quiesce requests (R275, R276, R283, R293, R303,
R309, R312). -/

namespace Sys2Proof.Machine

/-! Link frames -/

section
variable {s : State} {i l : Nat} (hup : (s.site i).linkUp l = true)
include hup

/-- The guard shared by the rows of an active link lets them pass. -/
theorem linkUp_guard : ¬(!(s.site i).linkUp l) = true := by simp [hup]

theorem execLinkFrame_of_due {seq units : Nat} (hdue : seq % 2 ^ 24 = ((s.site i).link l).rxSeq) :
    execLinkFrame i l seq true units s =
      .next (((s.onLink i l fun k => { k with rxSeq := (k.rxSeq + 1) % 2 ^ 24, refusals := 0 }).emit
        (.control i l 0 (seq % 2 ^ 24))).emit (.control i l 2 units)) := by
  simp only [execLinkFrame, if_neg (linkUp_guard hup), Bool.true_and, decide_eq_true hdue, if_true]

theorem execLinkFrame_of_older {seq units : Nat} (hne : seq % 2 ^ 24 ≠ ((s.site i).link l).rxSeq)
    (hle : seqLe seq ((s.site i).link l).rxSeq = true) :
    execLinkFrame i l seq true units s =
      .next (s.emit (.control i l 0 ((((s.site i).link l).rxSeq + 2 ^ 24 - 1) % 2 ^ 24))) := by
  simp only [execLinkFrame, if_neg (linkUp_guard hup), Bool.true_and, decide_eq_false hne, hle, Bool.false_eq_true,
    if_false, if_true]

theorem execLinkFrame_of_gap {seq units : Nat} (hne : seq % 2 ^ 24 ≠ ((s.site i).link l).rxSeq)
    (hgap : seqLe seq ((s.site i).link l).rxSeq = false) :
    execLinkFrame i l seq true units s =
      .next (((s.bump i (rFabLinkErr l) Fld.fabLinkErrFecUncorr 0).emit
        (.control i l 1 ((s.site i).link l).rxSeq)).refused i l) := by
  simp only [execLinkFrame, if_neg (linkUp_guard hup), Bool.true_and, decide_eq_false hne, hgap, Bool.false_eq_true,
    if_false, if_true]

/-- A frame whose CRC fails is refused whatever its number; how many codewords FEC could not correct is a free value. -/
theorem execLinkFrame_of_damaged {seq units : Nat} :
    execLinkFrame i l seq false units s =
      .next (((s.draw.2.bump i (rFabLinkErr l) Fld.fabLinkErrFecUncorr (s.draw.1.toNat % 65536)).emit
        (.control i l 1 ((s.site i).link l).rxSeq)).refused i l) :=
  congrArg Host.Outcome.next (if_neg (linkUp_guard hup))

theorem execAcknowledgement_of_up {seq : Nat} :
    execAcknowledgement i l seq s = .next ((s.onLink i l fun k => { k with
      replay := k.replay.filter fun f => !seqLe f.seq seq, refusals := 0, nak := none }).drain i l) :=
  congrArg Host.Outcome.next (if_neg (linkUp_guard hup))

theorem execNegativeAcknowledgement_of_up {seq : Nat} :
    execNegativeAcknowledgement i l seq s =
      .next (((s.onLink i l fun k => { k with
        nak := some (seq % 2 ^ 24), refusals := if k.nak = some (seq % 2 ^ 24) then k.refusals else 0 }).resendFrom i l
          (((s.site i).link l).replay.filter fun f => seqLe seq f.seq)).refused i l) :=
  congrArg Host.Outcome.next (if_neg (linkUp_guard hup))

theorem execCreditReturn_of_up {cr : CreditGrant} :
    execCreditReturn i l cr s =
      .next ((s.onLink i l fun k => { k with credits := creditAdd k.credits cr }).drain i l) :=
  congrArg Host.Outcome.next (if_neg (linkUp_guard hup))

theorem execLaneLoss_of_mapped {lane : Nat} (hlane : ((s.site i).link l).laneMap.contains lane = true) :
    execLaneLoss i l lane s = .next ((s.setFld i (rFabLink l) Fld.fabLinkLaneBad
      ((s.site i).fld (rFabLink l) Fld.fabLinkLaneBad ||| 2 ^ lane)).retrain i l) :=
  congrArg Host.Outcome.next (if_neg (by simp [hup, List.contains_iff_mem.mp hlane]))

end

/-- Settles O44: the link is up, so each row's guard lets it pass; a frame then goes by its CRC and by its number
against the one that is due. How much FEC_UNCORR rises is a free value (log entry 33). That credits return at once and
that both ends count a refused frame is the model's reading (log entry 57), and so is the answer to an older frame: an
acknowledgement with the last number taken. -/
theorem linkFrames : Obligations.LinkFrames := by
  intro s i l hup
  refine ⟨fun seq units hdue => ?due, fun seq units hne hle => ?older, fun seq units hne hgap => ?gap,
    fun seq units => ?damaged, fun seq => ?ack, fun seq => ?nak, fun cr => ?credit, fun lane hlane => ?lane⟩
  case due => exact exec_linkFrame.trans (execLinkFrame_of_due hup hdue)
  case older => exact exec_linkFrame.trans (execLinkFrame_of_older hup hne hle)
  case gap => exact exec_linkFrame.trans (execLinkFrame_of_gap hup hne hgap)
  case damaged => exact exec_linkFrame.trans (execLinkFrame_of_damaged hup)
  case ack => exact exec_acknowledgement.trans (execAcknowledgement_of_up hup)
  case nak => exact exec_negativeAcknowledgement.trans (execNegativeAcknowledgement_of_up hup)
  case credit => exact exec_creditReturn.trans (execCreditReturn_of_up hup)
  case lane => exact exec_laneLoss.trans (execLaneLoss_of_mapped hup hlane)

/-! Timeouts -/

/-- The entry of a forwarded work item stands until R309 ends it. -/
def Site.standsForWork (t : Site) (n : Nat) (x : Txn) : Prop :=
  x.kind = .control ∧ x.branch = Ctl.work.code ∧ (t.net.fwd.any fun f => decide (f.txn = n)) = true

theorem execTransportTimeout_of_open {s : State} {i n : Nat} {x : Txn}
    (hfind : (s.site i).net.txns.find? (fun x => decide (x.num = n)) = some x)
    (hwork : ¬(s.site i).standsForWork n x) :
    execTransportTimeout i n s = .next (s.txnLost i x) := by
  unfold Site.standsForWork at hwork
  simp only [execTransportTimeout, hfind, if_neg hwork]

theorem execForwardTimeout_of_forwarded {s : State} {i n : Nat} {f : Fwd}
    (hfind : (s.site i).net.fwd.find? (fun f => decide (f.tag = n)) = some f) :
    execForwardTimeout i n s = .next (s.fwdLost i f) := by
  simp only [execForwardTimeout, hfind]

theorem execHoldTimeExpiry_of_unsent {s : State} {c : CmdRef} {k : Cmd} {b : Nat} (hk : s.cmd? c = some k)
    (hop : k.op = 0x304) (hissued : k.phase = .issued) (hruns : k.ran = false)
    (hunsent : (k.unsent.any fun r => decide (r.branch = b)) = true) :
    execHoldTimeExpiry c b s = .next (s.branchFails c b stFabricTimeout) := by
  have hguard : k.op = 0x304 ∧ k.phase = .issued ∧ (!k.ran) = true ∧
      (k.unsent.any fun r => decide (r.branch = b)) = true := ⟨hop, hissued, by rw [hruns]; rfl, hunsent⟩
  simp only [execHoldTimeExpiry, hk, if_pos hguard]

/-! Routes and quiesce requests -/

section
variable {s : State} {i : Nat} (hcold : (s.site i).pins.coldRstN = true) (hgroup : (s.site i).domUp 19 = true)
include hcold hgroup

/-- The guard shared by the writes of a powered site whose fabric port group is up, for an operand within its
bound. -/
theorem fabricWrite_guard {n bound : Nat} (hn : n < bound) :
    ¬(!(s.site i).pins.coldRstN || !(s.site i).domUp 19 || decide (bound ≤ n)) = true := by
  simp [hcold, hgroup, hn]

theorem execFabRt_of_group {d : Nat} {hi : W32} (hd : d < 2 ^ 14) :
    execFabRt i d hi s = .next (s.onSite i (·.setRoute d hi)) :=
  congrArg Host.Outcome.next (if_neg (fabricWrite_guard hcold hgroup hd))

theorem execFabQuiesceReq_of_group {slot : Nat} (hslot : slot < 1024) :
    execFabQuiesceReq i slot s = .next (((s.setFld i rFabQuiesce Fld.fabQuiesceKeyId slot).setFld i rFabQuiesce
      Fld.fabQuiesceReq 1).setFld i rFabQuiesce Fld.fabQuiesceDone 0) :=
  congrArg Host.Outcome.next (if_neg (fabricWrite_guard hcold hgroup hslot))

theorem execQuiesceClear_of_group :
    execQuiesceClear i true s =
      .next ((s.setFld i rFabQuiesce Fld.fabQuiesceReq 0).setFld i rFabQuiesce Fld.fabQuiesceDone 0) := by
  simp only [execQuiesceClear, hcold, hgroup, Bool.and_self, if_true]

end

section
variable {s : State} {i : Nat}

theorem execFabQuiesceDone_of_quiet (hreq : (s.site i).fld rFabQuiesce Fld.fabQuiesceReq = 1)
    (hquiet : (s.site i).fabQuiet ((s.site i).fld rFabQuiesce Fld.fabQuiesceKeyId) = true) :
    execFabQuiesceDone i s = .next (s.setFld i rFabQuiesce Fld.fabQuiesceDone 1) :=
  congrArg Host.Outcome.next (if_pos ⟨hreq, hquiet⟩)

variable (hup : (s.site i).up = true)
include hup

theorem execDmaQuiesceReq_of_up {slot : Nat} (hslot : slot < 1024) :
    execDmaQuiesceReq i slot s =
      .next ((s.setFld i rDmaQuiesce Fld.dmaQuiesceKeyId slot).setFld i rDmaQuiesce Fld.dmaQuiesceReq 1) :=
  congrArg Host.Outcome.next (if_neg (by simp [hup, hslot]))

theorem execQuiesceClear_of_up :
    execQuiesceClear i false s = .next (s.setFld i rDmaQuiesce Fld.dmaQuiesceReq 0) :=
  congrArg Host.Outcome.next (if_pos hup)

end

/-- Settles O46: a timeout finds what it names still open, and each write's guard lets it pass. The DMA engines' requests
follow R179 and R184; that the entry of a forwarded work item is not subject to T_e is the model's reading (log entry
58). -/
theorem fabricTimeoutsAndSettings : Obligations.FabricTimeoutsAndSettings := by
  refine ⟨fun s i => ⟨fun n x hfind hwork => ?lost, fun n f hfind => ?forward,
    fun c k b hk hop hissued hruns hunsent => ?hold⟩, fun s i hcold hgroup => ⟨fun d hi hd => ?route,
    fun slot hslot => ?request, fun hreq hquiet => ?done, ?clear, fun hup => ⟨?dmaClear, fun slot hslot => ?dmaRequest⟩⟩⟩
  case lost => exact exec_transportTimeout.trans (execTransportTimeout_of_open hfind hwork)
  case forward => exact exec_forwardTimeout.trans (execForwardTimeout_of_forwarded hfind)
  case hold => exact exec_holdTimeExpiry.trans (execHoldTimeExpiry_of_unsent hk hop hissued hruns hunsent)
  case route => exact exec_fabRt.trans (execFabRt_of_group hcold hgroup hd)
  case request => exact exec_fabQuiesceReq.trans (execFabQuiesceReq_of_group hcold hgroup hslot)
  case done => exact exec_fabQuiesceDone.trans (execFabQuiesceDone_of_quiet hreq hquiet)
  case clear => exact exec_quiesceClear.trans (execQuiesceClear_of_group hcold hgroup)
  case dmaClear => exact exec_quiesceClear.trans (execQuiesceClear_of_up hup)
  case dmaRequest => exact exec_dmaQuiesceReq.trans (execDmaQuiesceReq_of_up hup hslot)

end Sys2Proof.Machine

/-! The Craene queues: how a control command's row ends, which doorbell writes are taken, and what the rings, the
vectors, the submission reads, the fence signals and the translation events do once their conditions hold. -/

namespace Sys2Proof.Machine

/-! Rows of a control command -/

section
variable {c : CmdRef} {op : Nat} {s t : State} {j : Job} {body : Job → Run CtlEnd}

theorem CtlReady.job_eq (h : CtlReady c op s j) : s.job? c = some j := h.1

/-- The guard of a control command's row lets a ready command pass. -/
theorem CtlReady.guard (h : CtlReady c op s j) :
    ¬(decide (j.k.op ≠ op) || decide (j.k.phase ≠ .ready) || !j.k.asks.isEmpty || j.k.hold.isSome ||
      j.k.fault.isSome || (s.vd c.vd).fe.frozen || !(s.site j.i).up) = true := by
  obtain ⟨-, hop, hready, ⟨hasks, hhold, hfault⟩, hthawed, hup⟩ := h
  simp [hop, hready, hasks, hhold, hfault, hthawed, hup]

/-- A body that runs to an end with nothing open ends the command, in the state the body left. -/
theorem ctlRow_of_done {st : W16} {d : Nat} (h : CtlReady c op s j) (hrun : (body j).run s = (.ok (.done st d), t))
    (hopen : NothingOpen j c t) : ctlRow c op s body = .next (t.endCtl c j.i st d) := by
  obtain ⟨hunsent, htxns⟩ := hopen
  simp only [ctlRow, h.job_eq, if_neg h.guard, hrun, hunsent, htxns, List.isEmpty_nil, decide_true, Bool.and_self,
    if_true]

theorem ctlRow_of_waits (h : CtlReady c op s j) (hrun : (body j).run s = (.ok .waits, t)) :
    ctlRow c op s body = .next (t.onCmd c fun k => { k with phase := .issued, wasIssued := true }) := by
  simp only [ctlRow, h.job_eq, if_neg h.guard, hrun]

end

/-- Settles O29: every control row is `ctlRow` of its body, which a ready command runs. -/
theorem controlCommands : Obligations.ControlCommands := fun _ _ _ _ _ _ =>
  ⟨fun hopen =>
    ⟨fun h hrun => exec_nop.trans (ctlRow_of_done h hrun hopen),
      fun h hrun => exec_streamCreate.trans (ctlRow_of_done h hrun hopen),
      fun h hrun => exec_streamDestroy.trans (ctlRow_of_done h hrun hopen),
      fun h hrun => exec_streamAbort.trans (ctlRow_of_done h hrun hopen),
      fun h hrun => exec_sliceInfo.trans (ctlRow_of_done h hrun hopen),
      fun h hrun => exec_noelRingSet.trans (ctlRow_of_done h hrun hopen),
      fun h hrun => exec_aspaceCreate.trans (ctlRow_of_done h hrun hopen),
      fun h hrun => exec_aspaceDestroy.trans (ctlRow_of_done h hrun hopen),
      fun h hrun => exec_objCreate.trans (ctlRow_of_done h hrun hopen),
      fun h hrun => exec_objFree.trans (ctlRow_of_done h hrun hopen),
      fun h hrun => exec_map.trans (ctlRow_of_done h hrun hopen),
      fun h hrun => exec_unmap.trans (ctlRow_of_done h hrun hopen),
      fun h hrun => exec_faultResolve.trans (ctlRow_of_done h hrun hopen)⟩,
    fun h hrun => exec_streamDestroy.trans (ctlRow_of_waits h hrun),
    fun h hrun => exec_aspaceDestroy.trans (ctlRow_of_waits h hrun),
    fun h hrun => exec_objFree.trans (ctlRow_of_waits h hrun),
    fun h hrun => exec_map.trans (ctlRow_of_waits h hrun),
    fun h hrun => exec_unmap.trans (ctlRow_of_waits h hrun)⟩

/-! Reserved bytes of a body, and NOP -/

section
variable {b : Bytes} {o n k : Nat}

theorem fieldAt_one (b : Bytes) (m : Nat) : fieldAt b m 1 = (b.getD m 0).toNat := by
  rw [fieldAt, List.getD_eq_getElem?_getD]
  cases hm : b[m]? with
  | none => rw [List.drop_eq_nil_of_le (List.getElem?_eq_none_iff.mp hm)]; rfl
  | some x =>
    obtain ⟨hlt, rfl⟩ := List.getElem?_eq_some_iff.mp hm
    rw [List.drop_eq_getElem_cons hlt]
    rfl

/-- Where no byte of a run is set, each of them reads 0. -/
theorem fieldAt_one_of_anySet_false (h : anySet ((b.drop o).take n) = false) (hk : k < n) :
    fieldAt b (o + k) 1 = 0 := by
  rw [fieldAt_one, List.getD_eq_getElem?_getD]
  cases hm : b[o + k]? with
  | none => rfl
  | some x =>
    have hmem : x ∈ (b.drop o).take n :=
      List.mem_iff_getElem?.mpr ⟨k, by rw [List.getElem?_take_of_lt hk, List.getElem?_drop, hm]⟩
    have hx : x = 0 := by simpa using List.any_eq_false.mp h x hmem
    rw [hx]
    rfl

/-- The check of one run of reserved bytes names the first of them that is set. -/
theorem firstBad_reservedSet_run :
    firstBad (reservedSet b [(o, n)]) =
      ((List.range n).find? fun k => decide (fieldAt b (o + k) 1 ≠ 0)).map (o + ·) := by
  simp only [reservedSet, List.map_cons, List.map_nil]
  cases (List.range n).find? fun k => decide (fieldAt b (o + k) 1 ≠ 0) with
  | none => rfl
  | some k => rfl

theorem firstBad_reservedSet_of_clear (h : anySet ((b.drop o).take n) = false) :
    firstBad (reservedSet b [(o, n)]) = none := by
  rw [firstBad_reservedSet_run, Option.map_eq_none_iff, List.find?_eq_none]
  intro k hk
  simp [fieldAt_one_of_anySet_false h (List.mem_range.mp hk)]

/-- The byte that the check names is set, and every reserved byte before it is clear (R596). -/
theorem firstBad_reservedSet_spec {m : Nat} (h : firstBad (reservedSet b [(o, n)]) = some m) :
    o ≤ m ∧ m < o + n ∧ fieldAt b m 1 ≠ 0 ∧ ∀ x, o ≤ x → x < m → fieldAt b x 1 = 0 := by
  rw [firstBad_reservedSet_run, Option.map_eq_some_iff] at h
  obtain ⟨k, hfind, rfl⟩ := h
  obtain ⟨hset, hrange, hbefore⟩ := List.find?_range_eq_some.mp hfind
  refine ⟨Nat.le_add_right o k, Nat.add_lt_add_left (List.mem_range.mp hrange) o, of_decide_eq_true hset,
    fun x hlo hhi => ?_⟩
  have hclear := hbefore (x - o) (by omega)
  simpa [Nat.add_sub_cancel' hlo] using hclear

end

theorem nopRun_of_clear {j : Job} {s : State} (h : firstBad (reservedSet j.k.desc [(16, 48)]) = none) :
    (nopRun j).run s = (.ok (.done stOk 0), s) := by
  simp only [nopRun, h]
  rfl

theorem nopRun_of_set {j : Job} {s : State} {n : Nat} (h : firstBad (reservedSet j.k.desc [(16, 48)]) = some n) :
    (nopRun j).run s = (.ok (.done stBadDescriptor n), s) := by
  simp only [nopRun, h]
  rfl

/-- Settles O30: NOP's body checks its reserved bytes and leaves the block as it is. DETAIL is the lowest byte set
(R343, R596; log entry 29), and the end time is that of the completion (log entry 21). -/
theorem nopResult : Obligations.NopResult := by
  intro c s j h hopen
  refine ⟨fun hclear => ?clear, fun n hbad => ?set⟩
  case clear => exact exec_nop.trans (ctlRow_of_done h (nopRun_of_clear (firstBad_reservedSet_of_clear hclear)) hopen)
  case set =>
    obtain ⟨hlo, hhi, hset, hbefore⟩ := firstBad_reservedSet_spec hbad
    exact ⟨hlo, hhi, hset, hbefore, exec_nop.trans (ctlRow_of_done h (nopRun_of_set hbad) hopen)⟩

/-! Doorbells (R331) -/

theorem modify_congr_getD {α : Type} {l : List α} {n : Nat} {d : α} {f g : α → α}
    (h : f (l.getD n d) = g (l.getD n d)) : l.modify n f = l.modify n g := by
  apply List.ext_getElem?
  intro m
  rw [List.getElem?_modify, List.getElem?_modify]
  split
  case isTrue hm =>
    subst hm
    cases hx : l[n]? with
    | none => rfl
    | some x =>
      rw [List.getD_eq_getElem?_getD, hx] at h
      exact congrArg some h
  case isFalse => rfl

/-- A ring's change depends only on the ring as it stands. -/
theorem State.onRing_congr {s : State} {v r : Nat} {f g : Ring → Ring} (h : f ((s.vd v).ring r) = g ((s.vd v).ring r)) :
    s.onRing v r f = s.onRing v r g := by
  have hrings : (s.vd v).fe.rings.modify r f = (s.vd v).fe.rings.modify r g := modify_congr_getD h
  have hvds : s.vds.modify v (fun d => { d with fe := { d.fe with rings := d.fe.rings.modify r f } }) =
      s.vds.modify v (fun d => { d with fe := { d.fe with rings := d.fe.rings.modify r g } }) :=
    modify_congr_getD (d := {}) (congrArg (fun l => { s.vd v with fe := { (s.vd v).fe with rings := l } }) hrings)
  exact congrArg (fun l => { s with vds := l }) hvds

section
variable {s : State} {v r tail : Nat}

theorem Ring.take_of_le {x : Ring} (hle : x.posted ≤ (tail + 4096 - x.sqHead) % 4096) :
    x.take tail = some { x with tail := tail } := if_pos hle

theorem Ring.take_of_lt {x : Ring} (hlt : (tail + 4096 - x.sqHead) % 4096 < x.posted) : x.take tail = none :=
  if_neg (Nat.not_le.mpr hlt)

/-- An enabled ring takes a tail that does not lower the number of posted slots. -/
theorem State.doorbell_of_taken (hon : ((s.vd v).ring r).on = true)
    (hle : ((s.vd v).ring r).posted ≤ (tail + 4096 - ((s.vd v).ring r).sqHead) % 4096) :
    s.doorbell v r tail = s.onRing v r fun x => { x with tail := tail } := by
  have hguard : ¬(!((s.vd v).ring r).on) = true := by simp [hon]
  simp only [State.doorbell, if_neg hguard, Ring.take_of_le hle]
  exact State.onRing_congr rfl

theorem State.doorbell_of_lowered
    (hlt : (tail + 4096 - ((s.vd v).ring r).sqHead) % 4096 < ((s.vd v).ring r).posted) :
    s.doorbell v r tail = s.onFe v fun e => { e with badDb := true } := by
  simp only [State.doorbell, Ring.take_of_lt hlt, ite_self]

theorem State.doorbell_of_off (hoff : ((s.vd v).ring r).on = false) :
    s.doorbell v r tail = s.onFe v fun e => { e with badDb := true } := by
  simp only [State.doorbell, hoff, Bool.not_false, if_true]

end

/-! Rows of a live device's rings -/

section
variable {s : State} {vd : Nat} (hlive : (s.vd vd).live = true)
include hlive

theorem execFeDoorbell_of_live {tail : BitVec 12} :
    execFeDoorbell vd tail s = .next (s.doorbell vd 0 tail.toNat) :=
  congrArg Host.Outcome.next (if_pos hlive)

theorem execFeCqHead_of_live {head : W32} :
    execFeCqHead vd head s = .next (s.onRing vd 0 fun r => { r with cqHead := bitsOf head 15 0 }) :=
  congrArg Host.Outcome.next (if_pos hlive)

theorem execFeEqHead_of_live {head : W32} :
    execFeEqHead vd head s =
      .next ((s.onFe vd fun e => { e with eq := { e.eq with head := bitsOf head 11 0 } }).flushEvents vd) :=
  congrArg Host.Outcome.next (if_pos hlive)

theorem execFeFqHead_of_live {head : W32} :
    execFeFqHead vd head s =
      .next (s.onFe vd fun e => { e with fq := { e.fq with head := bitsOf head 11 0 }, fqFull := none }) :=
  congrArg Host.Outcome.next (if_pos hlive)

/-- ENABLE starts rings that pass their checks on a device that may use the host (R329, R447). -/
theorem execRingEnable_of_ok (hoff : (s.vd vd).ringsOn = false) (hok : (s.vd vd).fe.ringsOk = true)
    (hopen : (s.vd vd).hostOpen = true) : execRingEnable vd s = .next (s.enableRings vd) := by
  simp only [execRingEnable, hlive, hoff, hok, hopen, Bool.not_true, Bool.or_self, Bool.false_eq_true, if_false]

theorem execRingEnable_of_bad (hoff : (s.vd vd).ringsOn = false)
    (hbad : (s.vd vd).fe.ringsOk = false ∨ (s.vd vd).hostOpen = false) :
    execRingEnable vd s = .next (s.onFe vd fun e => { e with cfgErr := true }) := by
  have hrefused : (!(s.vd vd).fe.ringsOk || !(s.vd vd).hostOpen) = true := by simpa using hbad
  simp only [execRingEnable, hlive, hoff, hrefused, Bool.not_true, Bool.or_self, Bool.false_eq_true, if_false, if_true]

theorem execRingDisable_of_idle (hon : (s.vd vd).ringsOn = true) (hidle : (s.vd vd).mayDisable = true) :
    execRingDisable vd s = .next ((s.onRing vd 0 fun r => { r with on := false, fetched := [] }).onStream vd 0
      fun t => { t with state := .free }) :=
  congrArg Host.Outcome.next (if_neg (by simp [hlive, hon, hidle]))

theorem execMsixCoalesceExpiry_of_accumulated {n : Nat} (hacc : 0 < ((s.vd vd).fe.vectors.getD n {}).acc) :
    execMsixCoalesceExpiry vd n s = .next (s.sendVector vd n) :=
  congrArg Host.Outcome.next (if_pos ⟨hlive, hacc⟩)

theorem execMsixUnmask_of_masked {n : Nat} (hmasked : ((s.vd vd).fe.vectors.getD n {}).masked = true) :
    execMsixUnmask vd n s = .next (s.unmask vd n) :=
  congrArg Host.Outcome.next (if_pos ⟨hlive, hmasked⟩)

end

section
variable {s : State} {vd : Nat}

theorem execFeNoelDb_of_procRing {ring : Nat} {tail : BitVec 12} (hring : (s.vd vd).procRing ring = true) :
    execFeNoelDb vd ring tail s = .next (s.doorbell vd ring tail.toNat) :=
  congrArg Host.Outcome.next (if_pos hring)

theorem execFeNoelCqHead_of_procRing {ring : Nat} {head : W32} (hring : (s.vd vd).procRing ring = true) :
    execFeNoelCqHead vd ring head s = .next (s.onRing vd ring fun r => { r with cqHead := bitsOf head 11 0 }) :=
  congrArg Host.Outcome.next (if_pos hring)

theorem execFeStreamResume_of_up {value : W32} (hup : s.frontUp vd = true) (hon : (s.vd vd).ringsOn = true)
    (hthawed : (s.vd vd).fe.frozen = false) :
    execFeStreamResume vd value s =
      .next (((s.onFe vd fun e => { e with fetchLost := false }).resumeStream vd (bitsOf value 7 0)).flushEvents vd) :=
  congrArg Host.Outcome.next (if_neg (by simp [hup, hon, hthawed]))

end

/-- Settles O31: a live device's doorbell write goes by the ring's state and by the slots it would post. -/
theorem doorbellAccepted : Obligations.DoorbellAccepted := by
  intro s vd tail hlive
  refine ⟨fun hon hle => ?taken, fun hrefused => ?refused⟩
  case taken => rw [exec_feDoorbell, execFeDoorbell_of_live hlive, State.doorbell_of_taken hon hle]
  case refused =>
    rw [exec_feDoorbell, execFeDoorbell_of_live hlive]
    obtain hoff | hlt := hrefused
    · rw [State.doorbell_of_off hoff]
    · rw [State.doorbell_of_lowered hlt]

/-! A drained stream becomes free (R337, R378) -/

/-- A STREAM_DESTROY of stream `n` that has been issued and waits for its drain. -/
def Cmd.destroys (n : Nat) (k : Cmd) : Bool :=
  decide (k.op = 2) && decide (k.phase = .issued) && decide (fieldAt k.desc 16 1 = n)

theorem Cmd.destroys_iff {n : Nat} {k : Cmd} :
    k.destroys n = true ↔ k.op = 2 ∧ k.phase = .issued ∧ fieldAt k.desc 16 1 = n := by
  simp [Cmd.destroys, and_assoc]

section
variable {s : State} {vd n : Nat} (hup : s.frontUp vd = true) (hdraining : ((s.vd vd).stream n).state = .draining)
  (hempty : ((s.vd vd).stream n).queue = []) (hthawed : (s.vd vd).fe.frozen = false)
include hup hdraining hempty hthawed

/-- The guard of the row of a drained stream lets it pass. -/
theorem streamFreed_guard :
    ¬(!s.frontUp vd || decide (((s.vd vd).stream n).state ≠ .draining) || !((s.vd vd).stream n).queue.isEmpty ||
      (s.vd vd).fe.frozen) = true := by
  simp [hup, hdraining, hempty, hthawed]

theorem execStreamFreed_of_no_destroy
    (hnone : ((((s.freeStream vd n).endDestroys vd).vd vd).stream 0).queue.find? (Cmd.destroys n) = none) :
    execStreamFreed vd n s = .next ((s.freeStream vd n).endDestroys vd) := by
  unfold Cmd.destroys at hnone
  simp only [execStreamFreed, if_neg (streamFreed_guard hup hdraining hempty hthawed), hnone]

theorem execStreamFreed_of_destroy {k : Cmd}
    (hfind : ((((s.freeStream vd n).endDestroys vd).vd vd).stream 0).queue.find? (Cmd.destroys n) = some k) :
    execStreamFreed vd n s = .next (((s.freeStream vd n).endDestroys vd).endCtl ⟨vd, 0, k.id⟩
      (((s.freeStream vd n).endDestroys vd).homeSite vd) stOk 0) := by
  unfold Cmd.destroys at hfind
  simp only [execStreamFreed, if_neg (streamFreed_guard hup hdraining hempty hthawed), hfind]

end

/-- Settles O25: the device is live, or its front end up, so each row's guard lets it pass; a freed stream ends the
destroy that waits for it, where one is found on stream 0. -/
theorem ringCommands : Obligations.RingCommands := by
  refine ⟨fun s vd hlive => ⟨fun tail => ?doorbell, fun ring tail hring => ?noelDoorbell, fun head => ?cqHead,
    fun head => ?eqHead, fun head => ?fqHead, fun ring head hring => ?noelCqHead, fun hoff hok hopen => ?enable,
    fun hoff hbad => ?cfgErr, fun hon hidle => ?disable, fun value hup hon hthawed => ?resume⟩,
    fun s vd n => ⟨fun hlive hacc => ?coalesce, fun hlive hmasked => ?unmask,
      fun hup hdraining hempty hthawed => ?freed⟩⟩
  case doorbell => exact exec_feDoorbell.trans (execFeDoorbell_of_live hlive)
  case noelDoorbell => exact exec_feNoelDb.trans (execFeNoelDb_of_procRing hring)
  case cqHead => exact exec_feCqHead.trans (execFeCqHead_of_live hlive)
  case eqHead => exact exec_feEqHead.trans (execFeEqHead_of_live hlive)
  case fqHead => exact exec_feFqHead.trans (execFeFqHead_of_live hlive)
  case noelCqHead => exact exec_feNoelCqHead.trans (execFeNoelCqHead_of_procRing hring)
  case enable => exact exec_ringEnable.trans (execRingEnable_of_ok hlive hoff hok hopen)
  case cfgErr => exact exec_ringEnable.trans (execRingEnable_of_bad hlive hoff hbad)
  case disable => exact exec_ringDisable.trans (execRingDisable_of_idle hlive hon hidle)
  case resume => exact exec_feStreamResume.trans (execFeStreamResume_of_up hup hon hthawed)
  case coalesce => exact exec_msixCoalesceExpiry.trans (execMsixCoalesceExpiry_of_accumulated hlive hacc)
  case unmask => exact exec_msixUnmask.trans (execMsixUnmask_of_masked hlive hmasked)
  case freed =>
    cases hfind : ((((s.freeStream vd n).endDestroys vd).vd vd).stream 0).queue.find? (Cmd.destroys n) with
    | none =>
      exact ⟨_, exec_streamFreed.trans (execStreamFreed_of_no_destroy hup hdraining hempty hthawed hfind), .inl rfl⟩
    | some k =>
      obtain ⟨hop, hissued, hstream⟩ := Cmd.destroys_iff.mp (List.find?_some hfind)
      exact ⟨_, exec_streamFreed.trans (execStreamFreed_of_destroy hup hdraining hempty hthawed hfind),
        .inr ⟨k, List.mem_of_find?_eq_some hfind, hop, hissued, hstream, rfl⟩⟩

/-! Reading submission slots and placing descriptors (R331–R334) -/

section
variable {s : State} {vd ring : Nat}

/-- The DVA of the next slot that the front end reads of a ring. -/
def Ring.nextSlot (r : Ring) : Nat := r.sqBase + 64 * ((r.sqHead + r.fetched.length) % 4096)

/-- What the rows of a ring ask of the front end before all else holds of an open ring. -/
theorem RingOpen.guard (h : RingOpen s vd ring) :
    (!s.frontUp vd || (s.vd vd).removal.isSome || !((s.vd vd).ring ring).on || (s.vd vd).fe.fetchLost ||
      (s.vd vd).fe.frozen) = false := by
  obtain ⟨hup, hstays, hon, hread, hthawed⟩ := h
  simp [hup, hstays, hon, hread, hthawed]

theorem execSubmissionRead_of_open {slots : List Bytes} {b : Nat} (h : RingOpen s vd ring) (hne : slots ≠ [])
    (hmost : slots.length ≤ 64) (hposted : slots.length ≤ ((s.vd vd).ring ring).unreadSlots)
    (hmapped : s.ringAddr vd ring ((s.vd vd).ring ring).nextSlot 1 = .ok b) :
    execSubmissionRead vd ring slots s = .next (s.onRing vd ring fun r => { r with
      fetched := r.fetched ++ slots.zipIdx.map fun (b, k) =>
        ((r.sqHead + r.fetched.length + k) % 4096, padTo 64 b) }) := by
  unfold Ring.nextSlot at hmapped
  simp [execSubmissionRead, hmapped, h.guard, hne, Nat.not_lt.mpr hmost, Nat.not_lt.mpr hposted]

theorem execFetchLost_of_open {st : W16} (h : RingOpen s vd ring) (hposted : 0 < ((s.vd vd).ring ring).unreadSlots)
    (hunmapped : s.ringAddr vd ring ((s.vd vd).ring ring).nextSlot 1 = .error st) :
    execFetchLost vd ring st s = .next (((s.onFe vd fun e => { e with fetchLost := true }).event vd (s.homeSite vd)
      0x06 0 st.toNat).vdException vd 0 st) := by
  unfold Ring.nextSlot at hunmapped
  simp [execFetchLost, hunmapped, h.guard, Nat.ne_of_gt hposted]

section
variable {slot : Nat} {desc : Bytes} {rest : List (Nat × Bytes)} (h : RingOpen s vd ring)
  (hfetched : ((s.vd vd).ring ring).fetched = (slot, desc) :: rest)
  (hreserve : ((s.vd vd).ring ring).canReserve = true) (hplain : bitsAt desc 4 0 0 = 0)
include h hfetched hreserve hplain

/-- Steps 1 to 3 of R339 refuse a descriptor: it enters no queue, and its record is written at once. -/
theorem execDescriptorPlace_of_refused {st : W16}
    (hheader : (s.vd vd).header ring desc (((rest.head?).map (·.2)).getD []) false = .refuse st) :
    execDescriptorPlace vd ring s = .next ((s.passSlots vd ring 1).refuseDesc vd ring slot desc st) := by
  simp [execDescriptorPlace, h.guard, hfetched, hreserve, hplain, hheader]

theorem execDescriptorPlace_of_placed {x : Header}
    (hheader : (s.vd vd).header ring desc (((rest.head?).map (·.2)).getD []) false = x) (hpass : ∀ st, x ≠ .refuse st)
    (hroom : ((s.vd vd).stream (fieldAt desc 2 1)).queue.length < 64) :
    execDescriptorPlace vd ring s =
      .next ((s.passSlots vd ring 1).place vd ring slot desc (((rest.head?).map (·.2)).getD []) false x) := by
  cases x with
  | refuse st => exact absurd rfl (hpass st)
  | bad st d => simp [execDescriptorPlace, h.guard, hfetched, hreserve, hplain, hheader, Nat.not_le.mpr hroom]
  | good => simp [execDescriptorPlace, h.guard, hfetched, hreserve, hplain, hheader, Nat.not_le.mpr hroom]

end

end

/-- Settles O26: on an open ring a row goes by whether the next slot's page is mapped, and by the header checks of the
fetched descriptor. A page is mapped where the ring's address space translates it (R334); that a ring's first mapping
stands from RING_ENABLE on is the model's choice (log entry 4). -/
theorem submissionAndPlacement : Obligations.SubmissionAndPlacement := by
  intro s vd ring h
  refine ⟨fun slots b hne hmost hposted hmapped => ?read, fun st hposted hunmapped => ?lost,
    fun slot desc rest st hfetched hreserve hplain hheader => ?refused,
    fun slot desc rest x hfetched hreserve hplain hheader hpass hroom => ?placed⟩
  case read => exact exec_submissionRead.trans (execSubmissionRead_of_open h hne hmost hposted hmapped)
  case lost => exact exec_fetchLost.trans (execFetchLost_of_open h hposted hunmapped)
  case refused =>
    exact exec_descriptorPlace.trans (execDescriptorPlace_of_refused h hfetched hreserve hplain hheader)
  case placed =>
    exact exec_descriptorPlace.trans (execDescriptorPlace_of_placed h hfetched hreserve hplain hheader hpass hroom)

/-! Fence signals (R342, R387–R389) -/

/-- The signal of an ended command waits to be raised, and its word has been found at spot `p`; `t` is the block after
the search. -/
structure Job.SignalDue (j : Job) (c : CmdRef) (s t : State) (p : Spot) : Prop where
  found : s.job? c = some j
  ended : j.k.phase = .ended
  waiting : j.k.sig = .waiting
  free : j.k.Free
  thawed : (s.vd c.vd).fe.frozen = false
  up : (s.site j.i).up = true
  spot : (({ j with kind := .frontEnd } : Job).find (fieldAt j.k.ext 32 8) 4).run s = (.ok p, t)

section
variable {c : CmdRef} {s t : State} {j : Job} {p : Spot} (h : j.SignalDue c s t p)
include h

/-- The guard of the row of a fence signal lets a due one pass. -/
theorem Job.SignalDue.guard :
    ¬(decide (j.k.phase ≠ .ended) || decide (j.k.sig ≠ .waiting) || !j.k.asks.isEmpty || j.k.hold.isSome ||
      j.k.fault.isSome || (s.vd c.vd).fe.frozen || !(s.site j.i).up) = true := by
  obtain ⟨hasks, hhold, hfault⟩ := h.free
  simp [h.ended, h.waiting, hasks, hhold, hfault, h.thawed, h.up]

/-- A word in a tier of this part is raised by its memory port. -/
theorem execFenceSignal_of_tier {b old : Nat} {u : State} (hcls : p.cls ≠ .host) (hhere : t.here? p.dst = some b)
    (hb : b < 8) (hjoined : t.joined j.i b = true)
    (hraise : t.raiseWord b p.addr j.slot (fieldAt j.k.ext 40 8) = some (.ok old, u)) :
    execFenceSignal c s =
      .next (u.signalled { j with kind := .frontEnd } old (fieldAt j.k.ext 40 8) (fieldAt j.k.ext 32 8)) := by
  simp only [execFenceSignal, h.found, if_neg h.guard, h.spot, if_neg hcls, hhere,
    if_neg (show ¬(8 ≤ b ∨ (!t.joined j.i b) = true) by simp [hb, hjoined]), hraise]

/-- A word in host memory that holds the value already needs no compare-and-swap. -/
theorem execFenceSignal_of_host_reached {w : Bytes} (hcls : p.cls = .host)
    (hatomic : (t.site (t.homeSite c.vd)).atomicOps = true) (hgot : gotRun j.k.got p.addr 8 = some w)
    (hle : fieldAt j.k.ext 40 8 ≤ leNat w) :
    execFenceSignal c s =
      .next (t.signalled { j with kind := .frontEnd } (leNat w) (fieldAt j.k.ext 40 8) (fieldAt j.k.ext 32 8)) := by
  simp only [execFenceSignal, h.found, if_neg h.guard, h.spot, if_pos hcls, hatomic, Bool.not_true, Bool.false_eq_true,
    if_false, hgot, if_pos hle]

/-- A word on another part is raised there, by a FENCE_SIG packet. -/
theorem execFenceSignal_of_far (hcls : p.cls ≠ .host) (hfar : t.here? p.dst = none) :
    execFenceSignal c s =
      .next ((t.onCmd c fun k => { k with
        sig := .sent
        unsent := [{ kind := .fence, dst := p.dst, addr := p.addr, len := 8, slot := j.slot, priv := true
                     payload := leBytes 8 (fieldAt j.k.ext 40 8), epoch := t.epochOf c.vd }] }).pump c) := by
  simp only [execFenceSignal, h.found, if_neg h.guard, h.spot, if_neg hcls, hfar]

end

/-- Settles O28: a due signal goes by where its word lies. -/
theorem fenceSignalRaises : Obligations.FenceSignalRaises := by
  intro c s t j p hj hended hwaiting hfree hthawed hup hspot
  have h : j.SignalDue c s t p := ⟨hj, hended, hwaiting, hfree, hthawed, hup, hspot⟩
  refine ⟨fun b old u hcls hhere hb hjoined hraise => ?tier, fun w hcls hatomic hgot hle => ?host,
    fun hcls hfar => ?far⟩
  case tier => exact exec_fenceSignal.trans (execFenceSignal_of_tier h hcls hhere hb hjoined hraise)
  case host => exact exec_fenceSignal.trans (execFenceSignal_of_host_reached h hcls hatomic hgot hle)
  case far => exact exec_fenceSignal.trans (execFenceSignal_of_far h hcls hfar)

/-! Held accesses and fault entries (R382–R384, R354) -/

section
variable {c : CmdRef} {s : State} {j : Job} {dva : Nat} {access : BitVec 3} (hj : s.job? c = some j)
  (hhold : j.k.hold = some (dva, access.toNat)) (hfault : j.k.fault = none)
include hj hhold hfault

theorem execDvaFault_of_fault {rights : Bool}
    (htr : (s.vd c.vd).sp.translate j.asid dva access.toNat c.id = .fault rights) :
    execDvaFault c dva access (j.bit s) s = .next (s.faulted j dva access.toNat rights) := by
  simp [execDvaFault, hj, hhold, hfault, htr]

/-- An access that the tables satisfy meanwhile is let go, where no host translation still stands in its way. -/
theorem execDvaFault_of_valid (htr : ∀ rights, (s.vd c.vd).sp.translate j.asid dva access.toNat c.id ≠ .fault rights)
    (hats : ((s.vd c.vd).ats && (s.hostAt j dva access.toNat).isSome) = false) :
    execDvaFault c dva access (j.bit s) s = .next (s.onCmd c fun k => { k with hold := none }) := by
  simp only [execDvaFault, hj, hhold, hfault, hats]
  cases hx : (s.vd c.vd).sp.translate j.asid dva access.toNat c.id with
  | fault rights => exact absurd hx (htr rights)
  | _ => simp

end

/-- The fault entries whose records have not been written. -/
def Vd.unwritten (d : Vd) : List FaultEntry := d.sp.faults.filter fun f => !f.written

section
variable {s : State} {vd : Nat} (hup : s.frontUp vd = true)
include hup

section
variable (hthawed : (s.vd vd).fe.frozen = false) (hne : (s.vd vd).unwritten ≠ [])
include hthawed hne

theorem execFaultBatchWrite_of_off (hoff : (s.vd vd).ringsOn = false) :
    execFaultBatchWrite vd s = .next (s.loseBatch vd ((s.vd vd).unwritten.take 64)) := by
  unfold Vd.unwritten at hne ⊢
  simp [execFaultBatchWrite, hup, hthawed, hne, hoff]

theorem execFaultBatchWrite_of_written {t : State} (hon : (s.vd vd).ringsOn = true)
    (hwrite : writeBatch vd ((s.vd vd).unwritten.take 64) s = .ok t) : execFaultBatchWrite vd s = .next t := by
  unfold Vd.unwritten at hne hwrite
  simp [execFaultBatchWrite, hup, hthawed, hne, hon, hwrite]

end

theorem execFaultRingFullExpiry_of_full (hfull : (s.vd vd).fe.fqFull.isSome = true) (hne : (s.vd vd).unwritten ≠ []) :
    execFaultRingFullExpiry vd s = .next (s.loseBatch vd ((s.vd vd).unwritten.take 64)) := by
  unfold Vd.unwritten at hne ⊢
  simp [execFaultRingFullExpiry, hup, Option.isNone_eq_false_iff.mpr hfull, hne]

theorem execFaultEntryExpiry_of_written {fid : Nat} {f : FaultEntry}
    (hfind : (s.vd vd).sp.faults.find? (fun f => decide (f.fid = fid)) = some f) (hwritten : f.written = true) :
    execFaultEntryExpiry vd fid s = .next (s.failEntry vd f) := by
  simp only [execFaultEntryExpiry, hfind, hwritten, hup, Bool.and_self, if_true]

/-! Releases (R370) -/

theorem execRelease_of_mayRelease {n : Nat} {o : Obj} (ho : (s.vd vd).sp.obj? n = some o) (hfirst : o.withdrawn = false)
    (hmay : (s.vd vd).mayRelease o = true) (hthawed : (s.vd vd).fe.frozen = false) :
    execRelease vd n s = .next (s.startRelease vd n o) := by
  simp [execRelease, ho, hup, hfirst, hmay, hthawed]

theorem execReleaseWaitExpiry_of_withdrawn {n : Nat} {o : Obj} (ho : (s.vd vd).sp.obj? n = some o)
    (hwithdrawn : o.withdrawn = true) (hwait : o.waitTe = true)
    (hquiet : ((s.vd vd).sp.invals.any fun x => decide (x.obj = some n)) = false) :
    execReleaseWaitExpiry vd n s = .next (s.released vd o) := by
  simp only [execReleaseWaitExpiry, ho, hup, hwithdrawn, hwait, hquiet, Bool.not_true, Bool.or_self, Bool.false_eq_true,
    if_false]

end

/-! Invalidations (R385, R386) -/

section
variable {s : State} {vd : Nat}

section
variable {k : Nat} {x : Inval} (hfind : (s.vd vd).sp.invals.find? (fun x => decide (x.k = k)) = some x)
include hfind

theorem execInvalidationAck_of_drained (hdrained : s.oldTransfers vd x.epoch = false) (hcmd : x.cmd = none) :
    execInvalidationAck vd k s = .next (s.acknowledged vd x) := by
  simp only [execInvalidationAck, hfind, hdrained, hcmd, Bool.or_self, Bool.false_eq_true, if_false]

theorem execInvalidationDrain_of_held (hheld : s.oldTransfers vd x.epoch = true) :
    execInvalidationDrain vd k s = .next (s.killOlder vd x) := by
  simp only [execInvalidationDrain, hfind, hheld, Bool.not_true, Bool.false_eq_true, if_false]

end

theorem execAtsInvalidation_of_ats {bus len : Nat} (hlive : (s.vd vd).live = true) (hats : (s.vd vd).ats = true)
    (hroom : (s.vd vd).sp.invals.length < 4) :
    execAtsInvalidation vd bus len s = .next (s.invalidate vd none none (some (bus, len))) :=
  congrArg Host.Outcome.next (if_pos ⟨hlive, hats, hroom⟩)

end

/-- Settles O32: each row's guard lets it pass, and its match takes the branch that the hypotheses name. -/
theorem translationEvents : Obligations.TranslationEvents := by
  intro s vd
  refine ⟨fun c j dva access rights hj hhold hfault htr => ?faults,
    fun c j dva access hj hhold hfault htr hats => ?letGo, fun hup hthawed hne hoff => ?lost,
    fun t hup hthawed hne hon hwrite => ?written, fun hup hfull hne => ?ringFull,
    fun fid f hfind hwritten hup => ?expires, fun k x hfind hdrained hcmd => ?acknowledged,
    fun k x hfind hheld => ?drain, fun bus len hlive hats hroom => ?ats,
    fun n o ho hup hfirst hmay hthawed => ?release, fun n o ho hup hwithdrawn hwait hquiet => ?waited⟩
  case faults => exact exec_dvaFault.trans (execDvaFault_of_fault hj hhold hfault htr)
  case letGo => exact exec_dvaFault.trans (execDvaFault_of_valid hj hhold hfault htr hats)
  case lost => exact exec_faultBatchWrite.trans (execFaultBatchWrite_of_off hup hthawed hne hoff)
  case written => exact exec_faultBatchWrite.trans (execFaultBatchWrite_of_written hup hthawed hne hon hwrite)
  case ringFull => exact exec_faultRingFullExpiry.trans (execFaultRingFullExpiry_of_full hup hfull hne)
  case expires => exact exec_faultEntryExpiry.trans (execFaultEntryExpiry_of_written hup hfind hwritten)
  case acknowledged => exact exec_invalidationAck.trans (execInvalidationAck_of_drained hfind hdrained hcmd)
  case drain => exact exec_invalidationDrain.trans (execInvalidationDrain_of_held hfind hheld)
  case ats => exact exec_atsInvalidation.trans (execAtsInvalidation_of_ats hlive hats hroom)
  case release => exact exec_release.trans (execRelease_of_mayRelease hup ho hfirst hmay hthawed)
  case waited =>
    exact exec_releaseWaitExpiry.trans (execReleaseWaitExpiry_of_withdrawn hup ho hwithdrawn hwait hquiet)

end Sys2Proof.Machine

/-! The host port: what the host answers to a command's accesses, the requests that reach the configuration space of
the port's functions, and the resets that come through the port (R382, R496, R548, R594, R595). -/

namespace Sys2Proof.Machine

/-! What the host answers (R382, R594) -/

/-- The read a command has outstanding at a bus address. Keys from 2^64 on name fabric addresses (`fabKey`). -/
def Cmd.hostAsk? (k : Cmd) (bus : Nat) : Option Ask :=
  k.asks.find? fun a => decide (a.key = bus) && decide (bus < 2 ^ 64)

section
variable {c : CmdRef} {s : State} {k : Cmd} (hk : s.cmd? c = some k)
include hk

section
variable {bus : Nat} {a : Ask} {data : Bytes} (hask : k.hostAsk? bus = some a)
include hask

theorem execHostCompletion_of_success (hlen : data.length = a.len) :
    execHostCompletion c .success bus data s =
      .next (s.onCmd c fun k => { k with asks := k.asks.erase a, got := (bus, data) :: k.got }) := by
  unfold Cmd.hostAsk? at hask
  simp only [execHostCompletion, hk, Option.bind_some, hask, hostStatus]
  exact congrArg Host.Outcome.next (if_neg (not_not.mpr hlen))

theorem execHostCompletion_of_failure {st : HostStatus} {x : W16} (hst : hostStatus st = some x) :
    execHostCompletion c st bus data s = .next (s.failAccess c x 0) := by
  unfold Cmd.hostAsk? at hask
  simp only [execHostCompletion, hk, Option.bind_some, hask, hst]

end

theorem execHostCompletionTimeout_of_waiting (hwait : (k.asks.any fun a => decide (a.key < 2 ^ 64)) = true) :
    execHostCompletionTimeout c s = .next (s.failAccess c stHostError 0) := by
  simp only [execHostCompletionTimeout, hk, hwait, if_true]

end

/-- The answer to a page request decides whether the held access goes on or becomes a fault. -/
theorem execPageRequestResponse_of_hold {c : CmdRef} {s : State} {j : Job} {dva need : Nat} {ok : Bool}
    (hj : s.job? c = some j) (hhold : j.k.hold = some (dva, need)) (hpri : (s.vd c.vd).pri = true)
    (hfault : j.k.fault = none) (hhost : (s.hostAt j dva need).isSome = true) :
    execPageRequestResponse c ok s =
      .next (if ok then s.onCmd c fun k => { k with hold := none } else s.faulted j dva need false) := by
  have hguard : ¬(!(s.vd c.vd).pri || j.k.fault.isSome || (s.hostAt j dva need).isNone) = true := by
    simp [hpri, hfault, Option.isNone_eq_false_iff.mpr hhost]
  simp only [execPageRequestResponse, hj, hhold, if_neg hguard]

/-- Settles O33: the command has the access outstanding, so each row goes by what the host answered. -/
theorem hostAnswers : Obligations.HostAnswers := by
  intro c s k hk
  refine ⟨fun bus a data hask hlen => ?arrives, fun bus a data st x hask hst => ?fails, fun hwait => ?timeout,
    fun j dva need hj hhold hpri hfault hhost => ⟨?granted, ?denied⟩⟩
  case arrives => exact exec_hostCompletion.trans (execHostCompletion_of_success hk hask hlen)
  case fails => exact exec_hostCompletion.trans (execHostCompletion_of_failure hk hask hst)
  case timeout => exact exec_hostCompletionTimeout.trans (execHostCompletionTimeout_of_waiting hk hwait)
  case granted => exact exec_pageRequestResponse.trans (execPageRequestResponse_of_hold hj hhold hpri hfault hhost)
  case denied => exact exec_pageRequestResponse.trans (execPageRequestResponse_of_hold hj hhold hpri hfault hhost)

/-! Configuration requests (R382, R447, R548, R595) -/

/-- The state of a site's host link (R547). -/
def Site.hostLinkState (t : Site) : Nat := t.fld rHifLink Fld.hifLinkState

theorem Site.hostLink_not_below_two {t : Site} (hlink : 2 ≤ t.hostLinkState) :
    decide (t.fld rHifLink Fld.hifLinkState < 2) = false :=
  decide_eq_false (Nat.not_lt.mpr hlink)

/-- After the end of start-up, with a lead, no request is answered with a retry status. -/
theorem not_configurationRetry {s : State} {i : Nat} (hlink : 2 < (s.site i).hostLinkState)
    (hlead : s.part.lead.isSome = true) :
    ¬((s.site i).fld rHifLink Fld.hifLinkState = 2 ∨ s.part.lead.isNone = true) :=
  not_or.mpr ⟨Nat.ne_of_gt hlink, by simp [Option.isNone_eq_false_iff.mpr hlead]⟩

section
variable {s : State} {i : Nat} (hm : (s.site i).managed = true) (hdom : (s.site i).domUp 18 = true)
include hm hdom

section
variable (hperst : (s.site i).pins.perstN = true)
include hperst

/-- The guard of CONFIGURATION_REQUEST lets a request at a port whose link is up pass. -/
theorem configurationRequest_guard (hlink : 2 ≤ (s.site i).hostLinkState) :
    ¬(!(s.site i).managed || !(s.site i).pins.perstN || !(s.site i).domUp 18 ||
      decide ((s.site i).fld rHifLink Fld.hifLinkState < 2)) = true := by
  simp only [hm, hdom, hperst, Site.hostLink_not_below_two hlink, Bool.not_true, Bool.or_self, Bool.false_eq_true,
    not_false_eq_true]

theorem execConfigurationRequest_of_retry {fn : Nat} {r : CfgReq} (hlink : 2 ≤ (s.site i).hostLinkState)
    (hearly : (s.site i).hostLinkState = 2 ∨ s.part.lead = none) :
    execConfigurationRequest i fn r s = .next (s.emit (.cfgReply i fn true 0)) := by
  have hearly : (s.site i).fld rHifLink Fld.hifLinkState = 2 ∨ s.part.lead.isNone = true :=
    hearly.imp_right Option.isNone_iff_eq_none.mpr
  exact congrArg Host.Outcome.next ((if_neg (configurationRequest_guard hm hdom hperst hlink)).trans (if_pos hearly))

section
variable (hlink : 2 < (s.site i).hostLinkState) (hlead : s.part.lead.isSome = true)
include hlink hlead

theorem execConfigurationRequest_read {fn n : Nat} : execConfigurationRequest i fn (.read n) s =
    .next (s.draw.2.emit (.cfgReply i fn false (s.draw.1.truncate 32))) :=
  congrArg Host.Outcome.next ((if_neg (configurationRequest_guard hm hdom hperst hlink.le)).trans
    (if_neg (not_configurationRetry hlink hlead)))

theorem execConfigurationRequest_atsEnable {fn v : Nat} {on : Bool} (hv : s.vdOf i fn = some v) :
    execConfigurationRequest i fn (.atsEnable on) s =
      .next ((s.configured v ((s.vd v).ats != on) fun d => { d with ats := on }).emit (.cfgReply i fn false 0)) := by
  simp only [execConfigurationRequest, hv, if_neg (configurationRequest_guard hm hdom hperst hlink.le),
    if_neg (not_configurationRetry hlink hlead)]

/-- AtomicOp Requester Enable is the PF's, function 0 (R595). -/
theorem execConfigurationRequest_atomicOpEnable {on : Bool} :
    execConfigurationRequest i 0 (.atomicOpEnable on) s =
      .next ((s.onSite i fun t => { t with atomicOps := on }).emit (.cfgReply i 0 false 0)) :=
  congrArg Host.Outcome.next ((if_neg (configurationRequest_guard hm hdom hperst hlink.le)).trans
    (if_neg (not_configurationRetry hlink hlead)))

end

end

/-! Resets through the port (R496, R511, R548) -/

section
variable (hlink : 2 ≤ (s.site i).hostLinkState)
include hlink

/-- The guard of FUNCTION_LEVEL_RESET lets a reset at a port whose link is up pass. -/
theorem functionLevelReset_guard : ¬(!(s.site i).managed || !(s.site i).domUp 18 ||
    decide ((s.site i).fld rHifLink Fld.hifLinkState < 2)) = true := by
  simp only [hm, hdom, Site.hostLink_not_below_two hlink, Bool.not_true, Bool.or_self, Bool.false_eq_true,
    not_false_eq_true]

/-- The port's virtual devices reset in turn, and AtomicOp Requester Enable cleared. -/
def State.flrPort (s : State) (i : Nat) : State :=
  ((s.vdsOn i).foldl (fun s v => s.flr v) s).onSite i fun t => { t with atomicOps := false }

theorem execFunctionLevelReset_of_pf : execFunctionLevelReset i 0 s = .next
    ((if (s.flrPort i).part.lead = some i then (s.flrPort i).onRings fun g => { g with on := false }
      else s.flrPort i).freeBoxes i 0x01) :=
  congrArg Host.Outcome.next ((if_neg (functionLevelReset_guard hm hdom hlink)).trans (if_pos rfl))

theorem execFunctionLevelReset_of_vf {fn v : Nat} (hfn : fn ≠ 0) (hv : s.vdOf i fn = some v) :
    execFunctionLevelReset i fn s = .next (s.flr v) := by
  simp only [execFunctionLevelReset, if_neg (functionLevelReset_guard hm hdom hlink), if_neg hfn, hv]

end

theorem execHotReset_of_link (hlink : (s.site i).hostLinkState ≠ 0) :
    execHotReset i s = .next ((s.resetLink i).freeBoxes i 0x01) := by
  have hguard : ¬(!(s.site i).managed || !(s.site i).domUp 18 ||
      decide ((s.site i).fld rHifLink Fld.hifLinkState = 0)) = true := by
    unfold Site.hostLinkState at hlink
    simp [hm, hdom, hlink]
  exact congrArg Host.Outcome.next (if_neg hguard)

theorem execHipPerstN_rise (hlow : (s.site i).pins.perstN = false) :
    execHipPerstN i true s = .next ((s.onPins i fun p => { p with perstN := true }).hostLink i) := by
  have hchange : ¬(s.site i).pins.perstN = true := by simp [hlow]
  simp only [execHipPerstN, if_neg (managed_guard hm), if_neg hchange, if_true, if_pos hdom]

end

theorem execHipPerstN_fall {s : State} {i : Nat} (hm : (s.site i).managed = true)
    (hhigh : (s.site i).pins.perstN = true) : execHipPerstN i false s =
      .next (((s.onPins i fun p => { p with perstN := false }).resetLink i).setFld i rHifLink Fld.hifLinkPerst 1) := by
  have hchange : ¬(s.site i).pins.perstN = false := by simp [hhigh]
  simp only [execHipPerstN, if_neg (managed_guard hm), if_neg hchange, Bool.false_eq_true, if_false]

/-- Settles O49: each row's guard lets it pass, and a request or a reset then goes by the state of start-up and by the
function it names. What a read returns is a free value (log entry 6); what the reset of the PF takes with it follows the
PCIe base specification where R548 gives no more (log entry 65). -/
theorem hostPort : Obligations.HostPort := by
  intro s i hm hdom
  refine ⟨fun fn r hperst hlink hearly => ?retry,
    fun fn hperst hlink hlead => ⟨fun n => ?read, fun v on hv => ?atsEnable⟩,
    fun on hperst hlink hlead => ?atomicOpEnable, fun t hlink ht => ?pf, fun fn v hfn hlink hv => ?vf,
    fun hhigh => ?fall, fun hlow => ?rise, fun hlink => ?hotReset⟩
  case retry =>
    exact exec_configurationRequest.trans (execConfigurationRequest_of_retry hm hdom hperst hlink hearly)
  case read => exact exec_configurationRequest.trans (execConfigurationRequest_read hm hdom hperst hlink hlead)
  case atsEnable =>
    exact exec_configurationRequest.trans (execConfigurationRequest_atsEnable hm hdom hperst hlink hlead hv)
  case atomicOpEnable =>
    exact exec_configurationRequest.trans (execConfigurationRequest_atomicOpEnable hm hdom hperst hlink hlead)
  case pf =>
    subst ht
    exact exec_functionLevelReset.trans (execFunctionLevelReset_of_pf hm hdom hlink)
  case vf => exact exec_functionLevelReset.trans (execFunctionLevelReset_of_vf hm hdom hlink hfn hv)
  case fall => exact exec_hipPerstN.trans (execHipPerstN_fall hm hhigh)
  case rise => exact exec_hipPerstN.trans (execHipPerstN_rise hm hdom hlow)
  case hotReset => exact exec_hotReset.trans (execHotReset_of_link hm hdom hlink)

end Sys2Proof.Machine

/-! The management commands that shape slices, units and power: how the row of a management command ends (R479, R483),
and the end of each row. -/

namespace Sys2Proof.Machine

/-! Rows of a management command -/

section
variable {m : MgmtRun} {op : Nat} {bad : Bytes → Bool} {s t : State} {r : MReq} {body : MReq → MEnd}

theorem MgmtReady.mreq?_eq (h : MgmtReady m op bad s r) : s.mreq? m op = some r := h.1

/-- A ready request waits neither for the lead nor for an earlier request (R479). -/
theorem MgmtReady.not_waiting (h : MgmtReady m op bad s r) : ¬(!s.answers || s.behind r) = true := by
  obtain ⟨-, hanswers, hbehind, -⟩ := h
  simp [hanswers, hbehind]

/-- The packet of a ready request was checked when its command started, or passes the check now (R483). -/
theorem MgmtReady.not_malformed (h : MgmtReady m op bad s r) : ¬(!r.started && bad r.pkt) = true := by
  obtain ⟨-, -, -, hstarted | hgood⟩ := h
  · simp [hstarted]
  · simp [hgood]

/-- A command that ends replies in the state it leaves, with the status and the result it ends with. -/
theorem mgmtRow_of_done {st : W16} {b : Bytes} (h : MgmtReady m op bad s r) (hend : body r = .done t st b) :
    mgmtRow m op s bad body = .next (t.reply r st b) := by
  simp only [mgmtRow, h.mreq?_eq, if_neg h.not_waiting, if_neg h.not_malformed, hend]

/-- A command that takes longer is marked as started and its reply is left open. -/
theorem mgmtRow_of_later (h : MgmtReady m op bad s r) (hend : body r = .later t) :
    mgmtRow m op s bad body = .next (t.begin r) := by
  simp only [mgmtRow, h.mreq?_eq, if_neg h.not_waiting, if_neg h.not_malformed, hend]

end

/-- Settles O51: every row is `mgmtRow` of its command's check and end, which a ready request runs. -/
theorem managementShape : Obligations.ManagementShape := fun _ _ _ _ _ =>
  ⟨fun h hend => exec_sliceCreate.trans (mgmtRow_of_done h hend),
    fun h hend => exec_sliceDestroy.trans (mgmtRow_of_later h hend),
    fun h hend => exec_unitBind.trans (mgmtRow_of_done h hend),
    fun h hend => exec_unitUnbind.trans (mgmtRow_of_done h hend),
    fun h hend => exec_unitUnbind.trans (mgmtRow_of_later h hend),
    fun h hend => exec_unitMove.trans (mgmtRow_of_done h hend),
    fun h hend => exec_unitMove.trans (mgmtRow_of_later h hend),
    fun h hend => exec_allotSet.trans (mgmtRow_of_done h hend),
    fun h hend => exec_schedSet.trans (mgmtRow_of_done h hend),
    fun h hend => exec_coreMode.trans (mgmtRow_of_done h hend),
    fun h hend => exec_coreMode.trans (mgmtRow_of_later h hend),
    fun h hend => exec_labelSet.trans (mgmtRow_of_done h hend),
    fun h hend => exec_shareSet.trans (mgmtRow_of_done h hend),
    fun h hend => exec_guardSet.trans (mgmtRow_of_done h hend),
    fun h hend => exec_mcastRange.trans (mgmtRow_of_done h hend),
    fun h hend => exec_loftBudget.trans (mgmtRow_of_done h hend),
    fun h hend => exec_lendSet.trans (mgmtRow_of_done h hend),
    fun h hend => exec_coreState.trans (mgmtRow_of_done h hend),
    fun h hend => exec_coreState.trans (mgmtRow_of_later h hend),
    fun h hend => exec_memportState.trans (mgmtRow_of_done h hend),
    fun h hend => exec_memportState.trans (mgmtRow_of_later h hend),
    fun h hend => exec_linkState.trans (mgmtRow_of_done h hend),
    fun h hend => exec_linkState.trans (mgmtRow_of_later h hend),
    fun h hend => exec_linkEnable.trans (mgmtRow_of_done h hend)⟩

end Sys2Proof.Machine

/-! The step of a queue with a command in front, the care commands of the management (spec/12 management interrupts.md)
and the numbers of the reset domains (spec/13 faults recovery.md). -/

namespace Sys2Proof.Machine

/-- Settles O1: the queue with a command in front is not empty, and the command runs on the rest of it. -/
theorem frontCommandRuns : Obligations.FrontCommandRuns := fun _ _ => rfl

/-- Settles O52: every row is `mgmtRow` of its command's check and end, which a ready request runs. What POLICY_SET does
follows R243. -/
theorem managementCare : Obligations.ManagementCare := fun _ _ _ _ _ =>
  ⟨fun h hend => exec_reset.trans (mgmtRow_of_done h hend),
    fun h hend => exec_reset.trans (mgmtRow_of_later h hend),
    fun h hend => exec_escalateSet.trans (mgmtRow_of_done h hend),
    fun h hend => exec_healthGet.trans (mgmtRow_of_done h hend),
    fun h hend => exec_fwStage.trans (mgmtRow_of_done h hend),
    fun h hend => exec_fwActivate.trans (mgmtRow_of_later h hend),
    fun h hend => exec_fwCommit.trans (mgmtRow_of_done h hend),
    fun h hend => exec_fwDiscard.trans (mgmtRow_of_done h hend),
    fun h hend => exec_fwInfo.trans (mgmtRow_of_done h hend),
    fun h hend => exec_attState.trans (mgmtRow_of_done h hend),
    fun h hend => exec_attMeasure.trans (mgmtRow_of_done h hend),
    fun h hend => exec_attReport.trans (mgmtRow_of_done h hend),
    fun h hend => exec_policySet.trans (mgmtRow_of_done h hend),
    fun h hend => exec_pageRetire.trans (mgmtRow_of_done h hend),
    fun h hend => exec_pageRetire.trans (mgmtRow_of_later h hend),
    fun h hend => exec_chEvacuate.trans (mgmtRow_of_done h hend),
    fun h hend => exec_chEvacuate.trans (mgmtRow_of_later h hend),
    fun h hend => exec_chReturn.trans (mgmtRow_of_done h hend),
    fun h hend => exec_weightAllot.trans (mgmtRow_of_done h hend),
    fun h hend => exec_weightLoad.trans (mgmtRow_of_done h hend),
    fun h hend => exec_weightCopy.trans (mgmtRow_of_done h hend),
    fun h hend => exec_weightGrant.trans (mgmtRow_of_done h hend),
    fun h hend => exec_weightRevoke.trans (mgmtRow_of_done h hend),
    fun h hend => exec_weightRevoke.trans (mgmtRow_of_later h hend),
    fun h hend => exec_weightFree.trans (mgmtRow_of_done h hend),
    fun h hend => exec_portgroupReset.trans (mgmtRow_of_later h hend),
    fun h hend => exec_chTest.trans (mgmtRow_of_done h hend),
    fun h hend => exec_logLevel.trans (mgmtRow_of_done h hend),
    fun h hend => exec_migrateFreeze.trans (mgmtRow_of_done h hend),
    fun h hend => exec_migrateFreeze.trans (mgmtRow_of_later h hend),
    fun h hend => exec_migratePeer.trans (mgmtRow_of_done h hend),
    fun h hend => exec_migrateSave.trans (mgmtRow_of_done h hend),
    fun h hend => exec_migrateRestore.trans (mgmtRow_of_done h hend),
    fun h hend => exec_migrateCommit.trans (mgmtRow_of_done h hend),
    fun h hend => exec_migrateCancel.trans (mgmtRow_of_done h hend),
    fun h hend => exec_migrateThaw.trans (mgmtRow_of_done h hend),
    fun h hend => exec_spareIn.trans (mgmtRow_of_done h hend),
    fun h hend => exec_healthCheck.trans (mgmtRow_of_done h hend),
    fun h hend => exec_spareGet.trans (mgmtRow_of_done h hend)⟩

/-- Settles O60: a reset command's kind and index name the domain when the index is below the kind's count, which is the
range of R512. The kinds' numbers are those of R485, and every link stands in the fabric port group's domain (R510,
R581). -/
theorem domainNumbers : Obligations.DomainNumbers :=
  ⟨fun _ hp => ⟨rfl, if_pos hp, rfl⟩, fun _ hc => ⟨rfl, if_pos hc⟩, fun _ hp => ⟨rfl, if_pos hp, rfl⟩,
    fun _ hj => ⟨rfl, if_pos hj⟩, rfl, fun _ => rfl, rfl⟩

end Sys2Proof.Machine

/-! The mailboxes, the interrupt sources and the management rings (spec/12 management interrupts.md): a row of a managed
site passes its guard, and goes by the state of the mailbox, the source or the ring it names. -/

namespace Sys2Proof.Machine

/-! Mailboxes (R493–R496, R557) -/

section
variable {s : State} {i box : Nat} {agent : Byte} (hm : (s.site i).managed = true) (hbox : box < 16)
include hm hbox

/-- The guard shared by the accesses to a mailbox lets them pass. -/
theorem mailbox_guard : ¬(!(s.site i).managed || decide (16 ≤ box)) = true := by simp [hm, hbox]

theorem execMbxLock_of_managed : execMbxLock i agent box s =
    .next (if ((s.site i).box box).state = .free
      then State.onBox { s with rd := ((s.site i).boxHolder box).zeroExtend 64 } i box fun b =>
        { b with state := .held agent }
      else { s with rd := ((s.site i).boxHolder box).zeroExtend 64 }) :=
  congrArg Host.Outcome.next (if_neg (mailbox_guard hm hbox))

theorem execMbxData_of_managed {w : Nat} {value : W32} (hw : w < 16) : execMbxData i agent box w value s =
    .next (if ((s.site i).box box).state = .held agent then s.onBox i box fun b => { b with data := b.data.set w value }
      else s.boxRefuses i box agent) := by
  have hguard : ¬(!(s.site i).managed || decide (16 ≤ box) || decide (16 ≤ w)) = true := by simp [hm, hbox, hw]
  exact congrArg Host.Outcome.next (if_neg hguard)

section
variable {value : W32} (hgo : bitOf value 0 = true)
include hgo

/-- The guard shared by the two writes that act by their bit 0 lets them pass. -/
theorem mailboxGo_guard : ¬(!(s.site i).managed || decide (16 ≤ box) || !bitOf value 0) = true := by
  simp [hm, hbox, hgo]

theorem execMbxDoorbell_of_managed : execMbxDoorbell i agent box value s =
    .next (if ((s.site i).box box).state = .held agent
      then (s.onBox i box fun b => { b with state := .delivered }).tellBox i box else s.boxRefuses i box agent) :=
  congrArg Host.Outcome.next (if_neg (mailboxGo_guard hm hbox hgo))

theorem execMbxFree_of_managed : execMbxFree i agent box value s =
    .next (if ((s.site i).box box).state ≠ .free ∧ (s.site i).boxHolder box = agent
      then (s.freeBox i box).flushReplies else s.boxRefuses i box agent) :=
  congrArg Host.Outcome.next (if_neg (mailboxGo_guard hm hbox hgo))

end

end

/-- ENTDAA is answered by a target without an address (R557). -/
theorem execEntdaa_of_unaddressed {s : State} {i : Nat} {addr : BitVec 7} (hnone : (s.site i).pins.i3cAddr = none) :
    execEntdaa i addr s = .next (s.giveAddr i addr) :=
  congrArg Host.Outcome.next (if_neg (by simp [hnone]))

/-- Settles O53: each access passes its guard and goes by the state of the mailbox and by the agent. -/
theorem mailboxes : Obligations.Mailboxes := by
  intro s i box agent hm hbox
  refine ⟨fun hfree => ?lockFree, fun htaken => ?lockTaken, fun w value hw hheld => ?data,
    fun w value hw hother => ?dataRefused, fun value hgo hheld => ?doorbell, fun value hgo hother => ?doorbellRefused,
    fun value hgo htaken hholder => ?free, fun value hgo hother => ?freeRefused, ?targetReset,
    fun addr hnone => ?entdaa, fun addr => ?setdasa⟩
  case lockFree => rw [exec_mbxLock, execMbxLock_of_managed hm hbox, if_pos hfree]
  case lockTaken => rw [exec_mbxLock, execMbxLock_of_managed hm hbox, if_neg htaken]
  case data => rw [exec_mbxData, execMbxData_of_managed hm hbox hw, if_pos hheld]
  case dataRefused => rw [exec_mbxData, execMbxData_of_managed hm hbox hw, if_neg hother]
  case doorbell => rw [exec_mbxDoorbell, execMbxDoorbell_of_managed hm hbox hgo, if_pos hheld]
  case doorbellRefused => rw [exec_mbxDoorbell, execMbxDoorbell_of_managed hm hbox hgo, if_neg hother]
  case free => rw [exec_mbxFree, execMbxFree_of_managed hm hbox hgo, if_pos ⟨htaken, hholder⟩]
  case freeRefused => rw [exec_mbxFree, execMbxFree_of_managed hm hbox hgo, if_neg hother]
  case targetReset => exact exec_targetReset.trans (congrArg Host.Outcome.next (if_pos hm))
  case entdaa => exact exec_entdaa.trans (execEntdaa_of_unaddressed hnone)
  case setdasa => exact exec_setdasa

/-! Interrupt sources (R497–R502, R507) -/

section
variable {s : State} {i : Nat} (hm : (s.site i).managed = true)
include hm

/-- A source below 0x40 belongs to one processor, the others are shared (R497). -/
theorem execSourceEdge_of_named {proc n : Nat} (hnamed : srcNamed proc n = true) :
    execSourceEdge i proc n s = .next (if n < 0x40 then s.raisePriv i proc n else s.raiseSrc i n) := by
  have hguard : ¬(!(s.site i).managed || !srcNamed proc n) = true := by simp [hm, hnamed]
  exact congrArg Host.Outcome.next (if_neg hguard)

theorem execIrqCoalesceExpiry_of_undelivered {n : Nat} (hlo : 0x40 ≤ n) (hhi : n ≤ 0xFFE)
    (hpend : (s.site i).fld (rIrqSrc (n - 0x40)) Fld.irqSrcPend ≠ 0)
    (hen : (s.site i).fld (rIrqSrc (n - 0x40)) Fld.irqSrcEn ≠ 0)
    (hnew : (s.site i).watch.delivered.contains n = false) :
    execIrqCoalesceExpiry i n s = .next (s.deliverSrc i n) := by
  have hguard : ¬(!(s.site i).managed || decide (n < 0x40) || decide (0xFFE < n) ||
      decide ((s.site i).fld (rIrqSrc (n - 0x40)) Fld.irqSrcPend = 0) ||
      decide ((s.site i).fld (rIrqSrc (n - 0x40)) Fld.irqSrcEn = 0) ||
      (s.site i).watch.delivered.contains n) = true := by
    simp only [hm, hnew, decide_eq_false (Nat.not_lt.mpr hlo), decide_eq_false (Nat.not_lt.mpr hhi),
      decide_eq_false hpend, decide_eq_false hen, Bool.not_true, Bool.or_self, Bool.false_eq_true, not_false_eq_true]
  exact congrArg Host.Outcome.next (if_neg hguard)

section
variable {proc : Nat} (hproc : proc < 4)
include hproc

/-- The guard shared by the accesses of a processor to its interrupt registers lets them pass. -/
theorem processor_guard : ¬(!(s.site i).managed || decide (4 ≤ proc)) = true := by simp [hm, hproc]

theorem execIrqClaim_priv {n : Nat} (hpriv : (s.site i).claimPriv proc = some n) :
    execIrqClaim i proc s = .next (s.claimedPriv i proc n) := by
  simp only [execIrqClaim, if_neg (processor_guard hm hproc), hpriv]

theorem execIrqClaim_shared {n : Nat} (hpriv : (s.site i).claimPriv proc = none)
    (hshared : (s.site i).claimShared proc = some n) : execIrqClaim i proc s = .next (s.claimedShared i n) := by
  simp only [execIrqClaim, if_neg (processor_guard hm hproc), hpriv, hshared]

theorem execIrqClaim_none (hpriv : (s.site i).claimPriv proc = none) (hshared : (s.site i).claimShared proc = none) :
    execIrqClaim i proc s = .next { s with rd := 0xFFF } := by
  simp only [execIrqClaim, if_neg (processor_guard hm hproc), hpriv, hshared]

theorem execIrqIpi_of_managed {value : W32} : execIrqIpi i proc value s =
    .next ((List.range 4).foldl (fun s j => if bitOf value j then s.raisePriv i j (4 + proc) else s) s) :=
  congrArg Host.Outcome.next (if_neg (processor_guard hm hproc))

end

end

/-- Settles O54: each row passes its guard; an edge goes by the range of the source's number, and a claim by what the
processor has pending. -/
theorem interruptSources : Obligations.InterruptSources := by
  intro s i hm
  refine ⟨fun proc n hnamed hn => ?edgePriv, fun proc n hnamed hn => ?edgeShared,
    fun n hlo hhi hpend hen hnew => ?coalesce, fun proc n hproc hpriv => ?claimPriv,
    fun proc n hproc hpriv hshared => ?claimShared, fun proc hproc hpriv hshared => ?claimNone,
    fun proc value hproc => ?ipi⟩
  case edgePriv => rw [exec_sourceEdge, execSourceEdge_of_named hm hnamed, if_pos hn]
  case edgeShared => rw [exec_sourceEdge, execSourceEdge_of_named hm hnamed, if_neg (Nat.not_lt.mpr hn)]
  case coalesce =>
    exact exec_irqCoalesceExpiry.trans (execIrqCoalesceExpiry_of_undelivered hm hlo hhi hpend hen hnew)
  case claimPriv => exact exec_irqClaim.trans (execIrqClaim_priv hm hproc hpriv)
  case claimShared => exact exec_irqClaim.trans (execIrqClaim_shared hm hproc hpriv hshared)
  case claimNone => exact exec_irqClaim.trans (execIrqClaim_none hm hproc hpriv hshared)
  case ipi => exact exec_irqIpi.trans (execIrqIpi_of_managed hm hproc)

/-! Management rings (R329, R477–R479, R483, R491, R532, R533) -/

/-- The rings as a setting of ENABLE that passes the checks starts them, at entry 0 (R478). -/
def State.startRings (s : State) (value : W32) : State :=
  s.onRings fun g => { g with
    on := true, err := false, reqLog2 := bitsOf value 3 0, rplLog2 := bitsOf value 11 8, fltLog2 := bitsOf value 19 16
    reqTail := 0, reqHead := 0, rplHead := 0, rplPos := 0, rplPhase := true, fltHead := 0, fltPos := 0
    fltPhase := true }

/-- The rings as a setting of ENABLE that fails the checks leaves them (R478). -/
def State.ringsErr (s : State) (value : W32) : State :=
  s.onRings fun g => { g with
    err := true, reqLog2 := bitsOf value 3 0, rplLog2 := bitsOf value 11 8, fltLog2 := bitsOf value 19 16 }

/-- The sizes that a write of MBX_MR gives pass the checks of R329. -/
def MgmtRings.takes (g : MgmtRings) (value : W32) : Bool :=
  g.mayStart (bitsOf value 19 16) (bitsOf value 11 8) (bitsOf value 3 0)

/-- The free entries of the fault ring (R532). -/
def MgmtRings.fltRoom (g : MgmtRings) : Nat :=
  2 ^ g.fltLog2 - 1 - (g.fltPos + 2 ^ g.fltLog2 - g.fltHead) % 2 ^ g.fltLog2

section
variable {s : State} (hlead : s.part.lead.isSome = true)
include hlead

theorem lead_guard : ¬s.part.lead.isNone = true := by simp [Option.isNone_eq_false_iff.mpr hlead]

theorem execManagementRingEnable_of_off {value : W32} (hoff : s.part.rings.on = false) (hgo : bitOf value 31 = true) :
    execManagementRingEnable value s =
      .next (if s.part.rings.takes value then (s.startRings value).flushReplies else s.ringsErr value) := by
  have hguard : ¬(s.part.lead.isNone || s.part.rings.on || !bitOf value 31) = true := by
    simp [Option.isNone_eq_false_iff.mpr hlead, hoff, hgo]
  exact congrArg Host.Outcome.next (if_neg hguard)

theorem execRplHead_of_lead {value : W32} : execRplHead value s =
    .next (s.onRings fun g => { g with rplHead := bitsOf value 11 0 }).flushReplies :=
  congrArg Host.Outcome.next (if_neg (lead_guard hlead))

theorem execFltHead_of_lead {value : W32} : execFltHead value s =
    .next (s.onRings fun g => { g with fltHead := bitsOf value 13 0 }) :=
  congrArg Host.Outcome.next (if_neg (lead_guard hlead))

theorem execReqTail_of_on {value : W32} (hon : s.part.rings.on = true)
    (hnew : s.part.rings.posted s.part.rings.reqTail ≤
      s.part.rings.posted (bitsOf value 11 0 % 2 ^ s.part.rings.reqLog2)) :
    execReqTail value s = .next ((s.onRings fun g => { g with
      reqTail := bitsOf value 11 0 % 2 ^ s.part.rings.reqLog2 }).raiseSrc s.lead 0x40) := by
  have hguard : ¬(s.part.lead.isNone || !s.part.rings.on) = true := by
    simp [Option.isNone_eq_false_iff.mpr hlead, hon]
  simp only [execReqTail, if_neg hguard, if_pos hnew]
  rfl

section
variable {agent : Byte} {pkt : Bytes} {place : Option (Nat × Nat)} (hact : s.activating = false)
  (hreqs : s.part.reqs.length < 64) (hreplies : s.part.replies.length < 64) (hlen : pkt.length = 64)
  (hnext : s.nextRequest agent pkt = some place)
include hact hreqs hreplies hlen hnext

/-- A request in its turn is taken into progress, and is answered at once when its opcode, its sender or its reserved
bytes 4 to 7 refuse it (R481, R483). -/
theorem execRequestTake_of_next : execRequestTake agent pkt s =
    .next (let r := MReq.of agent pkt (place.map (·.1))
      let t := s.takeRequest r place
      if !mgmtOp (fieldAt pkt 0 2) then t.reply r stUnknownOpcode
      else if agent = 0x02 ∧ !boardMay (fieldAt pkt 0 2) then t.reply r stDenied
      else if fieldAt pkt 4 4 ≠ 0 then t.reply r stMalformed
      else t) := by
  have hguard : ¬(s.part.lead.isNone || s.activating || decide (64 ≤ s.part.reqs.length) ||
      decide (64 ≤ s.part.replies.length) || decide (pkt.length ≠ 64)) = true := by
    simp [Option.isNone_eq_false_iff.mpr hlead, hact, hreqs, hreplies, hlen]
  simp only [execRequestTake, if_neg hguard, hnext]

theorem execRequestTake_known (hop : mgmtOp (fieldAt pkt 0 2) = true) (hflags : fieldAt pkt 4 4 = 0)
    (hmay : ¬(agent = 0x02 ∧ boardMay (fieldAt pkt 0 2) = false)) :
    execRequestTake agent pkt s = .next (s.takeRequest (MReq.of agent pkt (place.map (·.1))) place) := by
  simp only [execRequestTake_of_next hlead hact hreqs hreplies hlen hnext, hop, hflags, hmay, Bool.not_true,
    Bool.false_eq_true, Bool.not_eq_true', ne_eq, not_true_eq_false, if_false]

theorem execRequestTake_unknown (hop : mgmtOp (fieldAt pkt 0 2) = false) :
    execRequestTake agent pkt s = .next ((s.takeRequest (MReq.of agent pkt (place.map (·.1))) place).reply
      (MReq.of agent pkt (place.map (·.1))) stUnknownOpcode) := by
  simp only [execRequestTake_of_next hlead hact hreqs hreplies hlen hnext, hop, Bool.not_false, if_true]

end

section
variable {i : Nat} (hm : (s.site i).managed = true)

section
variable (hon : s.part.rings.on = true) (hok : s.part.rings.err = false)
include hm hon hok

/-- The guard of FAULT_RECORD_WRITE lets a record of a managed site pass while the rings run. -/
theorem faultRecordWrite_guard :
    ¬(s.part.lead.isNone || !s.part.rings.on || s.part.rings.err || !(s.site i).managed) = true := by
  simp [Option.isNone_eq_false_iff.mpr hlead, hon, hok, hm]

/-- An alarm may use every free entry, and its continuation records travel with it (R532). -/
theorem execFaultRecordWrite_alarm {r : Rec} {rest : List Rec} (halarm : (s.site i).watch.alarms = r :: rest)
    (hroom : 1 + r.cont.length ≤ s.part.rings.fltRoom) :
    execFaultRecordWrite i s = .next (((writeRec r (s.site i).id (r.body :: r.cont) s).onWatch i fun w =>
      { w with alarms := rest }).raiseSrc s.lead 0x43) := by
  have hfits := Nat.not_lt.mpr hroom
  unfold MgmtRings.fltRoom at hfits
  simp only [execFaultRecordWrite, if_neg (faultRecordWrite_guard hlead hm hon hok), halarm, if_neg hfits]

/-- A log goes when no alarm waits and leaves the last eight free entries to alarms (R532). -/
theorem execFaultRecordWrite_log {r : Rec} {rest : List Rec} (hnone : (s.site i).watch.alarms = [])
    (hlog : (s.site i).watch.logs = r :: rest) (hroom : 9 ≤ s.part.rings.fltRoom) :
    execFaultRecordWrite i s = .next (((writeRec r (s.site i).id [r.body] s).onWatch i fun w =>
      { w with logs := rest }).raiseSrc s.lead 0x43) := by
  have hfits := Nat.not_lt.mpr hroom
  unfold MgmtRings.fltRoom at hfits
  simp only [execFaultRecordWrite, if_neg (faultRecordWrite_guard hlead hm hon hok), hnone, hlog, if_neg hfits]

end

end

end

theorem execLossSummary_of_losing {s : State} {i us : Nat} (hm : (s.site i).managed = true)
    (hlosing : (s.site i).watch.losing = true) :
    execLossSummary i us s = .next ((s.onWatch i (·.summarise i us (s.site i).time)).raiseSrc s.lead 0x45) := by
  have hguard : ¬(!(s.site i).managed || !(s.site i).watch.losing) = true := by simp [hm, hlosing]
  exact congrArg Host.Outcome.next (if_neg hguard)

/-- Settles O50: with a lead each row's guard lets it pass, and the row goes by the checks of the ring's sizes, by the
request's opcode and by which record is first in turn. -/
theorem managementIntake : Obligations.ManagementIntake := by
  intro s hlead
  refine ⟨fun value hoff hgo hstart => ?starts, fun value hoff hgo hfails => ?startFails, ?disable,
    fun value => ?rplHead, fun value => ?fltHead, fun value hon hnew => ?reqTail,
    fun agent pkt place hact hreqs hreplies hlen hnext hop hflags hmay => ?taken,
    fun agent pkt place hact hreqs hreplies hlen hnext hop => ?unknown,
    fun i hm => ⟨fun r rest hon hok halarm hroom => ?alarm, fun r rest hon hok hnone hlog hroom => ?log,
      fun us hlosing => ?summary⟩⟩
  case starts =>
    exact (execManagementRingEnable_of_off hlead hoff hgo).trans (congrArg Host.Outcome.next (if_pos hstart))
  case startFails =>
    exact (execManagementRingEnable_of_off hlead hoff hgo).trans
      (congrArg Host.Outcome.next (if_neg (Bool.eq_false_iff.mp hfails)))
  case disable => exact exec_managementRingDisable
  case rplHead => exact exec_rplHead.trans (execRplHead_of_lead hlead)
  case fltHead => exact exec_fltHead.trans (execFltHead_of_lead hlead)
  case reqTail => exact exec_reqTail.trans (execReqTail_of_on hlead hon hnew)
  case taken =>
    exact exec_requestTake.trans (execRequestTake_known hlead hact hreqs hreplies hlen hnext hop hflags hmay)
  case unknown => exact exec_requestTake.trans (execRequestTake_unknown hlead hact hreqs hreplies hlen hnext hop)
  case alarm => exact exec_faultRecordWrite.trans (execFaultRecordWrite_alarm hlead hm hon hok halarm hroom)
  case log => exact exec_faultRecordWrite.trans (execFaultRecordWrite_log hlead hm hon hok hnone hlog hroom)
  case summary => exact exec_lossSummary.trans (execLossSummary_of_losing hm hlosing)

end Sys2Proof.Machine

/-! Resets of domains and the findings of the health machinery (spec/13 faults recovery.md). -/

namespace Sys2Proof.Machine

/-! Reset and return of a domain (R511–R515) -/

theorem execDomainReset_of_domain {s : State} {i u cause : Nat} (hcause : cause ≤ 9) (hu : u ≠ 19) :
    execDomainReset i u cause s = .next (s.resetDomain i u cause) :=
  congrArg Host.Outcome.next (if_neg (not_or.mpr ⟨Nat.not_lt.mpr hcause, hu⟩))

section
variable {s : State} {i u : Nat} (hpresent : (s.site i).present = true)
  (houter : (outerDoms u).any (s.site i).inReset = false)
include hpresent houter

theorem execResetRelease_of_mayRelease (hstate : (s.site i).domState u = 2)
    (hmay : (s.site i).mayRelease u = true) : execResetRelease i u s = .next (s.releaseDom i u) := by
  have hguard : ¬(!(s.site i).present || decide ((s.site i).domState u ≠ 2) || (outerDoms u).any (s.site i).inReset ||
      !(s.site i).mayRelease u) = true := by
    simp only [hpresent, hstate, houter, hmay, ne_eq, not_true_eq_false, decide_false, Bool.not_true, Bool.or_self,
      Bool.false_eq_true, not_false_eq_true]
  exact congrArg Host.Outcome.next (if_neg hguard)

theorem execDomainUp_of_retrained (hstate : (s.site i).domState u = 3) (htrained : (s.site i).retrained u = true) :
    execDomainUp i u s = .next (s.domUps i u) := by
  have hguard : ¬(!(s.site i).present || decide ((s.site i).domState u ≠ 3) || (outerDoms u).any (s.site i).inReset ||
      !(s.site i).retrained u) = true := by
    simp only [hpresent, hstate, houter, htrained, ne_eq, not_true_eq_false, decide_false, Bool.not_true, Bool.or_self,
      Bool.false_eq_true, not_false_eq_true]
  exact congrArg Host.Outcome.next (if_neg hguard)

end

/-! Spare cores (R528) -/

section
variable {s : State} {i p : Nat} (hup : (s.site i).up = true) (hawait : (s.site i).awaitsSpare p = true)
include hup hawait

/-- The guard of SPARE_BRING_IN lets a core that awaits a spare pass. -/
theorem spareBringIn_guard : ¬(!(s.site i).up || !(s.site i).awaitsSpare p) = true := by simp [hup, hawait]

theorem execSpareBringIn_of_spare {k : Nat} {rest : List Nat} (hspares : (s.site i).sparesFor p = k :: rest) :
    execSpareBringIn i p true s = .next (s.takePlace i p k) := by
  simp only [execSpareBringIn, if_neg (spareBringIn_guard hup hawait), hspares, if_true]

theorem execSpareBringIn_of_none {ok : Bool} (hspares : (s.site i).sparesFor p = []) :
    execSpareBringIn i p ok s = .next (s.vacate i p) := by
  simp only [execSpareBringIn, if_neg (spareBringIn_guard hup hawait), hspares]

end

/-! Findings (R87, R518–R520) -/

theorem execHang_of_core {s : State} {i p e : Nat} (hruns : (s.site i).coreRuns p = true) (hp : p < 6)
    (hbusy : (s.coreCodes i p).getD e 0 = 1) :
    execHang i p false e s = .next ((s.raiseSrc i (0x68 + p)).resetDomain i p 1 (some e)) :=
  congrArg Host.Outcome.next ((if_neg Bool.false_ne_true).trans (if_pos ⟨hruns, hp, hbusy⟩))

theorem execHang_of_dma {s : State} {i p e : Nat} (hup : (s.site i).up = true) (hbusy : (s.dmaCodes i).getD e 0 = 1) :
    execHang i p true e s = .next ((s.raiseSrc i 0x84).resetDomain i 20 9 (some e)) :=
  congrArg Host.Outcome.next ((if_pos rfl).trans (if_pos ⟨hup, hbusy⟩))

theorem execSequencerReportMiss_of_up {s : State} {i cl : Nat} (hup : (s.site i).up = true) (hcl : cl < 2)
    (hdom : (s.site i).domUp (domCluster cl) = true) :
    execSequencerReportMiss i cl s = .next ((s.raiseSrc i (0x6E + cl)).resetDomain i (domCluster cl) 2) :=
  congrArg Host.Outcome.next (if_pos ⟨hup, hcl, hdom⟩)

theorem execHeartbeatMiss_of_up {s : State} {i : Nat} (hup : (s.site i).up = true) :
    execHeartbeatMiss i s = .next ((s.raiseSrc i 0x67).resetDomain i 20 3) :=
  congrArg Host.Outcome.next (if_pos hup)

theorem execDrainFailure_of_core {s : State} {i p : Nat} (hp : p < 6) :
    execDrainFailure i p s = .next (s.resetDomain i p 4) :=
  congrArg Host.Outcome.next (if_pos hp)

theorem execWatchdogExpiry_of_lead {s : State} {i p : Nat} (hm : (s.site i).managed = true) (hp : p < 4)
    (hlead : s.part.lead = some i) : execWatchdogExpiry i p s = .next (s.assertFault i) :=
  congrArg Host.Outcome.next (if_pos ⟨hm, hp, hlead⟩)

theorem execSiblingHeartbeatMiss_of_sibling {s : State} {i : Nat} (hlead : s.part.lead.isSome = true)
    (hsibling : i ≠ s.lead) (hhere : (s.site i).absent = false) (hm : (s.site i).managed = true) :
    execSiblingHeartbeatMiss i s =
      .next ((s.onSite i fun t => { t with absent := true }).absentRecord (s.site i).id) := by
  have hguard : ¬(s.part.lead.isNone = true ∨ i = s.lead ∨ (s.site i).absent = true ∨ (!(s.site i).managed) = true) :=
    not_or.mpr ⟨lead_guard hlead, not_or.mpr ⟨hsibling, not_or.mpr ⟨Bool.eq_false_iff.mp hhere, managed_guard hm⟩⟩⟩
  exact congrArg Host.Outcome.next (if_neg hguard)

/-- Settles O56: each row's guard lets it pass, and SPARE_BRING_IN then goes by the spares that are left. That
DOMAIN_RESET takes every cause up to 9 for every unit but 19 is log entry 67; that a finding raises its source and
begins the reset in one row is log entry 66. -/
theorem resetAndHealth : Obligations.ResetAndHealth := by
  intro s i u
  refine ⟨fun cause hcause hu => ?reset, fun hpresent hstate houter hmay => ?release,
    fun hpresent hstate houter htrained => ?up, fun p k rest hup hawait hspares => ?spare,
    fun p hup hawait hspares ok => ?noSpare, fun p e hruns hp hbusy => ?coreHang, fun p e hup hbusy => ?dmaHang,
    fun cl hup hcl hdom => ?sequencer, fun hup => ?heartbeat, fun p hp => ?drain, fun p hm hp hlead => ?watchdog,
    fun hlead hsibling hhere hm => ?sibling⟩
  case reset => exact exec_domainReset.trans (execDomainReset_of_domain hcause hu)
  case release => exact exec_resetRelease.trans (execResetRelease_of_mayRelease hpresent houter hstate hmay)
  case up => exact exec_domainUp.trans (execDomainUp_of_retrained hpresent houter hstate htrained)
  case spare => exact exec_spareBringIn.trans (execSpareBringIn_of_spare hup hawait hspares)
  case noSpare => exact exec_spareBringIn.trans (execSpareBringIn_of_none hup hawait hspares)
  case coreHang => exact exec_hang.trans (execHang_of_core hruns hp hbusy)
  case dmaHang => exact exec_hang.trans (execHang_of_dma hup hbusy)
  case sequencer => exact exec_sequencerReportMiss.trans (execSequencerReportMiss_of_up hup hcl hdom)
  case heartbeat => exact exec_heartbeatMiss.trans (execHeartbeatMiss_of_up hup)
  case drain => exact exec_drainFailure.trans (execDrainFailure_of_core hp)
  case watchdog => exact exec_watchdogExpiry.trans (execWatchdogExpiry_of_lead hm hp hlead)
  case sibling => exact exec_siblingHeartbeatMiss.trans (execSiblingHeartbeatMiss_of_sibling hlead hsibling hhere hm)

end Sys2Proof.Machine

/-! Key slots, the removal of a tenant, attestation and TDISP (spec/11 tenants security.md). -/

namespace Sys2Proof.Machine

/-! Key slots (R433, R436–R438) -/

/-- A change of a site that leaves its registers alone leaves the part's number. -/
theorem State.partId_onSite {s : State} {i : Nat} {f : Site → Site} (hf : ∀ t : Site, (f t).regs = t.regs) :
    (s.onSite i f).partId = s.partId := by
  have hregs : ((s.onSite i f).site s.lead).regs = (s.site s.lead).regs := by
    rcases s.site_onSite_cases i s.lead f with h | ⟨-, h⟩
    · rw [h]
    · rw [h, hf]
  exact congrArg (fun regs => bitsOf (lookupD regs rFabCfg (BitVec.ofNat 32 (regReset rFabCfg)))
    Fld.fabCfgPartId.1 Fld.fabCfgPartId.2) hregs

/-- Where a slice is homed does not change with a slot. -/
theorem State.homed_destroySlot (s : State) (i n v : Nat) : (s.destroySlot i n).homed v = s.homed v :=
  congrArg (fun part => decide ((s.vd v).home / 8 = part)) (State.partId_onSite fun _ => rfl)

section
variable {s : State} {i slot : Nat} (hup : (s.site i).up = true)
include hup

theorem execKeyCreate_of_free {v : Nat} (hfree : (s.site i).slotFree slot = true) (hkeys : s.keysFlow = true)
    (hlive : (s.vd v).live = true) (hslot : (s.vd v).slot = slot) : execKeyCreate i slot v s =
      .next ((s.drawSecret.2.fillSlot i slot v ((s.site i).slotGen slot) s.drawSecret.1).relist v) := by
  have hguard : ¬(!(s.site i).up || !(s.site i).slotFree slot || !s.keysFlow || !(s.vd v).live ||
      decide ((s.vd v).slot ≠ slot)) = true := by simp [hup, hfree, hkeys, hlive, hslot]
  exact congrArg Host.Outcome.next (if_neg hguard)

section
variable (hsettled : s.unsettled = false) (hdebug : s.part.debug = false)
include hsettled hdebug

section
variable {v : Nat} {gen : BitVec 6} {x : BitVec 256} (hfree : (s.site i).slotFree slot = true) (hv : v < 256)
include hfree hv

/-- The guard of KEY_INSTALL lets an installation into a FREE slot pass. -/
theorem keyInstall_guard : ¬(!(s.site i).up || !(s.site i).slotFree slot || s.unsettled || s.part.debug ||
    decide (256 ≤ v)) = true := by simp [hup, hfree, hsettled, hdebug, hv]

theorem execKeyInstall_of_live (hlive : (s.vd v).live = true) (hslot : (s.vd v).slot = slot) :
    execKeyInstall i slot v gen x s = .next ((s.fillSlot i slot v gen.toNat x).relist v) := by
  simp only [execKeyInstall, if_neg (keyInstall_guard hup hsettled hdebug hfree hv), if_pos hlive, if_pos hslot]

/-- The record of a slice homed elsewhere is made with its key (R433). -/
theorem execKeyInstall_of_lent {l : Lend} (hlive : (s.vd v).live = false) (hlent : s.lender i = some l) :
    execKeyInstall i slot v gen x s =
      .next (((((s.lentSlice i slot l.home).hold.units.foldl (fun s u => s.joinUnit v u)
        (s.onVd v fun _ => s.lentSlice i slot l.home))).fillSlot i slot v gen.toNat x).relist v) := by
  simp only [execKeyInstall, if_neg (keyInstall_guard hup hsettled hdebug hfree hv),
    if_neg (Bool.eq_false_iff.mp hlive), hlent]

end

theorem execKeyWrap_of_peer {k : KeySlot} (hk : (s.site i).slot? slot = some k) {peer : PeerReport}
    (hactive : k.state = .active) (hpeer : peer.part = s.partId ∨ s.accepts peer = true) : execKeyWrap i slot peer s =
      .next (s.emit (.spdm 0x11 (leBytes 2 slot ++ leBytes 1 k.gen ++ Config.aesWrap k.secret))) := by
  have hguard : ¬(!(s.site i).up || decide (k.state ≠ .active) || s.unsettled || s.part.debug ||
      !(decide (peer.part = s.partId) || s.accepts peer)) = true := by
    have hok : (decide (peer.part = s.partId) || s.accepts peer) = true := by simpa using hpeer
    simp [hup, hactive, hsettled, hdebug, hok]
  simp only [execKeyWrap, hk, if_neg hguard]

end

section
variable {k : KeySlot} (hk : (s.site i).slot? slot = some k)
include hk

theorem execKeyDrain_of_active (hactive : k.state = .active) :
    execKeyDrain i slot s = .next ((s.tdiError k.slice).drainSlot i k.slice) := by
  have hguard : ¬(!(s.site i).up || decide (k.state ≠ .active)) = true := by simp [hup, hactive]
  simp only [execKeyDrain, hk, if_neg hguard]

/-- The slice is homed here, so its other slots and its record outlive this slot. -/
theorem execKeyDestroy_of_quiet (hdraining : k.state = .draining) (hquiet : s.slotQuiet i slot = true)
    (hhome : s.homed k.slice = true) : execKeyDestroy i slot s = .next (s.destroySlot i slot) := by
  have hguard : ¬(!(s.site i).up || decide (k.state ≠ .draining) || !s.slotQuiet i slot) = true := by
    simp [hup, hdraining, hquiet]
  simp only [execKeyDestroy, hk, if_neg hguard, State.homed_destroySlot, hhome, Bool.not_true, Bool.false_and,
    Bool.false_eq_true, if_false]

end

end

/-! The removal of a slice (R460) -/

/-- The removal of slice `v` stands at step `n`. -/
def State.removalAt (s : State) (v : Nat) (r : Removal) (n : Nat) : State :=
  s.onVd v fun d => { d with removal := some { r with step := n } }

/-- What each step of a removal does. -/
def State.removalNext (s : State) (v : Nat) (r : Removal) (step : Nat) : State :=
  match step with
  | 0 => (s.killSlice v).removalAt v r 1
  | 1 => ((s.holders v).foldl (fun s i => s.drainSlot i v) s).removalAt v r 2
  | 2 => if (s.holders v).all fun i => s.slotQuiet i (s.vd v).slot then s.removalAt v r 3 else s
  | 3 => ((s.holders v).foldl (fun t i => t.destroySlot i (s.vd v).slot) s).removalAt v r 4
  | 4 => (s.zeroPages v).removalAt v r 5
  | 5 => (s.clearUnits v).removalAt v r 6
  | _ => s.release v r (s.touched v)

theorem execRemovalStep_of_removal {s : State} {v : Nat} {r : Removal} (hr : (s.vd v).removal = some r) :
    execRemovalStep v s = .next (s.removalNext v r r.step) := by
  simp only [execRemovalStep, hr]
  rfl

/-- Settles O47: the slot's state lets each row of a key pass, and a removal does what its step asks. The secrets drawn
are free values (log entry 7); the wrapping is opaque (log entry 5); that a lent slice gets its record with the key, and
that one report stands for every other part, is log entry 64. -/
theorem keysAndRemoval : Obligations.KeysAndRemoval := by
  intro s i slot hup
  refine ⟨fun v hfree hkeys hlive hslot => ?create,
    fun v gen x hfree hsettled hdebug hv => ⟨fun hlive hslot => ?install, fun l hlive hlent => ?lent⟩,
    fun k hk => ⟨fun hactive hsettled hdebug peer hpeer => ?wrap, fun hactive => ?drain,
      fun hdraining hquiet hhome => ?destroy⟩,
    fun v r hr => ?removal⟩
  case create => exact exec_keyCreate.trans (execKeyCreate_of_free hup hfree hkeys hlive hslot)
  case install => exact exec_keyInstall.trans (execKeyInstall_of_live hup hsettled hdebug hfree hv hlive hslot)
  case lent => exact exec_keyInstall.trans (execKeyInstall_of_lent hup hsettled hdebug hfree hv hlive hlent)
  case wrap => exact exec_keyWrap.trans (execKeyWrap_of_peer hup hsettled hdebug hk hactive hpeer)
  case drain => exact exec_keyDrain.trans (execKeyDrain_of_active hup hk hactive)
  case destroy => exact exec_keyDestroy.trans (execKeyDestroy_of_quiet hup hk hdraining hquiet hhome)
  case removal =>
    have hrun := exec_removalStep.trans (execRemovalStep_of_removal hr)
    refine ⟨fun h => ?killed, fun h => ?drained, fun h hquiet => ?quiet, fun h => ?destroyed, fun h => ?zeroed,
      fun h => ?cleared, fun h => ?released⟩
    case killed => rw [hrun, h]; rfl
    case drained => rw [hrun, h]; rfl
    case quiet => rw [hrun, h]; exact congrArg Host.Outcome.next (if_pos hquiet)
    case destroyed => rw [hrun, h]; rfl
    case zeroed => rw [hrun, h]; rfl
    case cleared => rw [hrun, h]; rfl
    case released =>
      obtain ⟨n, hn⟩ := Nat.exists_eq_add_of_le' h
      rw [hrun, hn]
      rfl

end Sys2Proof.Machine

/-! Attestation over SPDM, IDE keys and the TDISP requests (R446, R447, R450–R454). -/

namespace Sys2Proof.Machine

/-- The blocks of a MEASUREMENTS answer behind their count and their length (R451). -/
def measurementRecord (l : List Bytes) : Bytes := leBytes 1 l.length ++ leBytes 3 l.flatten.length ++ l.flatten

section
variable {s : State} (hanswers : s.answers = true)
include hanswers

/-- The guard shared by the SPDM rows lets a request to a part that answers pass. -/
theorem answers_guard : ¬(!s.answers) = true := by simp [hanswers]

theorem execGetMeasurements_of_blocks {n : Nat} {b : Bytes} {l : List Bytes} (hblocks : s.blocks n = b :: l) :
    execGetMeasurements n s =
      .next (s.emit (.spdm 0x60 (measurementRecord (b :: l) ++ s.sign (measurementRecord (b :: l))))) := by
  simp only [execGetMeasurements, if_neg (answers_guard hanswers), hblocks, measurementRecord]

theorem execSliceReport_of_homed {v : Nat} {nonce : Bytes} (hlive : (s.vd v).live = true) (hhome : s.homed v = true)
    (hlen : nonce.length = 32) : execSliceReport v nonce s = .next (s.emit (.spdm 0x7E (s.sliceReport v nonce))) := by
  have hgood : ¬(!(s.vd v).live || !s.homed v || decide (nonce.length ≠ 32)) = true := by simp [hlive, hhome, hlen]
  exact congrArg Host.Outcome.next ((if_neg (answers_guard hanswers)).trans (if_neg hgood))

theorem execSpdmRequest_of_supported {code : Byte} (hcode : spdmSupported.contains code.toNat = true) :
    execSpdmRequest code s =
      .next (s.draw.2.emit (.spdm (code.toNat - 0x80) (leBytes 8 s.draw.1.toNat))) :=
  congrArg Host.Outcome.next ((if_neg (answers_guard hanswers)).trans (if_pos hcode))

theorem execIdeKm_of_link {i stream keyset : Nat} {rx : Bool} (hm : (s.site i).managed = true)
    (hdom : (s.site i).domUp 18 = true) (hlink : 2 ≤ (s.site i).hostLinkState) (hstream : stream < 16)
    (hkeyset : keyset < 2) : execIdeKm i stream keyset rx s =
      .next ((s.onSite i (·.setIdeKey stream keyset rx)).emit
        (.spdm 0x7E (leBytes 1 stream ++ leBytes 1 keyset ++ leBytes 1 rx.toNat))) := by
  have hguard : ¬(!s.answers || !(s.site i).managed || !(s.site i).domUp 18 ||
      decide ((s.site i).fld rHifLink Fld.hifLinkState < 2)) = true := by
    simp only [hanswers, hm, hdom, Site.hostLink_not_below_two hlink, Bool.not_true, Bool.or_self, Bool.false_eq_true,
      not_false_eq_true]
  have hrange : ¬(16 ≤ stream ∨ 2 ≤ keyset) := not_or.mpr ⟨Nat.not_le.mpr hstream, Nat.not_le.mpr hkeyset⟩
  exact congrArg Host.Outcome.next ((if_neg hguard).trans (if_neg hrange))

end

/-- A stream that is lost has no keys and is not secure (R446). -/
def State.unkeyStream (s : State) (i stream : Nat) (x : Ide) : State :=
  s.onSite i fun t => { t with
    ide := { x with rxKeys := 0, txKeys := 0, secure := false } :: t.ide.filter fun y => decide (y.stream ≠ stream) }

theorem execIdeStreamLoss_of_stream {s : State} {i stream : Nat} {x : Ide} (hx : (s.site i).ide? stream = some x) :
    execIdeStreamLoss i stream s = .next (((s.unkeyStream i stream x).vdsOn i).foldl
      (fun s v => if (s.vd v).ideStream = stream then s.tdiError v else s) (s.unkeyStream i stream x)) := by
  simp only [execIdeStreamLoss, hx, State.unkeyStream]

/-! TDISP requests that reach their TDI: the body runs (R447) -/

section
variable {s t : State} {v : Nat} (ht : ∀ run : State → State, s.tdisp v run = run t)
include ht

theorem execGetDeviceInterfaceReport_of_tdi (htdi : (t.vd v).tdi = .locked ∨ (t.vd v).tdi = .run) :
    execGetDeviceInterfaceReport v s = .next (t.tdispReply 0x04 v interfaceReport) :=
  congrArg Host.Outcome.next ((ht _).trans (if_pos htdi))

theorem execStartInterfaceRequest_of_locked (htdi : (t.vd v).tdi = .locked) : execStartInterfaceRequest v s =
    .next ((t.onVd v fun d => { d with tdi := .run }).tdispReply 0x06 v []) :=
  congrArg Host.Outcome.next ((ht _).trans (if_pos htdi))

section
variable (hstay : (t.vd v).removal = none)
include hstay

theorem execStopInterfaceRequest_of_staying : execStopInterfaceRequest v s =
    .next ((t.onVd v fun d => { d with removal := some ⟨0, 1, none⟩ }).tdispReply 0x07 v []) :=
  congrArg Host.Outcome.next ((ht _).trans (if_neg (by simp [hstay])))

theorem execLockInterfaceRequest_of_secure {stream : Nat} {x : Ide} (htdi : (t.vd v).tdi = .unlocked)
    (hx : (t.site (t.siteOf (t.vd v).port)).ide? stream = some x) (hsecure : x.secure = true) :
    execLockInterfaceRequest v stream s =
      .next ((t.onVd v fun d => { d with tdi := .locked, ideStream := stream }).tdispReply 0x03 v
        (leBytes 1 stream)) := by
  have hready : (t.vd v).tdi = .unlocked ∧ (((t.site (t.siteOf (t.vd v).port)).ide? stream).any (·.secure)) = true ∧
      (t.vd v).removal.isNone = true := ⟨htdi, by simp [hx, hsecure], by simp [hstay]⟩
  exact congrArg Host.Outcome.next ((ht _).trans (if_pos hready))

end

end

/-- Settles O48: the part answers, so a request goes by what it names; a TDISP request that reaches its TDI runs its
body there, which goes by the TDI's state (R447). SLICE_REPORT is R454. The content of the other SPDM answers is a free
value (log entry 6); the message codes and layouts, and what makes a stream secure, are those of the public standards
(log entry 65). -/
theorem tdispAndAttestation : Obligations.TdispAndAttestation := by
  intro s v
  refine ⟨fun n b l hanswers hblocks => ?measurements, fun nonce hanswers hlive hhome hlen => ?report,
    fun code hanswers hcode => ?request, fun i stream keyset rx hanswers hm hdom hlink hstream hkeyset => ?ideKm,
    fun i stream x hx => ?loss, fun t ht => ⟨?version, ?capabilities, ?state, fun htdi => ?interfaceReport,
      fun htdi => ?start, fun hstay => ?stop, fun stream x htdi hx hsecure hstay => ?lock⟩⟩
  case measurements => exact exec_getMeasurements.trans (execGetMeasurements_of_blocks hanswers hblocks)
  case report => exact exec_sliceReport.trans (execSliceReport_of_homed hanswers hlive hhome hlen)
  case request => exact exec_spdmRequest.trans (execSpdmRequest_of_supported hanswers hcode)
  case ideKm => exact exec_ideKm.trans (execIdeKm_of_link hanswers hm hdom hlink hstream hkeyset)
  case loss => exact exec_ideStreamLoss.trans (execIdeStreamLoss_of_stream hx)
  case version => exact exec_getTdispVersion.trans (congrArg Host.Outcome.next (ht _))
  case capabilities => exact exec_getTdispCapabilities.trans (congrArg Host.Outcome.next (ht _))
  case state => exact exec_getDeviceInterfaceState.trans (congrArg Host.Outcome.next (ht _))
  case interfaceReport => exact exec_getDeviceInterfaceReport.trans (execGetDeviceInterfaceReport_of_tdi ht htdi)
  case start => exact exec_startInterfaceRequest.trans (execStartInterfaceRequest_of_locked ht htdi)
  case stop => exact exec_stopInterfaceRequest.trans (execStopInterfaceRequest_of_staying ht hstay)
  case lock => exact exec_lockInterfaceRequest.trans (execLockInterfaceRequest_of_secure ht hstay htdi hx hsecure)

end Sys2Proof.Machine

/-! The JTAG port (R465): what it accepts, and that a debug unlock opens it on every powered site. An unlock first
ends every tenant (R460, R467), with its commands, streams, slots, pages and units; nothing of that drives a pin. -/

namespace Sys2Proof.Machine

/-! The pins of the instances -/

/-- The pins of every site. -/
def State.allPins (s : State) : List Pins := s.sites.map Site.pins

section
variable {s : State}

theorem State.pins_site_of_allPins {t : State} (h : t.allPins = s.allPins) (k : Nat) :
    (t.site k).pins = (s.site k).pins := by
  have hpins (u : State) : u.allPins.getD k ({} : Site).pins = (u.site k).pins := List.getD_map ..
  rw [← hpins t, h, hpins s]

theorem State.sites_length_of_allPins {t : State} (h : t.allPins = s.allPins) : t.sites.length = s.sites.length := by
  simpa only [State.allPins, List.length_map] using congrArg List.length h

/-! Updates of the state -/

@[simp] theorem State.allPins_onVd {v : Nat} {f : Vd → Vd} : (s.onVd v f).allPins = s.allPins := rfl
@[simp] theorem State.allPins_onFe {v : Nat} {f : FrontEnd → FrontEnd} : (s.onFe v f).allPins = s.allPins := rfl
@[simp] theorem State.allPins_onSp {v : Nat} {f : Space → Space} : (s.onSp v f).allPins = s.allPins := rfl
@[simp] theorem State.allPins_onStream {v n : Nat} {f : Stream → Stream} : (s.onStream v n f).allPins = s.allPins := rfl
@[simp] theorem State.allPins_onCmd {c : CmdRef} {f : Cmd → Cmd} : (s.onCmd c f).allPins = s.allPins := rfl
@[simp] theorem State.allPins_emit {m : Msg} : (s.emit m).allPins = s.allPins := rfl

@[simp] theorem State.allPins_onSite {i : Nat} {f : Site → Site} (hf : ∀ t : Site, (f t).pins = t.pins) :
    (s.onSite i f).allPins = s.allPins := by
  refine List.ext_getElem? fun k => ?_
  simp only [State.allPins, State.onSite, List.getElem?_map, List.getElem?_modify]
  by_cases hk : i = k
  · simp [hk, hf, Function.comp_def]
  · simp [hk]

theorem State.allPins_mapSites {f : Site → Site} (hf : ∀ t : Site, (f t).pins = t.pins) :
    ({ s with sites := s.sites.map f } : State).allPins = s.allPins := by
  simp only [State.allPins, List.map_map]
  exact List.map_congr_left fun t _ => hf t

@[simp] theorem State.allPins_onNet {i : Nat} {f : Transport → Transport} : (s.onNet i f).allPins = s.allPins :=
  State.allPins_onSite fun _ => rfl
@[simp] theorem State.allPins_onWatch {i : Nat} {f : Watch → Watch} : (s.onWatch i f).allPins = s.allPins :=
  State.allPins_onSite fun _ => rfl
@[simp] theorem State.allPins_onLink {i l : Nat} {f : Link → Link} : (s.onLink i l f).allPins = s.allPins :=
  State.allPins_onSite fun _ => rfl
@[simp] theorem State.allPins_onUnit {i p : Nat} {q : Option Nat} {f : ReelUnit → ReelUnit} :
    (s.onUnit i p q f).allPins = s.allPins := State.allPins_onSite fun _ => rfl
@[simp] theorem State.allPins_bump {i off n : Nat} {f : Nat × Nat} : (s.bump i off f n).allPins = s.allPins :=
  State.allPins_onSite fun _ => rfl

@[simp] theorem State.allPins_foldl {α : Type} {f : State → α → State}
    (hf : ∀ (s : State) (a : α), (f s a).allPins = s.allPins) (l : List α) : (l.foldl f s).allPins = s.allPins := by
  induction l generalizing s with
  | nil => rfl
  | cons a l ih => exact ih.trans (hf s a)

/-! Packets -/

@[simp] theorem State.allPins_nextNonce {i slot dst : Nat} {rsp : Bool} :
    (s.nextNonce i slot dst rsp).2.allPins = s.allPins := State.allPins_onNet

@[simp] theorem State.allPins_pickAmong {i : Nat} {h : Hdr} {hi : W32} {ls : List Nat} :
    (s.pickAmong i h hi ls).2.allPins = s.allPins := by
  unfold State.pickAmong
  dsimp only
  split
  · split
    · rfl
    · exact State.allPins_onNet
  · split
    · exact State.allPins_onNet
    · rfl

@[simp] theorem State.allPins_pickRoute {i : Nat} {h : Hdr} : (s.pickRoute i h).2.allPins = s.allPins := by
  unfold State.pickRoute
  dsimp only
  split
  · rfl
  · split
    · split
      · rfl
      · exact State.allPins_pickAmong
    · exact State.allPins_pickAmong

@[simp] theorem State.allPins_linkSend {i l : Nat} {p : Pkt} : (s.linkSend i l p).allPins = s.allPins := by
  unfold State.linkSend
  dsimp only
  split
  · exact State.allPins_onLink
  · split
    · exact State.allPins_onLink
    · exact State.allPins_onLink

@[simp] theorem State.allPins_handOff {i j : Nat} {p : Pkt} : (s.handOff i j p).allPins = s.allPins := by
  unfold State.handOff
  dsimp only
  split
  · exact State.allPins_bump
  · rfl

@[simp] theorem State.allPins_inject {i : Nat} {p : Pkt} : (s.inject i p).allPins = s.allPins := by
  have hroute : (s.pickRoute i (Hdr.of p.hdr)).2.allPins = s.allPins := State.allPins_pickRoute
  unfold State.inject
  split
  next h => rw [h] at hroute; exact State.allPins_bump.trans hroute
  next h =>
    rw [h] at hroute
    split
    · exact State.allPins_linkSend.trans hroute
    · exact State.allPins_handOff.trans hroute

@[simp] theorem State.allPins_request {i : Nat} {f : From} {r : Req} : (s.request i f r).allPins = s.allPins := by
  unfold State.request
  refine State.allPins_inject.trans ((State.allPins_onSite ?_).trans State.allPins_onNet)
  exact fun _ => rfl

@[simp] theorem State.allPins_control {i v dst : Nat} {cmd : Option CmdRef} {k : Ctl} {body : Bytes} :
    (s.control i v dst cmd k body).allPins = s.allPins := by
  unfold State.control
  dsimp only
  split
  · exact State.allPins_request
  · rfl

/-! Events -/

@[simp] theorem State.allPins_sendVector {v n : Nat} : (s.sendVector v n).allPins = s.allPins := by
  unfold State.sendVector
  dsimp only
  split <;> rfl

@[simp] theorem State.allPins_accumulate {v n : Nat} : (s.accumulate v n).allPins = s.allPins := by
  unfold State.accumulate
  dsimp only
  split
  · exact State.allPins_sendVector
  · rfl

@[simp] theorem allPins_flushEventsN (n v : Nat) : (flushEventsN n v s).allPins = s.allPins := by
  induction n generalizing s with
  | zero => rfl
  | succ n ih =>
    unfold flushEventsN
    dsimp only
    split
    · rfl
    · split
      · rfl
      · split
        · rfl
        · exact ih.trans State.allPins_accumulate

@[simp] theorem State.allPins_event {v i type stream arg : Nat} :
    (s.event v i type stream arg).allPins = s.allPins := by
  unfold State.event
  dsimp only
  split
  · exact allPins_flushEventsN _ _
  · exact State.allPins_control

/-! The end of a command -/

@[simp] theorem State.allPins_discardDirty {v i asid base len : Nat} :
    (s.discardDirty v i asid base len).allPins = s.allPins :=
  State.allPins_bump.trans State.allPins_onNet

@[simp] theorem State.allPins_abandonRelease {c : CmdRef} {k : Cmd} : (s.abandonRelease c k).allPins = s.allPins := by
  unfold State.abandonRelease
  split
  · rfl
  · split
    · rfl
    · split
      · exact State.allPins_discardDirty
      · exact State.allPins_bump

@[simp] theorem State.allPins_account {i v n : Nat} {f : Acct → Acct} : (s.account i v n f).allPins = s.allPins :=
  State.allPins_onWatch.trans State.allPins_onWatch

@[simp] theorem State.allPins_accountEnd {c : CmdRef} {k : Cmd} {now : Nat} :
    (s.accountEnd c k now).allPins = s.allPins := by
  unfold State.accountEnd
  split
  · split
    · exact State.allPins_account
    · rfl
  · rfl

@[simp] theorem State.allPins_leaveFault {c : CmdRef} : (s.leaveFault c).allPins = s.allPins := rfl

@[simp] theorem State.allPins_freeEngines {c : CmdRef} : (s.freeEngines c).allPins = s.allPins := by
  unfold State.freeEngines
  split
  · rfl
  · exact State.allPins_onSite fun _ => rfl

@[simp] theorem State.allPins_killCmd {c : CmdRef} : (s.killCmd c).allPins = s.allPins := by
  unfold State.killCmd
  split
  · rfl
  · split
    · rfl
    · simp

@[simp] theorem State.allPins_killStream {v n i : Nat} : (s.killStream v n i).allPins = s.allPins := by
  unfold State.killStream
  dsimp only
  split
  · rfl
  · simp

@[simp] theorem State.allPins_killContext {v ctx i : Nat} : (s.killContext v ctx i).allPins = s.allPins := by
  simp [State.killContext]

@[simp] theorem State.allPins_killSlice {v : Nat} : (s.killSlice v).allPins = s.allPins := by
  simp [State.killSlice]

@[simp] theorem State.allPins_tdiError {v : Nat} : (s.tdiError v).allPins = s.allPins := by
  unfold State.tdiError
  dsimp only
  split
  · exact State.allPins_killSlice
  · rfl

/-! Slots, pages and units -/

@[simp] theorem Site.onTier_pins {t : Site} {slow : Bool} {f : Tier → Tier} : (t.onTier slow f).pins = t.pins := by
  unfold Site.onTier
  split <;> rfl

@[simp] theorem Site.freePage_pins {t : Site} {slow : Bool} {n : Nat} : (t.freePage slow n).pins = t.pins :=
  Site.onTier_pins

theorem Site.foldl_pins {α : Type} {f : Site → α → Site} (hf : ∀ (t : Site) (a : α), (f t a).pins = t.pins) (l : List α)
    (t : Site) : (l.foldl f t).pins = t.pins := by
  induction l generalizing t with
  | nil => rfl
  | cons a l ih => exact (ih _).trans (hf t a)

@[simp] theorem State.allPins_dropFrames {i : Nat} {which : Frame → Bool} :
    (s.dropFrames i which).allPins = s.allPins :=
  State.allPins_onSite fun t => Site.foldl_pins (fun _ _ => Site.freePage_pins) _ t

@[simp] theorem State.allPins_abandonMoves {i : Nat} {which : TierMove → Bool} :
    (s.abandonMoves i which).allPins = s.allPins := by
  unfold State.abandonMoves
  refine (State.allPins_onSite ?_).trans (State.allPins_foldl (fun s m => ?_) _)
  · exact fun _ => rfl
  · refine State.allPins_bump.trans (State.allPins_onSite fun t => ?_)
    exact Site.freePage_pins.trans Site.onTier_pins

@[simp] theorem State.allPins_zeroUnit {i p : Nat} {q : Option Nat} : (s.zeroUnit i p q).allPins = s.allPins :=
  State.allPins_onSite fun _ => rfl

@[simp] theorem State.allPins_leaveGroup {i p v : Nat} {q : Option Nat} :
    (s.leaveGroup i p q v).allPins = s.allPins := by
  unfold State.leaveGroup
  extract_lets u gone others next left
  split
  · rfl
  · split
    · have hleft : left.allPins = s.allPins := by
        unfold left
        cases next with
        | none => exact State.allPins_zeroUnit
        | some _ => exact State.allPins_onSite fun _ => rfl
      exact State.allPins_onUnit.trans hleft
    · exact State.allPins_onUnit

@[simp] theorem State.allPins_drainSlot {i v : Nat} : (s.drainSlot i v).allPins = s.allPins := by
  unfold State.drainSlot
  refine (State.allPins_onSite fun _ => ?_).trans <| (State.allPins_foldl (fun s u => ?_) _).trans <|
    (State.allPins_onSite fun _ => ?_).trans <| State.allPins_onNet.trans <| State.allPins_dropFrames.trans <|
    State.allPins_bump.trans State.allPins_abandonMoves
  · rfl
  · split
    · exact State.allPins_leaveGroup
    · rfl
  · rfl

@[simp] theorem State.allPins_destroySlot {i n : Nat} : (s.destroySlot i n).allPins = s.allPins :=
  State.allPins_onSite fun _ => rfl

@[simp] theorem State.allPins_zeroPages {v : Nat} : (s.zeroPages v).allPins = s.allPins :=
  State.allPins_mapSites fun _ => Site.onTier_pins.trans Site.onTier_pins

@[simp] theorem State.allPins_clearUnits {v : Nat} : (s.clearUnits v).allPins = s.allPins := by
  unfold State.clearUnits
  refine (State.allPins_mapSites ?_).trans (State.allPins_foldl (fun s u => ?_) _)
  · exact fun _ => rfl
  · split
    · dsimp only
      split
      · exact State.allPins_zeroUnit
      · exact State.allPins_onUnit
    · rfl

/-! Debug unlock (R465, R467) -/

/-- The virtual devices whose tenants an unlock ends. -/
def State.liveVds (s : State) : List Nat := (List.range 256).filter fun v => (s.vd v).live

/-- The slots, pages and units of a slice go, and a migration of it ends. -/
def State.eraseSlice (s : State) (v : Nat) : State :=
  let hs := s.holders v
  let s := hs.foldl (fun s i => s.drainSlot i v) s
  let s := hs.foldl (fun s i => s.destroySlot i (s.vd v).slot) s
  ((s.zeroPages v).clearUnits v).onVd v fun d => { d with mig := none }

/-- Every slice is killed, every TDI is in error, and the slices' holdings go. -/
def State.eraseSlices (s : State) : State :=
  let t := s.liveVds.foldl (fun s v => s.killSlice v) s
  let t := s.liveVds.foldl (fun s v => s.tdiError v) t
  s.liveVds.foldl (fun s v => s.eraseSlice v) t

/-- A powered site is scrubbed and its JTAG port opened. -/
def Site.openUp (t : Site) : Site :=
  let x := if t.pins.coldRstN then t.scrub else t
  { x with pins := { x.pins with jtagOpen := x.pins.jtagOpen || x.pins.coldRstN } }

theorem State.unlock_eq : s.unlock = State.onPart { s.eraseSlices with sites := s.eraseSlices.sites.map Site.openUp }
    fun p => { p with debug := true, sessions := [] } := rfl


@[simp] theorem State.allPins_eraseSlice {v : Nat} : (s.eraseSlice v).allPins = s.allPins := by
  simp [State.eraseSlice]

theorem State.allPins_eraseSlices : s.eraseSlices.allPins = s.allPins := by
  simp [State.eraseSlices]

theorem Site.openUp_jtagOpen {t : Site} (hpower : t.pins.coldRstN = true) : t.openUp.pins.jtagOpen = true := by
  simp only [Site.openUp, if_pos hpower]
  simp [Site.scrub, hpower]

theorem State.site_unlock {k : Nat} (hk : k < s.sites.length) : s.unlock.site k = (s.eraseSlices.site k).openUp := by
  have hlen : k < s.eraseSlices.sites.length := by rwa [State.sites_length_of_allPins State.allPins_eraseSlices]
  rw [State.unlock_eq, State.onPart_site]
  simp [State.site, hlen]

/-- An unlock opens the port of every powered site (log entry 75). -/
theorem State.unlock_jtagOpen {k : Nat} (hk : k < s.sites.length) (hpower : (s.site k).pins.coldRstN = true) :
    (s.unlock.site k).pins.jtagOpen = true := by
  rw [State.site_unlock hk]
  refine Site.openUp_jtagOpen ?_
  rwa [State.pins_site_of_allPins State.allPins_eraseSlices]

theorem State.site_onPins_coldRstN {i k : Nat} {f : Pins → Pins} (hf : ∀ p : Pins, (f p).coldRstN = p.coldRstN) :
    ((s.onPins i f).site k).pins.coldRstN = (s.site k).pins.coldRstN := by
  rw [State.onPins]
  rcases s.site_onSite_cases i k fun t => { t with pins := f t.pins } with h | ⟨-, h⟩
  · rw [h]
  · rw [h]
    exact hf _

/-- The nonce is no supply (R467). -/
theorem State.useUpNonce_coldRstN {i k : Nat} :
    ((s.useUpNonce i).site k).pins.coldRstN = (s.site k).pins.coldRstN :=
  State.site_onPins_coldRstN fun _ => rfl

theorem State.useUpNonce_sites_length {i : Nat} : (s.useUpNonce i).sites.length = s.sites.length :=
  List.length_modify ..

end

/-! The instructions of the port -/

theorem execJtagInstruction_of_accepted {s : State} {i : Nat} {x : JtagInstr}
    (hx : jtagAlways x = true ∨ (s.site i).pins.jtagOpen = true) :
    execJtagInstruction i x s = .next (s.onPins i fun p => { p with tapInstr := x, tapReset := false }) :=
  congrArg Host.Outcome.next (if_pos ((Bool.or_eq_true ..).mpr hx))

theorem execJtagInstruction_of_refused {s : State} {i : Nat} {x : JtagInstr} (hx : jtagAlways x = false)
    (hclosed : (s.site i).pins.jtagOpen = false) : execJtagInstruction i x s = .next s :=
  congrArg Host.Outcome.next (if_neg (by simp [hx, hclosed]))

theorem jtagAlways_eq_true : ∀ x ∈ [JtagInstr.bypass, .idcode, .samplePreload], jtagAlways x = true := by decide

theorem jtagAlways_eq_false : ∀ x ∈ [JtagInstr.extest, .other1149, .wrapper1500], jtagAlways x = false := by decide

/-- Settles O59: an instruction is accepted in every state or once the port is open, and an unlock leaves the supplies
alone until it opens the port of every powered site. That a refused instruction leaves the block as it was, and that
one unlock opens every powered site, are log entry 75. -/
theorem jtagGate : Obligations.JtagGate := by
  refine ⟨fun s i => ⟨fun x hx => ?always, fun x hx => ⟨fun hclosed => ?refused, fun hopen => ?opened⟩⟩,
    fun s t i k hinv hk hm hpower hrun => ?unlock⟩
  case always =>
    exact exec_jtagInstruction.trans (execJtagInstruction_of_accepted (.inl (jtagAlways_eq_true x hx)))
  case refused =>
    exact exec_jtagInstruction.trans (execJtagInstruction_of_refused (jtagAlways_eq_false x hx) hclosed)
  case opened => exact exec_jtagInstruction.trans (execJtagInstruction_of_accepted (.inr hopen))
  case unlock =>
    obtain ⟨hsites, -, -⟩ := hinv
    have ht : (s.useUpNonce i).unlock = t :=
      Host.Outcome.next.inj ((exec_debugUnlock.trans (execDebugUnlock_of_managed hm)).symm.trans hrun)
    rw [← ht]
    refine State.unlock_jtagOpen ?_ ?_
    · rw [State.useUpNonce_sites_length, hsites]
      exact hk
    · rw [State.useUpNonce_coldRstN]
      exact hpower

end Sys2Proof.Machine
